-- ==== Sys2Proof/Word.lean ====
section
/-!
DEFINITION. The plain word types of the LX9 and the little-endian byte arithmetic every chapter uses
(00 Notation: multi-byte fields are little-endian, bit 0 is least significant), and the data-set types that
commands carry.
-/

namespace Sys2Proof

/-- A byte of memory, of a packet or of a ring entry. -/
abbrev Byte := BitVec 8

/-- The bits `[lo + w - 1 : lo]` of a natural number. -/
def bitsOf (v lo w : Nat) : Nat := (v >>> lo) % 2 ^ w

/-- Bit `i` of a natural number. -/
def bitOf (v i : Nat) : Bool := Nat.testBit v i

/-- A one-bit field. -/
def b2n (b : Bool) : Nat := if b then 1 else 0

/-- Little-endian value of a list of bytes. -/
def leNat : List Byte → Nat
  | [] => 0
  | b :: t => b.toNat + 256 * leNat t

/-- The `n` little-endian bytes of a value. -/
def leBytes : Nat → Nat → List Byte
  | 0, _ => []
  | n + 1, v => BitVec.ofNat 8 v :: leBytes n (v / 256)

/-- `v` read as a two's-complement value of `w` bits. -/
def toSigned (w v : Nat) : Int :=
  let u := v % 2 ^ w
  if u < 2 ^ (w - 1) then (u : Int) else (u : Int) - (2 ^ w : Nat)

/-- The `w`-bit two's-complement code of an integer (modulo `2 ^ w`). -/
def ofSigned (w : Nat) (x : Int) : Nat := (x % ((2 ^ w : Nat) : Int)).toNat

/-- Floor division toward minus infinity (R3). -/
def fdiv (a b : Int) : Int := Int.fdiv a b

/-- The larger multiple: `ceil(a / b)`. -/
def cdiv (a b : Nat) : Nat := (a + b - 1) / b

/-- The data set of a PTP Announce message that the default BMCA compares (R99). -/
structure AnnounceData where
  prio1 : Nat
  clockClass : Nat
  accuracy : Nat
  variance : Nat
  prio2 : Nat
  grandmaster : Nat
  stepsRemoved : Nat
  logInterval : Int
  deriving DecidableEq, Repr, Inhabited

/-- What the header of a PTP message says, and how it travels (R99): in UDP (Annex D) or straight in Ethernet (Annex F); its
domainNumber and sdoId; the identity of its sender's port. -/
structure PtpHeader where
  udp : Bool
  domain : Nat
  majorSdo : Nat
  minorSdo : Nat
  sender : Nat
  deriving DecidableEq, Repr, Inhabited

/-- A frame on a time port (R99, R101): a Sync, with its number and whether a Follow_Up follows; a Follow_Up with its number; a
Delay_Req; any other PTP message. -/
inductive PortFrame where
  | notPtp
  | sync (hdr : PtpHeader) (twoStep : Bool) (seq : Nat)
  | followUp (hdr : PtpHeader) (seq : Nat)
  | delayReq (hdr : PtpHeader)
  | other (hdr : PtpHeader)
  deriving DecidableEq, Repr

/-- The transport of a PTP frame is UDP. -/
def PortFrame.udp : PortFrame → Bool
  | .notPtp => false
  | .sync h _ _ => h.udp
  | .followUp h _ => h.udp
  | .delayReq h => h.udp
  | .other h => h.udp

/-- The memory BARs (R31): BAR0, BAR2 and BAR4. -/
inductive Bar where
  | registers | doorbells | component
  deriving DecidableEq, Repr

/-- The protocols of the DOE mailbox (R49). -/
inductive DoeProtocol where
  | discovery | tableAccess | ideKm | attestation
  deriving DecidableEq, Repr

/-- The masters of the bus matrix (R350). -/
inductive Master where
  | bootEngine | core (k : Fin 4) | hostBridge | debug | moverDma
  deriving DecidableEq, Repr

/-- A burst of the bus matrix (R351): its master, the control address of its first beat, how many 64-bit beats, and what it writes, or
none for a read. -/
structure Burst where
  master : Master
  addr : Nat
  beats : Nat
  data : Option (List (BitVec 64))
  deriving DecidableEq, Repr

/-- A burst of the matrix (R351): 1 to 16 beats of 64 bits, within one aligned 128-byte span; a write brings its data. -/
def Burst.ok (b : Burst) : Bool :=
  decide (1 ≤ b.beats) && decide (b.beats ≤ 16) && decide (b.addr % 8 = 0) && decide (b.addr % 128 + 8 * b.beats ≤ 128) &&
    b.data.all (fun l => decide (l.length = b.beats))

/-- The test operations that hold or release a block (R413, R316). -/
inductive JtagOp where
  | bypass | idcode | samplePreload | extest | extestPulse | extestTrain | highz | clamp
  | selfTest | release
  deriving DecidableEq, Repr

end Sys2Proof
end

