-- ==== Sys2Proof/Syntax.lean ====
section
/-!
DEFINITION. The commands of the LX9: one constructor per row of the opcode table, in the table's families.
An operand is what the outside brings with the command: an address, bytes a host read returned, a lane's word,
a measured value. What follows from the state alone is no operand.

`ring` is the command ring whose executing descriptor the command carries out (R42). Host memory is outside, so bytes
read from it come as operands; a list shorter than the command asks for is a read that failed (log 5).
`ctxBad` says that a ring context fetched from the store is found uncorrectable (R40, log 9).
`errs` gives, per code word of a line, the number of bits in error a store access meets (R165, log 9).
`port` of the lane rows counts ingest ports 0 to 23, then fabric ports as 24 to 31 (R276).
-/

namespace Sys2Proof

inductive Instr where
  -- resets and the link
  | porstN (bootSel : Fin 4) (i2cAddr : Fin 4)
  | wrstN (lowSamples : Nat)
  | cxlConventionalReset
  | cxlHotReset
  | functionLevelReset
  | surpriseRemoval
  | viral
  -- registers, doorbells, rings
  | registerWrite (bar : Bar) (off size val same : Nat)
  | registerReadClear (bar : Bar) (off size same : Nat)
  | hostEnable
  | hostDisable
  | doorbell (off size val : Nat) (ctxBad : Bool)
  | commandFetch (ring : Fin 262144) (desc : BitVec 512) (ctxBad : Bool)
  | nop (ring : Fin 262144)
  | ringCreate (ring : Fin 262144)
  | ringDestroy (ring : Fin 262144)
  | ringResize (ring : Fin 262144)
  | ringQuery (ring : Fin 262144)
  | resizeApply (ring : Fin 262144)
  | msixModTimer (ring : Fin 262144)
  | msixHoldoffExpiry (vector : Fin 2048)
  | hdmRead (addr : Nat) (errs : List Nat)
  | hdmWrite (addr : Nat) (data : BitVec 512) (bytes : BitVec 64) (errs : List Nat)
  | hostSnoop (line : Nat)
  | doeObject (protocol : Option DoeProtocol) (body : List Byte)
  | doeAbort
  | doeDiscovery
  | cdatRead
  | ideKm
  | getId
  | getReport
  | session
  | debugUnlock
  | endSession
  -- scripts
  | scriptLoad (ring : Fin 262144) (data : List Byte)
  | scriptCommit (ring : Fin 262144) (sig : List Byte) (uncorrectable : Bool)
  | scriptCancel (ring : Fin 262144)
  | scriptRead (ring : Fin 262144)
  | lockPoint
  | imageRelease (index : Fin 6)
  | rollCallGo (code : BitVec 8)
  | rollCallQuery (code : BitVec 8)
  | rollCallDone (h l : BitVec 64)
  -- house clock
  | measurementTick (y : List (Option Int)) (phasePs : Int)
  | entryDisqualified (entry : Fin 8) (phasePs : Int)
  | wtrExpiry (entry : Fin 8)
  | xoHistoryValid
  | refAbsent (input : Fin 2) (phasePs : Int)
  | refPresent (input : Fin 2)
  | lockAcquired (maxPs : Nat)
  | holdoverToLost
  | ppsEdge (input : Fin 2)
  | ppsMissing (input : Fin 2)
  | softwareLoopOpen
  | softwareLoopClose (phasePs : Int)
  | fowWrite (fow : BitVec 40)
  | swdogExpiry
  | serdesRefUnlock
  -- time
  | epochStart
  | epochClr
  | stepArm
  | dwellStart
  | dwellClose
  | epsRecord
  | sync (port : Fin 2) (hdr : PtpHeader) (t1 corr : Int) (twoStep : Bool) (seq : Nat)
  | followUp (port : Fin 2) (hdr : PtpHeader) (t1 corr : Int) (seq : Nat)
  | delayResp (port : Fin 2) (hdr : PtpHeader) (t4 corr : Int)
  | announce (port : Fin 2) (hdr : PtpHeader) (data : AnnounceData)
  | delayReq (dom : Fin 2)
  | announceTimeout (dom : Fin 2)
  | domainWtrExpiry (dom : Fin 2)
  | domainRevert
  | slewComplete
  | compareArm (unit : Fin 8)
  | compareFire (unit : Fin 8)
  | snapshotRead
  | sequenceAssign (bad : List (Fin 262144))
  -- ingest lanes and packets
  | codeword (port : Fin 32) (lane : Fin 4) (corrected : Option Nat) (msg : BitVec 5140)
  | commaWord (port : Fin 32) (lane : Fin 4) (word : BitVec 64)
  | commaLoss (port : Fin 32) (lane : Fin 4)
  | laneRestore (port : Fin 32) (lane : Fin 4)
  | dropReqIgnored (port : Fin 32)
  | blockLockGain (port : Fin 24) (lane : Fin 4)
  | blockLockLoss (port : Fin 24) (lane : Fin 4)
  | pswSend (port : Fin 24)
  | ingestPacket (port : Fin 24) (fecBad : Bool) (header : BitVec 256) (payload : List Byte)
  | gk4Packet (port : Fin 24) (bytes : List Byte)
  | blankRelease
  | nullVectors (cluster : Fin 128)
  -- pit instructions: the word issued is the one at the cluster's PC
  | cueInterrupt (cluster : Fin 128) (input : Fin 8)
  | pitNop (cluster : Fin 128)
  | mul (cluster : Fin 128)
  | mac (cluster : Fin 128)
  | tapm (cluster : Fin 128)
  | mpxa (cluster : Fin 128)
  | ald (cluster : Fin 128)
  | aclr (cluster : Fin 128)
  | ext (cluster : Fin 128)
  | qpk (cluster : Fin 128)
  | cis (cluster : Fin 128)
  | mag (cluster : Fin 128)
  | add (cluster : Fin 128)
  | sub (cluster : Fin 128)
  | pitAnd (cluster : Fin 128)
  | pitOr (cluster : Fin 128)
  | pitXor (cluster : Fin 128)
  | pitMin (cluster : Fin 128)
  | pitMax (cluster : Fin 128)
  | sel (cluster : Fin 128)
  | cnt (cluster : Fin 128)
  | cmp (cluster : Fin 128)
  | pack (cluster : Fin 128)
  | addi (cluster : Fin 128)
  | andi (cluster : Fin 128)
  | shli (cluster : Fin 128)
  | shrai (cluster : Fin 128)
  | mvi (cluster : Fin 128)
  | cmpi (cluster : Fin 128)
  | setp (cluster : Fin 128)
  | setk (cluster : Fin 128)
  | setn (cluster : Fin 128)
  | setbw (cluster : Fin 128)
  | fclr (cluster : Fin 128)
  | pitIn (cluster : Fin 128)
  | ina (cluster : Fin 128)
  | pitOut (cluster : Fin 128)
  | mvt (cluster : Fin 128)
  | vclr (cluster : Fin 128)
  | br (cluster : Fin 128)
  | loop (cluster : Fin 128)
  | rti (cluster : Fin 128)
  | illegalOp (cluster : Fin 128)
  | pitLocalWrite (ring : Fin 262144) (data : List Byte)
  | pitLocalRead (ring : Fin 262144)
  | pitCoefWrite (ring : Fin 262144) (data : List Byte)
  -- store
  | storeRead (port : Fin 10) (addr : Nat) (errs : List Nat) (wait : Nat)
  | storeWrite (port : Fin 10) (addr : Nat) (data : BitVec 512) (bytes : BitVec 64) (errs : List Nat) (wait : Nat)
  | atomicAdd (port : Fin 10) (addr : Nat) (fmt : Fin 3) (mask : BitVec 16) (data : BitVec 512) (errs : List Nat)
  | patrolScrub (pc : Fin 256) (errs : List Nat)
  | refreshDue (pc : Fin 256) (bank : Fin 48) (queued : Bool)
  | storeTrainingDone (failed : List (Fin 256))
  | retrainStart (pc : Fin 256)
  | retrainComplete (pc : Fin 256) (readPs writePs vref : Nat) (newOk lastGoodOk : Bool)
  | fenceRelocationDone (pc : Fin 256)
  | selfRefreshReentry (pc : Fin 256)
  | ceWindowEnd (pc : Fin 256)
  -- movers
  | streamBurst (mover : Fin 32) (withdrawn : Bool) (failures : Nat)
  | flushMarkerPass (line : Fin 528)
  | replayReadTimeout (page : Nat)
  | descNop (mover : Fin 64)
  | copy (mover : Fin 64) (data : List Byte) (failures withdrawn : List Nat)
  | fill (mover : Fin 64) (failures withdrawn : List Nat)
  | ilv (mover : Fin 64) (data : List Byte) (failures withdrawn : List Nat)
  | tri (mover : Fin 64) (data : List Byte) (failures withdrawn : List Nat)
  | fence (mover : Fin 64)
  | descriptorComplete (mover : Fin 64) (next : BitVec 512)
  | paceTimeout (mover : Fin 64)
  | movRun (ring : Fin 262144) (desc : BitVec 512)
  | movStop (ring : Fin 262144)
  -- dwell sequencer, stage, beams
  | replayStart
  | corrPassStart (part : Fin 16)
  | corrPassEnd (part : Fin 16)
  | gap (part : Fin 16)
  | drainComplete (part : Fin 16)
  | dwellDrained
  | beamPassStart (part : Fin 16)
  | beamPassComplete (part : Fin 16)
  | weightLoadStart
  | weightLoadComplete
  | weightLoadEscalate
  | recordReleaseTimeout (record : Fin 65536)
  | recordRelease (record : Fin 65536)
  -- products
  | integrationTimeout (bank : Fin 2)
  | sweepComplete (bank : Fin 2)
  | beamHoldTimeout (record : Fin 65536)
  | bufAnnounce (stream : Fin 512)
  | prdQuery (ring : Fin 262144)
  | prdFree (ring : Fin 262144)
  -- fabric
  | fabricInput (port : Fin 8) (fecBad : Bool) (header : BitVec 256) (payload : List Byte)
  | fabricAdd (port : Fin 8) (fecBad : Bool) (header : BitVec 256) (payload : List Byte)
  | endMark (port : Fin 8) (fecBad : Bool) (header : BitVec 256)
  | fabricWrite (port : Fin 8) (fecBad : Bool) (header : BitVec 256) (payload : List Byte)
  | writeAck (port : Fin 8) (fecBad : Bool) (header : BitVec 256)
  | beacon (port : Fin 8) (fecBad : Bool) (header : BitVec 256) (payload : BitVec 256)
  | creditUnit (port : Fin 8) (fecBad : Bool) (header : BitVec 256)
  | fabricTransmit (port : Fin 8)
  | creditSend (port : Fin 8)
  | beaconSend (port : Fin 8)
  | writeAckTimeout (mover : Fin 64) (seq : BitVec 8)
  | claimForget (chip : Fin 2048)
  -- cue matrix
  | cueInEdge (pin : Fin 8) (level : Bool) (nearEdge : Bool)
  | channelEdge (channel : Fin 64)
  | filterMinwPass (filter : Fin 40)
  | filterRateRelease (filter : Fin 40)
  | filterStuck (filter : Fin 40)
  | cueFirePulse (channel : Fin 64)
  | cueFireSet (channel : Fin 64)
  | cueFireClear (channel : Fin 64)
  | channelReenable (channel : Fin 64)
  | filterReenable (filter : Fin 40)
  -- faults and the iron
  | railFault (source : Fin 1024) (code : Fin 4)
  | reactionStart
  | fltAck (source : Fin 1024)
  | ackTimeout (source : Fin 1024)
  | ironMoverCut (mover : Fin 64)
  | curtainFrame (port : Fin 8)
  | ironReq
  | ironExit (selfTestOk : Bool)
  | serviceEntry (rails : List (Fin 1024 × Fin 4))
  | fflRearm
  | paritySweep (error : Bool)
  -- duet and spares
  | heartbeatSend
  | heartbeat (fecBad : Bool) (header payload : BitVec 256)
  | partnerLost
  | swapPropose
  | joinTimeout
  | digestSend (dwell : Int)
  | digest (fecBad : Bool) (header payload : BitVec 256)
  | digestSkip (dwell : Int)
  | engineFault (row col : Fin 33)
  | clusterFault (phys : Fin 132)
  | laneGraceExpiry (port : Fin 32)
  | duoSwap (ring : Fin 262144)
  | duoWithdraw (ring : Fin 262144)
  | duoRejoin (ring : Fin 262144)
  | spareRetire (ring : Fin 262144)
  | journalWriteDone (copies : Fin 3)
  -- control plane
  | masterReset (master : Master) (bursts : List Burst) (cycles : Nat)
  | matrixTimeout (master : Master) (bursts : List Burst) (cycles : Nat)
  | remapWrite (master : Master) (remap : Bool)
  | coreHeartbeat (core : Fin 4)
  | coreWatchdogExpiry (core : Fin 4)
  | fwAbsent
  | bootImageFetched (source : Fin 2) (image : List Byte)
  | pushChunk
  | pushChunkDone
  | fwUpdate (ring : Fin 262144) (image : List Byte)
  | coreReady (core : Fin 4)
  | updateCoreTimeout (core : Fin 4)
  | keyRevoke (ring : Fin 262144) (image : List Byte)
  | rollbackAnchor (ring : Fin 262144)
  | ownerSet (ring : Fin 262144) (image : List Byte)
  | nonceRead (ring : Fin 262144)
  -- power
  | avsUpdate
  | avsApplied (code : BitVec 8)
  | avsTimeout
  | wake
  | darkRequest
  | railFaultReport (rail : Fin 9)
  | thermalSample (die hbm : List Int)
  | pwrSet (ring : Fin 262144)
  | holdReached
  | intermissionReached
  | darkReached
  | holdNow
  | clkMin
  | pitBlockReset
  | movBlockReset
  | stgBlockReset
  | cueBlockReset
  | hstBlockReset
  | blockResetDone (block : Fin 5)
  | timePortFrame (port : Fin 2) (frame : PortFrame)
  | syncTimeout (dom : Fin 2)
  | serdesRefLock
  | jtagInstruction (op : JtagOp)
  | cxlLinkTrained (width : Nat) (rate : Fin 4) (flit256 : Bool)
  deriving DecidableEq, Repr

end Sys2Proof
end

