-- ==== Sys2Proof/Decode.lean ====
section
/-!
DEFINITION. No row of the opcode table gives bits: a command reaches the block as an event of its registers, its links or
its pins, never as a word. So no word spells a command (log 13).
-/

namespace Sys2Proof

/-- The command that a word spells by the table's bits: none, since no row gives bits. -/
def decodeTableWord (_nbits _w : Nat) : Option Instr := none

end Sys2Proof
end

