-- ==== Sys2Proof/Machine/Fields.lean ====
section
/-!
DEFINITION. The script fields (R63): ID, element width, number of elements, takes-effect code and boot-image value, from
the script-field tables of R19, R38, R64, R90, R91, R129, R157, R181, R203, R230, R251, R274, R292, R307, R325, R347
and R394.
-/

namespace Sys2Proof.Machine

/-- Takes-effect codes of R9. -/
inductive Effect where
  | dwell | integ | idle
  deriving DecidableEq, Repr

/-- A script field: its width is `ew * n` bits. `boot` is its value in the boot image. -/
structure SField where
  id : Nat
  ew : Nat
  n : Nat
  eff : Effect
  boot : Nat
  deriving DecidableEq, Repr

/-- `n` elements of `w` bits, each `v`. -/
def rep (w v : Nat) : Nat → Nat
  | 0 => 0
  | n + 1 => v + 2 ^ w * rep w v n

/-- Elements of `w` bits, the first lowest. -/
def elems (w : Nat) : List Nat → Nat
  | [] => 0
  | v :: r => v + 2 ^ w * elems w r

/-- Total width in bits. -/
def SField.width (f : SField) : Nat := f.ew * f.n

/-- Length in bytes of the field in a record (R50). -/
def SField.len (f : SField) : Nat := (f.width + 7) / 8

/-- Local fields (R61). -/
def SField.isLocal (f : SField) : Bool := decide (0xE0 ≤ f.id % 256) && decide (f.id % 256 ≤ 0xEF)

namespace Scr

def SCP_LABEL : SField := ⟨0x0001, 64, 1, .dwell, 0⟩
def SCP_BEACON_CHECK : SField := ⟨0x0002, 1, 1, .dwell, 0⟩
def SCP_LABEL_LOCAL : SField := ⟨0x00E0, 64, 1, .dwell, 0⟩
def HCK_FLAG_MASK : SField := ⟨0x0100, 5, 1, .dwell, 27⟩
def TIM_SIX0 : SField := ⟨0x0200, 64, 1, .dwell, 0⟩
def TIM_TAI0 : SField := ⟨0x0201, 96, 1, .dwell, 0⟩
def TIM_DT_NUM : SField := ⟨0x0202, 32, 1, .dwell, 2560⟩
def TIM_DT_DEN : SField := ⟨0x0203, 16, 1, .dwell, 1⟩
def TIM_DWELL : SField := ⟨0x0204, 25, 1, .dwell, 65536⟩
def TIM_EPS_REC : SField := ⟨0x0205, 12, 1, .dwell, 0⟩
def TIM_EPS_WARN : SField := ⟨0x0206, 32, 1, .dwell, 1000⟩
def ING_PORT_WIN : SField := ⟨0x0300, 32, 24, .dwell, 0⟩
def ING_PORT_FMT : SField := ⟨0x0301, 2, 24, .dwell, 0⟩
def ING_PORT_SUB : SField := ⟨0x0302, 64, 24, .dwell, 0⟩
def ING_GK4_SUB : SField := ⟨0x0303, 6, 24, .dwell, 0⟩
def ING_FEC_LOSS : SField := ⟨0x0304, 8, 1, .dwell, 8⟩
def ING_RESTORE : SField := ⟨0x0305, 16, 1, .dwell, 1000⟩
def ING_BLANK_SUB : SField := ⟨0x0306, 64, 8, .dwell, 0⟩
def ING_BLANK_LEAD : SField := ⟨0x0307, 16, 1, .dwell, 0⟩
def ING_BLANK_TRAIL : SField := ⟨0x0308, 16, 1, .dwell, 0⟩
def ING_LATE_WINDOW : SField := ⟨0x03F0, 16, 1, .dwell, 1024⟩
def ING_EARLY_WINDOW : SField := ⟨0x03F1, 16, 1, .dwell, 4096⟩
def PIT_CLU_PROG : SField := ⟨0x0400, 16, 128, .dwell, rep 16 0x000F 128⟩
def PIT_PROG_TABLE : SField := ⟨0x0401, 64, 8, .dwell, 0⟩
def PIT_IN_ROUTE : SField := ⟨0x0402, 64, 1024, .dwell, 0⟩
def PIT_BEAM_ROUTE : SField := ⟨0x0403, 64, 128, .dwell, 0⟩
def PIT_LAYOUT : SField := ⟨0x0404, 16, 128, .dwell, 0⟩
def PIT_OUT_ROUTE : SField := ⟨0x0405, 4, 512, .dwell, 0⟩
def PIT_CUE_MAP : SField := ⟨0x0406, 128, 8, .dwell, 0⟩
def STO_REGIONS : SField := ⟨0x0500, 64, 64, .dwell, 0⟩
def STO_FENCE_RESERVE : SField := ⟨0x0501, 4, 1, .dwell, 2⟩
def STO_PORT_CLASS : SField := ⟨0x0502, 4, 10, .dwell, elems 4 [0, 0, 1, 2, 2, 3, 4, 5, 5, 6]⟩
def STO_AGE_LIM : SField := ⟨0x0503, 16, 7, .dwell, elems 16 [125, 250, 500, 500, 1000, 2000, 62500]⟩
def STO_LAT_TGT : SField := ⟨0x0504, 16, 10, .dwell, elems 16 [64, 64, 32, 256, 256, 64, 32, 256, 128, 65535]⟩
def STO_SCRUB_HOURS : SField := ⟨0x0505, 8, 1, .dwell, 24⟩
def STO_CE_RETRAIN : SField := ⟨0x0506, 16, 1, .dwell, 1000⟩
def STO_RETRAIN_DT : SField := ⟨0x0507, 5, 1, .dwell, 10⟩
def STO_RETRAIN_PERIOD : SField := ⟨0x0508, 16, 1, .dwell, 0⟩
def STO_SR_IDLE : SField := ⟨0x0509, 16, 1, .dwell, 100⟩
def STO_DRING_HALVES : SField := ⟨0x05F0, 4, 1, .idle, 3⟩
def MOV_DRING_FMT : SField := ⟨0x0600, 1, 1, .dwell, 0⟩
def MOV_BIND : SField := ⟨0x0601, 8, 528, .dwell, 0⟩
def MOV_STREAM_WIN : SField := ⟨0x0602, 64, 512, .dwell, 0⟩
def MOV_OWNER : SField := ⟨0x0603, 8, 28, .dwell, 0⟩
def MOV_RETRY : SField := ⟨0x0604, 3, 64, .dwell, rep 3 3 64⟩
def MOV_PACE_TO : SField := ⟨0x0605, 64, 28, .dwell, 0⟩
def STG_PART_MODE : SField := ⟨0x0700, 2, 1, .dwell, 0⟩
def STG_INPUTS : SField := ⟨0x0701, 14, 1, .dwell, 1024⟩
def STG_CHANNELS : SField := ⟨0x0702, 13, 1, .dwell, 1⟩
def STG_ACC_FMT : SField := ⟨0x0703, 2, 16, .dwell, rep 2 1 16⟩
def STG_POISON_EVT : SField := ⟨0x0704, 8, 1, .dwell, 16⟩
def STG_PLAN_ADDR : SField := ⟨0x07F0, 64, 1, .dwell, 0⟩
def STG_PLAN_COUNT : SField := ⟨0x07F1, 17, 1, .dwell, 1⟩
def STG_PLAN_LIMIT : SField := ⟨0x07F2, 7, 1, .dwell, 95⟩
def BEM_GROUPS : SField := ⟨0x0800, 9, 1, .dwell, 4⟩
def BEM_WEIGHTS : SField := ⟨0x0801, 64, 1, .dwell, 0⟩
def BEM_OUT : SField := ⟨0x0802, 64, 256, .dwell, rep 64 0x000F 256⟩
def BEM_STAGE : SField := ⟨0x0803, 18, 1, .dwell, 0⟩
def BEM_MIN_VALID : SField := ⟨0x0804, 14, 1, .dwell, 0⟩
def BEM_REL_TO : SField := ⟨0x0805, 16, 1, .dwell, 1000⟩
def PRD_INTEG : SField := ⟨0x0900, 16, 1, .integ, 1⟩
def PRD_VIS : SField := ⟨0x0901, 64, 1, .integ, 0⟩
def PRD_CHAN_BASE : SField := ⟨0x0902, 24, 1, .integ, 0⟩
def PRD_CLOSE_TO : SField := ⟨0x0903, 16, 1, .dwell, 1000⟩
def PRD_CONV : SField := ⟨0x0904, 2, 1, .dwell, 0⟩
def PRD_POOL : SField := ⟨0x0905, 23, 1, .dwell, 0⟩
def PRD_BEAM_HOLD : SField := ⟨0x0906, 16, 1, .dwell, 1000⟩
def PRD_BUF_ANN : SField := ⟨0x0907, 512, 1, .dwell, 0⟩
def FAB_DUET : SField := ⟨0x0A00, 22, 64, .dwell, 0⟩
def FAB_EGQ : SField := ⟨0x0A01, 25, 1, .idle, 0⟩
def FAB_ACK_TO : SField := ⟨0x0A02, 16, 1, .dwell, 100⟩
def FAB_CHIP_ID : SField := ⟨0x0AE0, 11, 1, .dwell, 0⟩
def FAB_ROUTE : SField := ⟨0x0AE1, 4, 2048, .dwell, rep 4 0xF 2048⟩
def FAB_STREAM : SField := ⟨0x0AE2, 64, 512, .dwell, 0⟩
def FAB_PAIR_PORT : SField := ⟨0x0AE3, 4, 1, .dwell, 15⟩
def FAB_IN_WIN : SField := ⟨0x0AE4, 16, 8, .dwell, 0⟩
def HST_PAGE_OWNER : SField := ⟨0x0B00, 8, 256, .dwell, 0⟩
def HST_CTX_PINNED : SField := ⟨0x0B01, 12, 1, .idle, 0⟩
def HST_MSIX_HOLDOFF : SField := ⟨0x0B02, 16, 1, .dwell, 0⟩
def CUE_SRC : SField := ⟨0x0C00, 128, 64, .dwell, elems 128 ((List.range 8).map (fun k => 2 ^ (8 + k)))⟩
def CUE_DST : SField := ⟨0x0C01, 80, 64, .dwell, elems 80 ((List.range 8).map (fun k => 2 ^ k))⟩
def CUE_CELL : SField := ⟨0x0C02, 64, 32, .dwell, 0⟩
def CUE_FILT : SField := ⟨0x0C03, 64, 40, .dwell, 0⟩
def CUE_UNCLK : SField := ⟨0x0C04, 1, 64, .dwell, 0⟩
def CUE_OUT_POL : SField := ⟨0x0C05, 8, 1, .dwell, 0⟩
def FLT_PROMOTE : SField := ⟨0x0D00, 3, 1024, .dwell, 0⟩
def FLT_ACK_TO : SField := ⟨0x0D01, 16, 1, .dwell, 10⟩
def FLT_CURTAIN : SField := ⟨0x0D02, 10, 1, .dwell, 10⟩
def DUO_EN : SField := ⟨0x0E00, 1, 1, .dwell, 0⟩
def DUO_HB_PERIOD : SField := ⟨0x0E01, 16, 1, .dwell, 100⟩
def DUO_HB_TO : SField := ⟨0x0E02, 16, 1, .dwell, 10⟩
def DUO_SWAP_PERIOD : SField := ⟨0x0E03, 17, 1, .dwell, 3600⟩
def DUO_SWAP_LEAD : SField := ⟨0x0E04, 16, 1, .dwell, 100⟩
def DUO_PLAN_WIDTH : SField := ⟨0x0E05, 11, 1, .dwell, 0⟩
def DUO_LANE_GRACE : SField := ⟨0x0E06, 16, 1, .dwell, 60⟩
def DUO_EPOCH_FLOOR : SField := ⟨0x0EE0, 16, 1, .dwell, 1⟩
def PWR_THROTTLE : SField := ⟨0x0F00, 7, 1, .dwell, 100⟩
def PWR_HYST : SField := ⟨0x0F01, 4, 1, .dwell, 3⟩
def PWR_CLK_FLOOR : SField := ⟨0x0F02, 3, 1, .dwell, 4⟩
def PWR_RESUME : SField := ⟨0x0F03, 7, 1, .dwell, 95⟩

def table1 : List SField :=
  [SCP_LABEL, SCP_BEACON_CHECK, SCP_LABEL_LOCAL, HCK_FLAG_MASK, TIM_SIX0, TIM_TAI0, TIM_DT_NUM, TIM_DT_DEN, TIM_DWELL, TIM_EPS_REC, TIM_EPS_WARN, ING_PORT_WIN, ING_PORT_FMT, ING_PORT_SUB, ING_GK4_SUB, ING_FEC_LOSS, ING_RESTORE, ING_BLANK_SUB, ING_BLANK_LEAD, ING_BLANK_TRAIL, ING_LATE_WINDOW, ING_EARLY_WINDOW, PIT_CLU_PROG, PIT_PROG_TABLE, PIT_IN_ROUTE, PIT_BEAM_ROUTE]

def table2 : List SField :=
  [PIT_LAYOUT, PIT_OUT_ROUTE, PIT_CUE_MAP, STO_REGIONS, STO_FENCE_RESERVE, STO_PORT_CLASS, STO_AGE_LIM, STO_LAT_TGT, STO_SCRUB_HOURS, STO_CE_RETRAIN, STO_RETRAIN_DT, STO_RETRAIN_PERIOD, STO_SR_IDLE, STO_DRING_HALVES, MOV_DRING_FMT, MOV_BIND, MOV_STREAM_WIN, MOV_OWNER, MOV_RETRY, MOV_PACE_TO, STG_PART_MODE, STG_INPUTS, STG_CHANNELS, STG_ACC_FMT, STG_POISON_EVT, STG_PLAN_ADDR]

def table3 : List SField :=
  [STG_PLAN_COUNT, STG_PLAN_LIMIT, BEM_GROUPS, BEM_WEIGHTS, BEM_OUT, BEM_STAGE, BEM_MIN_VALID, BEM_REL_TO, PRD_INTEG, PRD_VIS, PRD_CHAN_BASE, PRD_CLOSE_TO, PRD_CONV, PRD_POOL, PRD_BEAM_HOLD, PRD_BUF_ANN, FAB_DUET, FAB_EGQ, FAB_ACK_TO, FAB_CHIP_ID, FAB_ROUTE, FAB_STREAM, FAB_PAIR_PORT, FAB_IN_WIN, HST_PAGE_OWNER, HST_CTX_PINNED]

def table4 : List SField :=
  [HST_MSIX_HOLDOFF, CUE_SRC, CUE_DST, CUE_CELL, CUE_FILT, CUE_UNCLK, CUE_OUT_POL, FLT_PROMOTE, FLT_ACK_TO, FLT_CURTAIN, DUO_EN, DUO_HB_PERIOD, DUO_HB_TO, DUO_SWAP_PERIOD, DUO_SWAP_LEAD, DUO_PLAN_WIDTH, DUO_LANE_GRACE, DUO_EPOCH_FLOOR, PWR_THROTTLE, PWR_HYST, PWR_CLK_FLOOR, PWR_RESUME]

/-- Every field, in ascending ID order. -/
def table : List SField := table1 ++ table2 ++ table3 ++ table4

/-- The field an ID names. -/
def ofId (id : Nat) : Option SField := table.find? (fun f => f.id == id)

end Scr

end Sys2Proof.Machine
end

