-- ==== Sys2Proof/Config.lean ====
section
/-!
DEFINITION. What an LX9 fixes at manufacture or a strap, and the values the spec leaves open. Every constant here is
opaque: no statement can rest on its value.
-/

namespace Sys2Proof.Config

/-- DESIGN CHOICE (log 7). A value the spec leaves open, drawn fresh from the counter the state holds. -/
opaque freeValue : Nat → BitVec 64

/-- DESIGN CHOICE (log 6). The reset value the fuse block or a strap gives a register field marked "fuse" or "pin",
by the field's key (R6). -/
opaque fuseValue : Nat → Nat

/-- SHA3-256 hashes of the four root keys (R361). -/
opaque rootKeyHash : Nat → Nat

/-- What the MRAM journal held when the part was first powered (R367): epoch, floor, REPLACE causes, fences,
retired rows and columns, owner hash and policy. -/
opaque journalEpoch : Nat
opaque journalFloor : Nat
opaque journalReplace : Nat
opaque journalRows : Nat
opaque journalCols : Nat
opaque journalClusters : Nat
opaque journalFences : Nat
opaque journalOwner : Nat
opaque journalPolicy : Nat

/-- DESIGN CHOICE (log 10). ML-DSA-65 verification of a message under a public key (FIPS 204). -/
opaque mlDsaVerify : (pubkey : List Byte) → (msg : Nat) → (sig : List Byte) → Bool

/-- DESIGN CHOICE (log 10). ML-DSA-65 signature of the identity key over a 256-bit digest (R366, R370). -/
opaque identitySign : Nat → List Byte

/-- DESIGN CHOICE (log 10). The identity public key and the certificate chain of the manufacturing area (R366). -/
opaque identityKey : List Byte
opaque certificateChain : List Byte

/-- DESIGN CHOICE (log 10). ML-KEM-768 encapsulation (FIPS 203): ciphertext and shared secret for a key and randomness. -/
opaque mlKemCiphertext : List Byte → Nat → List Byte
opaque mlKemSecret : List Byte → Nat → Nat

/-- DESIGN CHOICE (log 25). Depth of a lane-to-pit queue in packets, less one (R14 gives none). -/
opaque laneQueue : Nat

/-- DESIGN CHOICE (log 28). The 8 bytes made of a record and an offset within it, over which BEAM_SUM runs (R333 states no
layout). -/
opaque beamKey : (record : Nat) → (offset : Nat) → Nat

/-- DESIGN CHOICE (log 10). The owner public key of a hash: the journal holds the hash alone (R363), and no rule says where the key
comes from that R364 and R365 verify with. -/
opaque ownerKey : (hash : Nat) → List Byte

/-- The measurement of the boot ROM (R370 measurement 0). -/
opaque bootRomDigest : Nat

/-- DESIGN CHOICE (log 10). The places in a report's health field that R370 does not state, made of the values it lists there. -/
opaque healthBits : List Nat → Nat

/-- DESIGN CHOICE (log 7). Whether some words of a faulty cluster's memories fail parity when a spare copies them, and which words of
coefficient and of local memory do (R341), by a draw. -/
opaque copyFails : Nat → Bool
opaque coefBad : (draw key : Nat) → Bool
opaque localBad : (draw key : Nat) → Bool

/-- The fused per-part table of R380: VDD_CORE code for a clock step and a temperature. -/
opaque avsTable : (step : Nat) → (temp : Int) → Nat

/-- What the targets of the bus matrix hold where nothing has been written (log 18): boot ROM, fuses, the journal as manufactured, control
SRAM and the ring-context cache setup at power-on; and which rows of the fuse block hold the identity seed. -/
opaque controlByte : Nat → Byte
opaque seedRow : Nat → Bool

/-- The event entry of a capability change (R26): its code, and how its data give the register and its old and new values (log 7). -/
opaque capCode : Nat
opaque capData0 : (register old new : Nat) → Nat
opaque capData1 : (register old new : Nat) → Nat

end Sys2Proof.Config
end

