-- ==== Sys2Proof/Machine/Regs.lean ====
section
/-!
DEFINITION. The register map: every field of every BAR0 register table of the spec, with its place, width, access code
and reset value (R6), and the table that finds a register by its offset (R33).
-/

namespace Sys2Proof.Machine

/-- Access codes of R6. -/
inductive Acc where
  | ro | rw | w1c | w1s | wo | rc | rws
  deriving DecidableEq, Repr

/-- A register field: offset of its register in BAR0, lowest bit, width, access, value after PORST_N. -/
structure Fld where
  off : Nat
  lo : Nat
  w : Nat
  acc : Acc
  rst : Nat
  deriving DecidableEq, Repr

/-- The key of a field in the register file. -/
def Fld.key (f : Fld) : Nat := f.off * 64 + f.lo

/-- The same field of a further instance of its register. -/
def Fld.plus (f : Fld) (d : Nat) : Fld := { f with off := f.off + d }

/-- The reset value of a field marked "fuse" or "pin" (R6). -/
def fused (off lo w : Nat) : Nat := Config.fuseValue (off * 64 + lo) % 2 ^ w

/-- A register, its first instance's fields and its instances as (stride, count). -/
structure RegRow where
  off : Nat
  dims : List (Nat × Nat)
  fields : List Fld
  deriving DecidableEq, Repr


/-! CTL_ID: 17_control_plane_and_security.md R376 -/
def CTL_ID.ID : Fld := ⟨0x0, 0, 64, .ro, fused 0x0 0 64⟩

/-! CTL_MATRIX: 17_control_plane_and_security.md R376 -/
def CTL_MATRIX.REMAP : Fld := ⟨0x8, 0, 1, .rw, 0⟩
def CTL_MATRIX.NULLS : Fld := ⟨0x8, 16, 16, .rc, 0⟩
def CTL_MATRIX.TIMEOUTS : Fld := ⟨0x8, 32, 16, .rc, 0⟩

/-! CTL_CORES: 17_control_plane_and_security.md R376 -/
def CTL_CORES.STATE : Fld := ⟨0x10, 0, 8, .ro, 0⟩
def CTL_CORES.AREA : Fld := ⟨0x10, 8, 4, .ro, 0⟩
def CTL_CORES.HB : Fld := ⟨0x10, 12, 4, .w1s, 0⟩

/-! CTL_WDOG: 17_control_plane_and_security.md R376 -/
def CTL_WDOG.CORE_TO : Fld := ⟨0x18, 0, 8, .rws, 10⟩
def CTL_WDOG.ABSENT_TO : Fld := ⟨0x18, 8, 8, .rws, 10⟩

/-! CTL_BOOT: 17_control_plane_and_security.md R376 -/
def CTL_BOOT.SEL : Fld := ⟨0x20, 0, 2, .ro, fused 0x20 0 2⟩
def CTL_BOOT.STAGE : Fld := ⟨0x20, 2, 2, .ro, 0⟩
def CTL_BOOT.ERR : Fld := ⟨0x20, 4, 4, .ro, 0⟩
def CTL_BOOT.SOURCE : Fld := ⟨0x20, 8, 2, .ro, 0⟩

/-! CTL_SEC: 17_control_plane_and_security.md R376 -/
def CTL_SEC.ROOT_USED : Fld := ⟨0x28, 0, 2, .ro, 0⟩
def CTL_SEC.REVOKED : Fld := ⟨0x28, 2, 4, .ro, fused 0x28 2 4⟩
def CTL_SEC.FUSE_CNT : Fld := ⟨0x28, 6, 6, .ro, fused 0x28 6 6⟩
def CTL_SEC.OWNER : Fld := ⟨0x28, 12, 1, .ro, 0⟩
def CTL_SEC.POLICY : Fld := ⟨0x28, 13, 3, .ro, 0⟩
def CTL_SEC.DEBUG : Fld := ⟨0x28, 16, 1, .ro, 0⟩
def CTL_SEC.MFG_LOCK : Fld := ⟨0x28, 17, 1, .ro, fused 0x28 17 1⟩
def CTL_SEC.FLOOR : Fld := ⟨0x28, 32, 16, .ro, 0⟩
def CTL_SEC.SVN : Fld := ⟨0x28, 48, 16, .ro, 0⟩

/-! CTL_NONCE: 17_control_plane_and_security.md R376 -/
def CTL_NONCE.WORD (n : Nat) : Fld := Fld.plus ⟨0x30, 0, 64, .ro, 0⟩ (0x8 * n)

/-! CTL_PUSH: 17_control_plane_and_security.md R376 -/
def CTL_PUSH.LEN : Fld := ⟨0x50, 0, 20, .rw, 0⟩
def CTL_PUSH.GO : Fld := ⟨0x50, 20, 1, .w1s, 0⟩
def CTL_PUSH.LAST : Fld := ⟨0x50, 21, 1, .rw, 0⟩
def CTL_PUSH.BUSY : Fld := ⟨0x50, 22, 1, .ro, 0⟩

/-! CTL_CAP0: 01_sample_journey.md R25 -/
def CTL_CAP0.STG_WIDTH : Fld := ⟨0x100, 0, 11, .ro, 1024⟩
def CTL_CAP0.STG_HEIGHT : Fld := ⟨0x100, 16, 11, .ro, 1024⟩
def CTL_CAP0.ENG_SPARE_ROW : Fld := ⟨0x100, 32, 2, .ro, fused 0x100 32 2⟩
def CTL_CAP0.ENG_SPARE_COL : Fld := ⟨0x100, 34, 2, .ro, fused 0x100 34 2⟩
def CTL_CAP0.ACC_FMT : Fld := ⟨0x100, 40, 4, .ro, 7⟩
def CTL_CAP0.MODES : Fld := ⟨0x100, 44, 4, .ro, 7⟩
def CTL_CAP0.PARTS : Fld := ⟨0x100, 48, 3, .ro, 7⟩

/-! CTL_CAP1: 01_sample_journey.md R25 -/
def CTL_CAP1.PIT_CLUSTERS : Fld := ⟨0x108, 0, 8, .ro, 128⟩
def CTL_CAP1.PIT_SPARES : Fld := ⟨0x108, 8, 3, .ro, fused 0x108 8 3⟩
def CTL_CAP1.STO_PC : Fld := ⟨0x108, 16, 9, .ro, 256⟩
def CTL_CAP1.STO_CAP : Fld := ⟨0x108, 32, 14, .ro, 12288⟩
def CTL_CAP1.ING_PORTS : Fld := ⟨0x108, 48, 5, .ro, 24⟩
def CTL_CAP1.FAB_PORTS : Fld := ⟨0x108, 56, 4, .ro, 8⟩

/-! CTL_CAP2: 01_sample_journey.md R25 -/
def CTL_CAP2.MAX_INPUTS : Fld := ⟨0x110, 0, 14, .ro, 8192⟩
def CTL_CAP2.MAX_CHANNELS : Fld := ⟨0x110, 16, 13, .ro, 4096⟩
def CTL_CAP2.MAX_PLAN : Fld := ⟨0x110, 32, 17, .ro, 65536⟩
def CTL_CAP2.SUBARRAYS : Fld := ⟨0x110, 56, 7, .ro, 64⟩

/-! CTL_CAP3: 01_sample_journey.md R25 -/
def CTL_CAP3.FW_VERSION : Fld := ⟨0x118, 0, 32, .ro, 0⟩
def CTL_CAP3.STEPPING : Fld := ⟨0x118, 32, 8, .ro, fused 0x118 32 8⟩
def CTL_CAP3.CAP_SEQ : Fld := ⟨0x118, 48, 16, .ro, 0⟩

/-! CTL_PUSH_WIN: 17_control_plane_and_security.md R376 -/
def CTL_PUSH_WIN.DATA (n : Nat) : Fld := Fld.plus ⟨0x80000, 0, 64, .wo, 0⟩ (0x8 * n)

/-! HCK_CTRL: 04_house_clock.md R89 -/
def HCK_CTRL.REVERT : Fld := ⟨0x100000, 0, 1, .rws, 0⟩
def HCK_CTRL.OPEN : Fld := ⟨0x100000, 1, 1, .rws, 0⟩
def HCK_CTRL.PPSA_EN : Fld := ⟨0x100000, 2, 1, .rws, 0⟩
def HCK_CTRL.PPSB_EN : Fld := ⟨0x100000, 3, 1, .rws, 0⟩
def HCK_CTRL.REFA_FREQ : Fld := ⟨0x100000, 4, 2, .rws, 0⟩
def HCK_CTRL.REFB_FREQ : Fld := ⟨0x100000, 6, 2, .rws, 0⟩
def HCK_CTRL.WTR : Fld := ⟨0x100000, 8, 10, .rws, 300⟩

/-! HCK_PRIO0: 04_house_clock.md R89 -/
def HCK_PRIO0.ENT0 : Fld := ⟨0x100008, 0, 16, .rws, 0⟩
def HCK_PRIO0.ENT1 : Fld := ⟨0x100008, 16, 16, .rws, 0⟩
def HCK_PRIO0.ENT2 : Fld := ⟨0x100008, 32, 16, .rws, 0⟩
def HCK_PRIO0.ENT3 : Fld := ⟨0x100008, 48, 16, .rws, 0⟩

/-! HCK_PRIO1: 04_house_clock.md R89 -/
def HCK_PRIO1.ENT4 : Fld := ⟨0x100010, 0, 16, .rws, 0⟩
def HCK_PRIO1.ENT5 : Fld := ⟨0x100010, 16, 16, .rws, 0⟩
def HCK_PRIO1.ENT6 : Fld := ⟨0x100010, 32, 16, .rws, 0⟩
def HCK_PRIO1.ENT7 : Fld := ⟨0x100010, 48, 16, .rws, 0⟩

/-! HCK_BW0: 04_house_clock.md R89 -/
def HCK_BW0.BW_REF : Fld := ⟨0x100018, 0, 32, .rws, 100000⟩
def HCK_BW0.BW_LINK : Fld := ⟨0x100018, 32, 32, .rws, 10000000⟩

/-! HCK_BW1: 04_house_clock.md R89 -/
def HCK_BW1.BW_FAB : Fld := ⟨0x100020, 0, 32, .rws, 1000000⟩
def HCK_BW1.BW_PTP : Fld := ⟨0x100020, 32, 32, .rws, 1000⟩

/-! HCK_THRESH: 04_house_clock.md R89 -/
def HCK_THRESH.SOFT : Fld := ⟨0x100028, 0, 32, .rws, 10⟩
def HCK_THRESH.HARD : Fld := ⟨0x100028, 32, 32, .rws, 100⟩

/-! HCK_TIMING: 04_house_clock.md R89 -/
def HCK_TIMING.VALID_WIN : Fld := ⟨0x100030, 0, 12, .rws, 60⟩
def HCK_TIMING.HOLD_AVG : Fld := ⟨0x100030, 16, 14, .rws, 600⟩
def HCK_TIMING.LOCK_PS : Fld := ⟨0x100030, 32, 16, .rws, 1000⟩
def HCK_TIMING.PSL : Fld := ⟨0x100030, 48, 16, .rws, 10000⟩

/-! HCK_HOLD: 04_house_clock.md R89 -/
def HCK_HOLD.HOLD_MAX : Fld := ⟨0x100038, 0, 32, .rws, 86400⟩
def HCK_HOLD.SWDOG : Fld := ⟨0x100038, 32, 16, .rws, 10⟩

/-! HCK_FOW: 04_house_clock.md R89 -/
def HCK_FOW.FOW : Fld := ⟨0x100040, 0, 40, .rws, 0⟩

/-! HCK_STATUS: 04_house_clock.md R89 -/
def HCK_STATUS.STATE : Fld := ⟨0x100048, 0, 3, .ro, 0⟩
def HCK_STATUS.ACTIVE : Fld := ⟨0x100048, 3, 3, .ro, 0⟩
def HCK_STATUS.ACT_VALID : Fld := ⟨0x100048, 6, 1, .ro, 0⟩
def HCK_STATUS.DISPUTE : Fld := ⟨0x100048, 7, 1, .ro, 0⟩
def HCK_STATUS.XO_HIST : Fld := ⟨0x100048, 8, 1, .ro, 0⟩
def HCK_STATUS.SER_LOCK : Fld := ⟨0x100048, 9, 1, .ro, 0⟩
def HCK_STATUS.SWLOOP : Fld := ⟨0x100048, 10, 1, .ro, 0⟩
def HCK_STATUS.PPSA_OK : Fld := ⟨0x100048, 11, 1, .ro, 0⟩
def HCK_STATUS.PPSB_OK : Fld := ⟨0x100048, 12, 1, .ro, 0⟩
def HCK_STATUS.ENT_STATE : Fld := ⟨0x100048, 16, 24, .ro, 0⟩

/-! HCK_ENT: 04_house_clock.md R89 -/
def HCK_ENT.DEV (n : Nat) : Fld := Fld.plus ⟨0x100050, 0, 32, .ro, 2147483648⟩ (0x8 * n)
def HCK_ENT.EXCESS (n : Nat) : Fld := Fld.plus ⟨0x100050, 32, 16, .ro, 0⟩ (0x8 * n)
def HCK_ENT.WTR_LEFT (n : Nat) : Fld := Fld.plus ⟨0x100050, 48, 16, .ro, 0⟩ (0x8 * n)

/-! HCK_PBO: 04_house_clock.md R89 -/
def HCK_PBO.LAST_PS : Fld := ⟨0x100090, 0, 32, .ro, 0⟩
def HCK_PBO.SWITCHES : Fld := ⟨0x100090, 32, 32, .ro, 0⟩

/-! HCK_DCO: 04_house_clock.md R89 -/
def HCK_DCO.OFFSET : Fld := ⟨0x100098, 0, 40, .ro, 0⟩

/-! HCK_EVT: 04_house_clock.md R89 -/
def HCK_EVT.BITS : Fld := ⟨0x1000A0, 0, 7, .w1c, 0⟩

/-! TIM_CTRL: 05_sample_index_and_time.md R108 -/
def TIM_CTRL.PREF_DOM : Fld := ⟨0x200000, 0, 1, .rws, 0⟩
def TIM_CTRL.REVERT : Fld := ⟨0x200000, 1, 1, .rws, 1⟩
def TIM_CTRL.TC_EN : Fld := ⟨0x200000, 2, 1, .rws, 0⟩
def TIM_CTRL.FREE_EPOCH : Fld := ⟨0x200000, 3, 1, .rws, 0⟩
def TIM_CTRL.EPOCH_CLR : Fld := ⟨0x200000, 4, 1, .w1s, 0⟩
def TIM_CTRL.STEP_ARM : Fld := ⟨0x200000, 5, 1, .w1s, 0⟩
def TIM_CTRL.DOM_WTR : Fld := ⟨0x200000, 6, 10, .rws, 60⟩
def TIM_CTRL.SERVO_BW : Fld := ⟨0x200000, 16, 16, .rws, 100⟩

/-! TIM_STATUS: 05_sample_index_and_time.md R108 -/
def TIM_STATUS.EPOCH : Fld := ⟨0x200008, 0, 1, .ro, 0⟩
def TIM_STATUS.TAI_VALID : Fld := ⟨0x200008, 1, 1, .ro, 0⟩
def TIM_STATUS.SERVO : Fld := ⟨0x200008, 2, 2, .ro, 0⟩
def TIM_STATUS.ACT_DOM : Fld := ⟨0x200008, 4, 1, .ro, 0⟩
def TIM_STATUS.SLEWING : Fld := ⟨0x200008, 5, 1, .ro, 0⟩
def TIM_STATUS.USABLE : Fld := ⟨0x200008, 6, 2, .ro, 0⟩
def TIM_STATUS.FAULTY : Fld := ⟨0x200008, 8, 2, .ro, 0⟩

/-! TIM_DOM0: 05_sample_index_and_time.md R108 -/
def TIM_DOM0.DOMAIN : Fld := ⟨0x200010, 0, 8, .rws, 0⟩
def TIM_DOM0.MAJOR_SDO : Fld := ⟨0x200010, 8, 4, .rws, 0⟩
def TIM_DOM0.EN : Fld := ⟨0x200010, 12, 1, .rws, 0⟩
def TIM_DOM0.ANN_TO : Fld := ⟨0x200010, 13, 3, .rws, 3⟩
def TIM_DOM0.LOG_DREQ : Fld := ⟨0x200010, 16, 8, .rws, 0⟩

/-! TIM_DOM1: 05_sample_index_and_time.md R108 -/
def TIM_DOM1.DOMAIN : Fld := ⟨0x200018, 0, 8, .rws, 1⟩
def TIM_DOM1.MAJOR_SDO : Fld := ⟨0x200018, 8, 4, .rws, 0⟩
def TIM_DOM1.EN : Fld := ⟨0x200018, 12, 1, .rws, 0⟩
def TIM_DOM1.ANN_TO : Fld := ⟨0x200018, 13, 3, .rws, 3⟩
def TIM_DOM1.LOG_DREQ : Fld := ⟨0x200018, 16, 8, .rws, 0⟩

/-! TIM_PORT0_CFG: 05_sample_index_and_time.md R108 -/
def TIM_PORT0_CFG.TRANSPORT : Fld := ⟨0x200020, 0, 1, .rws, 0⟩
def TIM_PORT0_CFG.UNI_DREQ : Fld := ⟨0x200020, 1, 1, .rws, 0⟩
def TIM_PORT0_CFG.FEC : Fld := ⟨0x200020, 2, 1, .rws, 0⟩
def TIM_PORT0_CFG.IPV4 : Fld := ⟨0x200020, 32, 32, .rws, 0⟩

/-! TIM_PORT1_CFG: 05_sample_index_and_time.md R108 -/
def TIM_PORT1_CFG.TRANSPORT : Fld := ⟨0x200028, 0, 1, .rws, 0⟩
def TIM_PORT1_CFG.UNI_DREQ : Fld := ⟨0x200028, 1, 1, .rws, 0⟩
def TIM_PORT1_CFG.FEC : Fld := ⟨0x200028, 2, 1, .rws, 0⟩
def TIM_PORT1_CFG.IPV4 : Fld := ⟨0x200028, 32, 32, .rws, 0⟩

/-! TIM_PORT0_CAL: 05_sample_index_and_time.md R108 -/
def TIM_PORT0_CAL.ASYM : Fld := ⟨0x200030, 0, 32, .rws, 0⟩
def TIM_PORT0_CAL.RXLAT : Fld := ⟨0x200030, 32, 16, .rws, fused 0x200030 32 16⟩
def TIM_PORT0_CAL.TXLAT : Fld := ⟨0x200030, 48, 16, .rws, fused 0x200030 48 16⟩

/-! TIM_PORT1_CAL: 05_sample_index_and_time.md R108 -/
def TIM_PORT1_CAL.ASYM : Fld := ⟨0x200038, 0, 32, .rws, 0⟩
def TIM_PORT1_CAL.RXLAT : Fld := ⟨0x200038, 32, 16, .rws, fused 0x200038 32 16⟩
def TIM_PORT1_CAL.TXLAT : Fld := ⟨0x200038, 48, 16, .rws, fused 0x200038 48 16⟩

/-! TIM_LIMITS: 05_sample_index_and_time.md R108 -/
def TIM_LIMITS.SLEW_PPB : Fld := ⟨0x200040, 0, 16, .rws, 100⟩
def TIM_LIMITS.STEP_LIM : Fld := ⟨0x200040, 16, 32, .rws, 1000000⟩

/-! TIM_SNAP_SEC: 05_sample_index_and_time.md R108 -/
def TIM_SNAP_SEC.SEC : Fld := ⟨0x200048, 0, 48, .ro, 0⟩

/-! TIM_SNAP_LO: 05_sample_index_and_time.md R108 -/
def TIM_SNAP_LO.LO : Fld := ⟨0x200050, 0, 48, .ro, 0⟩

/-! TIM_SNAP_SIX: 05_sample_index_and_time.md R108 -/
def TIM_SNAP_SIX.SIX : Fld := ⟨0x200058, 0, 64, .ro, 0⟩

/-! TIM_EPS: 05_sample_index_and_time.md R108 -/
def TIM_EPS.VALUE : Fld := ⟨0x200060, 0, 64, .ro, 0⟩

/-! TIM_DOM_OFS: 05_sample_index_and_time.md R108 -/
def TIM_DOM_OFS.VALUE : Fld := ⟨0x200068, 0, 64, .ro, 0⟩

/-! TIM_OFS_ACT: 05_sample_index_and_time.md R108 -/
def TIM_OFS_ACT.VALUE : Fld := ⟨0x200070, 0, 64, .ro, 0⟩

/-! TIM_PPS_OFS: 05_sample_index_and_time.md R108 -/
def TIM_PPS_OFS.PPSA : Fld := ⟨0x200078, 0, 32, .ro, 0⟩
def TIM_PPS_OFS.PPSB : Fld := ⟨0x200078, 32, 32, .ro, 0⟩

/-! TIM_PORT_DROP: 05_sample_index_and_time.md R108 -/
def TIM_PORT_DROP.PORT0 : Fld := ⟨0x200080, 0, 32, .rc, 0⟩
def TIM_PORT_DROP.PORT1 : Fld := ⟨0x200080, 32, 32, .rc, 0⟩

/-! TIM_EVT: 05_sample_index_and_time.md R108 -/
def TIM_EVT.BITS : Fld := ⟨0x200088, 0, 8, .w1c, 0⟩

/-! TIM_CMP_CTRL: 05_sample_index_and_time.md R108 -/
def TIM_CMP_CTRL.ARM (n : Nat) : Fld := Fld.plus ⟨0x200100, 0, 1, .rw, 0⟩ (0x20 * n)
def TIM_CMP_CTRL.MODE (n : Nat) : Fld := Fld.plus ⟨0x200100, 1, 1, .rw, 0⟩ (0x20 * n)
def TIM_CMP_CTRL.PERIODIC (n : Nat) : Fld := Fld.plus ⟨0x200100, 2, 1, .rw, 0⟩ (0x20 * n)
def TIM_CMP_CTRL.FIRED (n : Nat) : Fld := Fld.plus ⟨0x200100, 3, 1, .w1c, 0⟩ (0x20 * n)
def TIM_CMP_CTRL.LATE (n : Nat) : Fld := Fld.plus ⟨0x200100, 4, 1, .w1c, 0⟩ (0x20 * n)
def TIM_CMP_CTRL.WERR (n : Nat) : Fld := Fld.plus ⟨0x200100, 5, 1, .w1c, 0⟩ (0x20 * n)

/-! TIM_CMP_TARGET_HI: 05_sample_index_and_time.md R108 -/
def TIM_CMP_TARGET_HI.TARGET_HI (n : Nat) : Fld := Fld.plus ⟨0x200108, 0, 64, .rw, 0⟩ (0x20 * n)

/-! TIM_CMP_TARGET_LO: 05_sample_index_and_time.md R108 -/
def TIM_CMP_TARGET_LO.TARGET_LO (n : Nat) : Fld := Fld.plus ⟨0x200110, 0, 48, .rw, 0⟩ (0x20 * n)

/-! TIM_CMP_PERIOD: 05_sample_index_and_time.md R108 -/
def TIM_CMP_PERIOD.PERIOD (n : Nat) : Fld := Fld.plus ⟨0x200118, 0, 64, .rw, 0⟩ (0x20 * n)

/-! ING_STATUS: 06_ingest_ports.md R130 -/
def ING_STATUS.UP : Fld := ⟨0x300000, 0, 24, .ro, 0⟩
def ING_STATUS.DEG : Fld := ⟨0x300000, 24, 24, .ro, 0⟩

/-! ING_P_CTRL: 06_ingest_ports.md R130 -/
def ING_P_CTRL.EN (n : Nat) : Fld := Fld.plus ⟨0x310000, 0, 1, .rws, 1⟩ (0x1000 * n)
def ING_P_CTRL.MODE (n : Nat) : Fld := Fld.plus ⟨0x310000, 1, 1, .rws, 0⟩ (0x1000 * n)
def ING_P_CTRL.LD_EN (n : Nat) : Fld := Fld.plus ⟨0x310000, 2, 1, .rws, 1⟩ (0x1000 * n)
def ING_P_CTRL.ADAPT_FREEZE (n : Nat) : Fld := Fld.plus ⟨0x310000, 3, 1, .rws, 0⟩ (0x1000 * n)
def ING_P_CTRL.POL (n : Nat) : Fld := Fld.plus ⟨0x310000, 4, 4, .rws, 0⟩ (0x1000 * n)

/-! ING_P_STATUS: 06_ingest_ports.md R130 -/
def ING_P_STATUS.STATE (n : Nat) : Fld := Fld.plus ⟨0x310008, 0, 3, .ro, 0⟩ (0x1000 * n)
def ING_P_STATUS.LOCK (n : Nat) : Fld := Fld.plus ⟨0x310008, 4, 4, .ro, 0⟩ (0x1000 * n)
def ING_P_STATUS.LMAP (n : Nat) : Fld := Fld.plus ⟨0x310008, 8, 4, .ro, 0⟩ (0x1000 * n)
def ING_P_STATUS.DROP_REQ (n : Nat) : Fld := Fld.plus ⟨0x310008, 12, 4, .ro, 0⟩ (0x1000 * n)
def ING_P_STATUS.LD_CAP (n : Nat) : Fld := Fld.plus ⟨0x310008, 16, 1, .ro, 0⟩ (0x1000 * n)
def ING_P_STATUS.FLOW (n : Nat) : Fld := Fld.plus ⟨0x310008, 17, 2, .ro, 0⟩ (0x1000 * n)
def ING_P_STATUS.DSK (n : Nat) : Fld := Fld.plus ⟨0x310008, 19, 8, .ro, 0⟩ (0x1000 * n)

/-! ING_P_PKT: 06_ingest_ports.md R130 -/
def ING_P_PKT.COUNT (n : Nat) : Fld := Fld.plus ⟨0x310010, 0, 64, .ro, 0⟩ (0x1000 * n)

/-! ING_P_FEC: 06_ingest_ports.md R130 -/
def ING_P_FEC.CORR (n : Nat) : Fld := Fld.plus ⟨0x310018, 0, 32, .rc, 0⟩ (0x1000 * n)
def ING_P_FEC.UNCORR (n : Nat) : Fld := Fld.plus ⟨0x310018, 32, 32, .rc, 0⟩ (0x1000 * n)

/-! ING_P_SEQGAP: 06_ingest_ports.md R130 -/
def ING_P_SEQGAP.COUNT (n : Nat) : Fld := Fld.plus ⟨0x310020, 0, 32, .rc, 0⟩ (0x1000 * n)

/-! ING_P_DISC: 06_ingest_ports.md R130 -/
def ING_P_DISC.COUNT (n l : Nat) : Fld := Fld.plus ⟨0x310040, 0, 32, .rc, 0⟩ (0x1000 * n + 0x8 * l)

/-! ING_P_L_TXEQ: 06_ingest_ports.md R130 -/
def ING_P_L_TXEQ.PRE (n l : Nat) : Fld := Fld.plus ⟨0x310100, 0, 4, .rws, 2⟩ (0x1000 * n + 0x100 * l)
def ING_P_L_TXEQ.POST (n l : Nat) : Fld := Fld.plus ⟨0x310100, 4, 4, .rws, 4⟩ (0x1000 * n + 0x100 * l)
def ING_P_L_TXEQ.AMP (n l : Nat) : Fld := Fld.plus ⟨0x310100, 8, 4, .rws, 8⟩ (0x1000 * n + 0x100 * l)

/-! ING_P_L_RXEQ: 06_ingest_ports.md R130 -/
def ING_P_L_RXEQ.CTLE (n l : Nat) : Fld := Fld.plus ⟨0x310108, 0, 6, .ro, 0⟩ (0x1000 * n + 0x100 * l)
def ING_P_L_RXEQ.DFE (n l : Nat) : Fld := Fld.plus ⟨0x310108, 6, 40, .ro, 0⟩ (0x1000 * n + 0x100 * l)
def ING_P_L_RXEQ.EYE (n l : Nat) : Fld := Fld.plus ⟨0x310108, 46, 8, .ro, 0⟩ (0x1000 * n + 0x100 * l)

/-! ING_P_L_SER: 06_ingest_ports.md R130 -/
def ING_P_L_SER.SYMERR (n l : Nat) : Fld := Fld.plus ⟨0x310110, 0, 48, .rc, 0⟩ (0x1000 * n + 0x100 * l)

/-! PIT_STATUS: 07_conditioning_pit.md R158 -/
def PIT_STATUS.INGEST : Fld := ⟨0x400000, 0, 8, .ro, 0⟩
def PIT_STATUS.BEAM : Fld := ⟨0x400000, 8, 8, .ro, 0⟩
def PIT_STATUS.SWAP_PEND : Fld := ⟨0x400000, 16, 8, .ro, 0⟩
def PIT_STATUS.FLIP_PEND : Fld := ⟨0x400000, 24, 8, .ro, 0⟩

/-! PIT_NOROUTE: 07_conditioning_pit.md R158 -/
def PIT_NOROUTE.COUNT : Fld := ⟨0x400008, 0, 32, .rc, 0⟩

/-! PIT_C_STATUS: 07_conditioning_pit.md R158 -/
def PIT_C_STATUS.PC (n : Nat) : Fld := Fld.plus ⟨0x410000, 0, 12, .ro, 0⟩ (0x40 * n)
def PIT_C_STATUS.BANK (n : Nat) : Fld := Fld.plus ⟨0x410000, 12, 1, .ro, 0⟩ (0x40 * n)
def PIT_C_STATUS.RUN (n : Nat) : Fld := Fld.plus ⟨0x410000, 13, 1, .ro, 0⟩ (0x40 * n)
def PIT_C_STATUS.IN_WAIT (n : Nat) : Fld := Fld.plus ⟨0x410000, 14, 1, .ro, 0⟩ (0x40 * n)
def PIT_C_STATUS.OUT_WAIT (n : Nat) : Fld := Fld.plus ⟨0x410000, 15, 1, .ro, 0⟩ (0x40 * n)
def PIT_C_STATUS.HANDLER (n : Nat) : Fld := Fld.plus ⟨0x410000, 16, 1, .ro, 0⟩ (0x40 * n)
def PIT_C_STATUS.HANDLER_Q (n : Nat) : Fld := Fld.plus ⟨0x410000, 17, 3, .ro, 0⟩ (0x40 * n)
def PIT_C_STATUS.SWAP_PEND (n : Nat) : Fld := Fld.plus ⟨0x410000, 20, 1, .ro, 0⟩ (0x40 * n)
def PIT_C_STATUS.FLIP_PEND (n : Nat) : Fld := Fld.plus ⟨0x410000, 21, 1, .ro, 0⟩ (0x40 * n)
def PIT_C_STATUS.SIDE (n : Nat) : Fld := Fld.plus ⟨0x410000, 22, 1, .ro, 0⟩ (0x40 * n)
def PIT_C_STATUS.TPG (n : Nat) : Fld := Fld.plus ⟨0x410000, 23, 1, .ro, 0⟩ (0x40 * n)
def PIT_C_STATUS.QLVL (n : Nat) : Fld := Fld.plus ⟨0x410000, 24, 7, .ro, 0⟩ (0x40 * n)

/-! PIT_C_FLAGS: 07_conditioning_pit.md R158 -/
def PIT_C_FLAGS.BITS (n : Nat) : Fld := Fld.plus ⟨0x410008, 0, 6, .w1c, 0⟩ (0x40 * n)

/-! PIT_C_LANEF: 07_conditioning_pit.md R158 -/
def PIT_C_LANEF.LANES (n : Nat) : Fld := Fld.plus ⟨0x410010, 0, 64, .ro, 0⟩ (0x40 * n)

/-! PIT_C_VEC: 07_conditioning_pit.md R158 -/
def PIT_C_VEC.COUNT (n : Nat) : Fld := Fld.plus ⟨0x410018, 0, 64, .ro, 0⟩ (0x40 * n)

/-! PIT_C_SAT: 07_conditioning_pit.md R158 -/
def PIT_C_SAT.COUNT (n : Nat) : Fld := Fld.plus ⟨0x410020, 0, 32, .rc, 0⟩ (0x40 * n)

/-! PIT_C_NEG8: 07_conditioning_pit.md R158 -/
def PIT_C_NEG8.COUNT (n : Nat) : Fld := Fld.plus ⟨0x410028, 0, 32, .rc, 0⟩ (0x40 * n)

/-! PIT_C_CYC: 07_conditioning_pit.md R158 -/
def PIT_C_CYC.LOOP_MAX (n : Nat) : Fld := Fld.plus ⟨0x410030, 0, 16, .rc, 0⟩ (0x40 * n)
def PIT_C_CYC.QHW (n : Nat) : Fld := Fld.plus ⟨0x410030, 16, 7, .rc, 0⟩ (0x40 * n)

/-! STO_STATUS: 08_central_store.md R182 -/
def STO_STATUS.READY : Fld := ⟨0x500000, 0, 1, .ro, 0⟩
def STO_STATUS.ALL_SR : Fld := ⟨0x500000, 1, 1, .ro, 0⟩
def STO_STATUS.HOT : Fld := ⟨0x500000, 2, 1, .ro, 0⟩
def STO_STATUS.FENCES : Fld := ⟨0x500000, 8, 5, .ro, 0⟩
def STO_STATUS.TRAINING : Fld := ⟨0x500000, 16, 9, .ro, 0⟩

/-! STO_FENCE: 08_central_store.md R182 -/
def STO_FENCE.MAP (n : Nat) : Fld := Fld.plus ⟨0x500008, 0, 64, .ro, 0⟩ (0x8 * n)

/-! STO_SR: 08_central_store.md R182 -/
def STO_SR.MAP (n : Nat) : Fld := Fld.plus ⟨0x500028, 0, 64, .ro, 0⟩ (0x8 * n)

/-! STO_CE: 08_central_store.md R182 -/
def STO_CE.COUNT : Fld := ⟨0x500048, 0, 32, .rc, 0⟩

/-! STO_UE: 08_central_store.md R182 -/
def STO_UE.COUNT : Fld := ⟨0x500050, 0, 32, .rc, 0⟩

/-! STO_PSN_RD: 08_central_store.md R182 -/
def STO_PSN_RD.COUNT : Fld := ⟨0x500058, 0, 32, .rc, 0⟩

/-! STO_ADD_OVF: 08_central_store.md R182 -/
def STO_ADD_OVF.COUNT : Fld := ⟨0x500060, 0, 32, .rc, 0⟩

/-! STO_DENY: 08_central_store.md R182 -/
def STO_DENY.COUNT : Fld := ⟨0x500068, 0, 32, .rc, 0⟩

/-! STO_UE_ADDR: 08_central_store.md R182 -/
def STO_UE_ADDR.ADDR : Fld := ⟨0x500070, 0, 38, .ro, 0⟩
def STO_UE_ADDR.PC : Fld := ⟨0x500070, 38, 8, .ro, 0⟩

/-! STO_TEMP: 08_central_store.md R182 -/
def STO_TEMP.STACKS : Fld := ⟨0x500078, 0, 64, .ro, 0⟩

/-! STO_LATE: 08_central_store.md R182 -/
def STO_LATE.COUNT (n : Nat) : Fld := Fld.plus ⟨0x500100, 0, 32, .rc, 0⟩ (0x8 * n)
def STO_LATE.MAXW (n : Nat) : Fld := Fld.plus ⟨0x500100, 32, 16, .rc, 0⟩ (0x8 * n)

/-! STO_PC_STAT: 08_central_store.md R182 -/
def STO_PC_STAT.STATE (n : Nat) : Fld := Fld.plus ⟨0x510000, 0, 2, .ro, 0⟩ (0x40 * n)
def STO_PC_STAT.TRAINING (n : Nat) : Fld := Fld.plus ⟨0x510000, 2, 1, .ro, 0⟩ (0x40 * n)
def STO_PC_STAT.LKG (n : Nat) : Fld := Fld.plus ⟨0x510000, 3, 1, .ro, 0⟩ (0x40 * n)
def STO_PC_STAT.TEMP_TRAIN (n : Nat) : Fld := Fld.plus ⟨0x510000, 4, 8, .ro, 0⟩ (0x40 * n)
def STO_PC_STAT.DEBT_MAX (n : Nat) : Fld := Fld.plus ⟨0x510000, 12, 4, .rc, 0⟩ (0x40 * n)
def STO_PC_STAT.TRAINS (n : Nat) : Fld := Fld.plus ⟨0x510000, 16, 16, .ro, 0⟩ (0x40 * n)

/-! STO_PC_CE: 08_central_store.md R182 -/
def STO_PC_CE.COUNT (n : Nat) : Fld := Fld.plus ⟨0x510008, 0, 32, .rc, 0⟩ (0x40 * n)

/-! STO_PC_MARGIN: 08_central_store.md R182 -/
def STO_PC_MARGIN.READ (n : Nat) : Fld := Fld.plus ⟨0x510010, 0, 8, .ro, 0⟩ (0x40 * n)
def STO_PC_MARGIN.WRITE (n : Nat) : Fld := Fld.plus ⟨0x510010, 8, 8, .ro, 0⟩ (0x40 * n)
def STO_PC_MARGIN.VREF (n : Nat) : Fld := Fld.plus ⟨0x510010, 16, 8, .ro, 0⟩ (0x40 * n)

/-! MOV_RUNNING: 09_movers.md R204 -/
def MOV_RUNNING.MAP : Fld := ⟨0x600000, 0, 64, .ro, 0⟩

/-! MOV_HALTED: 09_movers.md R204 -/
def MOV_HALTED.MAP : Fld := ⟨0x600008, 0, 64, .ro, 0⟩

/-! MOV_UNBOUND: 09_movers.md R204 -/
def MOV_UNBOUND.COUNT : Fld := ⟨0x600010, 0, 32, .rc, 0⟩

/-! MOV_M_STATE: 09_movers.md R204 -/
def MOV_M_STATE.STATE (n : Nat) : Fld := Fld.plus ⟨0x610000, 0, 2, .ro, 0⟩ (0x40 * n)
def MOV_M_STATE.PACE_WAIT (n : Nat) : Fld := Fld.plus ⟨0x610000, 2, 1, .ro, 0⟩ (0x40 * n)
def MOV_M_STATE.LAST_CODE (n : Nat) : Fld := Fld.plus ⟨0x610000, 3, 8, .ro, 0⟩ (0x40 * n)

/-! MOV_M_DESC: 09_movers.md R204 -/
def MOV_M_DESC.ADDR (n : Nat) : Fld := Fld.plus ⟨0x610008, 0, 64, .ro, 0⟩ (0x40 * n)

/-! MOV_M_BYTES: 09_movers.md R204 -/
def MOV_M_BYTES.COUNT (n : Nat) : Fld := Fld.plus ⟨0x610010, 0, 64, .ro, 0⟩ (0x40 * n)

/-! MOV_M_SURPLUS: 09_movers.md R204 -/
def MOV_M_SURPLUS.COUNT (n : Nat) : Fld := Fld.plus ⟨0x610018, 0, 32, .rc, 0⟩ (0x40 * n)

/-! MOV_M_DROP: 09_movers.md R204 -/
def MOV_M_DROP.COUNT (n : Nat) : Fld := Fld.plus ⟨0x610020, 0, 32, .rc, 0⟩ (0x40 * n)

/-! MOV_M_RETRY: 09_movers.md R204 -/
def MOV_M_RETRY.COUNT (n : Nat) : Fld := Fld.plus ⟨0x610028, 0, 32, .rc, 0⟩ (0x40 * n)

/-! MOV_M_NEG128: 09_movers.md R204 -/
def MOV_M_NEG128.COUNT (n : Nat) : Fld := Fld.plus ⟨0x610030, 0, 32, .rc, 0⟩ (0x40 * n)

/-! STG_STATUS: 10_stage_correlation.md R231 -/
def STG_STATUS.PMODE : Fld := ⟨0x700000, 0, 2, .ro, 0⟩
def STG_STATUS.REPLAY : Fld := ⟨0x700000, 2, 1, .ro, 0⟩
def STG_STATUS.STOPPED : Fld := ⟨0x700000, 3, 1, .ro, 0⟩
def STG_STATUS.FMT_WAIT : Fld := ⟨0x700000, 4, 1, .ro, 0⟩

/-! STG_DWELL: 10_stage_correlation.md R231 -/
def STG_DWELL.DWELL : Fld := ⟨0x700008, 0, 64, .ro, 0⟩

/-! STG_POISON: 10_stage_correlation.md R231 -/
def STG_POISON.COUNT : Fld := ⟨0x700010, 0, 32, .rc, 0⟩

/-! STG_TRUNC: 10_stage_correlation.md R231 -/
def STG_TRUNC.COUNT : Fld := ⟨0x700018, 0, 32, .rc, 0⟩

/-! STG_DRAINED: 10_stage_correlation.md R231 -/
def STG_DRAINED.COUNT : Fld := ⟨0x700020, 0, 64, .ro, 0⟩

/-! STG_EVT: 10_stage_correlation.md R231 -/
def STG_EVT.BITS : Fld := ⟨0x700028, 0, 5, .w1c, 0⟩

/-! STG_PART: 10_stage_correlation.md R231 -/
def STG_PART.ENTRY (n : Nat) : Fld := Fld.plus ⟨0x700100, 0, 17, .ro, 131071⟩ (0x8 * n)
def STG_PART.BUSY (n : Nat) : Fld := Fld.plus ⟨0x700100, 17, 1, .ro, 0⟩ (0x8 * n)
def STG_PART.ACC_SLOT (n : Nat) : Fld := Fld.plus ⟨0x700100, 18, 3, .ro, 0⟩ (0x8 * n)
def STG_PART.WAITING (n : Nat) : Fld := Fld.plus ⟨0x700100, 21, 5, .ro, 0⟩ (0x8 * n)
def STG_PART.DRAINING (n : Nat) : Fld := Fld.plus ⟨0x700100, 26, 5, .ro, 0⟩ (0x8 * n)
def STG_PART.FMT (n : Nat) : Fld := Fld.plus ⟨0x700100, 32, 2, .ro, 1⟩ (0x8 * n)
def STG_PART.CSLOTS (n : Nat) : Fld := Fld.plus ⟨0x700100, 34, 3, .ro, 4⟩ (0x8 * n)

/-! STG_STALL: 10_stage_correlation.md R231 -/
def STG_STALL.SLOT (n : Nat) : Fld := Fld.plus ⟨0x700200, 0, 32, .rc, 0⟩ (0x8 * n)
def STG_STALL.FEED (n : Nat) : Fld := Fld.plus ⟨0x700200, 32, 32, .rc, 0⟩ (0x8 * n)

/-! BEM_STATUS: 11_stage_beamforming.md R252 -/
def BEM_STATUS.ACT_BANK : Fld := ⟨0x800000, 0, 1, .ro, 0⟩
def BEM_STATUS.LOAD_BUSY : Fld := ⟨0x800000, 1, 1, .ro, 0⟩
def BEM_STATUS.LOAD_WAIT : Fld := ⟨0x800000, 2, 1, .ro, 0⟩
def BEM_STATUS.RESV : Fld := ⟨0x800000, 4, 16, .ro, 0⟩

/-! BEM_WDIG0: 11_stage_beamforming.md R252 -/
def BEM_WDIG0.TAG : Fld := ⟨0x800008, 0, 64, .ro, 0⟩

/-! BEM_WDIG1: 11_stage_beamforming.md R252 -/
def BEM_WDIG1.TAG : Fld := ⟨0x800010, 0, 64, .ro, 0⟩

/-! BEM_RECS: 11_stage_beamforming.md R252 -/
def BEM_RECS.FILLING : Fld := ⟨0x800018, 0, 17, .ro, 0⟩
def BEM_RECS.FULL : Fld := ⟨0x800018, 17, 17, .ro, 0⟩

/-! BEM_SAT: 11_stage_beamforming.md R252 -/
def BEM_SAT.COUNT : Fld := ⟨0x800020, 0, 32, .rc, 0⟩

/-! BEM_LATE: 11_stage_beamforming.md R252 -/
def BEM_LATE.COUNT : Fld := ⟨0x800028, 0, 32, .rc, 0⟩

/-! BEM_STALL0: 11_stage_beamforming.md R252 -/
def BEM_STALL0.WLOAD : Fld := ⟨0x800030, 0, 32, .rc, 0⟩
def BEM_STALL0.STAGE : Fld := ⟨0x800030, 32, 32, .rc, 0⟩

/-! BEM_STALL1: 11_stage_beamforming.md R252 -/
def BEM_STALL1.OUT : Fld := ⟨0x800038, 0, 32, .rc, 0⟩

/-! BEM_RELEASED: 11_stage_beamforming.md R252 -/
def BEM_RELEASED.COUNT : Fld := ⟨0x800040, 0, 64, .ro, 0⟩

/-! BEM_EVT: 11_stage_beamforming.md R252 -/
def BEM_EVT.BITS : Fld := ⟨0x800048, 0, 5, .w1c, 0⟩

/-! PRD_STATUS: 12_products_and_reduction.md R275 -/
def PRD_STATUS.B0_STATE : Fld := ⟨0x900000, 0, 2, .ro, 0⟩
def PRD_STATUS.B1_STATE : Fld := ⟨0x900000, 2, 2, .ro, 0⟩
def PRD_STATUS.B0_GEN : Fld := ⟨0x900000, 4, 1, .ro, 0⟩
def PRD_STATUS.B1_GEN : Fld := ⟨0x900000, 5, 1, .ro, 0⟩
def PRD_STATUS.SWEEP : Fld := ⟨0x900000, 6, 1, .ro, 0⟩

/-! PRD_B0_INTEG: 12_products_and_reduction.md R275 -/
def PRD_B0_INTEG.INTEG : Fld := ⟨0x900008, 0, 64, .ro, 0⟩

/-! PRD_B1_INTEG: 12_products_and_reduction.md R275 -/
def PRD_B1_INTEG.INTEG : Fld := ⟨0x900010, 0, 64, .ro, 0⟩

/-! PRD_B0_MARKS: 12_products_and_reduction.md R275 -/
def PRD_B0_MARKS.DWELLS : Fld := ⟨0x900018, 0, 16, .ro, 0⟩
def PRD_B0_MARKS.MARKS : Fld := ⟨0x900018, 16, 32, .ro, 0⟩

/-! PRD_B1_MARKS: 12_products_and_reduction.md R275 -/
def PRD_B1_MARKS.DWELLS : Fld := ⟨0x900020, 0, 16, .ro, 0⟩
def PRD_B1_MARKS.MARKS : Fld := ⟨0x900020, 16, 32, .ro, 0⟩

/-! PRD_CLOSED: 12_products_and_reduction.md R275 -/
def PRD_CLOSED.COUNT : Fld := ⟨0x900028, 0, 64, .ro, 0⟩

/-! PRD_LATE: 12_products_and_reduction.md R275 -/
def PRD_LATE.COUNT : Fld := ⟨0x900030, 0, 32, .rc, 0⟩

/-! PRD_FORCED: 12_products_and_reduction.md R275 -/
def PRD_FORCED.COUNT : Fld := ⟨0x900038, 0, 32, .rc, 0⟩

/-! PRD_STALE: 12_products_and_reduction.md R275 -/
def PRD_STALE.COUNT : Fld := ⟨0x900040, 0, 32, .rc, 0⟩

/-! PRD_EVT: 12_products_and_reduction.md R275 -/
def PRD_EVT.BITS : Fld := ⟨0x900048, 0, 4, .w1c, 0⟩

/-! FAB_STATUS: 13_fabric.md R293 -/
def FAB_STATUS.UP : Fld := ⟨0xA00000, 0, 8, .ro, 0⟩
def FAB_STATUS.DEG : Fld := ⟨0xA00000, 8, 8, .ro, 0⟩

/-! FAB_P_CTRL: 13_fabric.md R293 -/
def FAB_P_CTRL.EN (n : Nat) : Fld := Fld.plus ⟨0xA10000, 0, 1, .rws, 1⟩ (0x1000 * n)
def FAB_P_CTRL.LD_EN (n : Nat) : Fld := Fld.plus ⟨0xA10000, 1, 1, .rws, 1⟩ (0x1000 * n)
def FAB_P_CTRL.ADAPT_FREEZE (n : Nat) : Fld := Fld.plus ⟨0xA10000, 2, 1, .rws, 0⟩ (0x1000 * n)
def FAB_P_CTRL.POL (n : Nat) : Fld := Fld.plus ⟨0xA10000, 3, 4, .rws, 0⟩ (0x1000 * n)

/-! FAB_P_STATUS: 13_fabric.md R293 -/
def FAB_P_STATUS.STATE (n : Nat) : Fld := Fld.plus ⟨0xA10008, 0, 3, .ro, 0⟩ (0x1000 * n)
def FAB_P_STATUS.LOCK (n : Nat) : Fld := Fld.plus ⟨0xA10008, 4, 4, .ro, 0⟩ (0x1000 * n)
def FAB_P_STATUS.LMAP (n : Nat) : Fld := Fld.plus ⟨0xA10008, 8, 4, .ro, 0⟩ (0x1000 * n)
def FAB_P_STATUS.DROP_REQ (n : Nat) : Fld := Fld.plus ⟨0xA10008, 12, 4, .ro, 0⟩ (0x1000 * n)
def FAB_P_STATUS.CRED_OK (n : Nat) : Fld := Fld.plus ⟨0xA10008, 16, 1, .ro, 0⟩ (0x1000 * n)
def FAB_P_STATUS.NEIGH (n : Nat) : Fld := Fld.plus ⟨0xA10008, 17, 11, .ro, 0⟩ (0x1000 * n)
def FAB_P_STATUS.NEIGH_VALID (n : Nat) : Fld := Fld.plus ⟨0xA10008, 28, 1, .ro, 0⟩ (0x1000 * n)

/-! FAB_P_PKT: 13_fabric.md R293 -/
def FAB_P_PKT.TX (n : Nat) : Fld := Fld.plus ⟨0xA10010, 0, 32, .ro, 0⟩ (0x1000 * n)
def FAB_P_PKT.RX (n : Nat) : Fld := Fld.plus ⟨0xA10010, 32, 32, .ro, 0⟩ (0x1000 * n)

/-! FAB_P_DISC0: 13_fabric.md R293 -/
def FAB_P_DISC0.FEC (n : Nat) : Fld := Fld.plus ⟨0xA10018, 0, 16, .rc, 0⟩ (0x1000 * n)
def FAB_P_DISC0.HCRC (n : Nat) : Fld := Fld.plus ⟨0xA10018, 16, 16, .rc, 0⟩ (0x1000 * n)
def FAB_P_DISC0.CLASS (n : Nat) : Fld := Fld.plus ⟨0xA10018, 32, 16, .rc, 0⟩ (0x1000 * n)
def FAB_P_DISC0.ROUTE (n : Nat) : Fld := Fld.plus ⟨0xA10018, 48, 16, .rc, 0⟩ (0x1000 * n)

/-! FAB_P_DISC1: 13_fabric.md R293 -/
def FAB_P_DISC1.CLAIM (n : Nat) : Fld := Fld.plus ⟨0xA10020, 0, 16, .rc, 0⟩ (0x1000 * n)
def FAB_P_DISC1.LATE (n : Nat) : Fld := Fld.plus ⟨0xA10020, 16, 16, .rc, 0⟩ (0x1000 * n)
def FAB_P_DISC1.REFUSED (n : Nat) : Fld := Fld.plus ⟨0xA10020, 32, 16, .rc, 0⟩ (0x1000 * n)
def FAB_P_DISC1.WINDOW (n : Nat) : Fld := Fld.plus ⟨0xA10020, 48, 16, .rc, 0⟩ (0x1000 * n)

/-! FAB_P_EGQ: 13_fabric.md R293 -/
def FAB_P_EGQ.LEVEL (n : Nat) : Fld := Fld.plus ⟨0xA10028, 0, 32, .ro, 0⟩ (0x1000 * n)
def FAB_P_EGQ.HWM (n : Nat) : Fld := Fld.plus ⟨0xA10028, 32, 32, .rc, 0⟩ (0x1000 * n)

/-! FAB_P_L_TXEQ: 13_fabric.md R293 -/
def FAB_P_L_TXEQ.PRE (n l : Nat) : Fld := Fld.plus ⟨0xA10100, 0, 4, .rws, 2⟩ (0x1000 * n + 0x100 * l)
def FAB_P_L_TXEQ.POST (n l : Nat) : Fld := Fld.plus ⟨0xA10100, 4, 4, .rws, 4⟩ (0x1000 * n + 0x100 * l)
def FAB_P_L_TXEQ.AMP (n l : Nat) : Fld := Fld.plus ⟨0xA10100, 8, 4, .rws, 8⟩ (0x1000 * n + 0x100 * l)

/-! FAB_P_L_RXEQ: 13_fabric.md R293 -/
def FAB_P_L_RXEQ.CTLE (n l : Nat) : Fld := Fld.plus ⟨0xA10108, 0, 6, .ro, 0⟩ (0x1000 * n + 0x100 * l)
def FAB_P_L_RXEQ.DFE (n l : Nat) : Fld := Fld.plus ⟨0xA10108, 6, 40, .ro, 0⟩ (0x1000 * n + 0x100 * l)
def FAB_P_L_RXEQ.EYE (n l : Nat) : Fld := Fld.plus ⟨0xA10108, 46, 8, .ro, 0⟩ (0x1000 * n + 0x100 * l)

/-! FAB_P_L_SER: 13_fabric.md R293 -/
def FAB_P_L_SER.SYMERR (n l : Nat) : Fld := Fld.plus ⟨0xA10110, 0, 48, .rc, 0⟩ (0x1000 * n + 0x100 * l)

/-! HST_CTRL: 02_host_interface_and_rings.md R40 -/
def HST_CTRL.ENABLE : Fld := ⟨0xB00000, 0, 1, .rw, 0⟩
def HST_CTRL.CACHE_EN : Fld := ⟨0xB00000, 1, 1, .rw, 0⟩

/-! HST_STATUS: 02_host_interface_and_rings.md R40 -/
def HST_STATUS.READY : Fld := ⟨0xB00008, 0, 1, .ro, 0⟩
def HST_STATUS.RUNNING : Fld := ⟨0xB00008, 1, 1, .ro, 0⟩
def HST_STATUS.IRON : Fld := ⟨0xB00008, 2, 1, .ro, 0⟩
def HST_STATUS.LINK_WIDTH : Fld := ⟨0xB00008, 3, 5, .ro, 0⟩
def HST_STATUS.LINK_RATE : Fld := ⟨0xB00008, 8, 3, .ro, 0⟩
def HST_STATUS.FLIT256 : Fld := ⟨0xB00008, 11, 1, .ro, 0⟩
def HST_STATUS.IDE_ON : Fld := ⟨0xB00008, 12, 1, .ro, 0⟩
def HST_STATUS.MEM_ON : Fld := ⟨0xB00008, 13, 1, .ro, 0⟩

/-! HST_ADM_CMD: 02_host_interface_and_rings.md R40 -/
def HST_ADM_CMD.LOG2SIZE : Fld := ⟨0xB00010, 0, 5, .rw, 0⟩
def HST_ADM_CMD.BASE : Fld := ⟨0xB00010, 12, 52, .rw, 0⟩

/-! HST_ADM_CPL: 02_host_interface_and_rings.md R40 -/
def HST_ADM_CPL.LOG2SIZE : Fld := ⟨0xB00018, 0, 5, .rw, 0⟩
def HST_ADM_CPL.BASE : Fld := ⟨0xB00018, 12, 52, .rw, 0⟩

/-! HST_ADM_EVT: 02_host_interface_and_rings.md R40 -/
def HST_ADM_EVT.LOG2SIZE : Fld := ⟨0xB00020, 0, 5, .rw, 0⟩
def HST_ADM_EVT.BASE : Fld := ⟨0xB00020, 12, 52, .rw, 0⟩

/-! HST_ERR: 02_host_interface_and_rings.md R40 -/
def HST_ERR.BADACC : Fld := ⟨0xB00028, 0, 1, .w1c, 0⟩
def HST_ERR.DB_MISROUTE : Fld := ⟨0xB00028, 1, 1, .w1c, 0⟩
def HST_ERR.DB_NORING : Fld := ⟨0xB00028, 2, 1, .w1c, 0⟩
def HST_ERR.DB_OVERRUN : Fld := ⟨0xB00028, 3, 1, .w1c, 0⟩
def HST_ERR.HDM_WR : Fld := ⟨0xB00028, 4, 1, .w1c, 0⟩
def HST_ERR.ADM_CFG : Fld := ⟨0xB00028, 5, 1, .w1c, 0⟩
def HST_ERR.CTX_ECC : Fld := ⟨0xB00028, 6, 1, .w1c, 0⟩

/-! HST_DB_STALE: 02_host_interface_and_rings.md R40 -/
def HST_DB_STALE.COUNT : Fld := ⟨0xB00030, 0, 32, .rc, 0⟩

/-! HST_DB_DROP: 02_host_interface_and_rings.md R40 -/
def HST_DB_DROP.COUNT : Fld := ⟨0xB00038, 0, 32, .rc, 0⟩

/-! HST_CTX_MISS: 02_host_interface_and_rings.md R40 -/
def HST_CTX_MISS.COUNT : Fld := ⟨0xB00040, 0, 64, .ro, 0⟩

/-! CUE_LEVEL: 14_cue_matrix.md R308 -/
def CUE_LEVEL.LEVEL : Fld := ⟨0xC00000, 0, 64, .ro, 0⟩

/-! CUE_CHDIS: 14_cue_matrix.md R308 -/
def CUE_CHDIS.MAP : Fld := ⟨0xC00008, 0, 64, .w1c, 0⟩

/-! CUE_LOOP: 14_cue_matrix.md R308 -/
def CUE_LOOP.MAP : Fld := ⟨0xC00010, 0, 64, .w1c, 0⟩

/-! CUE_FIRE: 14_cue_matrix.md R308 -/
def CUE_FIRE.CHANNEL : Fld := ⟨0xC00018, 0, 6, .wo, 0⟩
def CUE_FIRE.KIND : Fld := ⟨0xC00018, 6, 2, .wo, 0⟩

/-! CUE_STUCK: 14_cue_matrix.md R308 -/
def CUE_STUCK.MAP : Fld := ⟨0xC00020, 0, 40, .w1c, 0⟩

/-! CUE_CHATTER: 14_cue_matrix.md R308 -/
def CUE_CHATTER.MAP : Fld := ⟨0xC00028, 0, 40, .w1c, 0⟩

/-! CUE_FDIS: 14_cue_matrix.md R308 -/
def CUE_FDIS.MAP : Fld := ⟨0xC00030, 0, 40, .w1c, 0⟩

/-! CUE_OVR0: 14_cue_matrix.md R308 -/
def CUE_OVR0.MAP : Fld := ⟨0xC00038, 0, 64, .w1c, 0⟩

/-! CUE_OVR1: 14_cue_matrix.md R308 -/
def CUE_OVR1.MAP : Fld := ⟨0xC00040, 0, 64, .w1c, 0⟩

/-! CUE_COINC0: 14_cue_matrix.md R308 -/
def CUE_COINC0.MAP : Fld := ⟨0xC00048, 0, 64, .w1c, 0⟩

/-! CUE_COINC1: 14_cue_matrix.md R308 -/
def CUE_COINC1.MAP : Fld := ⟨0xC00050, 0, 64, .w1c, 0⟩

/-! CUE_STATUS: 14_cue_matrix.md R308 -/
def CUE_STATUS.FIRE_ERR : Fld := ⟨0xC00058, 0, 1, .w1c, 0⟩

/-! CUE_CNT: 14_cue_matrix.md R308 -/
def CUE_CNT.COUNT (n : Nat) : Fld := Fld.plus ⟨0xC00100, 0, 64, .ro, 0⟩ (0x8 * n)

/-! CUE_SNAP_SIX: 14_cue_matrix.md R308 -/
def CUE_SNAP_SIX.SIX (n : Nat) : Fld := Fld.plus ⟨0xC00200, 0, 64, .ro, 0⟩ (0x10 * n)

/-! CUE_SNAP_TAI: 14_cue_matrix.md R308 -/
def CUE_SNAP_TAI.TAI (n : Nat) : Fld := Fld.plus ⟨0xC00208, 0, 48, .ro, 0⟩ (0x10 * n)
def CUE_SNAP_TAI.SEC (n : Nat) : Fld := Fld.plus ⟨0xC00208, 48, 15, .ro, 0⟩ (0x10 * n)
def CUE_SNAP_TAI.FULL (n : Nat) : Fld := Fld.plus ⟨0xC00208, 63, 1, .rc, 0⟩ (0x10 * n)

/-! FLT_CTRL: 15_faults_and_iron.md R326 -/
def FLT_CTRL.SERVICE : Fld := ⟨0xD00000, 0, 1, .rw, 0⟩
def FLT_CTRL.IRON_REQ : Fld := ⟨0xD00000, 1, 1, .w1s, 0⟩
def FLT_CTRL.EXIT : Fld := ⟨0xD00000, 2, 1, .w1s, 0⟩
def FLT_CTRL.FFL_MIN : Fld := ⟨0xD00000, 3, 3, .rws, 2⟩

/-! FLT_STATUS: 15_faults_and_iron.md R326 -/
def FLT_STATUS.SERVICE : Fld := ⟨0xD00008, 0, 1, .ro, 0⟩
def FLT_STATUS.IRON : Fld := ⟨0xD00008, 1, 1, .ro, 0⟩
def FLT_STATUS.REACT : Fld := ⟨0xD00008, 2, 1, .ro, 0⟩
def FLT_STATUS.RCLASS : Fld := ⟨0xD00008, 3, 3, .ro, 0⟩
def FLT_STATUS.RSRC : Fld := ⟨0xD00008, 6, 10, .ro, 0⟩
def FLT_STATUS.EXIT_FAIL : Fld := ⟨0xD00008, 16, 1, .w1c, 0⟩
def FLT_STATUS.EXIT_WHY : Fld := ⟨0xD00008, 17, 2, .ro, 0⟩
def FLT_STATUS.PEND : Fld := ⟨0xD00008, 32, 11, .ro, 0⟩

/-! FLT_IRON: 15_faults_and_iron.md R326 -/
def FLT_IRON.REASON : Fld := ⟨0xD00010, 0, 16, .ro, 0⟩
def FLT_IRON.SRC : Fld := ⟨0xD00010, 16, 10, .ro, 0⟩
def FLT_IRON.COUNT : Fld := ⟨0xD00010, 32, 32, .ro, 0⟩

/-! FLT_CNT: 15_faults_and_iron.md R326 -/
def FLT_CNT.BITS : Fld := ⟨0xD00018, 0, 64, .rc, 0⟩

/-! FLT_ACK: 15_faults_and_iron.md R326 -/
def FLT_ACK.SRC : Fld := ⟨0xD00020, 0, 10, .wo, 0⟩

/-! FLT_FFL0: 15_faults_and_iron.md R326 -/
def FLT_FFL0.SRC : Fld := ⟨0xD00028, 0, 10, .rws, 0⟩
def FLT_FFL0.CLASS : Fld := ⟨0xD00028, 10, 3, .rws, 0⟩
def FLT_FFL0.VALID : Fld := ⟨0xD00028, 13, 1, .rws, 0⟩
def FLT_FFL0.OVF : Fld := ⟨0xD00028, 14, 1, .rws, 0⟩
def FLT_FFL0.REASON : Fld := ⟨0xD00028, 16, 16, .rws, 0⟩

/-! FLT_FFL1: 15_faults_and_iron.md R326 -/
def FLT_FFL1.SIX : Fld := ⟨0xD00030, 0, 64, .rws, 0⟩

/-! FLT_STICKY: 15_faults_and_iron.md R326 -/
def FLT_STICKY.MAP (n : Nat) : Fld := Fld.plus ⟨0xD00100, 0, 64, .w1c, 0⟩ (0x8 * n)

/-! FLT_RAIL: 15_faults_and_iron.md R326 -/
def FLT_RAIL.MAP (n : Nat) : Fld := Fld.plus ⟨0xD00200, 0, 64, .w1c, 0⟩ (0x8 * n)

/-! FLT_LIVE: 15_faults_and_iron.md R326 -/
def FLT_LIVE.MAP (n : Nat) : Fld := Fld.plus ⟨0xD00300, 0, 64, .ro, 0⟩ (0x8 * n)

/-! DUO_STATUS: 16_duet_and_spares.md R348 -/
def DUO_STATUS.EPOCH : Fld := ⟨0xE00000, 0, 16, .ro, 0⟩
def DUO_STATUS.RANK : Fld := ⟨0xE00000, 16, 4, .ro, 0⟩
def DUO_STATUS.PAIRED : Fld := ⟨0xE00000, 20, 1, .ro, 0⟩
def DUO_STATUS.ACCEPTED : Fld := ⟨0xE00000, 21, 1, .ro, 0⟩
def DUO_STATUS.PARTNER_OK : Fld := ⟨0xE00000, 22, 1, .ro, 0⟩
def DUO_STATUS.SWAP_PEND : Fld := ⟨0xE00000, 23, 1, .ro, 0⟩
def DUO_STATUS.WITHDRAWN : Fld := ⟨0xE00000, 24, 1, .ro, 0⟩
def DUO_STATUS.REPLACE : Fld := ⟨0xE00000, 25, 1, .ro, 0⟩

/-! DUO_PARTNER: 16_duet_and_spares.md R348 -/
def DUO_PARTNER.EPOCH : Fld := ⟨0xE00008, 0, 16, .ro, 0⟩
def DUO_PARTNER.RANK : Fld := ⟨0xE00008, 16, 4, .ro, 0⟩
def DUO_PARTNER.CHIP : Fld := ⟨0xE00008, 20, 11, .ro, 0⟩
def DUO_PARTNER.IRON : Fld := ⟨0xE00008, 31, 1, .ro, 0⟩
def DUO_PARTNER.REPLACE : Fld := ⟨0xE00008, 32, 1, .ro, 0⟩

/-! DUO_SWAPDW: 16_duet_and_spares.md R348 -/
def DUO_SWAPDW.DWELL : Fld := ⟨0xE00010, 0, 64, .ro, 0⟩

/-! DUO_REPLACE: 16_duet_and_spares.md R348 -/
def DUO_REPLACE.BITS : Fld := ⟨0xE00018, 0, 4, .ro, 0⟩

/-! DUO_SPARE: 16_duet_and_spares.md R348 -/
def DUO_SPARE.ROW_RET : Fld := ⟨0xE00020, 0, 6, .ro, 63⟩
def DUO_SPARE.COL_RET : Fld := ⟨0xE00020, 6, 6, .ro, 63⟩
def DUO_SPARE.ROWS : Fld := ⟨0xE00020, 12, 6, .ro, 33⟩
def DUO_SPARE.COLS : Fld := ⟨0xE00020, 18, 6, .ro, 33⟩
def DUO_SPARE.PIT_MAP : Fld := ⟨0xE00020, 28, 28, .ro, 268435455⟩

/-! DUO_ROWMAP: 16_duet_and_spares.md R348 -/
def DUO_ROWMAP.MAP : Fld := ⟨0xE00028, 0, 33, .ro, 0⟩

/-! DUO_COLMAP: 16_duet_and_spares.md R348 -/
def DUO_COLMAP.MAP : Fld := ⟨0xE00030, 0, 33, .ro, 0⟩

/-! DUO_MISM: 16_duet_and_spares.md R348 -/
def DUO_MISM.UNEXPL : Fld := ⟨0xE00038, 0, 16, .rc, 0⟩
def DUO_MISM.EXPL : Fld := ⟨0xE00038, 16, 16, .rc, 0⟩
def DUO_MISM.SKIP : Fld := ⟨0xE00038, 32, 16, .rc, 0⟩
def DUO_MISM.HB_LOSS : Fld := ⟨0xE00038, 48, 16, .rc, 0⟩

/-! PWR_STATUS: 18_power_reset_and_states.md R395 -/
def PWR_STATUS.STATE : Fld := ⟨0xF00000, 0, 2, .ro, 1⟩
def PWR_STATUS.TARGET : Fld := ⟨0xF00000, 2, 2, .ro, 1⟩
def PWR_STATUS.BUSY : Fld := ⟨0xF00000, 4, 1, .ro, 0⟩
def PWR_STATUS.CLK_STEP : Fld := ⟨0xF00000, 5, 3, .ro, 0⟩
def PWR_STATUS.THETA : Fld := ⟨0xF00000, 8, 8, .ro, 0⟩
def PWR_STATUS.AVS_REQ : Fld := ⟨0xF00000, 16, 8, .ro, 30⟩
def PWR_STATUS.AVS_APPLIED : Fld := ⟨0xF00000, 24, 8, .ro, 0⟩

/-! PWR_BLKRST: 18_power_reset_and_states.md R395 -/
def PWR_BLKRST.BITS : Fld := ⟨0xF00008, 0, 5, .w1s, 0⟩

/-! PWR_EMERG: 18_power_reset_and_states.md R395 -/
def PWR_EMERG.HOLD_NOW : Fld := ⟨0xF00010, 0, 1, .w1s, 0⟩
def PWR_EMERG.CLK_MIN : Fld := ⟨0xF00010, 1, 1, .rw, 0⟩

/-! SCP_STATUS: 03_scripts_and_consistency.md R69 -/
def SCP_STATUS.PENDING : Fld := ⟨0x1000000, 0, 1, .ro, 0⟩
def SCP_STATUS.IDLE_PEND : Fld := ⟨0x1000000, 1, 1, .ro, 0⟩
def SCP_STATUS.STAGED : Fld := ⟨0x1000000, 2, 1, .ro, 0⟩
def SCP_STATUS.STAGED_RECORDS : Fld := ⟨0x1000000, 16, 16, .ro, 0⟩
def SCP_STATUS.IMAGES : Fld := ⟨0x1000000, 32, 3, .ro, 0⟩

/-! SCP_PEND_DWELL: 03_scripts_and_consistency.md R69 -/
def SCP_PEND_DWELL.DWELL : Fld := ⟨0x1000008, 0, 64, .ro, 0⟩

/-! SCP_COMMIT_DWELL: 03_scripts_and_consistency.md R69 -/
def SCP_COMMIT_DWELL.DWELL : Fld := ⟨0x1000010, 0, 64, .ro, 0⟩

/-! SCP_DIGEST: 03_scripts_and_consistency.md R69 -/
def SCP_DIGEST.WORD (n : Nat) : Fld := Fld.plus ⟨0x1000020, 0, 64, .ro, 0⟩ (0x8 * n)

/-! SCP_LDIGEST: 03_scripts_and_consistency.md R69 -/
def SCP_LDIGEST.WORD (n : Nat) : Fld := Fld.plus ⟨0x1000040, 0, 64, .ro, 0⟩ (0x8 * n)

/-! SCP_RC_CTRL: 03_scripts_and_consistency.md R69 -/
def SCP_RC_CTRL.POS : Fld := ⟨0x1000060, 0, 6, .rws, 0⟩
def SCP_RC_CTRL.ENABLE : Fld := ⟨0x1000060, 8, 1, .rws, 0⟩
def SCP_RC_CTRL.MASTER : Fld := ⟨0x1000060, 9, 1, .rws, 0⟩
def SCP_RC_CTRL.ATTN : Fld := ⟨0x1000060, 12, 1, .w1c, 0⟩
def SCP_RC_CTRL.ATTN_EN : Fld := ⟨0x1000060, 16, 4, .rws, 0⟩

/-! SCP_RC_QUERY: 03_scripts_and_consistency.md R69 -/
def SCP_RC_QUERY.CODE : Fld := ⟨0x1000068, 0, 8, .rw, 0⟩
def SCP_RC_QUERY.GO : Fld := ⟨0x1000068, 8, 1, .w1s, 0⟩
def SCP_RC_QUERY.BUSY : Fld := ⟨0x1000068, 9, 1, .ro, 0⟩
def SCP_RC_QUERY.DONE : Fld := ⟨0x1000068, 10, 1, .w1c, 0⟩

/-! SCP_RC_H: 03_scripts_and_consistency.md R69 -/
def SCP_RC_H.LOW : Fld := ⟨0x1000070, 0, 64, .ro, 0⟩

/-! SCP_RC_L: 03_scripts_and_consistency.md R69 -/
def SCP_RC_L.LOW : Fld := ⟨0x1000078, 0, 64, .ro, 0⟩

/-! SCP_BEACON_MISMATCH: 03_scripts_and_consistency.md R69 -/
def SCP_BEACON_MISMATCH.COUNT : Fld := ⟨0x1000080, 0, 32, .rc, 0⟩

/-- Registers in order of offset, part 1. -/
def regTable1 : List RegRow :=
  [ ⟨0x0, [], [CTL_ID.ID]⟩,
    ⟨0x8, [], [CTL_MATRIX.REMAP, CTL_MATRIX.NULLS, CTL_MATRIX.TIMEOUTS]⟩,
    ⟨0x10, [], [CTL_CORES.STATE, CTL_CORES.AREA, CTL_CORES.HB]⟩,
    ⟨0x18, [], [CTL_WDOG.CORE_TO, CTL_WDOG.ABSENT_TO]⟩,
    ⟨0x20, [], [CTL_BOOT.SEL, CTL_BOOT.STAGE, CTL_BOOT.ERR, CTL_BOOT.SOURCE]⟩,
    ⟨0x28, [], [CTL_SEC.ROOT_USED, CTL_SEC.REVOKED, CTL_SEC.FUSE_CNT, CTL_SEC.OWNER, CTL_SEC.POLICY, CTL_SEC.DEBUG, CTL_SEC.MFG_LOCK, CTL_SEC.FLOOR, CTL_SEC.SVN]⟩,
    ⟨0x30, [(0x8, 4)], [CTL_NONCE.WORD 0]⟩,
    ⟨0x50, [], [CTL_PUSH.LEN, CTL_PUSH.GO, CTL_PUSH.LAST, CTL_PUSH.BUSY]⟩,
    ⟨0x100, [], [CTL_CAP0.STG_WIDTH, CTL_CAP0.STG_HEIGHT, CTL_CAP0.ENG_SPARE_ROW, CTL_CAP0.ENG_SPARE_COL, CTL_CAP0.ACC_FMT, CTL_CAP0.MODES, CTL_CAP0.PARTS]⟩,
    ⟨0x108, [], [CTL_CAP1.PIT_CLUSTERS, CTL_CAP1.PIT_SPARES, CTL_CAP1.STO_PC, CTL_CAP1.STO_CAP, CTL_CAP1.ING_PORTS, CTL_CAP1.FAB_PORTS]⟩,
    ⟨0x110, [], [CTL_CAP2.MAX_INPUTS, CTL_CAP2.MAX_CHANNELS, CTL_CAP2.MAX_PLAN, CTL_CAP2.SUBARRAYS]⟩,
    ⟨0x118, [], [CTL_CAP3.FW_VERSION, CTL_CAP3.STEPPING, CTL_CAP3.CAP_SEQ]⟩,
    ⟨0x80000, [(0x8, 65536)], [CTL_PUSH_WIN.DATA 0]⟩,
    ⟨0x100000, [], [HCK_CTRL.REVERT, HCK_CTRL.OPEN, HCK_CTRL.PPSA_EN, HCK_CTRL.PPSB_EN, HCK_CTRL.REFA_FREQ, HCK_CTRL.REFB_FREQ, HCK_CTRL.WTR]⟩,
    ⟨0x100008, [], [HCK_PRIO0.ENT0, HCK_PRIO0.ENT1, HCK_PRIO0.ENT2, HCK_PRIO0.ENT3]⟩,
    ⟨0x100010, [], [HCK_PRIO1.ENT4, HCK_PRIO1.ENT5, HCK_PRIO1.ENT6, HCK_PRIO1.ENT7]⟩,
    ⟨0x100018, [], [HCK_BW0.BW_REF, HCK_BW0.BW_LINK]⟩,
    ⟨0x100020, [], [HCK_BW1.BW_FAB, HCK_BW1.BW_PTP]⟩,
    ⟨0x100028, [], [HCK_THRESH.SOFT, HCK_THRESH.HARD]⟩,
    ⟨0x100030, [], [HCK_TIMING.VALID_WIN, HCK_TIMING.HOLD_AVG, HCK_TIMING.LOCK_PS, HCK_TIMING.PSL]⟩,
    ⟨0x100038, [], [HCK_HOLD.HOLD_MAX, HCK_HOLD.SWDOG]⟩,
    ⟨0x100040, [], [HCK_FOW.FOW]⟩,
    ⟨0x100048, [], [HCK_STATUS.STATE, HCK_STATUS.ACTIVE, HCK_STATUS.ACT_VALID, HCK_STATUS.DISPUTE, HCK_STATUS.XO_HIST, HCK_STATUS.SER_LOCK, HCK_STATUS.SWLOOP, HCK_STATUS.PPSA_OK, HCK_STATUS.PPSB_OK, HCK_STATUS.ENT_STATE]⟩,
    ⟨0x100050, [(0x8, 8)], [HCK_ENT.DEV 0, HCK_ENT.EXCESS 0, HCK_ENT.WTR_LEFT 0]⟩ ]

/-- Registers in order of offset, part 2. -/
def regTable2 : List RegRow :=
  [ ⟨0x100090, [], [HCK_PBO.LAST_PS, HCK_PBO.SWITCHES]⟩,
    ⟨0x100098, [], [HCK_DCO.OFFSET]⟩,
    ⟨0x1000A0, [], [HCK_EVT.BITS]⟩,
    ⟨0x200000, [], [TIM_CTRL.PREF_DOM, TIM_CTRL.REVERT, TIM_CTRL.TC_EN, TIM_CTRL.FREE_EPOCH, TIM_CTRL.EPOCH_CLR, TIM_CTRL.STEP_ARM, TIM_CTRL.DOM_WTR, TIM_CTRL.SERVO_BW]⟩,
    ⟨0x200008, [], [TIM_STATUS.EPOCH, TIM_STATUS.TAI_VALID, TIM_STATUS.SERVO, TIM_STATUS.ACT_DOM, TIM_STATUS.SLEWING, TIM_STATUS.USABLE, TIM_STATUS.FAULTY]⟩,
    ⟨0x200010, [], [TIM_DOM0.DOMAIN, TIM_DOM0.MAJOR_SDO, TIM_DOM0.EN, TIM_DOM0.ANN_TO, TIM_DOM0.LOG_DREQ]⟩,
    ⟨0x200018, [], [TIM_DOM1.DOMAIN, TIM_DOM1.MAJOR_SDO, TIM_DOM1.EN, TIM_DOM1.ANN_TO, TIM_DOM1.LOG_DREQ]⟩,
    ⟨0x200020, [], [TIM_PORT0_CFG.TRANSPORT, TIM_PORT0_CFG.UNI_DREQ, TIM_PORT0_CFG.FEC, TIM_PORT0_CFG.IPV4]⟩,
    ⟨0x200028, [], [TIM_PORT1_CFG.TRANSPORT, TIM_PORT1_CFG.UNI_DREQ, TIM_PORT1_CFG.FEC, TIM_PORT1_CFG.IPV4]⟩,
    ⟨0x200030, [], [TIM_PORT0_CAL.ASYM, TIM_PORT0_CAL.RXLAT, TIM_PORT0_CAL.TXLAT]⟩,
    ⟨0x200038, [], [TIM_PORT1_CAL.ASYM, TIM_PORT1_CAL.RXLAT, TIM_PORT1_CAL.TXLAT]⟩,
    ⟨0x200040, [], [TIM_LIMITS.SLEW_PPB, TIM_LIMITS.STEP_LIM]⟩,
    ⟨0x200048, [], [TIM_SNAP_SEC.SEC]⟩,
    ⟨0x200050, [], [TIM_SNAP_LO.LO]⟩,
    ⟨0x200058, [], [TIM_SNAP_SIX.SIX]⟩,
    ⟨0x200060, [], [TIM_EPS.VALUE]⟩,
    ⟨0x200068, [], [TIM_DOM_OFS.VALUE]⟩,
    ⟨0x200070, [], [TIM_OFS_ACT.VALUE]⟩,
    ⟨0x200078, [], [TIM_PPS_OFS.PPSA, TIM_PPS_OFS.PPSB]⟩,
    ⟨0x200080, [], [TIM_PORT_DROP.PORT0, TIM_PORT_DROP.PORT1]⟩,
    ⟨0x200088, [], [TIM_EVT.BITS]⟩,
    ⟨0x200100, [(0x20, 8)], [TIM_CMP_CTRL.ARM 0, TIM_CMP_CTRL.MODE 0, TIM_CMP_CTRL.PERIODIC 0, TIM_CMP_CTRL.FIRED 0, TIM_CMP_CTRL.LATE 0, TIM_CMP_CTRL.WERR 0]⟩,
    ⟨0x200108, [(0x20, 8)], [TIM_CMP_TARGET_HI.TARGET_HI 0]⟩,
    ⟨0x200110, [(0x20, 8)], [TIM_CMP_TARGET_LO.TARGET_LO 0]⟩ ]

/-- Registers in order of offset, part 3. -/
def regTable3 : List RegRow :=
  [ ⟨0x200118, [(0x20, 8)], [TIM_CMP_PERIOD.PERIOD 0]⟩,
    ⟨0x300000, [], [ING_STATUS.UP, ING_STATUS.DEG]⟩,
    ⟨0x310000, [(0x1000, 24)], [ING_P_CTRL.EN 0, ING_P_CTRL.MODE 0, ING_P_CTRL.LD_EN 0, ING_P_CTRL.ADAPT_FREEZE 0, ING_P_CTRL.POL 0]⟩,
    ⟨0x310008, [(0x1000, 24)], [ING_P_STATUS.STATE 0, ING_P_STATUS.LOCK 0, ING_P_STATUS.LMAP 0, ING_P_STATUS.DROP_REQ 0, ING_P_STATUS.LD_CAP 0, ING_P_STATUS.FLOW 0, ING_P_STATUS.DSK 0]⟩,
    ⟨0x310010, [(0x1000, 24)], [ING_P_PKT.COUNT 0]⟩,
    ⟨0x310018, [(0x1000, 24)], [ING_P_FEC.CORR 0, ING_P_FEC.UNCORR 0]⟩,
    ⟨0x310020, [(0x1000, 24)], [ING_P_SEQGAP.COUNT 0]⟩,
    ⟨0x310040, [(0x1000, 24), (0x8, 12)], [ING_P_DISC.COUNT 0 0]⟩,
    ⟨0x310100, [(0x1000, 24), (0x100, 4)], [ING_P_L_TXEQ.PRE 0 0, ING_P_L_TXEQ.POST 0 0, ING_P_L_TXEQ.AMP 0 0]⟩,
    ⟨0x310108, [(0x1000, 24), (0x100, 4)], [ING_P_L_RXEQ.CTLE 0 0, ING_P_L_RXEQ.DFE 0 0, ING_P_L_RXEQ.EYE 0 0]⟩,
    ⟨0x310110, [(0x1000, 24), (0x100, 4)], [ING_P_L_SER.SYMERR 0 0]⟩,
    ⟨0x400000, [], [PIT_STATUS.INGEST, PIT_STATUS.BEAM, PIT_STATUS.SWAP_PEND, PIT_STATUS.FLIP_PEND]⟩,
    ⟨0x400008, [], [PIT_NOROUTE.COUNT]⟩,
    ⟨0x410000, [(0x40, 128)], [PIT_C_STATUS.PC 0, PIT_C_STATUS.BANK 0, PIT_C_STATUS.RUN 0, PIT_C_STATUS.IN_WAIT 0, PIT_C_STATUS.OUT_WAIT 0, PIT_C_STATUS.HANDLER 0, PIT_C_STATUS.HANDLER_Q 0, PIT_C_STATUS.SWAP_PEND 0, PIT_C_STATUS.FLIP_PEND 0, PIT_C_STATUS.SIDE 0, PIT_C_STATUS.TPG 0, PIT_C_STATUS.QLVL 0]⟩,
    ⟨0x410008, [(0x40, 128)], [PIT_C_FLAGS.BITS 0]⟩,
    ⟨0x410010, [(0x40, 128)], [PIT_C_LANEF.LANES 0]⟩,
    ⟨0x410018, [(0x40, 128)], [PIT_C_VEC.COUNT 0]⟩,
    ⟨0x410020, [(0x40, 128)], [PIT_C_SAT.COUNT 0]⟩,
    ⟨0x410028, [(0x40, 128)], [PIT_C_NEG8.COUNT 0]⟩,
    ⟨0x410030, [(0x40, 128)], [PIT_C_CYC.LOOP_MAX 0, PIT_C_CYC.QHW 0]⟩,
    ⟨0x500000, [], [STO_STATUS.READY, STO_STATUS.ALL_SR, STO_STATUS.HOT, STO_STATUS.FENCES, STO_STATUS.TRAINING]⟩,
    ⟨0x500008, [(0x8, 4)], [STO_FENCE.MAP 0]⟩,
    ⟨0x500028, [(0x8, 4)], [STO_SR.MAP 0]⟩,
    ⟨0x500048, [], [STO_CE.COUNT]⟩ ]

/-- Registers in order of offset, part 4. -/
def regTable4 : List RegRow :=
  [ ⟨0x500050, [], [STO_UE.COUNT]⟩,
    ⟨0x500058, [], [STO_PSN_RD.COUNT]⟩,
    ⟨0x500060, [], [STO_ADD_OVF.COUNT]⟩,
    ⟨0x500068, [], [STO_DENY.COUNT]⟩,
    ⟨0x500070, [], [STO_UE_ADDR.ADDR, STO_UE_ADDR.PC]⟩,
    ⟨0x500078, [], [STO_TEMP.STACKS]⟩,
    ⟨0x500100, [(0x8, 10)], [STO_LATE.COUNT 0, STO_LATE.MAXW 0]⟩,
    ⟨0x510000, [(0x40, 256)], [STO_PC_STAT.STATE 0, STO_PC_STAT.TRAINING 0, STO_PC_STAT.LKG 0, STO_PC_STAT.TEMP_TRAIN 0, STO_PC_STAT.DEBT_MAX 0, STO_PC_STAT.TRAINS 0]⟩,
    ⟨0x510008, [(0x40, 256)], [STO_PC_CE.COUNT 0]⟩,
    ⟨0x510010, [(0x40, 256)], [STO_PC_MARGIN.READ 0, STO_PC_MARGIN.WRITE 0, STO_PC_MARGIN.VREF 0]⟩,
    ⟨0x600000, [], [MOV_RUNNING.MAP]⟩,
    ⟨0x600008, [], [MOV_HALTED.MAP]⟩,
    ⟨0x600010, [], [MOV_UNBOUND.COUNT]⟩,
    ⟨0x610000, [(0x40, 64)], [MOV_M_STATE.STATE 0, MOV_M_STATE.PACE_WAIT 0, MOV_M_STATE.LAST_CODE 0]⟩,
    ⟨0x610008, [(0x40, 64)], [MOV_M_DESC.ADDR 0]⟩,
    ⟨0x610010, [(0x40, 64)], [MOV_M_BYTES.COUNT 0]⟩,
    ⟨0x610018, [(0x40, 64)], [MOV_M_SURPLUS.COUNT 0]⟩,
    ⟨0x610020, [(0x40, 64)], [MOV_M_DROP.COUNT 0]⟩,
    ⟨0x610028, [(0x40, 64)], [MOV_M_RETRY.COUNT 0]⟩,
    ⟨0x610030, [(0x40, 64)], [MOV_M_NEG128.COUNT 0]⟩,
    ⟨0x700000, [], [STG_STATUS.PMODE, STG_STATUS.REPLAY, STG_STATUS.STOPPED, STG_STATUS.FMT_WAIT]⟩,
    ⟨0x700008, [], [STG_DWELL.DWELL]⟩,
    ⟨0x700010, [], [STG_POISON.COUNT]⟩,
    ⟨0x700018, [], [STG_TRUNC.COUNT]⟩ ]

/-- Registers in order of offset, part 5. -/
def regTable5 : List RegRow :=
  [ ⟨0x700020, [], [STG_DRAINED.COUNT]⟩,
    ⟨0x700028, [], [STG_EVT.BITS]⟩,
    ⟨0x700100, [(0x8, 16)], [STG_PART.ENTRY 0, STG_PART.BUSY 0, STG_PART.ACC_SLOT 0, STG_PART.WAITING 0, STG_PART.DRAINING 0, STG_PART.FMT 0, STG_PART.CSLOTS 0]⟩,
    ⟨0x700200, [(0x8, 16)], [STG_STALL.SLOT 0, STG_STALL.FEED 0]⟩,
    ⟨0x800000, [], [BEM_STATUS.ACT_BANK, BEM_STATUS.LOAD_BUSY, BEM_STATUS.LOAD_WAIT, BEM_STATUS.RESV]⟩,
    ⟨0x800008, [], [BEM_WDIG0.TAG]⟩,
    ⟨0x800010, [], [BEM_WDIG1.TAG]⟩,
    ⟨0x800018, [], [BEM_RECS.FILLING, BEM_RECS.FULL]⟩,
    ⟨0x800020, [], [BEM_SAT.COUNT]⟩,
    ⟨0x800028, [], [BEM_LATE.COUNT]⟩,
    ⟨0x800030, [], [BEM_STALL0.WLOAD, BEM_STALL0.STAGE]⟩,
    ⟨0x800038, [], [BEM_STALL1.OUT]⟩,
    ⟨0x800040, [], [BEM_RELEASED.COUNT]⟩,
    ⟨0x800048, [], [BEM_EVT.BITS]⟩,
    ⟨0x900000, [], [PRD_STATUS.B0_STATE, PRD_STATUS.B1_STATE, PRD_STATUS.B0_GEN, PRD_STATUS.B1_GEN, PRD_STATUS.SWEEP]⟩,
    ⟨0x900008, [], [PRD_B0_INTEG.INTEG]⟩,
    ⟨0x900010, [], [PRD_B1_INTEG.INTEG]⟩,
    ⟨0x900018, [], [PRD_B0_MARKS.DWELLS, PRD_B0_MARKS.MARKS]⟩,
    ⟨0x900020, [], [PRD_B1_MARKS.DWELLS, PRD_B1_MARKS.MARKS]⟩,
    ⟨0x900028, [], [PRD_CLOSED.COUNT]⟩,
    ⟨0x900030, [], [PRD_LATE.COUNT]⟩,
    ⟨0x900038, [], [PRD_FORCED.COUNT]⟩,
    ⟨0x900040, [], [PRD_STALE.COUNT]⟩,
    ⟨0x900048, [], [PRD_EVT.BITS]⟩ ]

/-- Registers in order of offset, part 6. -/
def regTable6 : List RegRow :=
  [ ⟨0xA00000, [], [FAB_STATUS.UP, FAB_STATUS.DEG]⟩,
    ⟨0xA10000, [(0x1000, 8)], [FAB_P_CTRL.EN 0, FAB_P_CTRL.LD_EN 0, FAB_P_CTRL.ADAPT_FREEZE 0, FAB_P_CTRL.POL 0]⟩,
    ⟨0xA10008, [(0x1000, 8)], [FAB_P_STATUS.STATE 0, FAB_P_STATUS.LOCK 0, FAB_P_STATUS.LMAP 0, FAB_P_STATUS.DROP_REQ 0, FAB_P_STATUS.CRED_OK 0, FAB_P_STATUS.NEIGH 0, FAB_P_STATUS.NEIGH_VALID 0]⟩,
    ⟨0xA10010, [(0x1000, 8)], [FAB_P_PKT.TX 0, FAB_P_PKT.RX 0]⟩,
    ⟨0xA10018, [(0x1000, 8)], [FAB_P_DISC0.FEC 0, FAB_P_DISC0.HCRC 0, FAB_P_DISC0.CLASS 0, FAB_P_DISC0.ROUTE 0]⟩,
    ⟨0xA10020, [(0x1000, 8)], [FAB_P_DISC1.CLAIM 0, FAB_P_DISC1.LATE 0, FAB_P_DISC1.REFUSED 0, FAB_P_DISC1.WINDOW 0]⟩,
    ⟨0xA10028, [(0x1000, 8)], [FAB_P_EGQ.LEVEL 0, FAB_P_EGQ.HWM 0]⟩,
    ⟨0xA10100, [(0x1000, 8), (0x100, 4)], [FAB_P_L_TXEQ.PRE 0 0, FAB_P_L_TXEQ.POST 0 0, FAB_P_L_TXEQ.AMP 0 0]⟩,
    ⟨0xA10108, [(0x1000, 8), (0x100, 4)], [FAB_P_L_RXEQ.CTLE 0 0, FAB_P_L_RXEQ.DFE 0 0, FAB_P_L_RXEQ.EYE 0 0]⟩,
    ⟨0xA10110, [(0x1000, 8), (0x100, 4)], [FAB_P_L_SER.SYMERR 0 0]⟩,
    ⟨0xB00000, [], [HST_CTRL.ENABLE, HST_CTRL.CACHE_EN]⟩,
    ⟨0xB00008, [], [HST_STATUS.READY, HST_STATUS.RUNNING, HST_STATUS.IRON, HST_STATUS.LINK_WIDTH, HST_STATUS.LINK_RATE, HST_STATUS.FLIT256, HST_STATUS.IDE_ON, HST_STATUS.MEM_ON]⟩,
    ⟨0xB00010, [], [HST_ADM_CMD.LOG2SIZE, HST_ADM_CMD.BASE]⟩,
    ⟨0xB00018, [], [HST_ADM_CPL.LOG2SIZE, HST_ADM_CPL.BASE]⟩,
    ⟨0xB00020, [], [HST_ADM_EVT.LOG2SIZE, HST_ADM_EVT.BASE]⟩,
    ⟨0xB00028, [], [HST_ERR.BADACC, HST_ERR.DB_MISROUTE, HST_ERR.DB_NORING, HST_ERR.DB_OVERRUN, HST_ERR.HDM_WR, HST_ERR.ADM_CFG, HST_ERR.CTX_ECC]⟩,
    ⟨0xB00030, [], [HST_DB_STALE.COUNT]⟩,
    ⟨0xB00038, [], [HST_DB_DROP.COUNT]⟩,
    ⟨0xB00040, [], [HST_CTX_MISS.COUNT]⟩,
    ⟨0xC00000, [], [CUE_LEVEL.LEVEL]⟩,
    ⟨0xC00008, [], [CUE_CHDIS.MAP]⟩,
    ⟨0xC00010, [], [CUE_LOOP.MAP]⟩,
    ⟨0xC00018, [], [CUE_FIRE.CHANNEL, CUE_FIRE.KIND]⟩,
    ⟨0xC00020, [], [CUE_STUCK.MAP]⟩ ]

/-- Registers in order of offset, part 7. -/
def regTable7 : List RegRow :=
  [ ⟨0xC00028, [], [CUE_CHATTER.MAP]⟩,
    ⟨0xC00030, [], [CUE_FDIS.MAP]⟩,
    ⟨0xC00038, [], [CUE_OVR0.MAP]⟩,
    ⟨0xC00040, [], [CUE_OVR1.MAP]⟩,
    ⟨0xC00048, [], [CUE_COINC0.MAP]⟩,
    ⟨0xC00050, [], [CUE_COINC1.MAP]⟩,
    ⟨0xC00058, [], [CUE_STATUS.FIRE_ERR]⟩,
    ⟨0xC00100, [(0x8, 16)], [CUE_CNT.COUNT 0]⟩,
    ⟨0xC00200, [(0x10, 16)], [CUE_SNAP_SIX.SIX 0]⟩,
    ⟨0xC00208, [(0x10, 16)], [CUE_SNAP_TAI.TAI 0, CUE_SNAP_TAI.SEC 0, CUE_SNAP_TAI.FULL 0]⟩,
    ⟨0xD00000, [], [FLT_CTRL.SERVICE, FLT_CTRL.IRON_REQ, FLT_CTRL.EXIT, FLT_CTRL.FFL_MIN]⟩,
    ⟨0xD00008, [], [FLT_STATUS.SERVICE, FLT_STATUS.IRON, FLT_STATUS.REACT, FLT_STATUS.RCLASS, FLT_STATUS.RSRC, FLT_STATUS.EXIT_FAIL, FLT_STATUS.EXIT_WHY, FLT_STATUS.PEND]⟩,
    ⟨0xD00010, [], [FLT_IRON.REASON, FLT_IRON.SRC, FLT_IRON.COUNT]⟩,
    ⟨0xD00018, [], [FLT_CNT.BITS]⟩,
    ⟨0xD00020, [], [FLT_ACK.SRC]⟩,
    ⟨0xD00028, [], [FLT_FFL0.SRC, FLT_FFL0.CLASS, FLT_FFL0.VALID, FLT_FFL0.OVF, FLT_FFL0.REASON]⟩,
    ⟨0xD00030, [], [FLT_FFL1.SIX]⟩,
    ⟨0xD00100, [(0x8, 16)], [FLT_STICKY.MAP 0]⟩,
    ⟨0xD00200, [(0x8, 16)], [FLT_RAIL.MAP 0]⟩,
    ⟨0xD00300, [(0x8, 16)], [FLT_LIVE.MAP 0]⟩,
    ⟨0xE00000, [], [DUO_STATUS.EPOCH, DUO_STATUS.RANK, DUO_STATUS.PAIRED, DUO_STATUS.ACCEPTED, DUO_STATUS.PARTNER_OK, DUO_STATUS.SWAP_PEND, DUO_STATUS.WITHDRAWN, DUO_STATUS.REPLACE]⟩,
    ⟨0xE00008, [], [DUO_PARTNER.EPOCH, DUO_PARTNER.RANK, DUO_PARTNER.CHIP, DUO_PARTNER.IRON, DUO_PARTNER.REPLACE]⟩,
    ⟨0xE00010, [], [DUO_SWAPDW.DWELL]⟩,
    ⟨0xE00018, [], [DUO_REPLACE.BITS]⟩ ]

/-- Registers in order of offset, part 8. -/
def regTable8 : List RegRow :=
  [ ⟨0xE00020, [], [DUO_SPARE.ROW_RET, DUO_SPARE.COL_RET, DUO_SPARE.ROWS, DUO_SPARE.COLS, DUO_SPARE.PIT_MAP]⟩,
    ⟨0xE00028, [], [DUO_ROWMAP.MAP]⟩,
    ⟨0xE00030, [], [DUO_COLMAP.MAP]⟩,
    ⟨0xE00038, [], [DUO_MISM.UNEXPL, DUO_MISM.EXPL, DUO_MISM.SKIP, DUO_MISM.HB_LOSS]⟩,
    ⟨0xF00000, [], [PWR_STATUS.STATE, PWR_STATUS.TARGET, PWR_STATUS.BUSY, PWR_STATUS.CLK_STEP, PWR_STATUS.THETA, PWR_STATUS.AVS_REQ, PWR_STATUS.AVS_APPLIED]⟩,
    ⟨0xF00008, [], [PWR_BLKRST.BITS]⟩,
    ⟨0xF00010, [], [PWR_EMERG.HOLD_NOW, PWR_EMERG.CLK_MIN]⟩,
    ⟨0x1000000, [], [SCP_STATUS.PENDING, SCP_STATUS.IDLE_PEND, SCP_STATUS.STAGED, SCP_STATUS.STAGED_RECORDS, SCP_STATUS.IMAGES]⟩,
    ⟨0x1000008, [], [SCP_PEND_DWELL.DWELL]⟩,
    ⟨0x1000010, [], [SCP_COMMIT_DWELL.DWELL]⟩,
    ⟨0x1000020, [(0x8, 4)], [SCP_DIGEST.WORD 0]⟩,
    ⟨0x1000040, [(0x8, 4)], [SCP_LDIGEST.WORD 0]⟩,
    ⟨0x1000060, [], [SCP_RC_CTRL.POS, SCP_RC_CTRL.ENABLE, SCP_RC_CTRL.MASTER, SCP_RC_CTRL.ATTN, SCP_RC_CTRL.ATTN_EN]⟩,
    ⟨0x1000068, [], [SCP_RC_QUERY.CODE, SCP_RC_QUERY.GO, SCP_RC_QUERY.BUSY, SCP_RC_QUERY.DONE]⟩,
    ⟨0x1000070, [], [SCP_RC_H.LOW]⟩,
    ⟨0x1000078, [], [SCP_RC_L.LOW]⟩,
    ⟨0x1000080, [], [SCP_BEACON_MISMATCH.COUNT]⟩ ]

/-- Every register of BAR0. -/
def regTable : List RegRow :=
  regTable1 ++ regTable2 ++ regTable3 ++ regTable4 ++ regTable5 ++ regTable6 ++ regTable7 ++ regTable8

/-- The distance of an offset from the first instance is one of the instances. -/
def isInstance : List (Nat × Nat) → Nat → Bool
  | [], d => d == 0
  | (s, c) :: r, d => decide (d / s < c) && isInstance r (d % s)

/-- The fields of the register at a BAR0 offset; none for a reserved or unassigned offset (R32). -/
def fieldsAt (off : Nat) : List Fld :=
  match regTable.find? (fun r => decide (r.off ≤ off) && isInstance r.dims (off - r.off)) with
  | some r => r.fields.map (fun f => f.plus (off - r.off))
  | none => []

/-- The field a key names, if any. -/
def fieldOfKey (k : Nat) : Option Fld := (fieldsAt (k / 64)).find? (fun f => f.lo == k % 64)

end Sys2Proof.Machine
end

