-- ==== Sys2Proof/Machine/Tbl.lean ====
section
/-!
DEFINITION. Sparse tables: a list of (key, value) pairs in one canonical form, keys strictly rising and no entry equal
to what an unlisted key reads as. The store, the register file, the script images and the ring contexts are such tables.
-/

namespace Sys2Proof.Machine

/-- A sparse table with values in `α`. -/
abbrev Tbl (α : Type) := List (Nat × α)

namespace Tbl

/-- The value at key `k`; `d` is what an unlisted key reads as. -/
def get {α : Type} (t : Tbl α) (d : α) (k : Nat) : α :=
  match t with
  | [] => d
  | (k', v) :: r => if k' = k then v else get r d k

/-- Put an entry in its place in rising order. -/
def insertSorted {α : Type} (k : Nat) (v : α) : Tbl α → Tbl α
  | [] => [(k, v)]
  | (k', v') :: r => if k < k' then (k, v) :: (k', v') :: r else (k', v') :: insertSorted k v r

/-- Remove key `k`. -/
def drop {α : Type} (t : Tbl α) (k : Nat) : Tbl α := t.filter (fun e => e.1 != k)

/-- Write `v` at key `k`. Writing what an unlisted key reads as removes the entry. -/
def set {α : Type} [DecidableEq α] (t : Tbl α) (d : α) (k : Nat) (v : α) : Tbl α :=
  if v = d then drop t k else insertSorted k v (drop t k)

/-- Keys strictly rising, all at or above `lo`, and no entry equal to the default. -/
def wfFrom {α : Type} [DecidableEq α] (d : α) : Nat → Tbl α → Bool
  | _, [] => true
  | lo, (k, v) :: r => decide (lo ≤ k) && decide (v ≠ d) && wfFrom d (k + 1) r

end Tbl

/-- The store's bytes: (address, byte) pairs. -/
abbrev Mem := List Host.Cell

namespace Memory

/-- DESIGN CHOICE (log 8). What a store byte that nothing has written reads as. -/
def unlisted : Byte := 0

/-- The canonical form holds. -/
abbrev wf (m : Mem) : Prop := Tbl.wfFrom unlisted 0 m = true

/-- One byte. -/
def read (m : Mem) (a : Nat) : Byte := Tbl.get m unlisted a

/-- Write one byte. -/
def write (m : Mem) (a : Nat) (b : Byte) : Mem := Tbl.set m unlisted a b

/-- `n` bytes from `a` upward. -/
def readBytes (m : Mem) (a : Nat) : Nat → List Byte
  | 0 => []
  | n + 1 => read m a :: readBytes m (a + 1) n

/-- Write bytes from `a` upward. -/
def writeBytes (m : Mem) (a : Nat) : List Byte → Mem
  | [] => m
  | b :: r => writeBytes (write m a b) (a + 1) r

/-- A little-endian value of `n` bytes. -/
def readNat (m : Mem) (a n : Nat) : Nat := leNat (readBytes m a n)

/-- Write the `n` little-endian bytes of a value. -/
def writeNat (m : Mem) (a n v : Nat) : Mem := writeBytes m a (leBytes n v)

end Memory

end Sys2Proof.Machine
end

