-- ==== Sys2Proof/Machine/State.lean ====
section
/-!
DEFINITION. The state of the LX9: the register file, and beside it, unit by unit, what the spec gives the machine that no
register shows. What a register field shows has its one home in the register file.
-/

namespace Sys2Proof.Machine

/-- An event entry that waits for its sequence number (R12, R15, R45). `subs` are the subarrays it is attributed to
(R419); `always` marks clamp reports and script events, which ignore MIN_CLASS (R57); `reason` is non-zero for a fault
raised with a reason (R313). -/
structure Ev where
  stamp : Nat
  six : Nat
  src : Nat
  code : Nat
  d0 : Nat
  d1 : Nat
  cls : Nat
  reason : Nat
  subs : List Nat
  always : Bool
  deriving DecidableEq, Repr

/-- The descriptor a command ring is executing, with the rights its page had at the fetch (R38, R42). -/
structure Exec where
  desc : BitVec 512
  cidx : Nat
  admin : Bool
  sub : Nat
  deriving DecidableEq, Repr

/-- An entry that waits for space on its ring (R46, R48): its 32 bytes without PHASE, whether its descriptor asks for a message
(R41), and the ring whose destruction takes effect when the entry is written (R44). -/
structure Held where
  entry : Nat
  irq : Bool
  gone : Option Nat
  deriving DecidableEq, Repr

/-- A completion or product entry that waits for its sequence number (R15, R45), with the house cycle it was made in. -/
inductive Notice where
  | completion (stamp cpl ring cidx tag status result reason : Nat) (irq : Bool) (gone : Option Nat)
  | product (stamp hdr integ typ sub len64 : Nat)
  deriving DecidableEq, Repr

/-- A line of the device cache (R27). -/
structure CacheLine where
  addr : Nat
  data : BitVec 512
  modified : Bool
  deriving DecidableEq, Repr

/-- A ring context (R39, R43 to R48). `prod` and `cons` run free modulo 2^32 (R34). For a command ring `prod` is the
host's index and `cons` the device's; for the other kinds `prod` is the device's and `cons` the host's. `settling`: the ring has
moved and event 0x0B07 is still to be written (R48). -/
structure Ring where
  kind : Nat
  log2 : Nat
  base : Nat
  prod : Nat
  cons : Nat
  error : Bool
  cplRing : Nat
  vector : Nat
  irqEn : Bool
  modCount : Nat
  modTime : Nat
  subSel : Nat
  subAll : Bool
  minClass : Nat
  cache : Bool
  pinned : Bool
  resize : Option (Nat × Nat)
  settling : Bool
  held : List Held
  lostFirst : Nat
  lostCount : Nat
  sinceMsg : Nat
  exec : Option Exec
  deriving DecidableEq, Repr

/-- An object in the DOE mailbox: the protocol its header names, and what follows the header. -/
structure DoeObject where
  protocol : DoeProtocol
  body : List Byte
  deriving DecidableEq, Repr

/-- What the DOE mailbox answers (R49, R369): the bytes where the spec lays them out, else what the answer says. The table
answer gives the length of the DSMAS range in bytes, the read latency in ns and the read bandwidth in GB/s. -/
inductive DoeAnswer where
  | protocols (list : List DoeProtocol)
  | table (dsmas latency bandwidth : Nat)
  | ideAccepted
  | ideError
  | bytes (b : List Byte)
  | status (code : Nat) (ok : Bool)
  deriving DecidableEq, Repr

/-- What the block has put on its links and pins, in order (log 5). A Delay_Req names the IPv4 address it is sent from and the master it
is addressed to, where it has them; a frame that the transparent clock forwards the correction it adds and the UDP checksum it sets. -/
inductive Sent where
  | msix (vector : Nat)
  | doe (answer : DoeAnswer)
  | psw (port : Nat) (word : BitVec 256)
  | packet (port : Nat) (header : BitVec 256) (payload : List Byte)
  | delayReq (port domain majorSdo : Nat) (ipv4 unicast : Option Nat) (at_ : Int)
  | ptpForward (port : Nat) (frame : PortFrame) (residence : Int) (udpChecksum : Option Nat)
  | snoopMiss (line : Nat)
  | biSnpInv (line : Nat)
  | snoopData (line : Nat) (data : BitVec 512)
  | matrixData (master : Master) (data : Option (BitVec 64))
  | matrixError (master : Master)
  | rollCall (code : Nat)
  | rollAnswer (answers : Nat) (abstain : Nat)
  deriving DecidableEq, Repr

/-- A store object copied at commit (R20, R151, R237): its length and its bytes that differ from the unlisted byte. -/
structure Obj where
  len : Nat
  cells : Mem
  deriving DecidableEq, Repr

/-- A script image (R54, R56): values by field ID (an unlisted field holds its boot value), the first dwell it governs,
and the copies of the objects it names, the block width W_b of mode 0 at its check (R340). `whole` marks an image accepted while EPOCH was 0, which governs every dwell
(R94). -/
structure Image where
  vals : Tbl Nat
  first : Int
  whole : Bool
  plan : List Nat
  planObj : Obj
  progs : List Obj
  weights : Obj
  planInvalid : Bool
  blockW : Nat
  deriving DecidableEq, Repr

/-- The pending commit (R53, R55, R59): its image, base and records, the clamp reports of its first check (field, element,
written, applied), CHECK_RESULT, CAP_SEQ at the check, and the clusters whose inactive bank it loaded. -/
structure Pending where
  image : Image
  base : Image
  records : List (Nat × Nat)
  reports : List (Nat × Nat × Nat × Nat)
  checkResult : Bool
  capSeq : Nat
  clusters : List Nat
  deriving DecidableEq, Repr

/-- A master that a PTP domain hears (R99): its data set, its identity, the port on which it is heard. -/
structure PtpMaster where
  data : AnnounceData
  sender : Nat
  port : Nat
  deriving DecidableEq, Repr

/-- One measuring PTP domain (R99, R100, R103, R104): the masters heard and the one selected, a two-step Sync that waits for its
Follow_Up, the last master-to-slave difference, the time of the Delay_Req sent, the mean path delay, the offset and its last values,
whether Announce and Sync have come in time, and whether the grandmaster has changed since the last offset. -/
structure Dom where
  master : Option PtpMaster
  foreign : List PtpMaster
  twoStep : Option (Nat × Int × Int)
  msDiff : Option Int
  t3 : Option Int
  pathDelay : Option Int
  offset : Option Int
  offsets : List Int
  announced : Bool
  synced : Bool
  newMaster : Bool
  deriving DecidableEq, Repr

/-- One receive lane of a Shasto port (R113, R114, R116): correct comma words in a row, expected positions in a row without one, the
house cycle of the last one, uncorrectable codewords in the comma
period, the scrambler register, CW_NUM, PKT_OFS and port stream of the last codeword decoded, DSK and LMAP of the last comma
word. -/
structure Lane where
  goodCommas : Nat
  missed : Nat
  commaAt : Nat
  uncorr : Nat
  scr : Nat
  cw : Nat
  ofs : Nat
  stream : BitVec 5120
  dsk : Nat
  lmap : Nat
  deriving DecidableEq, Repr

/-- A vector of 64 samples with its tags (R132 to R135). Ingest samples are 16-bit; a beam sample is re, then im, as
32-bit values. `sub` is the subarray of the packet it came in (R121); a beam vector has none. -/
structure Vect where
  sub : Option Nat
  six : Nat
  dwell : Int
  ch : Nat
  tcr : Nat
  tun : Nat
  group : Nat
  pres : BitVec 64
  valid : BitVec 64
  null : Bool
  samples : List Nat
  ims : List Nat
  deriving DecidableEq, Repr

/-- What an ingest or fabric port holds beside its registers (R115, R116, R118, R119, R123): packets discarded and uncorrectable
codewords since UP, the last SEQ by SRC_ID, the range discarded since a lane loss, the far end's LD_CAP, the deskew count of the
newest comma period, the port stream as its codewords in order (from 0 those of the period before, from 4,096 those of the newest),
whether the parser seeks the next unit that a PKT_OFS names, and the lane-to-pit
queue: per packet the vectors still to enter their clusters (R14, R133). -/
structure Port where
  discSinceUp : Nat
  uncorrSinceUp : Nat
  seqs : Tbl Nat
  lossOpen : Bool
  lossFirst : Option Nat
  lossLast : Nat
  ldCap : Bool
  dsk : Nat
  words : List (Nat × BitVec 5120)
  seeking : Bool
  raw : List Byte
  queue : List (List (Nat × Vect))
  deriving DecidableEq, Repr

/-- The positions of an accepted packet or part (R120): spectra, inputs and channels from a first one, with their numbers. -/
structure Box where
  six : Nat
  spectra : Nat
  input : Nat
  inputs : Nat
  chan : Nat
  chans : Nat
  deriving DecidableEq, Repr

/-- A blanking interval (R122): its start and end in house SIX (`none`: not yet deasserted), the inputs it came from
that are still asserted, all the inputs it came from, and the subarrays it applies to. -/
structure Blank where
  start : Int
  stop : Option Int
  live : List Nat
  inputs : List Nat
  subs : Nat
  deriving DecidableEq, Repr

/-- A vector in a cluster's output queue (R137). `size` is 0, 1 or 2 for byte, halfword, word; `fine` is FINE; `sub` as in `Vect`. -/
structure OutVect where
  sub : Option Nat
  stream : Nat
  size : Nat
  fine : Nat
  six : Nat
  ch : Nat
  tcr : Nat
  group : Nat
  pres : BitVec 64
  valid : BitVec 64
  data : List Nat
  sentBursts : Nat
  deriving DecidableEq, Repr

/-- Where a pipelined result lands (R143). -/
inductive Dest where
  | d (r : Nat) | a (i : Nat) | p (n : Nat) | b (n : Nat) | l (n : Nat) | k (n : Nat)
  deriving DecidableEq, Repr

/-- A result in flight: cycles left before it lands at a cycle's end, the bank that issued it, its place, one value per
lane (one value for Kn), whether the M operation or a TAPM made it (R143, R144). -/
structure Flight where
  left : Nat
  bank : Nat
  dest : Dest
  vals : List Nat
  byM : Bool
  byTapm : Bool
  deriving DecidableEq, Repr

/-- Sticky flags and comparison flags of a lane are tables of naturals over the lanes; one cluster of the pit (R131).
Keys: D `(bank * 64 + lane) * 16 + r`; A `(bank * 64 + lane) * 2 + i`; P `(bank * 64 + lane) * 4 + n`; B and L
`lane * 4 + n`; comparison `bank * 64 + lane` (bit 0 GT, 1 EQ, 2 LT); sticky `lane` (bits OV0, OV1, SAT, CBW, WCONF);
local memory `lane * 1024 + halfword`; program memory `bank * 4096 + word`; K `bank * 4 + n`; N `bank * 2 + n`. `nulled`: the
last vector's dwell has had its null vectors. `redirects`: words still to issue before a branch acts, and its target. `delay`: delay
positions still to issue; `atReturn`: an input is to be taken before the saved word (R150). `topSix`: the furthest SIX taken. The rings
wait for a flip, for the vector after a coefficient write, for a read of local memory (R153, R155). `cueSix`: SIX[15:0] of the
pending cue inputs. -/
structure Cluster where
  prog : Tbl (BitVec 64)
  d : Tbl (BitVec 16)
  a : Tbl (BitVec 40)
  p : Tbl (BitVec 10)
  b : Tbl (BitVec 10)
  l : Tbl (BitVec 11)
  cmp : Tbl (BitVec 3)
  sticky : Tbl (BitVec 5)
  ill : Bool
  lm : Tbl (BitVec 16)
  cm : Tbl (BitVec 16)
  k : Tbl (BitVec 14)
  n : Tbl (BitVec 16)
  bw : BitVec 32
  next : Nat
  redirects : List (Nat × Nat)
  delay : Nat
  atReturn : Bool
  savedPc : Nat
  pitq : BitVec 8
  rtiLeft : Option Nat
  inQ : List Vect
  outQ : List OutVect
  hist : List Vect
  flights : List Flight
  mref : Nat
  nullsLeft : Nat
  nulled : Bool
  nullDone : List Int
  lastTaken : Option Vect
  topSix : Option Nat
  swapDwell : Option Int
  swapIdle : Bool
  flipSix : Option Nat
  flipLate : Bool
  flipRing : Option Nat
  flipDone : Option Bool
  coefPend : List (Nat × List Nat)
  coefRings : List (Nat × Option Nat)
  readRings : List Nat
  cueSix : Tbl Nat
  ecx : Nat
  sinceIn : Nat
  stopLeft : Option Nat
  faulty : Bool
  deriving DecidableEq, Repr

/-- Where the data of a read at a store port go: to the port, to the host, or to the host through the conversion window, with its
division by the weight (R271). -/
inductive ReadDest where
  | port
  | hdm
  | window (norm : Bool)
  deriving DecidableEq, Repr

/-- What a request asks of its line, with the bit errors its code words show; a write-back names the code words that become poison
(R165, R170). -/
inductive Ask where
  | read (errs : List Nat) (dest : ReadDest)
  | write (data : BitVec 512) (bytes : BitVec 64) (errs : List Nat)
  | add (fmt : Nat) (mask : BitVec 16) (data : BitVec 512) (errs : List Nat)
  | scrub (errs : List Nat)
  | back (words : Nat)
  deriving DecidableEq, Repr

/-- A request at a controller (R168): its port, its line, the house cycle it came in, and what it had waited by then in ns. -/
structure StoreReq where
  port : Nat
  a : Nat
  came : Nat
  waited : Nat
  ask : Ask
  deriving DecidableEq, Repr

/-- One pseudo-channel beside its registers (R159, R166 to R176, R180): the refresh debt of each bank; the corrected errors of the
one-minute window, and those of the last minute with their house cycles; lines with uncorrectable errors and their house cycles;
whether a retraining has taken outcome 2; whether its granules are being relocated; whether every word turned to poison; the
controller's queue and the requests held off behind it; the open row of each bank, plus one; the house cycles of its last training
and of its last access; the line that scrub reads next and the house cycle of its last read. -/
structure PChan where
  debt : Tbl Int
  ceWindow : Option Nat
  ceRecent : List (Nat × Nat)
  ueLines : List (Nat × Nat)
  outcome2 : Bool
  relocating : Bool
  lost : Bool
  queue : List StoreReq
  held : List StoreReq
  rows : Tbl Nat
  trainedAt : Nat
  usedAt : Nat
  scrubNext : Nat
  scrubAt : Option Nat
  deriving DecidableEq, Repr

/-- A mover's work (R186, R192 to R200) beside its registers: the descriptor in progress, whether its data has been moved,
the outcome so far, the rings that wait for the stop, the line served last, WRITE packets that wait for an acknowledgment. -/
structure Mover where
  desc : BitVec 512
  work : Bool
  done : Nat
  retries : Nat
  code : Nat
  lastb : Bool
  surplus : Bool
  dwell : Int
  stopRings : List Nat
  lastLine : Nat
  peerWaits : List Nat
  peerRefused : Bool
  deriving DecidableEq, Repr

/-- States of a correlation slot (R219). -/
inductive SlotState where
  | free | accumulating | waiting | draining
  deriving DecidableEq, Repr

/-- A cell's slot (R211): fields, tallies (4 stands for SAT) and weight. -/
structure CellSlot where
  re : Int
  im : Int
  tre : Int
  tim : Int
  wt : Nat
  deriving DecidableEq, Repr

/-- A slot of a partition with the pass that fills it and, once it ends, the kept cells' contents by
`row * 1024 + column`. -/
structure Slot where
  st : SlotState
  dwell : Int
  entry : Nat
  chan : Nat
  rowb : Nat
  colb : Nat
  cells : List (Nat × CellSlot)
  deriving DecidableEq, Repr

/-- What the wings hold for a partition (R22): a block of a channel of the dwell being replayed, as its bytes were when they were written
there, with the code words that were poisoned then. -/
structure Wing where
  chan : Nat
  block : Nat
  cells : Mem
  poison : Tbl Bool
  lost : List Nat
  deriving DecidableEq, Repr

/-- A partition of the stage (R21, R219, R236). -/
structure Part where
  nextEntry : Nat
  ended : Bool
  pass : Option Nat
  slots : List Slot
  order : List Nat
  wing : Option Wing
  stallSlot : Nat
  stallFeed : Nat
  stallWload : Nat
  stallStage : Nat
  stallOut : Nat
  feed : Nat
  oversub : Bool
  out : Nat
  outOver : Bool
  pages : List Nat
  deriving DecidableEq, Repr

/-- States of a staging record (R246). -/
inductive RecState where
  | empty | filling | full | releasing
  deriving DecidableEq, Repr

/-- A staging record (R246). `released` is the last released dwell; `sent`: spectra released (R247). -/
structure Rec where
  st : RecState
  dwell : Int
  released : Option Int
  marks : Nat
  partialData : Bool
  poisoned : Bool
  degraded : Bool
  order : Nat
  sent : Nat
  deriving DecidableEq, Repr

/-- A visibility bank beside PRD_STATUS (R256, R259, R260). `touch` holds the lines whose touch bit is current. -/
structure Bank where
  integ : Int
  firstDwell : Int
  addr : Nat
  touch : Tbl Bool
  marks : Tbl Nat
  flags : Nat
  closing : Bool
  lateSrcs : List Nat
  deriving DecidableEq, Repr

/-- A waiting fabric end mark (R286). -/
structure EndMark where
  port : Nat
  src : Nat
  dwell : Int
  target : Nat
  record : Nat
  count : Nat
  flags : Nat
  deriving DecidableEq, Repr

/-- An edge on its way to a cue channel (R296), with the house cycle at which it reaches the channel. `carry`: current − target of the
compare unit that made it in TAI mode (R105). -/
structure Edge where
  ch : Nat
  level : Bool
  carry : Option Int
  due : Nat
  stamp : Nat
  mask : BitVec 64
  origin : Nat
  deriving DecidableEq, Repr

/-- A cue channel's history (R304). -/
structure Chan where
  mask : BitVec 64
  origin : Nat
  returns : Nat
  deriving DecidableEq, Repr

/-- A cue filter (R301): its input level (a pin's before POL) and the cycle it has had it since, its output and the cycle it has had it
since, the stamp, mask and origin of the last input edge, the cycle of the last passed rise, whether a rise is held back, rises held back since the last detection, detections, and
whether the output has been forced low. -/
structure Filt where
  level : Bool
  since : Nat
  out : Bool
  outSince : Nat
  stamp : Nat
  mask : BitVec 64
  origin : Nat
  lastRise : Option Nat
  held : Bool
  heldBack : Nat
  count : Nat
  stuck : Bool
  deriving DecidableEq, Repr

/-- A reaction of the fault collector (R318, R319). `step` is 0 before its steps, 1 while it waits for FLT_ACK. -/
structure React where
  src : Nat
  cls : Nat
  seq : Nat
  reason : Nat
  dwell : Int
  step : Nat
  acked : Bool
  deriving DecidableEq, Repr

/-- A journal write in progress and the change it carries (R328, R368). -/
inductive JWrite where
  | epoch (e rank cause : Nat)
  | replace (cause : Nat)
  | row (i : Nat) | col (i : Nat) | cluster (i : Nat)
  | fence (pc : Nat)
  | floor (v : Nat)
  | owner (hash policy ring : Nat)
  | revoke (slot : Nat)
  deriving DecidableEq, Repr

/-- A firmware update in progress (R372): its version, floor flags, the cores still to reload, the area it went to. -/
structure Update where
  version : Nat
  svn : Nat
  rollfwd : Bool
  todo : List Nat
  area : Nat
  back : Bool
  deriving DecidableEq, Repr

/-- What the device waits a time for, counted from when it was last started: the acknowledgment of a C2 reaction (R318), a request
of a paced descriptor (R199), an acknowledgment of a peer write (R287), the free of a beam frame (R267), the next curtain frame (R321) and
heartbeat, a heartbeat of the partner, the partner's digest of a dwell, the end of a join, the next swap (R332 to R338), the grace of
a port's lane drop (R342), a dropped lane, a request to drop one (R124), a core's heartbeat (R356) and its update (R372), an AVS
acknowledgment (R380), a ring's MOD_TIME (R47), a domain within STEP_LIM and usable (R103, R104), the next mapping record (R98), the
next measurement (R75), HOLD_MAX and SWDOG (R81, R86). -/
inductive Timer where
  | ack (src : Nat) | pace (mover : Nat) | peer (mover entry : Nat) | frame (record : Nat) | curtain (port : Nat) | heartbeat
  | partner | digest (dwell : Int) | join | role | swapAgain | lane (port : Nat) | restore (port lane : Nat)
  | drop (port : Nat) | core (k : Nat) | update (core : Nat) | avs | modTime (ring : Nat) | domWithin (d : Nat) | domUsable (d : Nat)
  | epsRec | second | holdover | fow
  deriving DecidableEq, Repr

/-- The house clock counters (R12, R94, R95, R97): cycles since PORST_N; the SIX counter and its accumulator; the TAI clock
in units of 2^-16 * 10^-15 ns with its frequency and slew terms in 10^-15; the cycle in which each time that runs was started. -/
structure Clk where
  cycles : Nat
  six : Nat
  acc : Nat
  tai : Nat
  freq : Int
  slew : Int
  timers : List (Timer × Nat)
  deriving DecidableEq, Repr

/-- The host interface (R27 to R49): ring contexts and which are cached; entries that wait for their number; writes that have reached host memory; the data and
poison of the last HDM read; snoop filter and device cache; viral; MSI-X; the DOE mailbox; the secure session. -/
structure HostU where
  rings : Tbl (Option Ring)
  orphans : List (Nat × Exec)
  notices : List Notice
  ctxCache : List Nat
  hostMem : Mem
  lastRead : Nat
  lastPoison : Bool
  snoop : List Nat
  devCache : List CacheLine
  viral : Bool
  msix : Tbl (BitVec 128)
  msixPba : Tbl Bool
  msixLast : Tbl Nat
  msixHeld : List Nat
  doeIn : List DoeObject
  doeBusy : Bool
  doeError : Bool
  ideKeys : Bool
  sessionKey : Option Nat
  deriving DecidableEq, Repr

/-- The script unit (R50 to R69): staged records in order; images oldest first; the pending commit; IDLE fields in force;
beacons compared; the answers latched at cycle 8 of the last roll-call frame; the code of the frame this master runs; boot
step 8 has installed the boot-image script (R69). -/
structure ScrU where
  staging : List (Nat × Nat)
  images : List Image
  pend : Option Pending
  dringHalves : Nat
  ctxPinned : Nat
  egq : Nat
  beaconSeen : List (Nat × Int)
  rcSnap : Nat
  rcCode : Nat
  installed : Bool
  deriving DecidableEq, Repr

/-- The house clock DPLL (R70 to R89) beside its registers: ticks since PORST_N; REF inputs present; the house cycles of the
last PPS edges; the excess of the XO history, its model (R79: offset and aging per tick in 10^-15, the tick of the last fit) and
the ticks LOCKED in a row that make it valid; the DCO offset at each tick since the last entry into LOCKED, newest first, and
whether there was one (R85); the frequency the DCO goes to while no loop steers it, and its change per tick (R84 to R86); the
pre-switch frequency and the house cycle its pull-in ends at (R83); the house cycle of the last closing of the loop and the loop
bandwidth in µHz (R80); entries that entered WTR since the last tick; the configuration in force (R89); the HCK_ST pins. -/
structure HckU where
  ticks : Nat
  present : BitVec 2
  ppsLast : List (Option Nat)
  xoExcess : Nat
  xoOffset : Int
  xoAging : Int
  xoFitAt : Nat
  lockedFor : Nat
  history : List Int
  everLocked : Bool
  goal : Int
  aging : Int
  pullFrom : Int
  pullUntil : Nat
  closedAt : Nat
  bw : Nat
  wtrNew : List Nat
  cfg : Tbl (BitVec 64)
  hckSt : BitVec 3
  deriving DecidableEq, Repr

/-- The time unit (R97 to R106): domains; Sync intervals in a row within 100 ns; the frequency terms of the last 60 s with the house
cycles they began in, newest first (R102); the offset being slewed away and the house cycle it was measured in (R104); the residence
times of two-step Syncs that wait for their Follow_Up, by port, header and number (R101); whether the first step has been made;
whether the mapping offset exceeds its limit; compare units whose target was already past. -/
structure TimU where
  dom : List Dom
  servoRun : Nat
  freqs : List (Nat × Int)
  slewFrom : Int
  slewAt : Nat
  residence : List ((Nat × PtpHeader × Nat) × Int)
  stepped : Bool
  epsAbove : Bool
  cmpLate : BitVec 8
  deriving DecidableEq, Repr

/-- Ingest and fabric ports (24 to 31 are fabric): ports, lanes by `port * 4 + lane`, the transmit taps in force as TXEQ codes them
(an unlisted lane has the reset taps) and the house cycles of the comma words that bring new ones (R111), accepted packets and
blanking; vectors without a route reported by port and dwell (R156). -/
structure IngU where
  port : Tbl (Option Port)
  lane : Tbl (Option Lane)
  taps : Tbl Nat
  tapsDue : List (Nat × Nat)
  accepted : List Box
  blanks : List Blank
  noRouteSeen : List (Nat × Int)
  deriving DecidableEq, Repr

/-- The store beside its bytes: poisoned code words by index, the pseudo-channels, latency reports by port and dwell, and the
last line a controller delivered, with its poisoned code words. -/
structure StoU where
  poison : Tbl Bool
  line : BitVec 512
  linePsn : BitVec 8
  pchan : Tbl (Option PChan)
  late : List (Nat × Int)
  deriving DecidableEq, Repr

/-- The dwell sequencer, dwell ring and stage (R16 to R24, R187 to R189, R211 to R226): dwells started and closed; dwells
that wait for replay; dwells whose entries have ended or been skipped; dwells that
started outside SHOW (R384); the dwell replayed now; dwells not yet reported
drained; the pages of the dwell-ring pool in force, by region, and how many of them it takes (R164); pages held by (dwell, channel, block, page) and their store
page; lines written; the ingest vectors written to them, of dwells not yet replayed (R122); flush markers passed by (dwell, line); partitions; conditions recorded against dwells,
with the subarrays whose products they concern (R266); surplus bursts reported by line and dwell (R185); the sequencer is stopped by a block reset (R226); cycles
the next replay has been held (R221). -/
structure SeqU where
  started : Int
  closed : Int
  ringWait : List Int
  gone : List Int
  skipped : List Int
  replay : Option Int
  replayed : List Int
  pool : List (Nat × Nat)
  poolMax : Nat
  pages : List ((Int × Nat × Nat × Nat) × Nat)
  lineMap : Tbl Bool
  written : List OutVect
  markers : List (Int × Nat)
  lateReads : List Nat
  part : List Part
  dwellFlags : List (Int × Nat × Nat)
  surplusSeen : List (Nat × Int)
  halted : Bool
  fmtHeld : Nat
  deriving DecidableEq, Repr

/-- Weights and staging records (R236 to R247): the image whose weights each bank holds, the load in progress, records by
number, the count of records filled, saturation events seen by dwell. -/
structure BemU where
  wbank : List (Option Image)
  wload : Option Nat
  recs : Tbl (Option Rec)
  recCount : Nat
  satSeen : List Int
  deriving DecidableEq, Repr

/-- The products unit (R253 to R272): the banks; integration anchors (R254) as (first dwell, integration, L), oldest first;
marks counted before their bank opened; conditions recorded against beam-buffer halves. -/
structure PrdU where
  bank : List Bank
  anchors : List (Int × Int × Nat)
  marksEarly : List (Int × Nat)
  bufFlags : Tbl Nat
  deriving DecidableEq, Repr

/-- The fabric (R276 to R292): credit and units freed by (port, class); packets queued to send by port and class; sequence
numbers; received INPUT vectors; ADD packets and end marks, and those that wait for a close or a release; the pool served last
in turn by port; claims heard; neighbours. -/
structure FabU where
  credit : Tbl Nat
  freed : Tbl Nat
  txq : List (Nat × Nat × BitVec 256 × List Byte)
  fabSeq : Tbl Nat
  rxq : List (Nat × OutVect)
  addsSeen : List ((Nat × Int × Nat × Nat) × Nat)
  addsSent : List ((Int × Nat × Nat) × Nat)
  waitMarks : List EndMark
  addWait : List (Nat × BitVec 256 × List Byte)
  turn : Tbl Nat
  claims : Tbl (Option (Nat × Nat × Int))
  choice : List ((Nat × Int × Nat) × Nat)
  beaconDwell : Tbl Int
  routeSeen : List (Nat × Int)
  deriving DecidableEq, Repr

/-- The cue matrix (R295 to R305): software and channel levels, level producers, edges on their way, channel history,
filters, flip-flops and LUT outputs, the task inputs' levels, overruns reported, the last cycle a trigger input rose in
with whether it was busy, and the last cycle an input edge reached each cell in, with what its output edge carries (R296). -/
structure CueU where
  swLevel : BitVec 64
  chLevel : BitVec 64
  prodLevel : Tbl Bool
  edges : List Edge
  chan : Tbl (Option Chan)
  filt : Tbl (Option Filt)
  ff : BitVec 32
  lut : BitVec 32
  taskLevel : Tbl Bool
  ovrSeen : List (Nat × Int)
  rises : Tbl (Option (Nat × Bool))
  cellEdges : Tbl (Option (Nat × Nat × BitVec 64 × Nat))
  deriving DecidableEq, Repr

/-- The fault collector (R310 to R323): pairs forced by a rail fault (the pair code by source; an unlisted source drives a legal
pair); class 4 faults that have arrived; pending reactions, the one in progress, those pre-empted; the house
cycle and dwell of iron entry, and the last dwell that overlapped the last iron (R323). -/
structure FltU where
  pair : Tbl Nat
  c4 : List (Nat × Nat)
  pendReact : List React
  react : Option React
  preempted : List React
  ironAt : Option Nat
  ironDwell : Int
  ironLast : Option Int
  deriving DecidableEq, Repr

/-- Duet and spares (R327 to R344): the dwell a join began in; the swap handshake; the dwell of the last differing tag; the
claim (epoch, rank, cause) taken at the next dwell boundary; own sums and the partner's digests by dwell; retirements that
wait for the next replay; physical clusters recorded as faulty. -/
structure DuoU where
  joinAt : Option Int
  swapAck : Bool
  swapSeen : Bool
  swapProposed : Bool
  hbTagDiffer : Option Int
  claimNext : Option (Nat × Nat × Nat)
  sums : List (Int × Nat × Nat)
  partnerDigests : List (Int × Nat × Nat × Nat)
  sentDigests : List Int
  retireNext : List JWrite
  badClu : Nat
  deriving DecidableEq, Repr

/-- The control plane (R349 to R376): the journal and the write in progress, fuses blown, the pushed image, firmware areas,
an update in progress, the sources the boot has tried and what started it (0 PORST_N, 1 WRST_N, 2 the end of DARK), test hold. -/
structure CtlU where
  jpend : List JWrite
  jepoch : Nat
  jFloor : Nat
  jOwner : Nat
  jPolicy : Nat
  jReplace : Nat
  jRows : Nat
  jCols : Nat
  jFences : Nat
  jClusters : Nat
  fuseRevoked : Nat
  fuseCount : Nat
  push : List Byte
  fwDigest : List Nat
  update : Option Update
  bootTry : Nat
  bootKind : Nat
  jtagHeld : Bool
  deriving DecidableEq, Repr

/-- A burst that holds its path (R351, R353): where its first beat goes in the target, the beats issued, and once its master is reset or
timed out, how many of its beats are null. -/
structure HeldBurst where
  burst : Burst
  off : Nat
  issued : Nat
  nulls : Option Nat
  deriving DecidableEq, Repr

/-- The bus matrix (R349 to R354): requests not yet granted, by each target the burst that holds its path and the master it served
last, and the bytes written to control SRAM, to the ring-context cache setup and to the journal's manufacturing area, by control address. -/
structure MatrixU where
  wait : List Burst
  held : Tbl (Option HeldBurst)
  last : Tbl Nat
  mem : Tbl (Option Byte)
  deriving DecidableEq, Repr

/-- Power (R377 to R390): straps BOOT_SEL and I2C_ADDR; the transition and its dwell; DARK_OK; the hottest die sensor (R379); thermal counters. -/
structure PwrU where
  pinBoot : Nat
  pinI2c : Nat
  svcLow : Bool
  trans : Option (Nat × Int)
  darkOk : Bool
  dieMax : Int
  avsWait : Bool
  hotFor : Nat
  coolFor : Nat
  trained : Bool
  deriving DecidableEq, Repr

/-- The state of the LX9. -/
structure State where
  /-- Commands that wait, first in, first out. -/
  pending : List Instr
  /-- DESIGN CHOICE (log 7): the model's own counter of free values drawn. -/
  freeCount : Nat
  /-- Every BAR0 register field, by its key; an unlisted field holds its reset value. -/
  regs : Tbl (BitVec 64)
  /-- Events without a number, and the next number (R15). -/
  outbox : List Ev
  nextSeq : Nat
  /-- What has gone out on links and pins, in order (log 5). -/
  sent : List Sent
  /-- The store's bytes. -/
  mem : Mem
  /-- The pit's clusters. -/
  clu : Tbl (Option Cluster)
  /-- The movers. -/
  mov : Tbl (Option Mover)
  clk : Clk
  host : HostU
  scr : ScrU
  hck : HckU
  tim : TimU
  ing : IngU
  sto : StoU
  seq : SeqU
  bem : BemU
  prd : PrdU
  fab : FabU
  cue : CueU
  flt : FltU
  duo : DuoU
  ctl : CtlU
  matrix : MatrixU
  pwr : PwrU
  deriving DecidableEq, Repr

/-- Reasons the block stops with a fault. -/
inductive Fault where
  /-- An HDM or store address that does not exist (R28, R160): at or beyond 256 GiB for the host, 192 GiB for the
  store's own ports. Raised by HDM_READ, HDM_WRITE, STORE_READ, STORE_WRITE and ATOMIC_ADD. Safe: no such access
  reaches the part. -/
  | noSuchAddress (addr : Nat)
  deriving DecidableEq, Repr

/-- Reasons the block refuses a command. -/
inductive Refusal where
  /-- No meaning yet: raised by the dispatch alone, for rows not reached. Safe. -/
  | notModelled (mnemonic : String)
  deriving DecidableEq, Repr

/-- A cluster right after PORST_N: idle, every register and memory 0 (DESIGN CHOICE, log 6). -/
def Cluster.idle : Cluster where
  prog := []
  d := []
  a := []
  p := []
  b := []
  l := []
  cmp := []
  sticky := []
  ill := false
  lm := []
  cm := []
  k := []
  n := []
  bw := 0
  next := 0
  redirects := []
  delay := 0
  atReturn := false
  savedPc := 0
  pitq := 0
  rtiLeft := none
  inQ := []
  outQ := []
  hist := []
  flights := []
  mref := 0
  nullsLeft := 0
  nulled := false
  nullDone := []
  lastTaken := none
  topSix := none
  swapDwell := none
  swapIdle := false
  flipSix := none
  flipLate := false
  flipRing := none
  flipDone := none
  coefPend := []
  coefRings := []
  readRings := []
  cueSix := []
  ecx := 0
  sinceIn := 0
  stopLeft := none
  faulty := false

/-- A free slot. -/
def Slot.fresh : Slot := ⟨.free, 0, 0, 0, 0, 0, []⟩

/-- A partition with every slot FREE (R231). -/
def Part.fresh : Part where
  nextEntry := 0
  ended := true
  pass := none
  slots := List.replicate 5 Slot.fresh
  order := []
  wing := none
  stallSlot := 0
  stallFeed := 0
  stallWload := 0
  stallStage := 0
  stallOut := 0
  feed := 0
  oversub := false
  out := 0
  outOver := false
  pages := []

/-- A bank after PORST_N (R275). -/
def Bank.fresh : Bank := ⟨0, 0, 0, [], [], 0, false, []⟩

def Rec.fresh : Rec := ⟨.empty, 0, none, 0, false, false, false, 0, 0⟩

def Dom.fresh : Dom := ⟨none, [], none, none, none, none, none, [], false, false, false⟩

def Mover.fresh : Mover := ⟨0, false, 0, 0, 0, false, false, 0, [], 0, [], false⟩

def Lane.fresh : Lane := ⟨0, 0, 0, 0, 0, 0, 0, 0, 0, 0⟩

def Port.fresh : Port := ⟨0, 0, [], false, none, 0, false, 0, [], false, [], []⟩

def PChan.fresh : PChan := ⟨[], none, [], [], false, false, false, [], [], [], 0, 0, 0, none⟩

def Chan.fresh : Chan := ⟨0, 0, 0⟩

def Filt.fresh : Filt := ⟨false, 0, false, 0, 0, 0, 0, none, false, 0, 0, false⟩

/-- Clk right after PORST_N. -/
def Clk.fresh : Clk where
  cycles := 0
  six := 0
  acc := 0
  tai := 0
  freq := 0
  slew := 0
  timers := []

/-- HostU right after PORST_N. -/
def HostU.fresh : HostU where
  rings := []
  orphans := []
  notices := []
  ctxCache := []
  hostMem := []
  lastRead := 0
  lastPoison := false
  snoop := []
  devCache := []
  viral := false
  msix := []
  msixPba := []
  msixLast := []
  msixHeld := []
  doeIn := []
  doeBusy := false
  doeError := false
  ideKeys := false
  sessionKey := none

/-- ScrU right after PORST_N. -/
def ScrU.fresh : ScrU where
  staging := []
  images := []
  pend := none
  dringHalves := 3
  ctxPinned := 0
  egq := 0
  beaconSeen := []
  rcSnap := 0
  rcCode := 0
  installed := false

/-- HckU right after PORST_N. -/
def HckU.fresh : HckU where
  ticks := 0
  present := 0
  ppsLast := [none, none]
  xoExcess := 0
  xoOffset := 0
  xoAging := 0
  xoFitAt := 0
  lockedFor := 0
  history := []
  everLocked := false
  goal := 0
  aging := 0
  pullFrom := 0
  pullUntil := 0
  closedAt := 0
  bw := 0
  wtrNew := []
  cfg := []
  hckSt := 0b111

/-- TimU right after PORST_N. -/
def TimU.fresh : TimU where
  dom := [Dom.fresh, Dom.fresh]
  servoRun := 0
  freqs := []
  slewFrom := 0
  slewAt := 0
  residence := []
  stepped := false
  epsAbove := false
  cmpLate := 0

/-- IngU right after PORST_N. -/
def IngU.fresh : IngU where
  port := []
  lane := []
  taps := []
  tapsDue := []
  accepted := []
  blanks := []
  noRouteSeen := []

/-- StoU right after PORST_N. -/
def StoU.fresh : StoU where
  poison := []
  line := 0
  linePsn := 0
  pchan := []
  late := []

/-- SeqU right after PORST_N. -/
def SeqU.fresh : SeqU where
  started := -1
  closed := -1
  ringWait := []
  gone := []
  skipped := []
  replay := none
  replayed := []
  pool := []
  poolMax := 0
  pages := []
  lineMap := []
  written := []
  markers := []
  lateReads := []
  part := List.replicate 16 Part.fresh
  dwellFlags := []
  surplusSeen := []
  halted := false
  fmtHeld := 0

/-- BemU right after PORST_N. -/
def BemU.fresh : BemU where
  wbank := [none, none]
  wload := none
  recs := []
  recCount := 0
  satSeen := []

/-- PrdU right after PORST_N. -/
def PrdU.fresh : PrdU where
  bank := [Bank.fresh, Bank.fresh]
  anchors := [(0, 0, 1)]
  marksEarly := []
  bufFlags := []

/-- FabU right after PORST_N. -/
def FabU.fresh : FabU where
  credit := []
  freed := []
  txq := []
  fabSeq := []
  rxq := []
  addsSeen := []
  addsSent := []
  waitMarks := []
  addWait := []
  turn := []
  claims := []
  choice := []
  beaconDwell := []
  routeSeen := []

/-- CueU right after PORST_N: no port is in UP and the house clock is not LOCKED (R297). -/
def CueU.fresh : CueU where
  swLevel := 0
  chLevel := 0
  prodLevel := (55, true) :: (List.range 32).map (fun k => (59 + k, true))
  edges := []
  chan := []
  filt := []
  ff := 0
  lut := 0
  taskLevel := []
  ovrSeen := []
  rises := []
  cellEdges := []

/-- FltU right after PORST_N. -/
def FltU.fresh : FltU where
  pair := []
  c4 := []
  pendReact := []
  react := none
  preempted := []
  ironAt := none
  ironDwell := 0
  ironLast := none

/-- DuoU right after PORST_N. -/
def DuoU.fresh : DuoU where
  joinAt := none
  swapAck := false
  swapSeen := false
  swapProposed := false
  hbTagDiffer := none
  claimNext := none
  sums := []
  partnerDigests := []
  sentDigests := []
  retireNext := []
  badClu := 0

/-- CtlU right after PORST_N. -/
def CtlU.fresh : CtlU where
  jpend := []
  jepoch := Config.journalEpoch
  jFloor := Config.journalFloor
  jOwner := Config.journalOwner
  jPolicy := Config.journalPolicy
  jReplace := Config.journalReplace
  jRows := Config.journalRows
  jCols := Config.journalCols
  jFences := Config.journalFences
  jClusters := Config.journalClusters
  fuseRevoked := fused 0x28 2 4
  fuseCount := fused 0x28 6 6
  push := []
  fwDigest := [0, 0]
  update := none
  bootTry := 0
  bootKind := 0
  jtagHeld := false

/-- MatrixU right after PORST_N: no master has been served. -/
def MatrixU.fresh : MatrixU where
  wait := []
  held := []
  last := []
  mem := []

/-- PwrU right after PORST_N. -/
def PwrU.fresh : PwrU where
  pinBoot := 0
  pinI2c := 0
  svcLow := false
  trans := none
  darkOk := false
  dieMax := 0
  avsWait := false
  hotFor := 0
  coolFor := 0
  trained := false

/-- The machine right after PORST_N: every register field at its reset value, the event counter at 1 (R15), nothing held
anywhere. What the spec gives no value for is as log 6 names. -/
def State.reset : State where
  pending := []
  freeCount := 0
  regs := []
  outbox := []
  nextSeq := 1
  sent := []
  mem := []
  clu := []
  mov := []
  clk := Clk.fresh
  host := HostU.fresh
  scr := ScrU.fresh
  hck := HckU.fresh
  tim := TimU.fresh
  ing := IngU.fresh
  sto := StoU.fresh
  seq := SeqU.fresh
  bem := BemU.fresh
  prd := PrdU.fresh
  fab := FabU.fresh
  cue := CueU.fresh
  flt := FltU.fresh
  duo := DuoU.fresh
  ctl := CtlU.fresh
  matrix := MatrixU.fresh
  pwr := PwrU.fresh

end Sys2Proof.Machine
end

