-- ==== Sys2Proof/Machine/Ops.lean ====
section
/-!
DEFINITION. The shared operations of the block: register fields, free values, the house clock and its dwells, script
images, cue producers, and how a unit reports events and faults.
-/

namespace Sys2Proof.Machine

/-- What every meaning answers with. -/
abbrev Res := Host.Outcome State Fault Refusal

/-! ## Register fields (R6, R8) -/

/-- The value a register field holds. -/
def State.getF (s : State) (f : Fld) : Nat := (Tbl.get s.regs (BitVec.ofNat 64 f.rst) f.key).toNat

/-- Write a register field, modulo its width. -/
def State.setF (s : State) (f : Fld) (v : Nat) : State :=
  { s with regs := Tbl.set s.regs (BitVec.ofNat 64 f.rst) f.key (BitVec.ofNat 64 (v % 2 ^ f.w)) }

/-- A one-bit field. -/
def State.flag (s : State) (f : Fld) : Bool := s.getF f != 0

/-- Write a one-bit field. -/
def State.setFlag (s : State) (f : Fld) (b : Bool) : State := s.setF f (b2n b)

/-- Bit `i` of a map field. -/
def State.bit (s : State) (f : Fld) (i : Nat) : Bool := Nat.testBit (s.getF f) i

/-- Write bit `i` of a map field. -/
def State.putBit (s : State) (f : Fld) (i : Nat) (b : Bool) : State :=
  s.setF f (if b then s.getF f ||| 2 ^ i else s.getF f - (if (s.getF f).testBit i then 2 ^ i else 0))

/-- Add to a counter that saturates. -/
def State.incF (s : State) (f : Fld) (n : Nat) : State := s.setF f (min (2 ^ f.w - 1) (s.getF f + n))

/-- Add to a counter that wraps. -/
def State.addF (s : State) (f : Fld) (n : Nat) : State := s.setF f (s.getF f + n)

/-- A signed field. -/
def State.getS (s : State) (f : Fld) : Int := toSigned f.w (s.getF f)

/-- Write a signed field, saturating. -/
def State.setS (s : State) (f : Fld) (v : Int) : State :=
  s.setF f (ofSigned f.w (max (-((2 ^ (f.w - 1) : Nat) : Int)) (min (((2 ^ (f.w - 1) : Nat) : Int) - 1) v)))

/-- Return to their reset values the fields whose register lies at offsets `lo` to `hi - 1` and which `keep` does not
name. -/
def State.resetRegs (s : State) (lo hi : Nat) (keep : Nat → Bool) : State :=
  { s with regs := s.regs.filter (fun e => !(decide (lo * 64 ≤ e.1) && decide (e.1 < hi * 64) && !keep e.1)) }

/-! ## Free values -/

/-- The next free value. -/
def State.free (s : State) : Nat := (Config.freeValue s.freeCount).toNat

/-- Pass on to the next free value. -/
def State.drew (s : State) : State := { s with freeCount := s.freeCount + 1 }

/-- Append to the block's output. -/
def State.send (s : State) (x : Sent) : State := { s with sent := s.sent ++ [x] }

/-! ## Images and dwells (R3, R11, R54) -/

/-- The boot image (R19 and the other script-field tables): every field at its boot value. -/
def Image.boot : Image := ⟨[], 0, true, [], ⟨0, []⟩, [], ⟨0, []⟩, false, 1024⟩

/-- The value of a field in an image. -/
def Image.val (im : Image) (f : SField) : Nat := Tbl.get im.vals f.boot f.id

/-- Element `i` of a field. -/
def Image.el (im : Image) (f : SField) (i : Nat) : Nat := bitsOf (im.val f) (f.ew * i) f.ew

/-- The dwell number of a SIX under an image's SIX0 and D (R3). -/
def Image.dwellOf (im : Image) (six : Nat) : Int :=
  fdiv (toSigned 64 (six + (2 ^ 64 - im.val Scr.TIM_SIX0))) (im.val Scr.TIM_DWELL)

/-- The first SIX of a dwell under an image. -/
def Image.startSix (im : Image) (n : Int) : Nat :=
  ofSigned 64 ((im.val Scr.TIM_SIX0 : Int) + n * (im.val Scr.TIM_DWELL : Int))

/-- The newest committed image (R54). -/
def State.newest (s : State) : Image := s.scr.images.getLast?.getD Image.boot

/-- The image that governs dwell `n` (R11, R54, R94). -/
def State.governing (s : State) (n : Int) : Image :=
  match s.scr.images.reverse.find? (fun im => im.whole || decide (im.first ≤ n)) with
  | some im => im
  | none => s.scr.images.head?.getD Image.boot

/-- The dwell number of a SIX (R3, R93). -/
def State.dwellOf (s : State) (six : Nat) : Int :=
  match s.scr.images.reverse.find? (fun im => im.whole || decide (im.first ≤ im.dwellOf six)) with
  | some im => im.dwellOf six
  | none => (s.scr.images.head?.getD Image.boot).dwellOf six

/-- The first SIX of dwell `n`. -/
def State.startSix (s : State) (n : Int) : Nat := (s.governing n).startSix n

/-- The epoch runs (R94). -/
def State.epoch (s : State) : Bool := s.flag TIM_STATUS.EPOCH

/-- House SIX: 0 while the epoch does not run (R94). -/
def State.houseSix (s : State) : Nat := if s.epoch then s.clk.six else 0

/-- The house dwell. -/
def State.houseDwell (s : State) : Int := if s.epoch then s.dwellOf s.clk.six else s.newest.dwellOf 0

/-- The image that governs the current house dwell (R305, R325). -/
def State.now (s : State) : Image := if s.epoch then s.governing s.houseDwell else s.newest

/-- A field's value in the image of the current house dwell. -/
def State.sv (s : State) (f : SField) : Nat := s.now.val f

/-- An element of a field in the image of the current house dwell. -/
def State.se (s : State) (f : SField) (i : Nat) : Nat := s.now.el f i

/-- The low 32 bits of a dwell number, as event data carry it. -/
def dwell32 (n : Int) : Nat := ofSigned 32 n

/-- House SIX as a signed offset from another SIX (R3). -/
def sixDiff (a b : Nat) : Int := toSigned 64 (a + (2 ^ 64 - b % 2 ^ 64))

/-! ## Time (R92, R95, R97, R98) -/

/-- A TAI value of R91 in units of 2^-16 ns. -/
def taiTicks (v : Nat) : Nat := (v / 2 ^ 48) * (1000000000 * 65536) + v % 2 ^ 48

/-- The TAI clock in units of 2^-16 ns. -/
def State.taiNow (s : State) : Nat := s.clk.tai / 10 ^ 15

/-- The nominal TAI of a SIX under an image, in 2^-16 ns, rounded toward minus infinity (R92). -/
def Image.nominalTai (im : Image) (six : Nat) : Int :=
  (taiTicks (im.val Scr.TIM_TAI0) : Int) +
    fdiv (sixDiff six (im.val Scr.TIM_SIX0) * (im.val Scr.TIM_DT_NUM : Int) * 65536) (im.val Scr.TIM_DT_DEN : Int)

/-- The TAI clock after `n` house cycles (R97). -/
def Clk.taiAfter (c : Clk) (n : Nat) : Nat :=
  ((c.tai : Int) + (n : Int) * (262144 * (10 ^ 15 + c.freq + c.slew))).toNat

/-- The mapping offset of the latest house SIX (R98), held by TIM_EPS. -/
def State.mapEps (s : State) : State :=
  s.setS TIM_EPS.VALUE ((s.taiNow : Int) - s.now.nominalTai s.clk.six)

/-- House cycles until house SIX has advanced by `d` spectra (R95). -/
def cyclesFor (num den acc d : Nat) : Nat := cdiv (d * num - acc) (4 * den)

/-! ## Cue producers (R295 to R297) -/

/-- The level a channel has once the edges on their way to it have arrived. -/
def State.schedLevel (s : State) (c : Nat) : Bool :=
  match (s.cue.edges.filter (fun e => e.ch == c)).getLast? with
  | some e => e.level
  | none => s.cue.chLevel.toNat.testBit c

/-- The last edge on its way to a channel. -/
def State.lastEdge (s : State) (c : Nat) : Option Edge := (s.cue.edges.filter (fun e => e.ch == c)).getLast?

/-- Put an edge on its way to a channel, unless the channel has that level. The producer drives it in house cycle `cyc`; a
clocked channel takes it one cycle later (R295). An edge the other way that is due no earlier does not come about: the OR of the
producers has not changed. -/
def State.pushEdgeWith (s : State) (carry : Option Int) (c : Nat) (lev : Bool) (cyc stamp : Nat) (mask : BitVec 64)
    (origin : Nat) : State :=
  if s.schedLevel c = lev then s
  else
    let due := cyc + (if (s.sv Scr.CUE_UNCLK).testBit c then 0 else 1)
    let new : Edge := ⟨c, lev, carry, due, stamp, mask, origin⟩
    { s with cue.edges := match s.lastEdge c with
        | some e => if due ≤ e.due then s.cue.edges.erase e else s.cue.edges ++ [new]
        | none => s.cue.edges ++ [new] }

/-- An edge of a producer that carries no difference. -/
def State.pushEdge (s : State) (c : Nat) (lev : Bool) (cyc stamp : Nat) (mask : BitVec 64) (origin : Nat) : State :=
  s.pushEdgeWith none c lev cyc stamp mask origin

/-- The channels a producer is enabled on (R307). -/
def State.channelsOf (s : State) (p : Nat) : List Nat :=
  (List.range 64).filter (fun c => (s.se Scr.CUE_SRC c).testBit p)

/-- The OR of the level producers and the software level of a channel. -/
def State.levelOf (s : State) (c : Nat) : Bool :=
  s.cue.swLevel.toNat.testBit c ||
    (List.range 120).any (fun p => (s.se Scr.CUE_SRC c).testBit p && Tbl.get s.cue.prodLevel false p)

/-- A one-cycle pulse on a channel, in the present house cycle. -/
def State.pulseOn (s : State) (carry : Option Int) (c : Nat) : State :=
  let t := s.clk.cycles
  if s.levelOf c then s else (s.pushEdgeWith carry c true t t 0 t).pushEdge c false (t + 1) (t + 1) 0 (t + 1)

/-- A pulse that carries a difference, on each channel its producer is enabled on that is low. -/
def State.pulseWith (s : State) (carry : Option Int) (p : Nat) : State :=
  (s.channelsOf p).foldl (fun s c => s.pulseOn carry c) s

/-- A pulse producer drives a one-house-cycle pulse: a rise and a fall on each channel it is enabled on that is low. -/
def State.pulse (s : State) (p : Nat) : State := s.pulseWith none p

/-- A level producer drives a level from house cycle `cyc` on, with the stamp, mask and origin of its edge. -/
def State.driveEdge (s : State) (p : Nat) (lev : Bool) (cyc stamp : Nat) (mask : BitVec 64) (origin : Nat) : State :=
  let s := { s with cue.prodLevel := Tbl.set s.cue.prodLevel false p lev }
  (s.channelsOf p).foldl (fun s c => s.pushEdge c (s.levelOf c) cyc stamp mask origin) s

/-- A level producer drives a level. -/
def State.drive (s : State) (p : Nat) (lev : Bool) : State :=
  if Tbl.get s.cue.prodLevel false p = lev then s
  else s.driveEdge p lev s.clk.cycles s.clk.cycles 0 s.clk.cycles

/-! ## Events and faults (R12, R310, R312 to R316) -/

/-- The collector is in service (R316). -/
def State.inService (s : State) : Bool := s.flag FLT_STATUS.SERVICE

/-- The device is in iron (R321). -/
def State.iron (s : State) : Bool := s.flag FLT_STATUS.IRON

/-- The class of a fault after the class floor of its source (R314). -/
def State.promoted (s : State) (src cls : Nat) : Nat :=
  if cls = 0 then 0 else if s.inService then max cls (s.se Scr.FLT_PROMOTE src) else cls

/-- First-fault latch (R315). -/
def State.latch (s : State) (src cls reason six : Nat) : State :=
  if s.getF FLT_CTRL.FFL_MIN ≤ cls then
    if s.flag FLT_FFL0.VALID then s.setF FLT_FFL0.OVF 1
    else (((((s.setF FLT_FFL0.SRC src).setF FLT_FFL0.CLASS cls).setF FLT_FFL0.VALID 1).setF FLT_FFL0.REASON reason).setF
      FLT_FFL1.SIX six)
  else s

/-- A unit reports an event entry: it is stamped and waits for its sequence number (R12, R15). A class 4 fault reaches the
collector at once (R320). -/
def State.post (s : State) (e : Ev) : State :=
  let cls := s.promoted e.src e.cls
  let s := { s with outbox := s.outbox ++ [{ e with cls := cls }] }
  if s.inService && cls == 4 then
    let s := s.latch e.src 4 e.reason e.six
    { s with flt.c4 := s.flt.c4 ++ [(e.src, e.reason)] }
  else s

/-- An event entry with an attribution (R419). -/
def State.emitFor (s : State) (subs : List Nat) (src code d0 d1 cls : Nat) : State :=
  s.post ⟨s.clk.cycles, s.houseSix, src, code, d0 % 2 ^ 64, d1 % 2 ^ 32, cls, 0, subs, false⟩

/-- An event entry without an attribution. -/
def State.emit (s : State) (src code d0 d1 cls : Nat) : State := s.emitFor [] src code d0 d1 cls

/-- A script event or a clamp report (R57). -/
def State.emitScript (s : State) (code d0 d1 : Nat) : State :=
  s.post ⟨s.clk.cycles, s.houseSix, 0x003, code, d0 % 2 ^ 64, d1 % 2 ^ 32, 0, 0, [], true⟩

/-- Raise a fault with a reason (R313): a record of CODE 0x0D01, in service only. `own` says that the unit's own entry of
the same fault has just been reported; `d1` is reason-specific. -/
def State.raiseFor (s : State) (subs : List Nat) (src reason cls : Nat) (own : Bool) (d1 : Nat) : State :=
  if s.inService then
    s.post ⟨s.clk.cycles, s.houseSix, src, 0x0D01, reason + 2 ^ 32 * b2n own, d1 % 2 ^ 31, cls, reason, subs, false⟩
  else s

/-- Raise a fault whose DATA1 is the house dwell (R324). -/
def State.raise (s : State) (src reason cls : Nat) (own : Bool) : State :=
  s.raiseFor [] src reason cls own (ofSigned 31 s.houseDwell)

/-- Subarrays named by a 64-bit mask (R419). -/
def subsOf (mask : Nat) : List Nat := (List.range 64).filter (fun i => mask.testBit i)

/-! ## Conditions of products (R266) -/

/-- Every subarray. -/
def allSubs : Nat := 2 ^ 64 - 1

/-- Record conditions against a dwell, for the products of some subarrays. -/
def State.markDwell (s : State) (n : Int) (flags subs : Nat) : State :=
  { s with seq.dwellFlags := s.seq.dwellFlags ++ [(n, flags, subs)] }

/-- Conditions recorded against a dwell whose entries satisfy `p`. -/
def State.flagsWhere (s : State) (p : Int × Nat × Nat → Bool) : Nat :=
  (s.seq.dwellFlags.filter p).foldl (fun a e => a ||| e.2.1) 0

/-- Consecutive application. -/
def State.each {α : Type} (s : State) (l : List α) (f : State → α → State) : State := l.foldl f s

/-! ## Times that run (log 3) -/

/-- House cycles of a microsecond, a millisecond, a second and a minute. -/
def usCycles : Nat := 250
def msCycles : Nat := 250000
def secCycles : Nat := 250000000
def minuteCycles : Nat := 60 * secCycles

/-- A time starts to run, from now. -/
def State.startTimer (s : State) (k : Timer) : State :=
  { s with clk.timers := s.clk.timers.filter (fun e => e.1 != k) ++ [(k, s.clk.cycles)] }

/-- A time no longer runs. -/
def State.stopTimer (s : State) (k : Timer) : State := { s with clk.timers := s.clk.timers.filter (fun e => e.1 != k) }

/-- The cycle in which a time was started, while it runs. -/
def State.timerOf (s : State) (k : Timer) : Option Nat := (s.clk.timers.find? (fun e => e.1 == k)).map (fun e => e.2)

end Sys2Proof.Machine
end

