-- ==== Sys2Proof/Machine/Digest.lean ====
section
/-!
DEFINITION. SHA3-256 (FIPS 202), the canonical form of a script image with its digest and local digest (R60, R61), and the
CRC-64 of duet comparison (R333).
-/

namespace Sys2Proof.Machine

/-! ## SHA3-256 -/

/-- Rotate a 64-bit lane left. -/
def rotl64 (v n : Nat) : Nat := ((v <<< (n % 64)) % 2 ^ 64) ||| (v >>> (64 - n % 64))

/-- Rotation offsets of the rho step, lane `x + 5 y`. -/
def keccakRho : List Nat :=
  [0, 1, 62, 28, 27, 36, 44, 6, 55, 20, 3, 10, 43, 25, 39, 41, 45, 15, 21, 8, 18, 2, 61, 56, 14]

/-- Round constants of the iota step. -/
def keccakRc : List Nat :=
  [0x0000000000000001, 0x0000000000008082, 0x800000000000808A, 0x8000000080008000, 0x000000000000808B,
   0x0000000080000001, 0x8000000080008081, 0x8000000000008009, 0x000000000000008A, 0x0000000000000088,
   0x0000000080008009, 0x000000008000000A] ++
  [0x000000008000808B, 0x800000000000008B, 0x8000000000008089, 0x8000000000008003, 0x8000000000008002,
   0x8000000000000080, 0x000000000000800A, 0x800000008000000A, 0x8000000080008081, 0x8000000000008080,
   0x0000000080000001, 0x8000000080008008]

/-- One round of Keccak-f[1600] on 25 lanes. -/
def keccakRound (a : List Nat) (rc : Nat) : List Nat :=
  let g (l : List Nat) (i : Nat) : Nat := l.getD i 0
  let c := (List.range 5).map (fun x => g a x ^^^ g a (x + 5) ^^^ g a (x + 10) ^^^ g a (x + 15) ^^^ g a (x + 20))
  let d := (List.range 5).map (fun x => g c ((x + 4) % 5) ^^^ rotl64 (g c ((x + 1) % 5)) 1)
  let r := (List.range 25).map (fun i => rotl64 (g a i ^^^ g d (i % 5)) (g keccakRho i))
  -- pi: lane (y, 2x + 3y) takes lane (x, y)
  let b := (List.range 25).map (fun i => g r (((i % 5) + 3 * (i / 5)) % 5 + 5 * (i % 5)))
  let e := (List.range 25).map (fun i =>
    g b i ^^^ ((2 ^ 64 - 1 - g b ((i % 5 + 1) % 5 + 5 * (i / 5))) &&& g b ((i % 5 + 2) % 5 + 5 * (i / 5))))
  match e with
  | [] => []
  | h :: t => (h ^^^ rc) :: t

/-- Keccak-f[1600]. -/
def keccakF (a : List Nat) : List Nat := keccakRc.foldl keccakRound a

/-- Absorb one block of 136 bytes. -/
def absorb (a : List Nat) (block : List Byte) : List Nat :=
  keccakF ((List.range 25).map (fun i =>
    a.getD i 0 ^^^ (if i < 17 then leNat ((block.drop (8 * i)).take 8) else 0)))

/-- Absorb a padded message; the first argument bounds the number of blocks. -/
def absorbAll : Nat → List Nat → List Byte → List Nat
  | 0, a, _ => a
  | n + 1, a, m => if m.isEmpty then a else absorbAll n (absorb a (m.take 136)) (m.drop 136)

/-- The padding of SHA3-256 for a message of `n` bytes. -/
def sha3Pad (n : Nat) : List Byte :=
  let k := 136 - n % 136
  if k = 1 then [0x86] else 0x06 :: (List.replicate (k - 2) 0 ++ [0x80])

/-- SHA3-256, as the little-endian value of its 32 bytes. -/
def sha3 (m : List Byte) : Nat :=
  let p := m ++ sha3Pad m.length
  let a := absorbAll (p.length / 136 + 1) (List.replicate 25 0) p
  a.getD 0 0 + 2 ^ 64 * a.getD 1 0 + 2 ^ 128 * a.getD 2 0 + 2 ^ 192 * a.getD 3 0

/-! ## The canonical form (R60) -/

/-- The bytes of an object. -/
def Obj.bytes (o : Obj) : List Byte := Memory.readBytes o.cells 0 o.len

/-- SHA3-256 of an object. -/
def Obj.hash (o : Obj) : List Byte := leBytes 32 (sha3 o.bytes)

/-- The objects that follow a field in the canonical form. -/
def Image.objects (im : Image) (f : SField) : List Obj :=
  if f.id = Scr.STG_PLAN_ADDR.id then [im.planObj]
  else if f.id = Scr.PIT_PROG_TABLE.id then (List.range 8).map (fun i => im.progs.getD i ⟨0, []⟩)
  else if f.id = Scr.BEM_WEIGHTS.id then [im.weights]
  else []

/-- A field as the canonical form lists it. -/
def Image.canonField (im : Image) (f : SField) : List Byte :=
  leBytes 2 f.id ++ leBytes 2 f.len ++ leBytes f.len (im.val f) ++ (im.objects f).flatMap Obj.hash

/-- The canonical form of an image, or of its local fields. -/
def Image.canonical (im : Image) (loc : Bool) : List Byte :=
  (Scr.table.filter (fun f => f.isLocal == loc)).flatMap im.canonField

/-- The script digest (R60). -/
def Image.digest (im : Image) : Nat := sha3 (im.canonical false)

/-- The local digest (R61). -/
def Image.localDigest (im : Image) : Nat := sha3 (im.canonical true)

/-- The digest tag (R60). -/
def Image.tag (im : Image) : Nat := im.digest % 2 ^ 64

/-- The digest tag that governs a dwell (R11). -/
def State.tagOf (s : State) (n : Int) : Nat := (s.governing n).tag

/-! ## CRC-64 (R333) -/

/-- One bit step of a CRC of width `w`, most significant bit first. -/
def crcStep (w poly reg : Nat) (b : Bool) : Nat :=
  let top := xor (reg.testBit (w - 1)) b
  let sh := (2 * reg) % 2 ^ w
  if top then sh ^^^ poly else sh

/-- A CRC without reflection over bytes, each most significant bit first. -/
def crcBytes (w poly init : Nat) (m : List Byte) : Nat :=
  m.foldl (fun r b => (List.range 8).foldl (fun r i => crcStep w poly r (b.toNat.testBit (7 - i))) r) init

/-- The CRC-64 of R333. -/
def crc64 (m : List Byte) : Nat := crcBytes 64 0x42F0E1EBA9EA3693 0 m

end Sys2Proof.Machine
end

