-- ==== Sys2Proof/Machine/Store.lean ====
section
/-!
DEFINITION. The central store's shared operations (R159 to R180): the address map, regions and rights, decoding of code
words, line reads and writes, atomic adds, and the conditions that attach to the products an address lies in (R266).
-/

namespace Sys2Proof.Machine

/-! ## Address map (R160) and regions (R162, R163) -/

/-- Bytes of a page of R162. -/
def pageBytes : Nat := 2097152

/-- Size of the store's address space. -/
def storeBytes : Nat := 192 * 2 ^ 30

/-- Pseudo-channel of an address (R160). -/
def pcOf (a : Nat) : Nat := ((a >>> 8) ^^^ (a >>> 16) ^^^ (a >>> 24)) % 256

/-- Bank within the pseudo-channel (R160). -/
def bankOf (a : Nat) : Nat := (a >>> 16) % 48

/-- Row within the bank (R160). -/
def rowOf (a : Nat) : Nat := (a >>> 16) / 192

/-- Granule within the row (R160). -/
def granuleOf (a : Nat) : Nat := (a >>> 16) / 48 % 4

/-- Lines of a pseudo-channel (R159): 48 banks of 16,384 rows of 16. -/
def pcLines : Nat := 48 * 16384 * 16

/-- The address of line `k` of pseudo-channel `n`: the map of R160 read backwards. -/
def lineOf (n k : Nat) : Nat :=
  let o := k / 4
  o <<< 16 + (n ^^^ (o % 256) ^^^ (o / 256 % 256)) <<< 8 + k % 4 * 64

/-- A region of STO_REGIONS (R162). -/
structure Region where
  kind : Nat
  sub : Nat
  hw : Bool
  fw : Bool
  ad : Bool
  base : Nat
  pages : Nat
  deriving DecidableEq, Repr

/-- An element of STO_REGIONS; none when EN is 0. -/
def Region.ofElem (e : Nat) : Option Region :=
  if bitOf e 0 then
    some ⟨bitsOf e 1 3, bitsOf e 4 6, bitOf e 10, bitOf e 11, bitOf e 12, bitsOf e 16 17, bitsOf e 33 17⟩
  else none

/-- The regions an image defines. -/
def Image.regions (im : Image) : List Region :=
  (List.range 64).filterMap (fun i => Region.ofElem (im.el Scr.STO_REGIONS i))

/-- An address lies in a region. -/
def Region.holds (r : Region) (a : Nat) : Bool :=
  decide (r.base * pageBytes ≤ a) && decide (a < (r.base + r.pages) * pageBytes)

/-- The region of an address under the newest committed image (R163). -/
def State.regionAt (s : State) (a : Nat) : Option Region := s.newest.regions.find? (fun r => r.holds a)

/-- Usable capacity in bytes (R28). -/
def State.capBytes (s : State) : Nat := s.getF CTL_CAP1.STO_CAP * (16 * 2 ^ 20)

/-- The region kind of event 0x0502 (R180). -/
def State.kindAt (s : State) (a : Nat) : Nat :=
  if a < 2 ^ 30 then 6 else match s.regionAt a with | some r => r.kind | none => 7

/-! ## Integrations and product headers (R254 to R256, R265, R266) -/

/-- The anchor in force at a dwell (R254, R255): its first dwell, integration number and L. -/
def State.anchorOf (s : State) (n : Int) : Int × Int × Nat :=
  match s.prd.anchors.reverse.find? (fun a => decide (a.1 ≤ n)) with
  | some a => a
  | none => s.prd.anchors.headD (0, 0, 1)

/-- The integration number of a dwell (R254). -/
def State.integ (s : State) (n : Int) : Int :=
  let a := s.anchorOf n; a.2.1 + fdiv (n - a.1) (a.2.2 : Int)

/-- The first dwell of the integration that holds dwell `n`. -/
def State.firstDwell (s : State) (n : Int) : Int :=
  let a := s.anchorOf n; a.1 + fdiv (n - a.1) (a.2.2 : Int) * (a.2.2 : Int)

/-- The last dwell of the integration that holds dwell `n`, cut short by a later anchor (R255). -/
def State.lastDwell (s : State) (n : Int) : Int :=
  let a := s.anchorOf n
  let l := s.firstDwell n + (a.2.2 : Int) - 1
  match s.prd.anchors.find? (fun b => decide (a.1 < b.1)) with
  | some b => min l (b.1 - 1)
  | none => l

/-- The image whose INTEG fields are in force for dwell `n` (R9). -/
def State.integImage (s : State) (n : Int) : Image := s.governing (s.firstDwell n)

/-- Padded inputs `N_p` (R258). -/
def Image.np (im : Image) : Nat := 32 * cdiv (im.val Scr.STG_INPUTS) 32

/-- Entries per channel `E` (R258). -/
def Image.ent (im : Image) : Nat := im.np * (im.np + 1) / 2

/-- Entries of a bank. -/
def Image.entries (im : Image) : Nat := im.ent * im.val Scr.STG_CHANNELS

/-- Bank state field of PRD_STATUS (R275). -/
def bankStateF (b : Nat) : Fld := if b = 0 then PRD_STATUS.B0_STATE else PRD_STATUS.B1_STATE

/-- Generation bit field (R275). -/
def bankGenF (b : Nat) : Fld := if b = 0 then PRD_STATUS.B0_GEN else PRD_STATUS.B1_GEN

/-- Integration field (R275). -/
def bankIntegF (b : Nat) : Fld := if b = 0 then PRD_B0_INTEG.INTEG else PRD_B1_INTEG.INTEG

/-- Complete dwells (R275). -/
def bankDwellsF (b : Nat) : Fld := if b = 0 then PRD_B0_MARKS.DWELLS else PRD_B1_MARKS.DWELLS

/-- Marks counted (R275). -/
def bankMarksF (b : Nat) : Fld := if b = 0 then PRD_B0_MARKS.MARKS else PRD_B1_MARKS.MARKS

/-- A bank's own state. -/
def State.bank (s : State) (b : Nat) : Bank := s.prd.bank.getD b Bank.fresh

/-- Change a bank's own state. -/
def State.setBank (s : State) (b : Nat) (k : Bank) : State := { s with prd.bank := s.prd.bank.set b k }

/-- The last dwell of the integration a bank holds. -/
def State.bankLast (s : State) (b : Nat) : Int := s.lastDwell (s.bank b).firstDwell

/-- Bytes of a bank's entries. -/
def State.bankBytes (s : State) (b : Nat) : Nat := 16 * (s.integImage (s.bank b).firstDwell).entries

/-- Set FLAGS bits in a header (R262): the rewrite changes FLAGS only. -/
def State.orHeader (s : State) (h flags : Nat) : State :=
  { s with mem := Memory.write s.mem (h + 2) (BitVec.ofNat 8 ((Memory.read s.mem (h + 2)).toNat ||| flags)) }

/-- Flags of R266. -/
def fPoisoned : Nat := 1
def fPartial : Nat := 2
def fDegraded : Nat := 4
def fHoldover : Nat := 8
def fOpen : Nat := 16
def fMixed : Nat := 32

/-- A condition of a bank: kept while the bank is OPEN, written to the header once it is CLOSED. -/
def State.flagBank (s : State) (b flags : Nat) : State :=
  if s.getF (bankStateF b) = 1 then
    let k := s.bank b; s.setBank b { k with flags := k.flags ||| flags }
  else if s.getF (bankStateF b) = 2 then s.orHeader (s.bank b).addr flags
  else s

/-- Header address of a pool slot (R269). -/
def Image.poolSlot (im : Image) (x : Nat) : Nat := bitsOf (im.val Scr.PRD_POOL) 0 17 * pageBytes + 64 * x

/-- A staging record (R246). -/
def State.rec_ (s : State) (x : Nat) : Rec := (Tbl.get s.bem.recs none x).getD Rec.fresh

/-- Change a staging record. -/
def State.setRec (s : State) (x : Nat) (r : Rec) : State :=
  { s with bem.recs := Tbl.set s.bem.recs none x (some r) }

/-- Bytes of a staging record (R245). -/
def Image.recBytes (im : Image) : Nat :=
  im.val Scr.TIM_DWELL * (4 + 256 * (1 + bitsOf (im.val Scr.BEM_STAGE) 17 1))

/-- Address of staging record `x` (R245). -/
def Image.recAddr (im : Image) (x : Nat) : Nat :=
  bitsOf (im.val Scr.BEM_STAGE) 0 17 * pageBytes + x * im.recBytes

/-- Element of BEM_OUT of beam group `g` (R251). -/
def Image.bemOut (im : Image) (g : Nat) : Nat := im.el Scr.BEM_OUT g

/-- The records that are not EMPTY, by number. -/
def State.liveRecs (s : State) : List Nat :=
  (s.bem.recs.filter (fun e => match e.2 with | some r => decide (r.st ≠ .empty) | none => false)).map (fun e => e.1)

/-- A condition of a staging record and of the beam frame it has become (R266). -/
def State.flagRec (s : State) (x flags : Nat) : State :=
  let r := s.rec_ x
  let s := s.setRec x
    { r with poisoned := r.poisoned || flags.testBit 0, partialData := r.partialData || flags.testBit 1,
             degraded := r.degraded || flags.testBit 2 }
  let im := s.governing r.dwell
  if r.st = .releasing && bitsOf (im.bemOut (x / im.val Scr.STG_CHANNELS)) 0 4 = 2 then s.orHeader (im.poolSlot x) flags else s

/-- Base of the window of pit stream `j` (R203). -/
def Image.winBase (im : Image) (j : Nat) : Nat := bitsOf (im.el Scr.MOV_STREAM_WIN j) 0 22 * 65536

/-- SHIFT of a window. -/
def Image.winShift (im : Image) (j : Nat) : Nat := bitsOf (im.el Scr.MOV_STREAM_WIN j) 22 5

/-- ROWS of a window. -/
def Image.winRows (im : Image) (j : Nat) : Nat := bitsOf (im.el Scr.MOV_STREAM_WIN j) 27 16

/-- SIZE of a window: 0 byte, 1 halfword, 2 word. -/
def Image.winSize (im : Image) (j : Nat) : Nat := bitsOf (im.el Scr.MOV_STREAM_WIN j) 43 2

/-- Spectra a window holds per row (R190). -/
def Image.winSpectra (im : Image) (j : Nat) : Nat := cdiv (im.val Scr.TIM_DWELL) (2 ^ im.winShift j)

/-- Bytes of one half of a window. -/
def Image.winHalf (im : Image) (j : Nat) : Nat := im.winRows j * im.winSpectra j * 64 * 2 ^ im.winSize j

/-- Pool slot of half `h` of pit stream `j` (R268). -/
def bufSlot (j h : Nat) : Nat := 65536 + 2 * j + h

/-- The dwell a header names. -/
def State.hdrDwell (s : State) (h : Nat) : Int := toSigned 64 (Memory.readNat s.mem (h + 8) 8)

/-- The type a header names. -/
def State.hdrType (s : State) (h : Nat) : Nat := (Memory.read s.mem h).toNat % 16

/-- The SUBARRAY of a header. -/
def State.hdrSub (s : State) (h : Nat) : Nat := (Memory.read s.mem (h + 1)).toNat % 64

/-- The FLAGS of a header. -/
def State.hdrFlags (s : State) (h : Nat) : Nat := (Memory.read s.mem (h + 2)).toNat

/-- Subarray of the visibility product, and of the beam products (R265, R274). -/
def Image.visSub (im : Image) : Nat := bitsOf (im.val Scr.PRD_VIS) 34 6
def Image.poolSub (im : Image) : Nat := bitsOf (im.val Scr.PRD_POOL) 17 6

/-- Record conditions against a dwell for the products of some subarrays (R123, R266): the dwell's record, and the header of
every closed product that holds it. -/
def State.condFor (s : State) (n : Int) (flags subs : Nat) : State :=
  if flags &&& s.flagsWhere (fun e => e.1 == n && e.2.2 &&& subs == subs) = flags then s else
  let s := s.markDwell n flags subs
  let s := s.each [0, 1] (fun s b =>
    if s.getF (bankStateF b) = 2 && decide ((s.bank b).firstDwell ≤ n) && decide (n ≤ s.bankLast b) &&
      subs.testBit (s.integImage (s.bank b).firstDwell).visSub
    then s.orHeader (s.bank b).addr flags else s)
  let im := s.governing n
  let s := if subs.testBit im.poolSub then
      s.each s.liveRecs (fun s x => if (s.rec_ x).dwell = n then s.flagRec x flags else s) else s
  if im.val Scr.PRD_BUF_ANN = 0 then s else
  s.each ((List.range 512).filter (fun j => (im.val Scr.PRD_BUF_ANN).testBit j)) (fun s j =>
    let h := im.poolSlot (bufSlot j (n % 2).toNat)
    if s.hdrType h = 3 && decide (s.hdrDwell h = n) && !(s.hdrFlags h).testBit 4 && subs.testBit (s.hdrSub h) then
      s.orHeader h flags
    else s)

/-- Record conditions against a dwell, for every product. -/
def State.condDwell (s : State) (n : Int) (flags : Nat) : State := s.condFor n flags allSubs

/-- Half `h` of pit stream `j` by `q = 2 j + h` (R268): a condition goes into the header of a half that is announced, and is kept for one
that is being written. -/
def State.flagBuf (s : State) (q flags writing : Nat) : State :=
  let h := s.now.poolSlot (bufSlot (q / 2) (q % 2))
  if s.hdrType h = 3 && !(s.hdrFlags h).testBit 4 then s.orHeader h flags
  else { s with prd.bufFlags := Tbl.set s.prd.bufFlags 0 q (Tbl.get s.prd.bufFlags 0 q ||| writing) }

/-- The halves of beam buffers that are announced under the image in force (R268). -/
def State.bufHalves (s : State) : List Nat :=
  if s.now.val Scr.PRD_BUF_ANN = 0 then []
  else (List.range 1024).filter (fun q => (s.now.val Scr.PRD_BUF_ANN).testBit (q / 2))

/-- A condition recorded against an address (R266): the bank, record or window half that holds it. -/
def State.flagAddr (s : State) (a flags : Nat) : State :=
  let s := s.each [0, 1] (fun s b =>
    let h := (s.bank b).addr
    if s.getF (bankStateF b) ≠ 0 && decide (h ≤ a) && decide (a < h + 64 + s.bankBytes b) then s.flagBank b flags else s)
  let s := s.each s.liveRecs (fun s x =>
    let im := s.governing (s.rec_ x).dwell
    if decide (im.recAddr x ≤ a) && decide (a < im.recAddr x + im.recBytes) then s.flagRec x flags else s)
  let im := s.now
  s.each s.bufHalves (fun s q =>
    let lo := im.winBase (q / 2) + q % 2 * im.winHalf (q / 2)
    if decide (lo ≤ a) && decide (a < lo + im.winHalf (q / 2)) then s.flagBuf q flags flags else s)

/-! ## Capabilities and REPLACE (R26, R343) -/

/-- The word of a capability register. -/
def State.capWord (s : State) (off : Nat) : Nat := (fieldsAt off).foldl (fun v f => v + 2 ^ f.lo * s.getF f) 0

/-- Fields of a register of CTL_CAP0 to CTL_CAP2 change: CAP_SEQ rises by one, and an event entry gives the register and its old and new
values (R26). The spec names neither the entry's code nor the places of its data: constants of the implementation (log 7). -/
def State.setCaps (s : State) (off : Nat) (fs : List (Fld × Nat)) : State :=
  if fs.all (fun q => s.getF q.1 == q.2) then s else
  let t := (s.each fs (fun s q => s.setF q.1 q.2)).addF CTL_CAP3.CAP_SEQ 1
  let old := s.capWord off
  let new := t.capWord off
  t.emit 0x00A (Config.capCode % 65536) (Config.capData0 off old new % 2 ^ 64) (Config.capData1 off old new % 2 ^ 64) 0

/-- A pseudo-channel less (R26, R175). -/
def State.fenceCap (s : State) : State :=
  s.setCaps 0x108 [(CTL_CAP1.STO_PC, s.getF CTL_CAP1.STO_PC - 1), (CTL_CAP1.STO_CAP, s.getF CTL_CAP1.STO_CAP - 48)]

/-- Queue a journal record (R368). -/
def State.journal (s : State) (w : JWrite) : State := { s with ctl.jpend := s.ctl.jpend ++ [w] }

/-- ATTN is set and RC_ATTN low (R68). -/
def State.setAttn (s : State) : State := (s.setF SCP_RC_CTRL.ATTN 1).drive 103 true

/-- Set ATTN for a condition of R68: 0 iron entry, 1 REPLACE, 2 event 0x1004, 3 event 0x1006. -/
def State.attn (s : State) (c : Nat) : State := if s.bit SCP_RC_CTRL.ATTN_EN c then s.setAttn else s

/-- Set a REPLACE cause: bit 0 STAGE, 1 PIT, 2 STORE, 3 LANE (R343). Every cause but LANE is written to the journal. -/
def State.setReplace (s : State) (c : Nat) : State :=
  if s.bit DUO_REPLACE.BITS c then s else
  let s := s.putBit DUO_REPLACE.BITS c true
  let s := if c < 3 then s.journal (.replace c) else s
  let s := s.setFlag DUO_STATUS.REPLACE true
  let s := { s with pwr.svcLow := true }
  let s := s.attn 1
  let s := s.emit 0x00D 0x0E07 (s.getF DUO_REPLACE.BITS) c 2
  s.drive 99 true

/-- The LANE cause clears when no port is DEGRADED (R342). -/
def State.clearLane (s : State) : State :=
  let s := s.putBit DUO_REPLACE.BITS 3 false
  if s.getF DUO_REPLACE.BITS ≠ 0 then s
  else (({ s.setFlag DUO_STATUS.REPLACE false with pwr.svcLow := false } : State)).drive 99 false

/-! ## Pseudo-channels -/

/-- A pseudo-channel beside its registers. -/
def State.pch (s : State) (n : Nat) : PChan := (Tbl.get s.sto.pchan none n).getD PChan.fresh

/-- Change a pseudo-channel. -/
def State.setPch (s : State) (n : Nat) (p : PChan) : State :=
  { s with sto.pchan := Tbl.set s.sto.pchan none n (some p) }

/-- Event source of a pseudo-channel (R309). -/
def pcSrc (n : Nat) : Nat := 0x200 + n

/-- A pseudo-channel is fenced. -/
def State.fenced (s : State) (n : Nat) : Bool := s.bit (STO_FENCE.MAP (n / 64)) (n % 64)

/-- A code word holds the poison pattern. A fence turns every word of its pseudo-channel to poison at once, so the table is
read against that (R175). -/
def State.poisoned (s : State) (w : Nat) : Bool :=
  xor (Tbl.get s.sto.poison false w) (s.pch (pcOf (8 * w))).lost

/-- Make a code word poison, or not. -/
def State.setPoison (s : State) (w : Nat) (b : Bool) : State :=
  { s with sto.poison := Tbl.set s.sto.poison false w (xor b (s.pch (pcOf (8 * w))).lost) }

/-- Every pseudo-channel in service is in self-refresh (R182). -/
def State.refreshAllSr (s : State) : State :=
  s.setFlag STO_STATUS.ALL_SR
    ((List.range 256).all (fun n => s.fenced n || s.bit (STO_SR.MAP (n / 64)) (n % 64)))

/-- A pseudo-channel enters self-refresh (R176). -/
def State.enterSr (s : State) (n : Nat) : State :=
  if s.fenced n || s.getF (STO_PC_STAT.STATE n) = 0 then s
  else (s.putBit (STO_SR.MAP (n / 64)) (n % 64) true).setF (STO_PC_STAT.STATE n) 2

/-- The temperature of a pseudo-channel's stack, as STO_TEMP holds it (R182). -/
def State.stackTemp (s : State) (n : Nat) : Nat := bitsOf (s.getF STO_TEMP.STACKS) (8 * (n / 32)) 8

/-- The stack's temperature differs from that at the last training by STO_RETRAIN_DT or more (R173). -/
def State.tempMoved (s : State) (n : Nat) : Bool :=
  decide (s.sv Scr.STO_RETRAIN_DT ≤
    (toSigned 8 (s.stackTemp n) - toSigned 8 (s.getF (STO_PC_STAT.TEMP_TRAIN n))).natAbs)

/-- A retraining begins (R173). -/
def State.retrain (s : State) (n : Nat) : State :=
  if s.flag (STO_PC_STAT.TRAINING n) then s
  else
    let s := s.setPch n { s.pch n with ceRecent := [] }
    ((s.setF (STO_PC_STAT.TRAINING n) 1).addF STO_STATUS.TRAINING 1).drive 105 true

/-- A pseudo-channel is no longer retraining. -/
def State.retrainOver (s : State) (n : Nat) : State :=
  if s.flag (STO_PC_STAT.TRAINING n) then
    let s := (s.setF (STO_PC_STAT.TRAINING n) 0).setF STO_STATUS.TRAINING (s.getF STO_STATUS.TRAINING - 1)
    s.drive 105 (s.flag STO_STATUS.TRAINING)
  else s

/-- A pseudo-channel leaves self-refresh: its refresh debt is 0, its rows are closed, and a temperature found changed retrains it
(R176). -/
def State.leaveSr (s : State) (n : Nat) : State :=
  if s.bit (STO_SR.MAP (n / 64)) (n % 64) then
    let s := (s.putBit (STO_SR.MAP (n / 64)) (n % 64) false).setF (STO_PC_STAT.STATE n) 1
    let s := (s.setPch n { s.pch n with debt := [], rows := [] }).setF STO_STATUS.ALL_SR 0
    if s.tempMoved n then s.retrain n else s
  else s

/-- A controller turns to the line at `a`: its pseudo-channel is out of self-refresh, and the row is open (R168, R176). -/
def State.activate (s : State) (a : Nat) : State :=
  let n := pcOf a
  let s := s.leaveSr n
  let p := s.pch n
  s.setPch n { p with rows := Tbl.set p.rows 0 (bankOf a) (rowOf a + 1), usedAt := s.clk.cycles }

/-- Every pseudo-channel enters self-refresh (R176). -/
def State.storeSleep (s : State) : State := (s.each (List.range 256) State.enterSr).refreshAllSr

/-- Every pseudo-channel leaves self-refresh. -/
def State.storeWake (s : State) : State := s.each (List.range 256) State.leaveSr

/-- Fence a pseudo-channel (R175). The capability fields fall between two replays. -/
def State.fence (s : State) (n : Nat) : State :=
  if s.fenced n then s
  else if 16 ≤ s.getF STO_STATUS.FENCES then s.raiseFor [] (pcSrc n) 0x0008 4 false (ofSigned 31 s.houseDwell)
  else
    let cap := s.getF CTL_CAP1.STO_CAP - 48 * (1 + (s.duo.retireNext.filter (fun w =>
      match w with | .fence _ => true | _ => false)).length)
    let s := s.putBit (STO_FENCE.MAP (n / 64)) (n % 64) true
    let s := (s.putBit (STO_SR.MAP (n / 64)) (n % 64) false).setF (STO_PC_STAT.STATE n) 3
    let s := s.addF STO_STATUS.FENCES 1
    let s := { s with sto.poison := s.sto.poison.filter (fun e => pcOf (8 * e.1) != n) }
    let s := (s.setPch n { s.pch n with lost := true, relocating := true }).retrainOver n
    let s := s.journal (.fence n)
    let s := s.emit (pcSrc n) 0x0504 cap (n + 256 * s.getF STO_STATUS.FENCES) 2
    let s := s.pulse 104
    let s := s.setReplace 2
    let s := s.each [0, 1] (fun s b =>
      if s.getF (bankStateF b) = 1 then s.flagBank b (fPoisoned ||| fDegraded) else s.flagBank b fPoisoned)
    let s := s.each s.liveRecs (fun s x =>
      s.flagRec x (if (s.rec_ x).st = .releasing then fPoisoned else fPoisoned ||| fDegraded))
    let s := s.each s.bufHalves (fun s q => s.flagBuf q fPoisoned (fPoisoned ||| fDegraded))
    let s := s.refreshAllSr
    if s.seq.replay.isNone && !s.iron then s.fenceCap
    else { s with duo.retireNext := s.duo.retireNext ++ [.fence n] }

/-- Corrected code words (R165): the counts and the one-minute window of R180. -/
def State.corrected (s : State) (n k : Nat) : State :=
  if k = 0 then s else
  let s := (s.incF STO_CE.COUNT k).incF (STO_PC_CE.COUNT n) k
  let p := s.pch n
  s.setPch n { p with
    ceWindow := some (p.ceWindow.getD 0 + k),
    ceRecent := p.ceRecent.filter (fun e => decide (s.clk.cycles < e.2 + minuteCycles)) ++ [(k, s.clk.cycles)] }

/-- An uncorrectable code word at `a` met by an access (R165, R174, R180, R266): each such word counts and is reported with its own
address (DEDUCED, log 9). -/
def State.uncorrectable (s : State) (port a : Nat) (onRead : Bool) : State :=
  let n := pcOf a
  let s := s.incF STO_UE.COUNT 1
  let s := (s.setF STO_UE_ADDR.ADDR a).setF STO_UE_ADDR.PC n
  let s := s.emit (pcSrc n) 0x0502 a (n + 256 * port + 4096 * s.kindAt a) 3
  let s := s.flagAddr a fPoisoned
  if onRead then
    let p := s.pch n
    let line := a / 64
    let lines := p.ueLines.filter (fun e => decide (s.clk.cycles < e.2 + minuteCycles) && e.1 != line) ++ [(line, s.clk.cycles)]
    let s := s.setPch n { p with ueLines := lines }
    if p.outcome2 && decide (16 ≤ lines.length) then s.fence n else s
  else s

/-! ## Line accesses (R165) -/

/-- How one code word of a line decodes: whether it is delivered poisoned, corrected, found uncorrectable, and whether it
decoded as the poison pattern. -/
structure WordDecode where
  psn : Bool
  ce : Bool
  ue : Bool
  pat : Bool
  deriving DecidableEq, Repr

/-- Decode a code word with `e` bits in error; `coin` is the choice the spec leaves open for a poisoned word with three or
more. -/
def decodeWord (poisoned : Bool) (e : Nat) (coin : Bool) : WordDecode :=
  if poisoned then
    if e < 3 || coin then ⟨true, false, false, true⟩ else ⟨true, false, true, false⟩
  else if e = 0 then ⟨false, false, false, false⟩
  else if e < 3 then ⟨false, true, false, false⟩
  else ⟨true, false, true, false⟩

/-- Decode every code word of the line at `a` (R165). -/
def State.decodeLine (s : State) (a : Nat) (errs : List Nat) : List WordDecode :=
  (List.range 8).map (fun i => decodeWord (s.poisoned (a / 8 + i)) (errs.getD i 0) (s.free.testBit i))

/-- A free value was used: some poisoned word met three or more errors. -/
def State.drewIf (s : State) (a : Nat) (errs : List Nat) : State :=
  if (List.range 8).any (fun i => s.poisoned (a / 8 + i) && decide (3 ≤ errs.getD i 0)) then s.drew else s

/-- The code words of a line that decoded uncorrectable, by bit. -/
def ueWords (ws : List WordDecode) : Nat := (ws.zipIdx.filter (fun q => q.1.ue)).foldl (fun v q => v + 2 ^ q.2) 0

/-- Code words of the line at `a` become poison (R165). -/
def State.poisonWords (s : State) (a words : Nat) : State :=
  s.each ((List.range 8).filter (fun i => words.testBit i)) (fun s i => s.setPoison (a / 8 + i) true)

/-- The counts and events that follow a decode (R165). -/
def State.afterDecode (s : State) (port a : Nat) (ws : List WordDecode) (onRead : Bool) : State :=
  let s := s.corrected (pcOf a) (ws.filter (fun w => w.ce)).length
  let s := s.each ((List.range 8).filter (fun i => (ueWords ws).testBit i)) (fun s i => s.uncorrectable port (a + 8 * i) onRead)
  if ws.any (fun w => w.pat) then s.incF STO_PSN_RD.COUNT 1 else s

/-- What a read of a line delivers: its bytes, which code words are poisoned, whether the line is written back, and the code words
that the write-back makes poison. -/
structure Fetched where
  bytes : List Byte
  psn : List Bool
  wb : Bool
  bad : Nat
  deriving DecidableEq, Repr

/-- Fetch the line at `a`, with the write-back of R165 still to come. -/
def State.fetchLine (s : State) (port a : Nat) (errs : List Nat) : State × Fetched :=
  let s := s.activate a
  let ws := s.decodeLine a errs
  let s := (s.drewIf a errs).afterDecode port a ws true
  (s, ⟨Memory.readBytes s.mem a 64, ws.map (fun w => w.psn), ws.any (fun w => w.ce || w.ue), ueWords ws⟩)

/-- Read the line at `a`, written back at once: its bytes, and which code words are delivered poisoned. -/
def State.readLine (s : State) (port a : Nat) (errs : List Nat) : State × List Byte × List Bool :=
  let r := s.fetchLine port a errs
  (r.1.poisonWords a r.2.bad, r.2.bytes, r.2.psn)

/-- Write the bytes of a line that `bytes` enables (R165): a word written whole loses its poison, a word written in part is
read, merged and stored, and keeps its poison. -/
def State.writeLine (s : State) (port a : Nat) (data : List Byte) (bytes : Nat) (errs : List Nat) : State :=
  let s := s.activate a
  let mask (i : Nat) : Nat := bitsOf bytes (8 * i) 8
  let part : List Nat := (List.range 8).map (fun i =>
    if mask i = 0 || mask i = 255 || s.poisoned (a / 8 + i) then 0 else errs.getD i 0)
  let ws := (List.range 8).map (fun i => decodeWord false (part.getD i 0) false)
  let s := (s.afterDecode port a ws false).poisonWords a (ueWords ws)
  let s := s.each (List.range 8) (fun s i => if mask i = 255 then s.setPoison (a / 8 + i) false else s)
  s.each (List.range 64) (fun s k =>
    if bytes.testBit k then { s with mem := Memory.write s.mem (a + k) (data.getD k 0) } else s)

/-! ## Atomic adds (R178, R179) -/

/-- A lane: its number, lowest bit, width and mask bit. -/
structure LaneSlot where
  num : Nat
  lo : Nat
  w : Nat
  bit : Nat
  deriving DecidableEq, Repr

/-- The lanes of a format: 0 L32, 1 L48E, 2 L64. -/
def lanesOf (fmt : Nat) : List LaneSlot :=
  if fmt = 0 then (List.range 16).map (fun k => ⟨k, 32 * k, 32, k⟩)
  else if fmt = 1 then
    (List.range 4).flatMap (fun e =>
      [⟨3 * e, 128 * e, 48, 3 * e⟩, ⟨3 * e + 1, 128 * e + 48, 48, 3 * e⟩, ⟨3 * e + 2, 128 * e + 96, 32, 3 * e⟩])
  else (List.range 8).map (fun k => ⟨k, 64 * k, 64, k⟩)

/-- A lane touches a poisoned code word. -/
def LaneSlot.hit (l : LaneSlot) (psn : List Bool) : Bool :=
  (List.range 8).any (fun i => psn.getD i false && decide (l.lo / 64 ≤ i) && decide (i ≤ (l.lo + l.w - 1) / 64))

/-- The sum of a lane of a line and whether it falls outside the lane's signed range (R178). -/
def LaneSlot.sum (l : LaneSlot) (old op : Nat) : Nat × Bool :=
  let x := toSigned l.w (bitsOf old l.lo l.w) + toSigned l.w (bitsOf op l.lo l.w)
  (ofSigned l.w x, decide (x < -((2 ^ (l.w - 1) : Nat) : Int)) || decide (((2 ^ (l.w - 1) : Nat) : Int) ≤ x))

/-- Replace bits `[lo + w - 1 : lo]` of a value. -/
def putBits (v lo w x : Nat) : Nat := v % 2 ^ lo + 2 ^ lo * (x % 2 ^ w) + 2 ^ (lo + w) * (v >>> (lo + w))

/-- The line an add leaves, over the lanes that are added. -/
def addLanes (ls : List LaneSlot) (old op : Nat) : Nat :=
  ls.foldl (fun v l => putBits v l.lo l.w (l.sum old op).1) old

/-- Add to a line (R178, R179). The access rights have been checked. -/
def State.addLine (s : State) (port a fmt mask : Nat) (op : Nat) (errs : List Nat) : State :=
  let s := s.activate a
  let ws := s.decodeLine a errs
  let s := ((s.drewIf a errs).afterDecode port a ws true).poisonWords a (ueWords ws)
  let psn := ws.map (fun w => w.psn)
  let ls := (lanesOf fmt).filter (fun l => mask.testBit l.bit && !l.hit psn)
  let old := Memory.readNat s.mem a 64
  let ovf := ls.filter (fun l => (l.sum old op).2)
  let s := { s with mem := Memory.writeNat s.mem a 64 (addLanes ls old op) }
  s.each ovf (fun s l =>
    ((s.incF STO_ADD_OVF.COUNT 1).emit (pcSrc (pcOf a)) 0x0505 a (l.num + 16 * fmt) 3).flagAddr a fPoisoned)

/-- An add that the store refuses (R163). -/
def State.deny (s : State) (port a : Nat) : State :=
  (s.incF STO_DENY.COUNT 1).emit (pcSrc (pcOf a)) 0x0507 a port 1

/-- Adds are allowed at an address (R163). -/
def State.addAllowed (s : State) (a : Nat) : Bool :=
  match s.regionAt a with | some r => r.ad | none => false

/-- A request completed beyond its port's latency target (R168). -/
def State.latency (s : State) (port a wait : Nat) : State :=
  if 16 * s.se Scr.STO_LAT_TGT port < wait then
    let s := s.incF (STO_LATE.COUNT port) 1
    let s := s.setF (STO_LATE.MAXW port) (max (s.getF (STO_LATE.MAXW port)) (min 65535 (wait / 16)))
    if s.sto.late.contains (port, s.houseDwell) then s
    else ({ s with sto.late := s.sto.late ++ [(port, s.houseDwell)] }).emit (pcSrc (pcOf a)) 0x0506 wait port 0
  else s

/-- Invalidate a line the host caches before the device writes it (R30); `a` is a store line. -/
def State.invalidate (s : State) (a : Nat) : State :=
  if s.host.snoop.contains a then
    ({ s with host.snoop := s.host.snoop.filter (fun x => x != a) }).send (.biSnpInv a)
  else s

end Sys2Proof.Machine
end

