-- ==== Sys2Proof/Machine/StoreQueue.lean ====
section
/-!
DEFINITION. The controllers' queues and what they serve (R159, R163, R165 to R170, R175), the data a read delivers (R28, R161,
R257, R271), and the accesses of the block's own agents, which are served at once.
-/

namespace Sys2Proof.Machine

/-! ## binary32 (R271) -/

/-- Round a quotient to the nearest integer, ties to even. -/
def roundEven (a b : Nat) : Nat :=
  let q := a / b
  let r := a % b
  if b < 2 * r || (2 * r == b && q % 2 == 1) then q + 1 else q

/-- The binary32 nearest to `n / d`, ties to even; +0.0 for 0. The quotients of R271 lie within the normal range. -/
def toF32 (n : Int) (d : Nat) : Nat :=
  let m := n.natAbs
  if m = 0 || d = 0 then 0
  else
    let e0 : Int := (Nat.log2 m : Int) - Nat.log2 d
    let less := if 0 ≤ e0 then decide (m < d * 2 ^ e0.toNat) else decide (m * 2 ^ (-e0).toNat < d)
    let e := if less then e0 - 1 else e0
    let sh : Int := 23 - e
    let s := if 0 ≤ sh then roundEven (m * 2 ^ sh.toNat) d else roundEven m (d * 2 ^ (-sh).toNat)
    let (s, e) := if s = 2 ^ 24 then (2 ^ 23, e + 1) else (s, e)
    (if n < 0 then 2 ^ 31 else 0) + (e + 127).toNat * 2 ^ 23 + (s - 2 ^ 23)

/-- The converted form of a visibility entry. -/
def convEntry (norm : Bool) (e : Nat) : Nat :=
  let re := toSigned 48 (bitsOf e 0 48)
  let im := toSigned 48 (bitsOf e 48 48)
  let w := bitsOf e 96 32
  let f (v : Int) : Nat := if w = 0 then 0 else toF32 v (if norm then w else 1)
  f re + 2 ^ 32 * f im + 2 ^ 64 * w + 2 ^ 96 * b2n (w == 0)

/-- The converted form of a line: four entries. -/
def convLine (norm : Bool) (v : Nat) : Nat :=
  (List.range 4).foldl (fun t i => t + 2 ^ (128 * i) * convEntry norm (bitsOf v (128 * i) 128)) 0

/-! ## Lines of an OPEN bank (R256, R257) -/

/-- The line of an OPEN bank at a store address: its bank and its number (R256). -/
def State.openLine (s : State) (a : Nat) : Option (Nat × Nat) :=
  ([0, 1].find? (fun b =>
    let k := s.bank b
    s.getF (bankStateF b) = 1 && decide (k.addr + 64 ≤ a) && decide (a < k.addr + 64 + s.bankBytes b))).map
    (fun b => (b, (a - (s.bank b).addr - 64) / 64))

/-- The line at a store address is stale in an OPEN bank: it reads as zero (R257). -/
def State.staleLine (s : State) (a : Nat) : Bool :=
  (s.openLine a).any (fun q => !Tbl.get (s.bank q.1).touch false q.2)

/-- Line `l` of bank `b` has been touched. -/
def State.touchLine (s : State) (b l : Nat) : State :=
  let k := s.bank b
  s.setBank b { k with touch := Tbl.set k.touch false l true }

/-- A stale line of an OPEN bank becomes plain zeros before a part of it is written. -/
def State.freshen (s : State) (a : Nat) : State :=
  match s.openLine a with
  | none => s
  | some (b, l) =>
    if Tbl.get (s.bank b).touch false l then s
    else (s.writeLine 8 a (List.replicate 64 0) (2 ^ 64 - 1) []).touchLine b l

/-- An add to a line (R178); the first add to a stale line of an OPEN bank writes the whole line (R256). -/
def State.addAt (s : State) (port a fmt mask op : Nat) (errs : List Nat) : State :=
  let s := s.invalidate a
  match s.openLine a with
  | none => s.addLine port a fmt mask op errs
  | some (b, l) =>
    if Tbl.get (s.bank b).touch false l then s.addLine port a fmt mask op errs
    else
      let ls := (lanesOf fmt).filter (fun x => mask.testBit x.bit)
      (s.touchLine b l).writeLine port a (leBytes 64 (addLanes ls 0 op)) (2 ^ 64 - 1) []

/-! ## What a read delivers -/

/-- Eight free words as a line. -/
def State.freeLine (s : State) : State × Nat :=
  ({ s with freeCount := s.freeCount + 8 },
   (List.range 8).foldl (fun v i => v + 2 ^ (64 * i) * (Config.freeValue (s.freeCount + i)).toNat) 0)

/-- A controller reads the line at `a` for a port: the data, and what was fetched. Above the usable capacity it delivers zeros with
poison (R28, R163); from 36 MiB to 1 GiB zeros; below lie the ring contexts, plans, images and objects, whose form and places are
not stated: a free value (R161, log 9). -/
def State.serveRead (s : State) (port a : Nat) (errs : List Nat) : State × Nat × Fetched :=
  if s.capBytes ≤ a then (s, 0, ⟨[], List.replicate 8 true, false, 0⟩)
  else if s.staleLine a then (s.activate a, 0, ⟨[], List.replicate 8 false, false, 0⟩)
  else
    let r := s.fetchLine port a errs
    if a < 0x2400000 then
      let f := r.1.freeLine
      (f.1, f.2, r.2)
    else (r.1, if a < 2 ^ 30 then 0 else leNat r.2.bytes, r.2)

/-- The host caches a line: when the filter is full its oldest entry goes first (R30). -/
def State.trackLine (s : State) (a : Nat) : State :=
  if s.host.snoop.contains a then s
  else
    let s := match s.host.snoop with
      | old :: rest => if 65536 ≤ s.host.snoop.length then
          ({ s with host.snoop := rest } : State).send (.biSnpInv old) else s
      | [] => s
    { s with host.snoop := s.host.snoop ++ [a] }

/-- What an HDM read answers. -/
def State.answer (s : State) (v : Nat) (psn : Bool) : State := { s with host.lastRead := v, host.lastPoison := psn }

/-- The data of a read reach the one that asked. -/
def State.handOver (s : State) (a : Nat) (dest : ReadDest) (v : Nat) (psn : List Bool) : State :=
  match dest with
  | .port =>
    { s with sto.line := BitVec.ofNat 512 v, sto.linePsn := BitVec.ofNat 8 (psn.zipIdx.foldl (fun t q => t + b2n q.1 * 2 ^ q.2) 0) }
  | .hdm => (s.trackLine a).answer v (psn.any (fun b => b))
  | .window norm => (s.trackLine a).answer (if s.staleLine a then 0 else convLine norm v) (psn.any (fun b => b))

/-! ## Requests (R163, R167, R168) -/

/-- A request that arrives now. -/
def State.newReq (s : State) (port a waited : Nat) (ask : Ask) : StoreReq := ⟨port, a, s.clk.cycles, waited, ask⟩

/-- How long a request has waited, in ns (R168): a house cycle lasts 4 ns. -/
def State.waitOf (s : State) (r : StoreReq) : Nat := r.waited + 4 * (s.clk.cycles - r.came)

/-- The class of a request (R165 to R167): scrub and write-back go at class 6, the others at their port's. -/
def State.classOf (s : State) (r : StoreReq) : Nat :=
  match r.ask with
  | .scrub _ | .back _ => 6
  | _ => s.se Scr.STO_PORT_CLASS r.port

/-- Urgency (R168). -/
def State.urgency (s : State) (r : StoreReq) : Nat :=
  let w := s.waitOf r
  let t := 16 * s.se Scr.STO_LAT_TGT r.port
  if 2 * w < t then 0 else if 4 * w < 3 * t then 1 else if w < t then 2 else 3

/-- The request's bank has its row open (R160, R168). -/
def State.rowHit (s : State) (r : StoreReq) : Bool :=
  Tbl.get (s.pch (pcOf r.a)).rows 0 (bankOf r.a) == rowOf r.a + 1

/-- The key of R168 as one number: promotion, highest urgency, class, urgency, row hit; `i` is the place in order of arrival. -/
def State.key (s : State) (r : StoreReq) (i : Nat) : Nat :=
  let cls := s.classOf r
  let u := s.urgency r
  let p := b2n (decide (s.waitOf r ≤ 16 * s.se Scr.STO_AGE_LIM cls))
  ((((p * 2 + b2n (u != 3)) * 8 + cls) * 4 + (3 - u)) * 2 + b2n (!s.rowHit r)) * 256 + i % 256

/-- Requests of a queue with their places, in order of arrival, to the line at `a`. -/
def sameLine (q : List StoreReq) (a : Nat) : List (StoreReq × Nat) := q.zipIdx.filter (fun e => e.1.a / 64 == a / 64)

/-- The key a request counts with: the smallest of its own and of the requests it holds back (R169). -/
def State.heldKey (s : State) (q : List StoreReq) (r : StoreReq) (i : Nat) : Nat :=
  (sameLine q r.a).foldl (fun k e => min k (s.key e.1 e.2)) (s.key r i)

/-- The request to issue next (R168, R169): among the first ones to each line, the one with the smallest key. -/
def State.pickReq (s : State) (q : List StoreReq) : Option Nat :=
  let first := q.zipIdx.filter (fun e => ((sameLine q e.1.a).head?.map (fun x => x.2)) == some e.2)
  (first.foldl (fun (best : Option (Nat × Nat)) e =>
    let k := s.heldKey q e.1 e.2
    match best with
    | some b => if b.1 ≤ k then best else some (k, e.2)
    | none => some (k, e.2)) none).map (fun b => b.2)

/-- A port may write an address below the usable capacity (R163): ports 8 and 9 carry the device's own accesses. -/
def State.portMayWrite (s : State) (port a : Nat) : Bool :=
  if 8 ≤ port then true
  else match s.regionAt a with
    | some r => if port = 1 then r.fw else true
    | none => false

/-- The host may write an address (R29, R163). -/
def State.hostMayWrite (s : State) (addr : Nat) : Bool :=
  decide (addr < s.capBytes) && (match s.regionAt addr with | some r => r.hw | none => false)

/-- The rights of a write or add, checked as it arrives and again as it is served: none refuses it (R29, R163). -/
def State.refusal (s : State) (port a : Nat) (ask : Ask) : Option State :=
  match ask with
  | .write _ _ _ =>
    if port = 6 then (if s.hostMayWrite a then none else some ((s.setF HST_ERR.HDM_WR 1).emit 0x004 0x0B04 a 0 0))
    else if s.capBytes ≤ a || !s.portMayWrite port a then some (if port = 1 then s.deny port a else s) else none
  | .add _ _ _ _ => if s.capBytes ≤ a || !s.addAllowed a then some (s.deny port a) else none
  | _ => none

/-- The latency of a request that completes (R168). -/
def State.completed (s : State) (r : StoreReq) : State := s.latency r.port r.a (s.waitOf r)

/-- The write-back of a line that a read has corrected or found uncorrectable, as a request (R165, R170). It takes the place of its
read in the line's order, or it would undo a write that waits behind it (DEDUCED, log 9). -/
def Fetched.backReq (f : Fetched) (r : StoreReq) : List StoreReq :=
  if f.wb then [{ r with port := 9, ask := .back f.bad }] else []

/-- Carry out a request that is not refused; a write-back that it causes joins the queue. -/
def State.serve (s : State) (r : StoreReq) : State × List StoreReq :=
  match r.ask with
  | .read errs dest =>
    let q := s.serveRead r.port r.a errs
    ((q.1.handOver r.a dest q.2.1 q.2.2.psn).completed r, q.2.2.backReq r)
  | .write data bytes errs =>
    let t := if r.port = 6 || 8 ≤ r.port then s else s.invalidate r.a
    (((t.freshen r.a).writeLine r.port r.a (leBytes 64 data.toNat) bytes.toNat errs).completed r, [])
  | .add fmt mask data errs => ((s.addAt r.port r.a fmt mask.toNat data.toNat errs).completed r, [])
  | .scrub errs =>
    let q := s.fetchLine r.port r.a errs
    (q.1.completed r, q.2.backReq r)
  | .back words => (s.poisonWords r.a words, [])

/-! ## The queue (R159, R169, R170) -/

/-- Requests a controller's queue holds (R159). -/
def queueMax : Nat := 128

/-- Requests held off enter a queue that has room (R170). -/
def PChan.refill (p : PChan) : PChan :=
  let k := queueMax - p.queue.length
  { p with queue := p.queue ++ p.held.take k, held := p.held.drop k }

/-- Serve the queue of pseudo-channel `n` until it is empty or waits for a relocation: at most `fuel` requests. -/
def State.serveQueue (n : Nat) : Nat → State → State
  | 0, s => s
  | fuel + 1, s =>
    let p := s.pch n
    if p.relocating then s
    else match s.pickReq p.queue with
      | none => s
      | some i =>
        match p.queue[i]? with
        | none => s
        | some r =>
          let t := s.setPch n { p with queue := p.queue.eraseIdx i }
          let q := match t.refusal r.port r.a r.ask with
            | some u => (u, [])
            | none => t.serve r
          let p' := q.1.pch n
          State.serveQueue n fuel (q.1.setPch n ({ p' with queue := q.2 ++ p'.queue } : PChan).refill)

/-- Serve all that waits at a pseudo-channel: a request causes at most one write-back. -/
def State.serveAll (s : State) (n : Nat) : State :=
  let p := s.pch n
  State.serveQueue n (2 * (p.queue.length + p.held.length)) s

/-- A request arrives at its controller (R168, R170): refused at once, or put at the end of the queue, behind what is held off. A
controller that waits for nothing serves it at once (log 12). -/
def State.request (s : State) (r : StoreReq) : State :=
  match s.refusal r.port r.a r.ask with
  | some u => u
  | none =>
    let n := pcOf r.a
    let p := s.pch n
    (s.setPch n ({ p with held := p.held ++ [r] } : PChan).refill).serveAll n

/-- A pseudo-channel has relocated its granules (R175): what waited is served. -/
def State.relocated (s : State) (n : Nat) : State := (s.setPch n { s.pch n with relocating := false }).serveAll n

/-! ## Accesses of the block's own agents

Movers, drains, the fabric, the sequencer and the script unit carry out their accesses within one command. One that meets granules
that are being relocated waits (R175), so the relocation has ended when it goes on (DESIGN CHOICE, log 9). -/

/-- Wait until the granule at `a` may be accessed. -/
def State.awaitLine (s : State) (a : Nat) : State :=
  if (s.pch (pcOf a)).relocating && decide (a < s.capBytes) then s.relocated (pcOf a) else s

/-- Wait until every granule may be accessed: a pass reads all over the store. -/
def State.awaitStore (s : State) : State :=
  s.each ((s.sto.pchan.filter (fun e => e.2.any (fun p => p.relocating))).map (fun e => e.1)) State.relocated

/-- An agent reads a line: zeros with poison above the usable capacity (R163). -/
def State.agentRead (s : State) (port a : Nat) (errs : List Nat) : State × List Byte × List Bool :=
  if s.capBytes ≤ a then (s, List.replicate 64 0, List.replicate 8 true) else (s.awaitLine a).readLine port a errs

/-- An agent writes bytes of a line: above the usable capacity the write is discarded (R28, R175). What port RING carries is neither
an add nor a mover's nor a drain's, and invalidates nothing (R30). -/
def State.agentWrite (s : State) (port a : Nat) (data : List Byte) (bytes : Nat) : State :=
  if s.capBytes ≤ a then s
  else
    let s := s.awaitLine a
    (if port = 8 then s else s.invalidate a).writeLine port a data bytes []

/-- An agent adds to a line, where adds are allowed (R163). -/
def State.agentAdd (s : State) (port a fmt mask op : Nat) : State :=
  if s.capBytes ≤ a || !s.addAllowed a then s.deny port a else (s.awaitLine a).addAt port a fmt mask op []

/-- The lines of a span, read one by one with no error: its bytes and whether any code word of them is poisoned. -/
def State.readSpan (s : State) (port a n : Nat) : State × List Byte × Bool :=
  let lo := a / 64 * 64
  let cnt := if n = 0 then 0 else (a + n - 1) / 64 - a / 64 + 1
  let r := (List.range cnt).foldl (fun (acc : State × List Byte × Bool) i =>
    let q := acc.1.agentRead port (lo + 64 * i) []
    (q.1, acc.2.1 ++ q.2.1, acc.2.2 || (List.range 8).any (fun w =>
      q.2.2.getD w false && decide (lo + 64 * i + 8 * w < a + n) && decide (a < lo + 64 * i + 8 * w + 8)))) (s, [], false)
  (r.1, (r.2.1.drop (a - lo)).take n, r.2.2)

end Sys2Proof.Machine
end

