-- ==== Sys2Proof/Machine/HostOps.lean ====
section
/-!
DEFINITION. The ring engine and the fault collector's shared operations: ring entries and interrupts (R45 to R47), sequence
numbers and delivery (R15, R312, R419), reactions (R318, R319), and command completions (R42, R45).
-/

namespace Sys2Proof.Machine

/-! ## Rings -/

/-- A ring context. -/
def State.ring (s : State) (r : Nat) : Option Ring := Tbl.get s.host.rings none r

/-- Change a ring context. -/
def State.setRing (s : State) (r : Nat) (x : Option Ring) : State :=
  { s with host.rings := Tbl.set s.host.rings none r x }

/-- Entries of a ring. -/
def Ring.size (x : Ring) : Nat := 2 ^ x.log2

/-- Entries written and not consumed, modulo 2^32 (R34). -/
def Ring.used (x : Ring) : Nat := (x.prod + (2 ^ 32 - x.cons % 2 ^ 32)) % 2 ^ 32

/-- The ring takes no entry: full, or a resize is pending or has not been announced (R46, R48). -/
def Ring.stuck (x : Ring) : Bool := decide (x.size ≤ x.used) || x.resize.isSome || x.settling

/-- PHASE of the next entry: 1 on the first lap (R45). -/
def Ring.phase (x : Ring) : Nat := 1 - (x.prod / x.size) % 2

/-! ## MSI-X (R47) -/

/-- DESIGN CHOICE (log 15). An MSI-X table entry that nothing has written is masked. -/
def msixMasked : BitVec 128 := BitVec.ofNat 128 (2 ^ 96)

/-- Send a message, or set the pending bit of a masked vector. -/
def State.sendMsix (s : State) (v : Nat) : State :=
  if (Tbl.get s.host.msix msixMasked v).toNat.testBit 96 then { s with host.msixPba := Tbl.set s.host.msixPba false v true }
  else ({ s with host.msixLast := Tbl.set s.host.msixLast 0 v (s.clk.cycles + 1) }).send (.msix v)

/-- Raise a vector: at once, or at the end of the holdoff. -/
def State.raiseVector (s : State) (v : Nat) : State :=
  let last := Tbl.get s.host.msixLast 0 v
  if last ≠ 0 && decide ((s.clk.cycles + 1 - last) * 4 < s.sv Scr.HST_MSIX_HOLDOFF) then
    (if s.host.msixHeld.contains v then s else { s with host.msixHeld := s.host.msixHeld ++ [v] })
  else s.sendMsix v

/-- Raise a ring's vector; the entries written so far are announced. -/
def State.announceRing (s : State) (r : Nat) (x : Ring) : State :=
  (s.setRing r (some { x with sinceMsg := 0 })).raiseVector x.vector

/-- Write bytes to host memory; on viral nothing is written (R30, log 5). -/
def State.hostPut (s : State) (a : Nat) (bytes : List Byte) : State :=
  if s.host.viral then s else { s with host.hostMem := Memory.writeBytes s.host.hostMem a bytes }

/-- A ring is gone. -/
def State.removeRing (s : State) (t : Nat) : State :=
  let s := s.setRing t none
  { s with host.ctxCache := s.host.ctxCache.erase t }

/-- The ring that an entry destroys is gone (R44). -/
def State.entryOver (s : State) (h : Held) : State := match h.gone with | some t => s.removeRing t | none => s

/-- Write one 32-byte entry, with PHASE, and count it toward the ring's interrupt (R45). A message follows where the entries reach
MOD_COUNT or the descriptor asked for one; an entry with both raises the vector once (R47; DESIGN CHOICE, log 32). On viral nothing
is written (R30). -/
def State.putEntry (s : State) (r : Nat) (x : Ring) (h : Held) : State :=
  if s.host.viral then s.entryOver h else
  let a := x.base + 32 * (x.prod % x.size)
  let s := s.hostPut a (leBytes 32 (h.entry % 2 ^ 255 + 2 ^ 255 * x.phase))
  let s := if x.sinceMsg = 0 then s.startTimer (.modTime r) else s
  let x := { x with prod := (x.prod + 1) % 2 ^ 32, sinceMsg := x.sinceMsg + 1 }
  (if h.irq || (x.irqEn && decide (max 1 x.modCount ≤ x.sinceMsg)) then s.announceRing r x
    else s.setRing r (some x)).entryOver h

/-- A ring context is pinned (R39). -/
def State.isPinned (s : State) (r : Nat) : Bool := match s.ring r with | some x => x.pinned | none => false

/-- The cached contexts with `r` used last: of more than 4,096 the least recently used one that is not pinned goes (R39). -/
def State.cacheCtx (s : State) (r : Nat) : State :=
  let l := s.host.ctxCache.erase r ++ [r]
  let l := if l.length ≤ 4096 then l
    else match l.find? (fun q => !s.isPinned q) with
      | some q => l.erase q
      | none => l
  { s with host.ctxCache := l }

/-- The ring engine uses the context of ring `r`: a miss is counted (R39, R40). It does so for a doorbell, a descriptor fetch and an
entry delivered; RING_QUERY, RING_DESTROY, RING_RESIZE and a resize that applies work on the store's copy and count nothing (DESIGN
CHOICE, log 32). -/
def State.touchCtx (s : State) (r : Nat) : State :=
  if s.host.ctxCache.contains r then s.cacheCtx r else (s.addF HST_CTX_MISS.COUNT 1).cacheCtx r

/-- The uncorrectable context of a ring (R40, log 9): the ring is in ERROR. -/
def State.ctxError (s : State) (r : Nat) (x : Ring) : State :=
  ((s.agentRead 8 (64 * r) [3]).1.setF HST_ERR.CTX_ECC 1).setRing r (some { x with error := true })

/-- A context fetched from the store is uncorrectable. -/
def State.ctxLost (s : State) (r : Nat) (bad : Bool) : Bool := bad && !s.host.ctxCache.contains r

/-- Deliver an entry to a device-produced ring (R46, R48). `seq` is its sequence number; `bad` the rings whose context the store
gives uncorrectable. While lost entries of the ring have not been reported, further ones are lost with them. An entry for a ring in
ERROR vanishes (R35). -/
def State.deliver (s : State) (bad : List Nat) (r seq : Nat) (h : Held) : State :=
  let lost := s.ctxLost r (bad.contains r)
  let s := s.touchCtx r
  match s.ring r with
  | none => s.entryOver h
  | some x =>
    if lost then (s.ctxError r x).entryOver h
    else if x.error then s.entryOver h
    else if !x.stuck && x.held.isEmpty && x.lostCount = 0 then s.putEntry r x h
    else if x.kind = 1 || (x.kind = 2 && decide (x.held.length < 256)) then
      s.setRing r (some { x with held := x.held ++ [h] })
    else s.setRing r (some { x with lostFirst := if x.lostCount = 0 then seq else x.lostFirst, lostCount := x.lostCount + 1 })

/-- Write held entries while the ring has space. -/
def State.flushHeld (s : State) (r : Nat) : State :=
  (List.range (match s.ring r with | some x => x.held.length | none => 0)).foldl (fun s _ =>
    match s.ring r with
    | some x =>
      match x.held with
      | e :: t => if x.stuck || s.host.viral then s else s.putEntry r { x with held := t } e
      | [] => s
    | none => s) s

/-- Space has returned on ring `r`: where entries were lost, event 0x0B05 is due, which gets its number like any event and is
written before anything else; otherwise the held entries follow at once (R15, R46). Its DATA0 names the ring until then. -/
def State.spaceBack (s : State) (r : Nat) : State :=
  match s.ring r with
  | none => s
  | some x =>
    if x.stuck || x.error then s
    else if x.lostCount = 0 then s.flushHeld r
    else if s.outbox.any (fun e => e.code == 0x0B05 && e.d0 == r) then s
    else s.post ⟨s.clk.cycles, s.houseSix, 0x004, 0x0B05, r, 0, 0, 0, [], true⟩

/-- A ring that has moved takes entries again once event 0x0B07 has been written (R48). -/
def State.settled (s : State) (r : Nat) : State :=
  match s.ring r with
  | some x => s.setRing r (some { x with settling := false })
  | none => s

/-- A sequence number (R15). -/
def State.takeSeq (s : State) : State × Nat := ({ s with nextSeq := s.nextSeq + 1 }, s.nextSeq)

/-- An event entry (R45). -/
def eventEntry (seq six d0 d1 code src : Nat) : Nat :=
  seq % 2 ^ 64 + 2 ^ 64 * (six % 2 ^ 64) + 2 ^ 128 * (d0 % 2 ^ 64) + 2 ^ 192 * (d1 % 2 ^ 32) + 2 ^ 224 * (code % 2 ^ 16) +
    2 ^ 240 * (src % 2 ^ 10)

/-- A completion entry (R45). -/
def completionEntry (result cidx ring tag status seq reason : Nat) : Nat :=
  result % 2 ^ 64 + 2 ^ 64 * (cidx % 2 ^ 32) + 2 ^ 96 * (ring % 2 ^ 18) + 2 ^ 128 * (tag % 2 ^ 16) +
    2 ^ 144 * (status % 2 ^ 16) + 2 ^ 160 * (seq % 2 ^ 64) + 2 ^ 224 * (reason % 2 ^ 8)

/-- A product entry (R45). -/
def productEntry (hdr seq integ typ sub len64 : Nat) : Nat :=
  hdr % 2 ^ 64 + 2 ^ 64 * (seq % 2 ^ 64) + 2 ^ 128 * (integ % 2 ^ 32) + 2 ^ 160 * (typ % 16) + 2 ^ 164 * (sub % 64) +
    2 ^ 192 * (len64 % 2 ^ 32)

/-- An event ring receives an entry (R419). Ring 2 is the admin event ring. -/
def Ring.takes (x : Ring) (r : Nat) (e : Ev) : Bool :=
  x.kind = 3 &&
    (if r = 2 || x.subAll then e.always || decide (x.minClass ≤ e.cls)
     else e.subs.contains x.subSel && decide (x.minClass ≤ e.cls))

/-- The numbers of the event rings an entry goes to. -/
def State.eventRings (s : State) (e : Ev) : List Nat :=
  (s.host.rings.filter (fun p => match p.2 with | some x => x.takes p.1 e | none => false)).map (fun p => p.1)

/-! ## The collector (R312, R315, R318, R319) -/

/-- Add a fault to the pending set: one entry per source, the highest class, the lowest sequence number (R319). -/
def addPend (l : List React) (x : React) : List React :=
  if l.any (fun y => y.src == x.src) then
    l.map (fun y => if y.src = x.src ∧ y.cls < x.cls then { y with cls := x.cls, reason := x.reason, dwell := x.dwell } else y)
  else l ++ [x]

/-- The next reaction: the highest class, then the lowest sequence number. -/
def nextReact (l : List React) : Option React :=
  l.foldl (fun best x =>
    match best with
    | none => some x
    | some b => if b.cls < x.cls ∨ (b.cls = x.cls ∧ x.seq < b.seq) then some x else some b) none

/-- Conditions a reason's product effect records (R313, R345, R374). -/
def effectOf (reason : Nat) : Nat :=
  if reason = 0x0003 then fHoldover
  else if reason = 0x0004 || reason = 0x0007 || reason = 0x000C || reason = 0x000D || reason = 0x0010 || reason = 0x0011 ||
    reason = 0x0013 then fPoisoned
  else 0

/-- HOLDOVER is recorded only for the states HCK_FLAG_MASK names (R90); state 4 is LOST. -/
def State.effectFor (s : State) (reason : Nat) : Nat :=
  if reason = 0x0003 && !((s.sv Scr.HCK_FLAG_MASK).testBit 4) then 0 else effectOf reason

/-- Run a reaction: class C3 completes at once, class C2 waits for its acknowledgment. -/
def State.runReact (s : State) (x : React) : State :=
  if x.cls = 3 then (s.pulse 97).condDwell x.dwell (s.effectFor x.reason)
  else ({ s.pulse 96 with flt.react := some { x with step := 1 } } : State).startTimer (.ack x.src)

/-- Start the next pending reaction, or resume the one pre-empted last, whichever has the higher class (R319). -/
def State.nextReaction (s : State) : State :=
  if s.flt.react.isSome || !s.inService then s else
  let p := nextReact s.flt.pendReact
  let q := s.flt.preempted.getLast?
  match p, q with
  | some x, some y =>
    if y.cls < x.cls then ({ s with flt.pendReact := s.flt.pendReact.filter (fun z => z.src != x.src) }).runReact x
    else if y.acked then { s with flt.preempted := s.flt.preempted.dropLast }
    else { s with flt.preempted := s.flt.preempted.dropLast, flt.react := some y }
  | some x, none => ({ s with flt.pendReact := s.flt.pendReact.filter (fun z => z.src != x.src) }).runReact x
  | none, some y =>
    if y.acked then { s with flt.preempted := s.flt.preempted.dropLast }
    else { s with flt.preempted := s.flt.preempted.dropLast, flt.react := some y }
  | none, none => s

/-- A pre-empted reaction resumes when nothing runs and nothing of a higher class is pending. -/
def State.resume (s : State) : State :=
  match s.flt.preempted.getLast? with
  | some y =>
    if s.flt.react.isNone && s.flt.pendReact.all (fun x => decide (x.cls ≤ y.cls)) then s.nextReaction else s
  | none => s

/-- The dwell a record reacts against: that of its house SIX, or the dwell its raiser names (R313, R339, R341). -/
def State.reactDwell (s : State) (e : Ev) : Int :=
  if e.reason = 0x0010 || e.reason = 0x0011 || e.reason = 0x0013 then
    s.houseDwell + toSigned 31 (ofSigned 31 ((e.d1 : Int) - s.houseDwell))
  else s.dwellOf e.six

/-- A fault record's part in the collector once it has its number (R312, R315, R319). -/
def State.collect (s : State) (e : Ev) (seq : Nat) : State :=
  let s := s.putBit (FLT_STICKY.MAP (e.src / 64)) (e.src % 64) true
  let old := s.getF FLT_CNT.BITS
  let s := s.setF FLT_CNT.BITS (putBits old (16 * (e.cls - 1)) 16 (min 65535 (bitsOf old (16 * (e.cls - 1)) 16 + 1)))
  let s := if e.cls < 4 then s.latch e.src e.cls e.reason e.six else s
  if e.cls = 2 || e.cls = 3 then
    let s := { s with flt.pendReact := addPend s.flt.pendReact ⟨e.src, e.cls, seq, e.reason, s.reactDwell e, 0, false⟩ }
    match s.flt.react with
    | some r =>
      if r.cls < e.cls then
        let s := s.emit 0x000 0x0D06 (r.src + 1024 * r.cls) e.src 0
        (({ s with flt.react := none, flt.preempted := s.flt.preempted ++ [r] }).nextReaction).resume
      else s
    | none => s
  else s

/-- DATA0 of an entry: a record of code 0x0D01 carries its class and the number of the unit's own entry (R324). -/
def Ev.data0 (e : Ev) (seq : Nat) : Nat :=
  if e.code = 0x0D01 then
    e.d0 % 2 ^ 16 + 2 ^ 16 * e.cls + (if e.d0.testBit 32 then 2 ^ 32 * ((seq - 1) % 2 ^ 32) else 0)
  else e.d0

/-- Give one event its number, deliver it and, in service, collect it. A ring whose move the event announces then writes what it
holds (R48). -/
def State.numberEv (s : State) (bad : List Nat) (e : Ev) : State :=
  let (s, n) := s.takeSeq
  let w := eventEntry n e.six (e.data0 n) e.d1 e.code e.src
  let moved := e.code = 0x0B07
  let s := if moved then s.settled (e.d1 / 2 ^ 14) else s
  let s := s.each (s.eventRings e) (fun s r => s.deliver bad r n ⟨w, false, none⟩)
  let s := if moved then s.spaceBack (e.d1 / 2 ^ 14) else s
  if s.inService && decide (1 ≤ e.cls) then s.collect e n else s

/-- Give event 0x0B05 of ring `r` its number and write it, on the ring itself or for product entries on the admin event ring; then
write the held entries (R46). A ring that is gone or in ERROR gets none. -/
def State.numberLost (s : State) (bad : List Nat) (e : Ev) : State :=
  let r := e.d0
  match s.ring r with
  | none => s
  | some x =>
    if x.error || x.lostCount = 0 then s
    else
      let (s, n) := s.takeSeq
      let w : Held := ⟨eventEntry n e.six x.lostFirst x.lostCount 0x0B05 0x004, false, none⟩
      let s := s.setRing r (some { x with lostFirst := 0, lostCount := 0 })
      (if x.kind = 3 then s.deliver bad r n w else s.deliver bad 2 n w).flushHeld r

/-- Product rings that announce a subarray (R270). -/
def State.productRings (s : State) (sub : Nat) : List Nat :=
  (s.host.rings.filter (fun p => match p.2 with
    | some x => x.kind = 2 && (x.subAll || x.subSel == sub) | none => false)).map (fun p => p.1)

/-- Give a completion or product entry its number and deliver it (R15, R45, R270). A product that no ring announces gets none. -/
def State.numberNotice (s : State) (bad : List Nat) (x : Notice) : State :=
  match x with
  | .completion _ cpl ring cidx tag status result reason irq gone =>
    let (s, n) := s.takeSeq
    s.deliver bad cpl n ⟨completionEntry result cidx ring tag status n reason, irq, gone⟩
  | .product _ hdr integ typ sub len64 =>
    let rs := s.productRings sub
    if rs.isEmpty then s else
    let (s, n) := s.takeSeq
    s.each rs (fun s r => s.deliver bad r n ⟨productEntry hdr n integ typ sub len64, false, none⟩)

/-- The house cycle an entry was made in. -/
def Notice.stamp (x : Notice) : Nat := match x with | .completion t _ _ _ _ _ _ _ _ _ => t | .product t _ _ _ _ _ => t

/-- The key by which numbers are assigned: stamp, then source (R15). -/
def Ev.rank (e : Ev) : Nat := e.stamp * 1024 + e.src

/-- The first entry of lowest rank. -/
def firstEv (l : List Ev) : Option Ev :=
  l.foldl (fun best e => match best with | none => some e | some b => if e.rank < b.rank then some e else some b) none

/-- 16 house cycles have passed since a stamp: nothing stamped earlier can still be on its way (R15). -/
def State.ripe (s : State) (stamp : Nat) : Bool := decide (stamp + 16 ≤ s.clk.cycles)

/-- The event of lowest rank gets its number. -/
def State.assignEv (s : State) (bad : List Nat) (e : Ev) : State :=
  if !s.ripe e.stamp then s
  else
    let s := { s with outbox := s.outbox.erase e }
    if e.code = 0x0B05 then s.numberLost bad e else s.numberEv bad e

/-- The oldest completion or product entry gets its number. -/
def State.assignNotice (s : State) (bad : List Nat) (x : Notice) : State :=
  if s.ripe x.stamp then ({ s with host.notices := s.host.notices.drop 1 } : State).numberNotice bad x else s

/-- Assign the next sequence number (R15). A completion or product entry, which R15 gives no source, follows the events of its house
cycle (DESIGN CHOICE, log 32). -/
def State.assign (s : State) (bad : List Nat) : State :=
  match firstEv s.outbox, s.host.notices with
  | none, [] => s
  | some e, [] => s.assignEv bad e
  | none, x :: _ => s.assignNotice bad x
  | some e, x :: _ => if x.stamp < e.stamp then s.assignNotice bad x else s.assignEv bad e

/-! ## Command execution (R42, R45) -/

/-- Completion status codes (R45). -/
def stOk : Nat := 0
def stPending : Nat := 1
def stUnpinned : Nat := 2
def stBadOpcode : Nat := 0x10
def stBadArg : Nat := 0x11
def stDenied : Nat := 0x12
def stBusy : Nat := 0x13
def stNoRing : Nat := 0x14
def stExists : Nat := 0x15
def stDeviceError : Nat := 0x20
def stInIron : Nat := 0x21

/-- Bits of a descriptor. -/
def Exec.arg (e : Exec) (lo w : Nat) : Nat := bitsOf e.desc.toNat lo w

/-- The opcode of a descriptor. -/
def Exec.op (e : Exec) : Nat := e.arg 0 8

/-- The command that ring `r` executes. -/
def State.current (s : State) (r : Nat) : Option Exec := match s.ring r with | some x => x.exec | none => none

/-- The command a ring is executing, if its opcode is `op`. A command that a ring had started when ENABLE destroyed it still runs,
also once the ring has been created anew (R40). -/
def State.running (s : State) (r op : Nat) : Option Exec :=
  ((s.current r).filter (fun e => e.op == op)).orElse (fun _ =>
    (s.host.orphans.find? (fun p => p.1 == r && p.2.op == op)).map (fun p => p.2))

/-- The command `e` of ring `r` has ended without a completion entry: its ring has been destroyed (R40). -/
def State.endOrphan (s : State) (r : Nat) (e : Exec) : State := { s with host.orphans := s.host.orphans.erase (r, e) }

/-- A command ends; its completion entry is written once it has its number (R15, R42, R45). `gone` is the ring that the command
destroys when that entry is written, or at once where none is (R41, R44). -/
def State.completeGone (s : State) (r : Nat) (e : Exec) (status result reason : Nat) (gone : Option Nat) : State :=
  match s.ring r with
  | none => (s.endOrphan r e).entryOver ⟨0, false, gone⟩
  | some x =>
    if x.exec ≠ some e then (s.endOrphan r e).entryOver ⟨0, false, gone⟩
    else
      let s := s.setRing r (some { x with exec := none })
      if e.arg 9 1 = 1 && status = stOk then s.entryOver ⟨0, false, gone⟩
      else
        { s with host.notices := s.host.notices ++
          [.completion s.clk.cycles x.cplRing r e.cidx (e.arg 32 16) status result reason (e.arg 8 1 == 1) gone] }

/-- A command ends with a completion (R42, R45). -/
def State.complete (s : State) (r : Nat) (e : Exec) (status result reason : Nat) : State :=
  s.completeGone r e status result reason none

/-- Complete with a status alone. -/
def State.finish (s : State) (r : Nat) (e : Exec) (status : Nat) : State := s.complete r e status 0 0

/-- A product entry to every product ring whose selection matches (R270). -/
def State.productNotice (s : State) (hdr typ sub len64 : Nat) (integ : Nat) : State :=
  { s with host.notices := s.host.notices ++ [.product s.clk.cycles hdr integ typ sub len64] }

end Sys2Proof.Machine
end

