-- ==== Sys2Proof/Machine/Banks.lean ====
section
/-!
DEFINITION. Products (R253 to R272): headers, visibility banks, contributions and marks, closes, and staging records with the
products that come of them (R245 to R247, R267).
-/

namespace Sys2Proof.Machine

/-- Event source of the products unit, of the stage and beam unit, of the sequencer (R309). -/
def prdSrc : Nat := 0x00E
def stgSrc : Nat := 0x010
def seqSrc : Nat := 0x00F

/-! ## Headers (R265) -/

/-- A product header. -/
structure Header where
  typ : Nat
  sub : Nat
  flags : Nat
  layout : Nat
  dwells : Nat
  inputs : Nat
  dwell : Int
  integ : Int
  sixStart : Nat
  sixEnd : Nat
  chanBase : Nat
  chanCount : Nat
  pass : Nat
  epoch : Nat
  rank : Nat
  chip : Nat
  data64 : Nat
  tag : Nat
  deriving DecidableEq, Repr

/-- The 64 bytes of a header, as a value. -/
def Header.nat (h : Header) : Nat :=
  h.typ % 16 + 16 + 2 ^ 8 * (h.sub % 64) + 2 ^ 16 * (h.flags % 256) + 2 ^ 24 * (h.layout % 256) + 2 ^ 32 * (h.dwells % 2 ^ 16) +
  2 ^ 48 * (h.inputs % 2 ^ 14) + 2 ^ 64 * ofSigned 64 h.dwell + 2 ^ 128 * ofSigned 64 h.integ +
  2 ^ 192 * (h.sixStart % 2 ^ 64) + 2 ^ 256 * (h.sixEnd % 2 ^ 64) + 2 ^ 320 * (h.chanBase % 2 ^ 24) +
  2 ^ 344 * (h.chanCount % 2 ^ 13) + 2 ^ 360 * (h.pass % 2 ^ 16) + 2 ^ 376 * (h.epoch % 2 ^ 16) + 2 ^ 392 * (h.rank % 16) +
  2 ^ 396 * (h.chip % 2 ^ 11) + 2 ^ 416 * (h.data64 % 2 ^ 32) + 2 ^ 448 * (h.tag % 2 ^ 64)

/-- Write a header at a store address, through port RING (R167). -/
def State.writeHeader (s : State) (a : Nat) (h : Header) : State := s.agentWrite 8 a (leBytes 64 h.nat) (2 ^ 64 - 1)

/-- This chip's ID (R292). -/
def State.chip (s : State) : Nat := s.newest.val Scr.FAB_CHIP_ID

/-- CORR entries of a plan. -/
def Image.corrCount (im : Image) : Nat := (im.plan.filter (fun e => e % 16 == 0)).length

/-- Dwells from `a` to `b`. -/
def dwellRange (a b : Int) : List Int := (List.range (b - a + 1).toNat).map (fun (i : Nat) => a + (i : Int))

/-- Dwells `a` to `b` were governed by more than one image (R11). -/
def State.mixed (s : State) (a b : Int) : Bool :=
  decide (s.governing a ≠ s.governing b) ||
    s.scr.images.any (fun im => !im.whole && decide (a < im.first) && decide (im.first ≤ b))

/-- Conditions recorded against dwells `a` to `b` for the products of subarray `sub`, with MIXED. -/
def State.flagsOver (s : State) (a b : Int) (sub : Nat) : Nat :=
  s.flagsWhere (fun e => decide (a ≤ e.1) && decide (e.1 ≤ b) && e.2.2.testBit sub) |||
    (if s.mixed a b then fMixed else 0)

/-! ## Visibility products (R256 to R263) -/

/-- PRD_VIS sub-fields (R274). -/
def Image.visBase (im : Image) (b : Nat) : Nat := bitsOf (im.val Scr.PRD_VIS) (17 * b) 17 * pageBytes
def Image.visMarks (im : Image) : Nat := bitsOf (im.val Scr.PRD_VIS) 40 1 + bitsOf (im.val Scr.PRD_VIS) 41 6
def Image.visPeer (im : Image) : Bool := bitOf (im.val Scr.PRD_VIS) 47
def Image.visChip (im : Image) : Nat := bitsOf (im.val Scr.PRD_VIS) 48 11

/-- The image keeps visibilities in its own banks. -/
def Image.visOwn (im : Image) : Bool := !im.visPeer && decide (1 ≤ im.visMarks)

/-- The header of bank `b`. -/
def State.visHeader (s : State) (b flags dwells : Nat) : Header :=
  let k := s.bank b
  let im := s.integImage k.firstDwell
  let last := s.bankLast b
  { typ := 1, sub := im.visSub, flags := flags, layout := 0, dwells := dwells, inputs := im.np,
    dwell := k.firstDwell, integ := k.integ, sixStart := s.startSix k.firstDwell,
    sixEnd := (s.governing last).startSix (last + 1) + (2 ^ 64 - 1), chanBase := im.val Scr.PRD_CHAN_BASE,
    chanCount := im.val Scr.STG_CHANNELS, pass := (s.governing last).corrCount, epoch := s.getF DUO_STATUS.EPOCH,
    rank := s.getF DUO_STATUS.RANK, chip := s.chip, data64 := (k.addr + 64) / 64, tag := s.tagOf last }

/-- The bank of a dwell's integration (R256). -/
def State.bankNo (s : State) (n : Int) : Nat := (s.integ n % 2).toNat

/-- The subarrays a bank's events are attributed to (R419). -/
def State.bankSubs (s : State) (b : Nat) : List Nat := [(s.integImage (s.bank b).firstDwell).visSub]

/-- End marks that still wait for a product are dropped: event 0x0A03, and the product is partial (R286). True when there was
one. -/
def State.dropMarks (s : State) (target record : Nat) (lo hi : Int) : State × Bool :=
  let hit (m : EndMark) : Bool := m.target == target && m.record == record && decide (lo ≤ m.dwell) && decide (m.dwell ≤ hi)
  let ms := s.fab.waitMarks.filter hit
  let s := { s with fab.waitMarks := s.fab.waitMarks.filter (fun m => !hit m) }
  (s.each ms (fun s m =>
    s.emit (0x038 + m.port) 0x0A03 (ofSigned 64 m.dwell) (m.src + 2048 * m.target + 4096 * m.record) 3), !ms.isEmpty)

/-- A close begins (R260, R262): cause 0 NORMAL, 1 TIMEOUT, 2 FORCED, 3 LAYOUT. -/
def State.startClose (s : State) (b cause : Nat) : State :=
  let k := s.bank b
  if s.getF (bankStateF b) ≠ 1 || k.closing then s else
  let s := s.setF PRD_STATUS.SWEEP 1
  let s := s.setBank b { k with closing := true, flags := if cause = 0 then k.flags else k.flags ||| fPartial }
  if cause = 0 then s else
  let s := (s.dropMarks 0 0 k.firstDwell (s.bankLast b)).1
  let s := (s.incF PRD_FORCED.COUNT 1).putBit PRD_EVT.BITS 0 true
  s.emitFor (s.bankSubs b) prdSrc 0x0901 (ofSigned 64 k.integ) (b + 2 * (cause - 1) + 65536 * s.getF (bankDwellsF b)) 3

/-- Dwells of the integration a bank holds. -/
def State.bankSpan (s : State) (b : Nat) : Nat := (s.bankLast b - (s.bank b).firstDwell + 1).toNat

/-- Every dwell of the bank's integration is complete: it closes, under LAYOUT when R255 cut it short. -/
def State.checkComplete (s : State) (b : Nat) : State :=
  let k := s.bank b
  if s.getF (bankStateF b) = 1 && decide (s.bankSpan b ≤ s.getF (bankDwellsF b)) then
    s.startClose b (if s.bankSpan b < (s.anchorOf k.firstDwell).2.2 then 3 else 0)
  else s

/-- Count a mark of a dwell of the integration the bank holds (R259). -/
def State.countMark (s : State) (b : Nat) (n : Int) : State :=
  let k := s.bank b
  let i := (n - k.firstDwell).toNat
  let c := Tbl.get k.marks 0 i + 1
  let s := (s.setBank b { k with marks := Tbl.set k.marks 0 i c }).addF (bankMarksF b) 1
  let s := if c = (s.integImage n).visMarks then s.addF (bankDwellsF b) 1 else s
  s.checkComplete b

/-- Open bank `b` for the integration of dwell `n` (R256). -/
def State.openBank (s : State) (b : Nat) (n : Int) : State :=
  let i := s.integ n
  let im := s.integImage n
  let old := s.bank b
  let s := s.setBank b ⟨i, s.firstDwell n, im.visBase b, [], [], 0, false, old.lateSrcs⟩
  let s := (s.setF (bankStateF b) 1).setF (bankGenF b) (1 - s.getF (bankGenF b))
  let s := ((s.setF (bankIntegF b) (ofSigned 64 i)).setF (bankDwellsF b) 0).setF (bankMarksF b) 0
  let s := s.writeHeader (im.visBase b) (s.visHeader b fOpen 0)
  let early := s.prd.marksEarly.filter (fun e => decide (s.integ e.1 = i))
  let s := { s with prd.marksEarly := s.prd.marksEarly.filter (fun e => decide (s.integ e.1 ≠ i)) }
  s.each early (fun s e => s.countMark b e.1)

/-- A late contribution or mark (R261). `src` is the source chip, 0x7FF for the own stage. -/
def State.late (s : State) (n : Int) (src : Nat) (drain : Bool) : State :=
  let b := s.bankNo n
  let k := s.bank b
  let key := ofSigned 64 (s.integ n) * 4096 + src
  let s := s.incF PRD_LATE.COUNT 1
  let s := if k.lateSrcs.contains key then s else
    ((s.setBank b { k with lateSrcs := k.lateSrcs ++ [key] }).putBit PRD_EVT.BITS 1 true).emitFor
      [(s.integImage n).visSub] prdSrc 0x0902 (ofSigned 64 n) (src + 2048 * b) 1
  if drain && decide (k.integ = s.integ n) then s.flagBank b fPartial else s

/-- What becomes of a contribution for dwell `n` (R256, R261). -/
inductive Accept where
  | apply | late | wait
  deriving DecidableEq, Repr

/-- Judge a contribution: it opens the bank, applies, is late, or waits for a close it forces. -/
def State.accept (s : State) (n : Int) : State × Accept :=
  let b := s.bankNo n
  let k := s.bank b
  let i := s.integ n
  let st := s.getF (bankStateF b)
  if st = 0 then (s.openBank b n, .apply)
  else if st = 2 then (if k.integ < i then (s.openBank b n, .apply) else (s, .late))
  else if k.integ = i then (s, if k.closing then .late else .apply)
  else if i < k.integ then (s, .late)
  else (s.startClose b 2, .wait)

/-- A contribution mark for dwell `n` (R259, R261). A mark opens no bank: one that comes first waits for the bank. -/
def State.mark (s : State) (n : Int) (src : Nat) : State :=
  if !(s.integImage n).visOwn then s else
  let b := s.bankNo n
  let k := s.bank b
  let i := s.integ n
  let st := s.getF (bankStateF b)
  if st = 0 || decide (k.integ < i) then { s with prd.marksEarly := s.prd.marksEarly ++ [(n, src)] }
  else if st = 1 && decide (k.integ = i) && !k.closing then s.countMark b n
  else s.late n src false

/-- Tile offset of tile (A, B) (R258). -/
def tileOffset (ta tb : Nat) : Nat := 1024 * (ta * (ta - 1) / 2 + tb) + 528 * ta

/-- Entry index of row input `a`, column input `b` (`a ≥ b`), channel `c` (R258). -/
def Image.entryIndex (im : Image) (a b c : Nat) : Nat :=
  let u := a % 32
  let v := b % 32
  c * im.ent + tileOffset (a / 32) (b / 32) + (if b / 32 < a / 32 then 32 * u + v else u * (u + 1) / 2 + v)

/-- The row and column inputs of an entry within its channel. -/
def Image.entryInputs (im : Image) (y : Nat) : Nat × Nat :=
  let ta := ((List.range (im.np / 32)).filter (fun t => decide (tileOffset t 0 ≤ y))).length - 1
  let r := y - tileOffset ta 0
  if r < 1024 * ta then (32 * ta + r % 1024 / 32, 32 * (r / 1024) + r % 32)
  else
    let o := r - 1024 * ta
    let u := ((List.range 32).filter (fun t => decide (t * (t + 1) / 2 ≤ o))).length - 1
    (32 * ta + u, 32 * ta + (o - u * (u + 1) / 2))

/-- A line of a bank holds an entry with both inputs below N. -/
def Image.lineKept (im : Image) (l : Nat) : Bool :=
  (List.range 4).any (fun e =>
    let q := im.entryInputs ((4 * l + e) % im.ent)
    decide (q.1 < im.val Scr.STG_INPUTS) && decide (q.2 < im.val Scr.STG_INPUTS))

/-- An add to line `l` of bank `b` (R163, R256). -/
def State.bankAdd (s : State) (port b fmt l mask op : Nat) : State := s.agentAdd port ((s.bank b).addr + 64 + 64 * l) fmt mask op

/-- The close sweep and what follows it (R262). -/
def State.sweep (s : State) (b : Nat) : State :=
  let k := s.bank b
  let im := s.integImage k.firstDwell
  let stale := (List.range (im.entries / 4)).filter (fun l => !Tbl.get k.touch false l)
  let s := s.each stale (fun s l => s.agentWrite 8 (k.addr + 64 + 64 * l) (List.replicate 64 0) (2 ^ 64 - 1))
  let count := (stale.filter im.lineKept).length
  let s := s.incF PRD_STALE.COUNT count
  let s := if count = 0 then s else
    (s.putBit PRD_EVT.BITS 2 true).emitFor (s.bankSubs b) prdSrc 0x0903 count b 0
  let s := s.setBank b { s.bank b with closing := false }
  let s := s.setF (bankStateF b) 2
  let s := s.setFlag PRD_STATUS.SWEEP ((s.bank (1 - b)).closing)
  let flags := k.flags ||| s.flagsOver k.firstDwell (s.bankLast b) (s.integImage k.firstDwell).visSub
  let s := s.writeHeader k.addr (s.visHeader b flags (s.getF (bankDwellsF b)))
  let s := s.addF PRD_CLOSED.COUNT 1
  let s := s.productNotice k.addr 1 im.visSub (im.entries / 4) (ofSigned 32 k.integ)
  let s := s.pulse 94
  if flags.testBit 1 then s.pulse 117 else s

/-! ## Staging records (R245 to R247, R267) -/

/-- Beam group and channel of record `x` under an image. -/
def Image.recGroup (im : Image) (x : Nat) : Nat := x / im.val Scr.STG_CHANNELS
def Image.recChan (im : Image) (x : Nat) : Nat := x % im.val Scr.STG_CHANNELS

/-- DEST of a beam group (R243). -/
def Image.dest (im : Image) (g : Nat) : Nat := bitsOf (im.bemOut g) 0 4
def Image.destShift (im : Image) (g : Nat) : Nat := bitsOf (im.bemOut g) 4 5
def Image.destSat (im : Image) (g : Nat) : Nat := bitsOf (im.bemOut g) 9 2
def Image.destBias (im : Image) (g : Nat) : Bool := bitOf (im.bemOut g) 11
def Image.destChip (im : Image) (g : Nat) : Nat := bitsOf (im.bemOut g) 12 11
def Image.destCon (im : Image) (g : Nat) : Nat := bitsOf (im.bemOut g) 23 16

/-- WIDE of the staging window. -/
def Image.wide (im : Image) : Bool := bitOf (im.val Scr.BEM_STAGE) 17


/-- Write zeros over a span of whole 8-byte words. -/
def State.zeroSpan (s : State) (a n : Nat) : State :=
  let s := s.each (List.range (n / 8)) (fun s i => s.setPoison (a / 8 + i) false)
  { s with mem := s.mem.filter (fun c => !(decide (a ≤ c.1) && decide (c.1 < a + n))) }

/-- A record becomes EMPTY with dwell `n` as its last released dwell. -/
def State.emptyRec (s : State) (x : Nat) (n : Int) : State := s.setRec x { Rec.fresh with released := some n }

/-- The header of the beam frame in record `x` (R267). -/
def State.beamHeader (s : State) (x : Nat) (r : Rec) : Header :=
  let im := s.governing r.dwell
  { typ := 2, sub := im.poolSub,
    flags := (if r.poisoned then fPoisoned else 0) ||| (if r.partialData then fPartial else 0) |||
      (if r.degraded then fDegraded else 0) ||| s.flagsOver r.dwell r.dwell (s.governing r.dwell).poolSub,
    layout := b2n im.wide, dwells := 1, inputs := 0, dwell := r.dwell, integ := s.integ r.dwell,
    sixStart := im.startSix r.dwell, sixEnd := im.startSix (r.dwell + 1) + (2 ^ 64 - 1),
    chanBase := (s.integImage r.dwell).val Scr.PRD_CHAN_BASE + im.recChan x, chanCount := 1, pass := im.recGroup x,
    epoch := s.getF DUO_STATUS.EPOCH, rank := s.getF DUO_STATUS.RANK, chip := s.chip, data64 := im.recAddr x / 64,
    tag := im.tag }

/-- A record becomes FULL (R246); a Q8 record becomes a beam product at once (R267). -/
def State.fillRec (s : State) (x : Nat) : State :=
  let r := s.rec_ x
  let im := s.governing r.dwell
  let s := { s with bem.recCount := s.bem.recCount + 1 }
  let r := { r with st := .full, order := s.bem.recCount }
  let s := s.setRec x r
  if im.dest (im.recGroup x) = 2 then
    let h := im.poolSlot x
    let s := s.writeHeader h (s.beamHeader x r)
    let s := (s.setRec x { r with st := .releasing }).startTimer (.frame x)
    let s := (s.addF BEM_RELEASED.COUNT 1).addF PRD_CLOSED.COUNT 1
    let s := s.productNotice h 2 im.poolSub (im.recBytes / 64) (ofSigned 32 (s.integ r.dwell))
    let s := s.pulse 95
    if (s.hdrFlags h).testBit 1 then s.pulse 117 else s
  else s

/-- What becomes of a contribution for dwell `n` to record `x` (R246). -/
def State.recAccept (s : State) (x : Nat) (n : Int) : Accept :=
  let r := s.rec_ x
  match r.released with
  | some d =>
    if n ≤ d then .late
    else if r.st = .empty then .apply
    else if n < r.dwell then .late
    else if r.dwell < n then .wait
    else if r.st = .filling then .apply else .late
  | none =>
    if r.st = .empty then .apply
    else if n < r.dwell then .late
    else if r.dwell < n then .wait
    else if r.st = .filling then .apply else .late

/-- A late contribution to a record. -/
def State.recLate (s : State) (x : Nat) (n : Int) (fabric : Bool) : State :=
  ((s.incF BEM_LATE.COUNT 1).putBit BEM_EVT.BITS 3 true).emit stgSrc 0x0804 (ofSigned 64 n) (x + 2 ^ 17 * b2n fabric) 1

/-- A record takes a contribution of dwell `n`: an EMPTY record opens for it. -/
def State.recOpen (s : State) (x : Nat) (n : Int) : State :=
  let r := s.rec_ x
  if r.st = .empty then s.setRec x { r with st := .filling, dwell := n } else s

/-- A contribution mark of a record (R246). -/
def State.recMark (s : State) (x : Nat) (n : Int) (poisoned partialData : Bool) : State :=
  let s := s.recOpen x n
  let r := s.rec_ x
  let s := s.setRec x { r with marks := r.marks + 1, poisoned := r.poisoned || poisoned,
                               partialData := r.partialData || partialData }
  let im := s.governing n
  if im.destCon (im.recGroup x) ≤ r.marks + 1 then s.fillRec x else s

/-- Free a beam frame (R267). -/
def State.freeFrame (s : State) (x : Nat) : State :=
  let r := s.rec_ x
  let im := s.governing r.dwell
  let s := s.orHeader (im.poolSlot x) fOpen
  let s := s.zeroSpan (im.recAddr x) (4 * im.val Scr.TIM_DWELL)
  s.emptyRec x r.dwell

/-- Discard every record that is not EMPTY, at iron or a stage block reset (R246). -/
def State.discardRecs (s : State) : State :=
  s.each s.liveRecs (fun s x =>
    let r := s.rec_ x
    let s := (s.putBit BEM_EVT.BITS 2 true).emit stgSrc 0x0803 (ofSigned 64 r.dwell) (x + 2 ^ 17 + 2 ^ 18 * r.marks) 3
    let im := s.governing r.dwell
    (s.zeroSpan (im.recAddr x) im.recBytes).emptyRec x r.dwell)

end Sys2Proof.Machine
end

