-- ==== Sys2Proof/Machine/FabOps.lean ====
section
/-!
DEFINITION. Fabric packets (R277 to R281, R289, R290): headers, transmit queues, ADD streams and their end marks.
-/

namespace Sys2Proof.Machine

/-- Pool numbers in the order of R278: PAIR, BEACON, acknowledgment, INPUT, ADD, WRITE. -/
def poolOf (cls op : Nat) : Option Nat :=
  if cls = 7 then some 0
  else if cls = 6 then some 1
  else if cls = 5 then (if op = 1 then some 2 else some 5)
  else if cls = 3 then some 3
  else if cls = 4 then some 4
  else none

/-- Pool sizes in 32-byte units (R278). -/
def poolSize (p : Nat) : Nat := [64, 8, 128, 2048, 2048, 512].getD p 0

/-- Key of a pool of a port. -/
def poolKey (port p : Nat) : Nat := 8 * port + p

/-- The HCRC of R119 over bytes 0 to 29 of a header. -/
def hcrcOf (h : Nat) : Nat := crcBytes 16 0x1021 0xFFFF (leBytes 30 h)

/-- A header with its HCRC. -/
def sealed (h : Nat) : BitVec 256 := BitVec.ofNat 256 (h % 2 ^ 240 + 2 ^ 240 * hcrcOf (h % 2 ^ 240))

/-- A header without sequence number, which it gets when it is queued, and without claim and HCRC, which it gets when it is
sent (R277, R328). -/
def fabHeader (cls op ttl dst src len args : Nat) : BitVec 256 :=
  BitVec.ofNat 256 (1 + 2 ^ 4 * (cls % 16) + 2 ^ 8 * (op % 16) + 2 ^ 12 * (ttl % 16) + 2 ^ 16 * (dst % 2 ^ 11) +
    2 ^ 32 * (src % 2 ^ 11) + 2 ^ 80 * (len % 256) + 2 ^ 96 * (args % 2 ^ 128))

/-- Bits of a header. -/
def hdr (h : BitVec 256) (lo w : Nat) : Nat := bitsOf h.toNat lo w

/-- A fabric port is in UP (2) or DEGRADED (3) (R117). -/
def State.fabUp (s : State) (p : Nat) : Bool :=
  s.getF (FAB_P_STATUS.STATE p) = 2 || s.getF (FAB_P_STATUS.STATE p) = 3

/-- Event source of a fabric port (R309). -/
def fabSrc (p : Nat) : Nat := 0x038 + p

/-- Store pages per port of the egress queue in force; 0 for no queue (R290). -/
def State.egqPages (s : State) : Nat := if s.scr.egq = 0 then 0 else bitsOf s.scr.egq 17 8

/-- FAB_EGQ of the newest image takes effect while no ADD packet is queued (R9, R290; DEDUCED, log 30). -/
def State.idleEgq (s : State) : State :=
  if s.fab.txq.any (fun e => e.2.1 % 8 == 4) then s else { s with scr.egq := s.newest.val Scr.FAB_EGQ }

/-- Fill of the egress queue of a port, and its high-water mark (R290, R293). A source that does not fit is held off, so the
level never exceeds the queue. -/
def State.egqLevel (s : State) (p : Nat) : State :=
  let s := s.idleEgq
  if s.scr.egq = 0 then s.setF (FAB_P_EGQ.LEVEL p) 0 else
  let n := (s.fab.txq.filter (fun e => e.1 == p && e.2.1 % 8 == 4)).foldl (fun a e => a + 1 + e.2.2.2.length / 32) 0
  let l := min n (s.egqPages * 65536)
  (s.setF (FAB_P_EGQ.LEVEL p) l).setF (FAB_P_EGQ.HWM p) (max l (s.getF (FAB_P_EGQ.HWM p)))

/-- Queue a packet on a port; `fwd` is 0 for a packet of this chip, and 1 + the port it came in on for one that another chip sent. -/
def State.enqueue (s : State) (p pool fwd : Nat) (h : BitVec 256) (pay : List Byte) : State :=
  ({ s with fab.txq := s.fab.txq ++ [(p, pool + 8 * fwd, h, pay)] }).egqLevel p

/-- The 64-bit value nearest `ref` that equals `v` modulo 2^32 (R280). -/
def expand32 (v : Nat) (ref : Int) : Int := ref + toSigned 32 (ofSigned 32 ((v : Int) - ref))

/-- The SIX an INPUT packet carries (R280). -/
def State.packetSix (s : State) (h : BitVec 256) : Nat := ofSigned 64 (expand32 (hdr h 96 32) (toSigned 64 s.houseSix))

/-- The dwell whose script governs a packet (R10, R11, R280): that of an INPUT packet's SIX, an ADD packet's DWELL, and for a class
that carries neither the house dwell (DEDUCED, log 26). -/
def State.packetDwell (s : State) (h : BitVec 256) : Int :=
  if hdr h 4 4 = 3 then s.dwellOf (s.packetSix h)
  else if hdr h 4 4 = 4 then expand32 (hdr h 96 32) s.houseDwell
  else s.houseDwell

/-- The route to a chip for data of dwell `n` (R10, R281); 0xF is NONE. -/
def State.routeAt (s : State) (n : Int) (dst : Nat) : Nat := (s.governing n).el Scr.FAB_ROUTE dst

/-- The route to a chip now. -/
def State.route (s : State) (dst : Nat) : Nat := s.routeAt s.houseDwell dst

/-- A packet without a route is discarded: the port counts it under ROUTE and reports it at most once per destination and
dwell (R281). -/
def State.noRoute (s : State) (p dst cls : Nat) : State :=
  let s := s.incF (FAB_P_DISC0.ROUTE p) 1
  if s.fab.routeSeen.contains (dst, s.houseDwell) then s
  else ({ s with fab.routeSeen := s.fab.routeSeen ++ [(dst, s.houseDwell)] }).emit (fabSrc p) 0x0A02 (dst + 2048 * cls) p 1

/-- Send a packet of the device's own toward a chip: INPUT and ADD without a route are discarded and counted. -/
def State.sendFab (s : State) (dst : Nat) (h : BitVec 256) (pay : List Byte) : State :=
  match poolOf (hdr h 4 4) (hdr h 8 4) with
  | none => s
  | some pool =>
    let p := s.routeAt (s.packetDwell h) dst
    if p = 15 then s.incF (FAB_P_DISC0.ROUTE 0) 1
    else if !s.fabUp p then s.noRoute p dst (hdr h 4 4)
    else
      let key := dst * 16 + hdr h 4 4
      let q := Tbl.get s.fab.fabSeq 0 key
      let s := { s with fab.fabSeq := Tbl.set s.fab.fabSeq 0 key ((q + 1) % 256) }
      s.enqueue p pool 0 (h ||| BitVec.ofNat 256 (2 ^ 72 * q)) pay

/-- The sequence number the next packet of a class toward a chip gets. -/
def State.nextFabSeq (s : State) (dst cls : Nat) : Nat := Tbl.get s.fab.fabSeq 0 (dst * 16 + cls)

/-- A claim is heard from a chip (R329). -/
def State.hearClaim (s : State) (h : BitVec 256) : State :=
  { s with fab.claims := Tbl.set s.fab.claims none (hdr h 32 11) (some (hdr h 48 16, hdr h 64 4, s.houseDwell)) }

/-- Units of a pool are freed, to be returned in the next credit unit (R279). -/
def State.freeUnits (s : State) (p pool n : Nat) : State :=
  { s with fab.freed := Tbl.set s.fab.freed 0 (poolKey p pool) (Tbl.get s.fab.freed 0 (poolKey p pool) + n) }

/-- Units of a packet (R278). -/
def packetUnits (h : BitVec 256) : Nat := 1 + hdr h 80 8

/-- The receive buffer of a port lets a packet go: it has been delivered, sent on or discarded (R14, R279). -/
def State.release (s : State) (p : Nat) (h : BitVec 256) : State :=
  match poolOf (hdr h 4 4) (hdr h 8 4) with | some q => s.freeUnits p q (packetUnits h) | none => s

/-- A port takes a packet of a class and OP (R276, R277): false when it is not received or is discarded. A packet taken keeps its
units of the receive buffer until `release`. -/
def State.fabTake (s : State) (p : Nat) (fecBad : Bool) (h : BitVec 256) (cls op : Nat) : State × Bool :=
  if !s.fabUp p || !s.flag (FAB_P_STATUS.CRED_OK p) then (s, false)
  else if fecBad then (s.incF (FAB_P_DISC0.FEC p) 1, false)
  else if hcrcOf (h.toNat % 2 ^ 240) ≠ hdr h 240 16 then (s.incF (FAB_P_DISC0.HCRC p) 1, false)
  else if hdr h 0 4 ≠ 1 || hdr h 4 4 != cls || hdr h 8 4 != op then ((s.incF (FAB_P_DISC0.CLASS p) 1).release p h, false)
  else
    ((s.addF (FAB_P_PKT.RX p) 1).hearClaim h, true)

/-- A BEACON of a port (R280, R288): the house dwell, its digest tag and the state bits. -/
def State.sendBeacon (s : State) (p : Nat) : State :=
  let n := s.houseDwell
  let pay := b2n s.iron + 2 * b2n (s.flag DUO_STATUS.REPLACE) + 4 * s.getF HCK_STATUS.STATE + 32 * b2n s.epoch
  let h := fabHeader 6 0 1 0x7FF s.chip 1 (ofSigned 64 n + 2 ^ 64 * s.tagOf n)
  let q := s.nextFabSeq 0x7FF 6
  let s := { s with fab.fabSeq := Tbl.set s.fab.fabSeq 0 (0x7FF * 16 + 6) ((q + 1) % 256) }
  s.enqueue p 1 0 (h ||| BitVec.ofNat 256 (2 ^ 72 * q)) (leBytes 32 pay)

/-- Lines of an ADD stream as (line, mask, operand). -/
abbrev AddLine := Nat × Nat × Nat

/-- Pack lines up to four to a packet when they are consecutive and have equal masks (R290). -/
def packLines : List AddLine → List (List AddLine)
  | [] => []
  | x :: rest =>
    match packLines rest with
    | (y :: g) :: more =>
      if y.1 = x.1 + 1 ∧ y.2.1 = x.2.1 ∧ (y :: g).length < 4 then (x :: y :: g) :: more else [x] :: (y :: g) :: more
    | more => [x] :: more

/-- Send an ADD stream's lines of dwell `n` to a chip (R280): `target` 0 VIS, 1 BEAM; `fmt` 0 L32, 1 L48E. -/
def State.sendAdds (s : State) (dst : Nat) (n : Int) (target fmt rec : Nat) (ls : List AddLine) : State :=
  let ps := packLines ls
  let s := s.each ps (fun s g =>
    match g with
    | [] => s
    | x :: _ =>
      let args := dwell32 n + 2 ^ 32 * target + 2 ^ 33 * fmt + 2 ^ 34 * (g.length - 1) + 2 ^ 36 * x.2.1 +
        (if target = 0 then 2 ^ 64 * x.1 else 2 ^ 64 * rec + 2 ^ 81 * x.1)
      s.sendFab dst (fabHeader 4 0 15 dst s.chip (2 * g.length) args) (g.flatMap (fun y => leBytes 64 y.2.2)))
  let key := (n, target, rec)
  let old := ((s.fab.addsSent.find? (fun e => e.1 == key)).map (fun e => e.2)).getD 0
  { s with fab.addsSent := s.fab.addsSent.filter (fun e => e.1 != key) ++ [(key, old + ps.length)] }

/-- Send the end mark of a stream (R286, R290). -/
def State.sendMark (s : State) (dst : Nat) (n : Int) (target rec flags : Nat) : State :=
  let key := (n, target, rec)
  let cnt := ((s.fab.addsSent.find? (fun e => e.1 == key)).map (fun e => e.2)).getD 0
  let args := dwell32 n + 2 ^ 32 * target + 2 ^ 36 * (flags % 8) +
    (if target = 0 then 2 ^ 64 * cnt else 2 ^ 64 * rec + 2 ^ 81 * cnt)
  let s := s.sendFab dst (fabHeader 4 1 15 dst s.chip 0 args) []
  { s with fab.addsSent := s.fab.addsSent.filter (fun e => e.1 != key) }

end Sys2Proof.Machine
end

