-- ==== Sys2Proof/Machine/StageOps.lean ====
section
/-!
DEFINITION. The dwell ring (R17, R18, R187, R188), the dwell sequencer (R20 to R24) and what the stage computes: correlation
slots (R206 to R215), drains (R222 to R225) and beams (R232 to R243).
-/

namespace Sys2Proof.Machine

/-! ## Plan entries (R20) -/

def opOf (e : Nat) : Nat := bitsOf e 0 4
def partOf (e : Nat) : Nat := bitsOf e 4 4
def chanOf (e : Nat) : Nat := bitsOf e 8 12
def rowbOf (e : Nat) : Nat := bitsOf e 20 5
def colbOf (e : Nat) : Nat := bitsOf e 25 5
def loadOf (e : Nat) : Bool := bitOf e 30
def loadbOf (e : Nat) : Nat := bitsOf e 31 5
def loadcOf (e : Nat) : Nat := bitsOf e 36 12
def setOf (e : Nat) : Nat := bitsOf e 48 8
def groupOf (e : Nat) : Nat := bitsOf e 56 8

/-- Entries of partition `p` that it executes, with their numbers: those before its first END (R21). -/
def partEntries (plan : List Nat) (p : Nat) : List (Nat × Nat) :=
  ((plan.zipIdx.map (fun q => (q.2, q.1))).filter (fun q => partOf q.2 == p)).takeWhile (fun q => opOf q.2 != 15)

/-! ## Partitions (R206, R236, R340) -/

/-- Partition mode of an image. -/
def Image.mode (im : Image) : Nat := im.val Scr.STG_PART_MODE

/-- Number of partitions. -/
def Image.parts (im : Image) : Nat := if im.mode = 0 then 1 else if im.mode = 1 then 4 else 16

/-- Block width W_b. -/
def Image.wb (im : Image) : Nat := if im.mode = 0 then im.blockW else if im.mode = 1 then 512 else 256

/-- Column segments S of a BEAM pass (R232). -/
def Image.segments (im : Image) : Nat := if im.mode = 0 then 4 else if im.mode = 1 then 2 else 1

/-- Origin of partition `p`: row and column. -/
def Image.origin (im : Image) (p : Nat) : Nat × Nat :=
  if im.mode = 0 then (0, 0) else if im.mode = 1 then (512 * (p / 2), 512 * (p % 2)) else (256 * (p / 4), 256 * (p % 4))

/-- Accumulator format of partition `p`: 0 A24, 1 A32, 2 A48. -/
def Image.fmt (im : Image) (p : Nat) : Nat := im.el Scr.STG_ACC_FMT p

/-- Slots of a format (R211). -/
def fmtSlots (f : Nat) : Nat := if f = 0 then 5 else if f = 1 then 4 else 2

/-- Field width of a format (R211). -/
def fmtWidth (f : Nat) : Nat := if f = 0 then 24 else if f = 1 then 32 else 48

/-- Partition `p` reserves weight banks: the plan has a BEAM entry for it, be it after an END (R23, R236). -/
def Image.reserves (im : Image) (p : Nat) : Bool :=
  decide (p < im.parts) && im.plan.any (fun e => partOf e == p && opOf e == 1)

/-- Correlation slots of partition `p` (R219, R236). -/
def Image.cslots (im : Image) (p : Nat) : Nat := fmtSlots (im.fmt p) - (if im.reserves p then 2 else 0)

/-- The logical width the stage computes (R24). -/
def State.width (s : State) : Nat := s.getF CTL_CAP0.STG_WIDTH

/-- A replay under the image would run on a stage narrower than its plan was built for (R24). An image without a plan marks no product
(R416). -/
def State.narrowed (s : State) (im : Image) : Bool := im.val Scr.STG_PLAN_ADDR != 0 && decide (s.width < im.blockW)

/-- Bytes per sample (R187). -/
def Image.bc (im : Image) : Nat := if im.val Scr.MOV_DRING_FMT = 0 then 1 else 2

/-- Plane cycles per spectrum (R21). -/
def Image.planes (im : Image) : Nat := if im.val Scr.MOV_DRING_FMT = 0 then 1 else 4

/-- Spectra of a dwell. -/
def Image.dlen (im : Image) : Nat := im.val Scr.TIM_DWELL

/-! ## The dwell ring (R18, R164, R187, R188) -/

/-- Pages of a half-dwell (R162). -/
def Image.halfPages (im : Image) : Nat :=
  cdiv (im.val Scr.STG_INPUTS * im.val Scr.STG_CHANNELS * im.dlen * im.bc) (2 * pageBytes)

/-- The pages of the dwell-ring pool, ascending (R164). -/
def State.poolPages (s : State) : List Nat :=
  ((s.seq.pool.flatMap (fun r => (List.range r.2).map (fun i => r.1 + i))).mergeSort (fun a b => decide (a ≤ b))).take s.seq.poolMax

/-- Bytes of a slab row (R187). -/
def Image.rowBytes (im : Image) : Nat := im.wb * im.bc

/-- Spectra of a page (R187). -/
def Image.pageSpectra (im : Image) : Nat := pageBytes / im.rowBytes

/-- The store page of page `k` of slab (dwell, channel, block). -/
def State.pageOf (s : State) (n : Int) (c b k : Nat) : Option Nat :=
  (s.seq.pages.find? (fun e => e.1 == (n, c, b, k))).map (fun e => e.2)

/-- Address of the 64-byte line of input group position `g` of spectrum `x` in a page; `high` selects the high plane. -/
def Image.lineAddr (im : Image) (page x g : Nat) (high : Bool) : Nat :=
  page * pageBytes + (x % im.pageSpectra) * im.rowBytes + (g % (im.wb / 64)) * 64 + (if high then im.wb else 0)

/-- The spectrum index of a vector in its dwell. -/
def State.specIndex (s : State) (six : Nat) : Nat :=
  (sixDiff six (s.startSix (s.dwellOf six))).toNat

/-- The line map of a store line (R188). -/
def State.lineSet (s : State) (a : Nat) : Bool := Tbl.get s.seq.lineMap false (a / 64)

/-- STO_DRING_HALVES of the newest image, its DRING regions and its half-dwells take effect in the pool while no dwell holds a page
(R9, R164; DEDUCED, log 30). -/
def State.idleHalves (s : State) : State :=
  if s.seq.pages.isEmpty then
    let im := s.newest
    { s with
      scr.dringHalves := im.val Scr.STO_DRING_HALVES,
      seq.pool := (im.regions.filter (fun r => r.kind == 0)).map (fun r => (r.base, r.pages)),
      seq.poolMax := im.val Scr.STO_DRING_HALVES * im.halfPages }
  else s

/-- Return the pages of a dwell that `keep` does not hold back. -/
def State.returnPages (s : State) (n : Int) (keep : Nat → Nat → Bool) : State :=
  ({ s with seq.pages := s.seq.pages.filter (fun e => !(decide (e.1.1 = n) && !keep e.1.2.1 e.1.2.2.1)) } : State).idleHalves

/-- Take a free page of the pool; its line map is cleared (R188). -/
def State.takeFree (s : State) (n : Int) (c b k : Nat) : Option (State × Nat) :=
  (s.poolPages.find? (fun p => !s.seq.pages.any (fun e => e.2 == p))).map (fun p =>
    let lo := p * (pageBytes / 64)
    ({ s with
      seq.pages := s.seq.pages ++ [((n, c, b, k), p)],
      seq.lineMap := s.seq.lineMap.filter (fun e => !(decide (lo ≤ e.1) && decide (e.1 < lo + pageBytes / 64))) }, p))

/-! ## Operands (R208, R209) -/

/-- A sample as the feeder decodes it: none is invalid. -/
abbrev Sample := Option (Int × Int)

/-- A byte of the store that is not in a poisoned code word. -/
def State.cleanByte (s : State) (a : Nat) : Option Nat :=
  if s.poisoned (a / 8) then none else some (Memory.read s.mem a).toNat

/-- Decode a stored sample (R208). -/
def decodeSample (wide : Bool) (lo hi : Option Nat) : Sample :=
  match wide, lo, hi with
  | false, some b, _ => if b = 0x88 then none else some (toSigned 4 (b % 16), toSigned 4 (b / 16))
  | true, some l, some h =>
    if l = 0 ∧ h = 0x88 then none
    else some (16 * toSigned 4 (h % 16) + (l % 16 : Nat), 16 * toSigned 4 (h / 16) + (l / 16 : Nat))
  | _, _, _ => none

/-- A byte as the wings hold it. -/
def Wing.cleanByte (w : Wing) (a : Nat) : Option Nat :=
  if xor (Tbl.get w.poison false (a / 8)) (w.lost.contains (pcOf a)) then none else some (Memory.read w.cells a).toNat

/-- The wings of partition `p` hold a block of a channel. -/
def Part.holds (x : Part) (c b : Nat) : Bool := x.wing.any (fun w => w.chan == c && w.block == b)

/-- The byte at `a` of a block of a channel, as partition `p` takes it: from the wings if they hold the block, else from the store
(R22). -/
def State.feedByte (s : State) (p c b a : Nat) : Option Nat :=
  match (s.seq.part.getD p Part.fresh).wing with
  | some w => if w.chan = c ∧ w.block = b then w.cleanByte a else s.cleanByte a
  | none => s.cleanByte a

/-- The sample of input `r` of block `b`, channel `c`, spectrum `x` of dwell `n`, as partition `p` takes it: from a page that the dwell had
when the pass began to read. -/
def State.operand (s : State) (im : Image) (p : Nat) (n : Int) (c b x r : Nat) : Sample :=
  if im.val Scr.STG_INPUTS ≤ b * im.wb + r then none else
  match s.pageOf n c b (x / im.pageSpectra) with
  | none => none
  | some pg =>
    if !(s.seq.part.getD p Part.fresh).pages.contains pg then none else
    let la := im.lineAddr pg x (r / 64) false
    if !s.lineSet la then none
    else if im.bc = 1 then decodeSample false (s.feedByte p c b (la + r % 64)) none
    else decodeSample true (s.feedByte p c b (la + r % 64)) (s.feedByte p c b (im.lineAddr pg x (r / 64) true + r % 64))

/-- What the wings take of a block of a channel: its pages as they are now (R22). -/
def State.wingOf (s : State) (n : Int) (c b : Nat) : Wing :=
  let pages := (s.seq.pages.filter (fun e => e.1.1 == n && e.1.2.1 == c && e.1.2.2.1 == b)).map (fun e => e.2)
  ⟨c, b, s.mem.filter (fun e => pages.contains (e.1 / pageBytes)),
    s.sto.poison.filter (fun e => pages.contains (8 * e.1 / pageBytes)),
    (List.range 256).filter (fun k => (s.pch k).lost)⟩

/-- Lines of a slab that replay reads and that hold a poisoned code word: each read counts one poisoned access (R165). -/
def State.poisonReads (s : State) (im : Image) (n : Int) (c b : Nat) : Nat :=
  ((List.range (cdiv im.dlen im.pageSpectra)).filterMap (fun k => s.pageOf n c b k)).foldl (fun t p =>
    t + ((List.range (pageBytes / 64)).filter (fun l =>
      s.lineSet (p * pageBytes + 64 * l) &&
        (List.range 8).any (fun w => s.poisoned (p * (pageBytes / 8) + 8 * l + w)))).length) 0

/-! ## Cells (R210, R213) -/

/-- Low (unsigned) or high (signed) nibble plane of a component. -/
def plane (high : Bool) (v : Int) : Int := if high then v / 16 else v % 16

/-- The four multipliers of a cell: `x · conj y`. -/
def cmulConj (x y : Int × Int) : Int × Int := (x.1 * y.1 + x.2 * y.2, x.2 * y.1 - x.1 * y.2)

/-- The term of plane cycle `m` (R209, R210). -/
def term (q m : Nat) (x y : Sample) : Int × Int :=
  match x, y with
  | some a, some b =>
    if q = 1 then cmulConj a b
    else
      let ha := m = 1 || m = 3
      let hb := m = 2 || m = 3
      let t := cmulConj (plane ha a.1, plane ha a.2) (plane hb b.1, plane hb b.2)
      let sh : Int := if m = 0 then 1 else if m = 3 then 256 else 16
      (t.1 * sh, t.2 * sh)
  | _, _ => (0, 0)

/-- Weight increment (R210). -/
def weightInc (q m : Nat) (x y : Sample) : Nat :=
  if m = q - 1 && x.isSome && y.isSome then 1 else 0

/-- One component's modular update (R213): the new field and tally; tally 4 stands for SAT. -/
def wrapAdd (w : Nat) (f t p : Int) : Int × Int :=
  let v := f + p
  let half : Int := (2 ^ (w - 1) : Nat)
  let r : Int × Int := if half - 1 < v then (v - 2 * half, 1) else if v < -half then (v + 2 * half, -1) else (v, 0)
  (r.1, if t = 4 then 4 else if 3 < t + r.2 || t + r.2 < -3 then 4 else t + r.2)

/-- The update of a slot by one term (R213). -/
def CellSlot.step (w : Nat) (head : Bool) (c : CellSlot) (p : Int × Int) (v : Nat) : CellSlot :=
  if head then ⟨p.1, p.2, 0, 0, v⟩
  else
    let a := wrapAdd w c.re c.tre p.1
    let b := wrapAdd w c.im c.tim p.2
    ⟨a.1, b.1, a.2, b.2, c.wt + v⟩

/-- A slot after spectra 0 to `cnt - 1` of a pass, from the operands of its row and column. -/
def accumulate (w q cnt : Nat) (x y : Nat → Sample) : CellSlot :=
  (List.range (cnt * q)).foldl (fun c i =>
    c.step w (i == 0) (term q (i % q) (x (i / q)) (y (i / q))) (weightInc q (i % q) (x (i / q)) (y (i / q)))) ⟨0, 0, 0, 0, 0⟩

/-- The kept cells of a CORR pass, as local row and column (R207). -/
def State.keptCells (s : State) (im : Image) (rowb colb : Nat) : List (Nat × Nat) :=
  let lim (b : Nat) : Nat := min (min im.wb s.width) (im.val Scr.STG_INPUTS - b * im.wb)
  (List.range (lim rowb)).flatMap (fun r =>
    ((List.range (lim colb)).filter (fun c => decide (colb < rowb) || decide (c ≤ r))).map (fun c => (r, c)))

/-- What a pass leaves in its slot: every kept cell's contents by `row * 1024 + column`, after `cnt` spectra. -/
def State.passCells (s : State) (im : Image) (n : Int) (p e cnt : Nat) : List (Nat × CellSlot) :=
  (s.keptCells im (rowbOf e) (colbOf e)).map (fun rc =>
    (rc.1 * 1024 + rc.2,
      accumulate (fmtWidth (im.fmt p)) im.planes cnt (fun x => s.operand im p n (chanOf e) (rowbOf e) x rc.1)
        (fun x => s.operand im p n (chanOf e) (colbOf e) x rc.2)))

/-- The drain entry of a slot (R224). -/
def CellSlot.entry (w : Nat) (c : CellSlot) : Nat :=
  ofSigned 48 (c.re + c.tre * (2 ^ w : Nat)) + 2 ^ 48 * ofSigned 48 (c.im + c.tim * (2 ^ w : Nat)) + 2 ^ 96 * (c.wt % 2 ^ 32)

/-- A baseline is poisoned (R215). -/
def CellSlot.sat (c : CellSlot) : Bool := c.tre = 4 || c.tim = 4

/-! ## Partition state -/

/-- A partition. -/
def State.part (s : State) (p : Nat) : Part := s.seq.part.getD p Part.fresh

/-- Show a partition in its registers (R231). -/
def State.showPart (s : State) (p : Nat) : State :=
  let x := s.part p
  let map (st : SlotState) : Nat :=
    (x.slots.zipIdx.filter (fun q => decide (q.1.st = st))).foldl (fun a q => a + 2 ^ q.2) 0
  let acc := (x.slots.zipIdx.find? (fun q => decide (q.1.st = .accumulating))).map (fun q => q.2)
  let s := s.setF (STG_PART.ENTRY p) (x.pass.getD 0x1FFFF)
  let s := s.setFlag (STG_PART.BUSY p) x.pass.isSome
  let s := s.setF (STG_PART.ACC_SLOT p) (acc.getD 0)
  (s.setF (STG_PART.WAITING p) (map .waiting)).setF (STG_PART.DRAINING p) (map .draining)

/-- Change a partition. -/
def State.setPart (s : State) (p : Nat) (x : Part) : State :=
  ({ s with seq.part := s.seq.part.set p x } : State).showPart p

/-- The entry a partition executes next, with its number. -/
def Part.next (x : Part) (plan : List Nat) (p : Nat) : Option (Nat × Nat) :=
  (partEntries plan p).find? (fun q => decide (x.nextEntry ≤ q.1))

/-- A plan entry reads the slab (channel, block) (R20, R22, R232). -/
def Image.reads (im : Image) (e c b : Nat) : Bool :=
  (opOf e = 0 && chanOf e == c && (rowbOf e == b || colbOf e == b)) ||
    (opOf e = 1 && chanOf e == c && decide (rowbOf e ≤ b) && decide (b < rowbOf e + im.segments)) ||
    (decide (opOf e < 2) && loadOf e && loadcOf e == c && loadbOf e == b)

/-- The slab is read by an entry that a partition has still to finish, or by none: then its pages stay until the replay's end
(R17; DEDUCED, log 27). -/
def State.stillRead (s : State) (im : Image) (c b : Nat) : Bool :=
  (List.range im.parts).any (fun p =>
    let x := s.part p
    (partEntries im.plan p).any (fun q => decide (x.pass.getD x.nextEntry ≤ q.1) && im.reads q.2 c b)) ||
  !(List.range im.parts).any (fun p => (partEntries im.plan p).any (fun q => im.reads q.2 c b))

/-- Owners of the markers a dwell still lacks: clusters on the ingest side, then fabric ports. -/
def State.markersOwed (s : State) (n : Int) : List Nat :=
  let im := s.governing n
  ((List.range 128).filter (fun c =>
      let e := im.el Scr.PIT_CLU_PROG c
      e % 16 != 15 && !bitOf e 4 && !s.seq.markers.contains (n, c))) ++
    ((List.range 8).filter (fun q => bitOf (im.el Scr.MOV_BIND (512 + 2 * q)) 7 && !s.seq.markers.contains (n, 128 + q))).map
      (fun q => 128 + q)

/-- Report a partition's stalls at the end of its work for a dwell (R229, R250). Events 0x0703 and 0x0802 are each written once: a
partition that stalled in more ways than one has the sum, under the way that took most cycles (DESIGN CHOICE, log 26). -/
def State.reportStalls (s : State) (p : Nat) (n : Int) : State :=
  let x := s.part p
  let s := if x.stallSlot = 0 ∧ x.stallFeed = 0 then s else
    (s.putBit STG_EVT.BITS 2 true).emit stgSrc 0x0703 (x.stallSlot + x.stallFeed)
      (p + 16 * b2n (decide (x.stallSlot < x.stallFeed)) + 65536 * ofSigned 16 n) 0
  let beam := x.stallWload + x.stallStage + x.stallOut
  let most := if x.stallStage ≤ x.stallWload && x.stallOut ≤ x.stallWload then 0 else if x.stallOut ≤ x.stallStage then 1 else 2
  let s := if beam = 0 then s else (s.putBit BEM_EVT.BITS 1 true).emit stgSrc 0x0802 beam (p + 16 * most) 0
  s.setPart p { s.part p with stallSlot := 0, stallFeed := 0, stallWload := 0, stallStage := 0, stallOut := 0 }

/-- A partition's work for the dwell has ended when no entry is left and no pass runs. -/
def State.checkPart (s : State) (im : Image) (n : Int) (p : Nat) : State :=
  let x := s.part p
  if x.ended || x.pass.isSome || (x.next im.plan p).isSome then s
  else (s.setPart p { x with ended := true }).reportStalls p n

/-- The replay of dwell `n` is over: its pages return, and the dwell waits to be reported drained. -/
def State.endReplay (s : State) (n : Int) : State :=
  let s := s.returnPages n (fun _ _ => false)
  let s := { s with seq.replay := none, seq.gone := s.seq.gone ++ [n], seq.replayed := s.seq.replayed ++ [n] }
  (s.setF STG_STATUS.REPLAY 0).pulse 92

/-- After a pass or a gap: pages that no entry will read return, and the replay ends once every partition has (R17). -/
def State.afterEntry (s : State) (p : Nat) : State :=
  match s.seq.replay with
  | none => s
  | some n =>
    let im := s.governing n
    let s := s.checkPart im n p
    let s := s.returnPages n (fun c b => s.stillRead im c b)
    if (List.range im.parts).all (fun q => (s.part q).ended) then s.endReplay n else s

/-- A pass ends early (R226): cause 0 overrun, 1 iron, 2 block reset; `cnt` spectra have been accumulated. -/
def State.passTruncated (s : State) (n : Int) (p entry cnt cause : Nat) : State :=
  let six := ofSigned 64 ((s.startSix n : Int) + (cnt : Int) - 1)
  let s := (s.incF STG_TRUNC.COUNT 1).putBit STG_EVT.BITS 3 true
  let s := s.emit stgSrc 0x0704 six (entry + 65536 * p + 2 ^ 20 * cause) 0
  s.condDwell n fPartial

/-- The slot a pass fills leaves ACCUMULATING: DRAINING if no earlier slot drains or waits (R219). -/
def State.closeSlot (s : State) (im : Image) (n : Int) (p e cnt : Nat) : State :=
  let x := s.part p
  let busy := x.slots.any (fun q => decide (q.st = .draining) || decide (q.st = .waiting))
  match x.slots.zipIdx.find? (fun q => decide (q.1.st = .accumulating)) with
  | none => s
  | some (sl, i) =>
    let sl := { sl with st := if busy then .waiting else .draining, cells := s.passCells im n p e cnt }
    s.setPart p { x with slots := x.slots.set i sl, order := x.order ++ [i] }

end Sys2Proof.Machine
end

