-- ==== Sys2Proof/Machine/BeamOps.lean ====
section
/-!
DEFINITION. What a BEAM pass forms and where it goes (R232 to R248, R340), the sums of R333, and passes that an overrun ends
(R226, R242).
-/

namespace Sys2Proof.Machine

/-! ## Digest sums (R333) -/

/-- Add terms to a dwell's VIS_SUM and BEAM_SUM. -/
def State.addSums (s : State) (n : Int) (vis beam : Nat) : State :=
  let old := match s.duo.sums.find? (fun e => e.1 == n) with | some e => e.2 | none => (0, 0)
  { s with duo.sums := s.duo.sums.filter (fun e => e.1 != n) ++ [(n, (old.1 + vis) % 2 ^ 64, (old.2 + beam) % 2 ^ 64)] }

/-! ## Beam samples (R232 to R235) -/

/-- A weight of a set at a logical row and column (R237). -/
def Obj.weight (o : Obj) (set row col : Nat) : Int × Int :=
  let a := 2 * ((set * 1024 + row) * 1024 + col)
  (toSigned 8 (Memory.read o.cells a).toNat, toSigned 8 (Memory.read o.cells (a + 1)).toNat)

/-- A BEAM pass: its dwell's image, its dwell, its partition and its entry. -/
structure BeamPass where
  im : Image
  n : Int
  p : Nat
  e : Nat
  deriving DecidableEq, Repr

/-- Logical row of beam row `r` of segment `g`. -/
def BeamPass.row (q : BeamPass) (g r : Nat) : Nat := (q.im.origin q.p).1 + 256 * g + r

/-- The samples a segment's columns carry at spectrum `k`, by column: only the columns the stage computes (R24). -/
def State.segment (s : State) (q : BeamPass) (g k : Nat) : List (Nat × Sample) :=
  (List.range (min q.im.wb s.width)).map (fun c => (c, s.operand q.im q.p q.n (chanOf q.e) (rowbOf q.e + g) k c))

/-- The beam sample of beam row `r` at spectrum `k` (R234). Rows at or beyond STG_HEIGHT give 0 (R340). -/
def State.beamSample (s : State) (q : BeamPass) (r k : Nat) : Int × Int :=
  (List.range q.im.segments).foldl (fun acc g =>
    if s.getF CTL_CAP0.STG_HEIGHT ≤ q.row g r then acc
    else (s.segment q g k).foldl (fun acc cx =>
      match cx.2 with
      | none => acc
      | some x =>
        let w := q.im.weights.weight (setOf q.e) (q.row g r) ((q.im.origin q.p).2 + cx.1)
        (acc.1 + w.1 * x.1 - w.2 * x.2, acc.2 + w.1 * x.2 + w.2 * x.1)) acc) (0, 0)

/-- V of beam group `j` of the pass at spectrum `k` (R235): a segment counts while every row of the group lies below STG_HEIGHT
(R340; DEDUCED, log 28). -/
def State.beamValid (s : State) (q : BeamPass) (j k : Nat) : Nat :=
  (List.range q.im.segments).foldl (fun t g =>
    if s.getF CTL_CAP0.STG_HEIGHT ≤ q.row g (64 * j + 63) then t
    else t + ((s.segment q g k).filter (fun cx => cx.2.isSome)).length) 0

/-! ## The finisher (R243) -/

/-- Saturate to `w` bits: mode 1 two's-complement, mode 2 symmetric. -/
def saturate (w mode : Nat) (v : Int) : Int :=
  let hi : Int := ((2 ^ (w - 1) : Nat) : Int) - 1
  max (if mode = 2 then -hi else -hi - 1) (min hi v)

/-- The reduction of a component for a beam group: the value stored and whether saturation changed it. A shift of 0 has no
rounding bias. -/
def Image.reduce (im : Image) (g : Nat) (b : Int) : Int × Bool :=
  let sh := im.destShift g
  let bias : Int := if im.destBias g && decide (0 < sh) then ((2 ^ (sh - 1) : Nat) : Int) else 0
  let v := fdiv (b + bias) ((2 ^ sh : Nat) : Int)
  let r := saturate (if im.dest g = 1 then 16 else 8) (im.destSat g) v
  (r, decide (r ≠ v))

/-- The first saturation in a dwell writes event 0x0805. -/
def State.saturated (s : State) (n : Int) (g k : Nat) : State :=
  if k = 0 then s else
  let s := (s.incF BEM_SAT.COUNT k).putBit BEM_EVT.BITS 4 true
  if s.bem.satSeen.contains n then s
  else ({ s with bem.satSeen := s.bem.satSeen ++ [n] }).emit stgSrc 0x0805 (ofSigned 64 n) g 1

/-- Bytes from a spectrum's first beam line to the next's. -/
def Image.specBytes (im : Image) : Nat := 256 * (1 + bitsOf (im.val Scr.BEM_STAGE) 17 1)

/-- The V lines of a record, as L32 adds. -/
def State.validLines (s : State) (q : BeamPass) (j cnt : Nat) : List AddLine :=
  (List.range (cdiv cnt 16)).map (fun i =>
    let ts := (List.range 16).filter (fun t => decide (16 * i + t < cnt))
    (i, ts.foldl (fun m t => m + 2 ^ t) 0, ts.foldl (fun v t => v + 2 ^ (32 * t) * s.beamValid q j (16 * i + t)) 0))

/-- The exact beam lines of a record: eight lanes to a line. -/
def State.rawLines (s : State) (q : BeamPass) (j cnt : Nat) : List AddLine :=
  (List.range cnt).flatMap (fun k => (List.range 8).map (fun h =>
    (q.im.dlen / 16 + q.im.specBytes / 64 * k + h, 0xFFFF,
      (List.range 8).foldl (fun v u =>
        let b := s.beamSample q (64 * j + 8 * h + u) k
        v + 2 ^ (64 * u) * (ofSigned 32 b.1 + 2 ^ 32 * ofSigned 32 b.2)) 0)))

/-- A reduced beam sample of lane `l`: the bytes stored, and the components saturated. -/
def State.reduced (s : State) (q : BeamPass) (g j l k : Nat) : List Byte × Nat :=
  let b := s.beamSample q (64 * j + l) k
  let w := if q.im.dest g = 1 then 2 else 1
  let re := q.im.reduce g b.1
  let im := q.im.reduce g b.2
  (leBytes w (ofSigned (8 * w) re.1) ++ leBytes w (ofSigned (8 * w) im.1), b2n re.2 + b2n im.2)

/-- The BEAM_SUM terms of a record (R333): one per beam sample. -/
def State.beamTerms (s : State) (q : BeamPass) (g j x cnt : Nat) : Nat :=
  (List.range cnt).foldl (fun t k => (List.range 64).foldl (fun t l =>
    let out := if q.im.dest g = 1 || q.im.dest g = 2 then (s.reduced q g j l k).1
      else let b := s.beamSample q (64 * j + l) k; leBytes 4 (ofSigned 32 b.1) ++ leBytes 4 (ofSigned 32 b.2)
    let off := 4 * q.im.dlen + q.im.specBytes * k + out.length * l
    (t + crc64 (leBytes 8 (Config.beamKey x off) ++ out)) % 2 ^ 64) t) 0

/-! ## Staging records (R245, R248) -/

/-- An L32 add into a record, through port BEAM. -/
def State.beamAdd (s : State) (base : Nat) (l : AddLine) : State :=
  s.agentAdd 5 (base + 64 * l.1) 0 l.2.1 l.2.2

/-- A write of a whole line of a record, through port BEAM. -/
def State.beamWrite (s : State) (a : Nat) (data : List Byte) : State :=
  if s.addAllowed a then s.agentWrite 5 a data (2 ^ 64 - 1) else s.deny 5 a

/-- The reduced lines of a record. -/
def State.reducedLines (s : State) (q : BeamPass) (g j base cnt : Nat) : State :=
  let per := if q.im.dest g = 1 then 16 else 32
  let s := s.each (List.range cnt) (fun s k => s.each (List.range (64 / per)) (fun s h =>
    s.beamWrite (base + 4 * q.im.dlen + q.im.specBytes * k + 64 * h)
      ((List.range per).flatMap (fun u => (s.reduced q g j (per * h + u) k).1))))
  s.saturated q.n g ((List.range cnt).foldl (fun t k =>
    (List.range 64).foldl (fun t l => t + (s.reduced q g j l k).2) t) 0)

/-- A BEAM entry that some partition has still to finish covers a group and channel. -/
def State.beamLeft (s : State) (im : Image) (g c : Nat) : Bool :=
  (List.range im.parts).any (fun p =>
    let x := s.part p
    !x.ended && (partEntries im.plan p).any (fun q =>
      (decide (x.nextEntry ≤ q.1) || x.pass == some q.1) && opOf q.2 = 1 && chanOf q.2 == c &&
        decide (groupOf q.2 ≤ g) && decide (g < groupOf q.2 + 4)))

/-- The flags an end mark carries (R280): POISONED, PARTIAL, DEGRADED of a dwell. -/
def State.markFlags (s : State) (n : Int) : Nat := s.flagsWhere (fun e => e.1 == n) % 8

/-- The outputs of beam group `j` of a pass, of `cnt` spectra (R241 to R248). -/
def State.beamGroup (s : State) (q : BeamPass) (cnt : Nat) (cut : Bool) (j : Nat) : State :=
  let g := groupOf q.e + j
  let im := q.im
  let x := g * im.val Scr.STG_CHANNELS + chanOf q.e
  let d := im.dest g
  if d = 15 then s else
  let s := s.addSums q.n 0 (s.beamTerms q g j x cnt)
  if d = 3 then
    let s := s.sendAdds (im.destChip g) q.n 1 0 x (s.validLines q j cnt ++ s.rawLines q j cnt)
    if s.beamLeft im g (chanOf q.e) then s else s.sendMark (im.destChip g) q.n 1 x (s.markFlags q.n)
  else match s.recAccept x q.n with
    | .apply =>
      let base := im.recAddr x
      let s := (s.recOpen x q.n).each (s.validLines q j cnt) (fun s l => s.beamAdd base l)
      let s := if d = 0 then s.each (s.rawLines q j cnt) (fun s l => s.beamAdd base l) else s.reducedLines q g j base cnt
      s.recMark x q.n false cut
    | _ => s.recLate x q.n false

/-- A BEAM pass delivers what it has formed and counts its marks. The partition has already moved on. -/
def State.beamDone (s : State) (q : BeamPass) (cnt : Nat) (cut : Bool) : State :=
  s.each (List.range 4) (fun s j => s.beamGroup q cnt cut j)

/-! ## Replay overrun (R18, R226, R242) -/

/-- Truncate the pass in progress of partition `p` at a replay overrun. How many spectra have been injected is not stated: a
free value of 1 to D. -/
def State.overrunPart (s : State) (im : Image) (n : Int) (p : Nat) : State :=
  let x := s.part p
  match x.pass with
  | none => s.setPart p { x with ended := true }
  | some i =>
    let cnt := s.free % im.dlen + 1
    let s := s.drew
    let e := im.plan.getD i 0
    let s := s.passTruncated n p i cnt 0
    let s := if opOf e = 0 then s.closeSlot im n p e cnt else s
    let s := s.setPart p { s.part p with pass := none, ended := true }
    if opOf e = 1 then s.beamDone ⟨im, n, p, e⟩ cnt true else s

/-- The end marks of beam streams whose last pass an overrun has skipped (R290). -/
def State.restMarks (s : State) (n : Int) : State :=
  let im := s.governing n
  s.each ((s.fab.addsSent.filter (fun e => e.1.1 == n && e.1.2.1 == 1)).map (fun e => e.1.2.2)) (fun s x =>
    s.sendMark (im.destChip (im.recGroup x)) n 1 x (s.markFlags n))

end Sys2Proof.Machine
end

