-- ==== Sys2Proof/Machine/MovOps.lean ====
section
/-!
DEFINITION. What the movers share (R183, R192 to R200): descriptors, how a descriptor ends, halting and stopping, and the
dwell-ring page a mover takes (R18).
-/

namespace Sys2Proof.Machine

/-- Event source of a mover (R309). -/
def movSrc (m : Nat) : Nat := 0x080 + m

/-- A mover. -/
def State.mover (s : State) (m : Nat) : Mover := (Tbl.get s.mov none m).getD Mover.fresh

/-- Change a mover. -/
def State.setMover (s : State) (m : Nat) (x : Mover) : State := { s with mov := Tbl.set s.mov none m (some x) }

/-- Bits of a mover's descriptor. -/
def Mover.bits (x : Mover) (lo w : Nat) : Nat := bitsOf x.desc.toNat lo w

/-- Address of the descriptor in progress, or the saved address (R204). -/
def State.movAddr (s : State) (m : Nat) : Nat := s.getF (MOV_M_DESC.ADDR m)

/-- State of a mover: 0 IDLE, 1 RUNNING, 2 STOPPING, 3 HALTED. -/
def State.movState (s : State) (m : Nat) : Nat := s.getF (MOV_M_STATE.STATE m)

/-- The image a mover follows (R203): a command mover that of the house dwell in which its descriptor started, a stream mover the present
one. -/
def State.movImage (s : State) (m : Nat) : Image := if 32 ≤ m && m < 60 then s.governing (s.mover m).dwell else s.now

/-- Retries a mover is allowed (R198). -/
def State.movRetry (s : State) (m : Nat) : Nat := (s.movImage m).el Scr.MOV_RETRY m

/-- Owner subarray of a command mover now (R201, R203, R419). -/
def State.movOwner (s : State) (m : Nat) : Nat := s.se Scr.MOV_OWNER (m - 32) % 64

/-- Subarrays a mover's events are attributed to (R419). -/
def State.movSubs (s : State) (m : Nat) : List Nat := if 32 ≤ m && m < 60 then [s.movOwner m] else []

/-- A command mover may write a store address: it lies in a region of its subarray (R193). -/
def State.movMayWrite (s : State) (m a : Nat) : Bool :=
  match s.regionAt a with
  | some r => decide (r.sub = (s.movImage m).el Scr.MOV_OWNER (m - 32) % 64)
  | none => false

/-- A command mover works on a descriptor that is paced by a line and still has bursts to move. -/
def State.lineWanted (s : State) (line : Nat) : Bool :=
  (List.range 28).any (fun k =>
    let x := s.mover (32 + k)
    (s.movState (32 + k) = 1 || s.movState (32 + k) = 2) && !x.work && x.bits 5 1 == 1 && x.bits 8 10 == line)

/-- Every command mover is IDLE or HALTED. -/
def State.moversQuiet (s : State) : Bool :=
  (List.range 28).all (fun k => s.movState (32 + k) = 0 || s.movState (32 + k) = 3)

/-- In iron the store goes to self-refresh once every command mover is IDLE or HALTED (R321). -/
def State.ironSleep (s : State) : State := if s.iron && s.moversQuiet then s.storeSleep else s

/-- The STATUS word of a descriptor (R195). -/
def Mover.status (x : Mover) : Nat :=
  x.code % 256 + 2 ^ 8 * (x.retries % 8) + 2 ^ 11 * b2n x.lastb + 2 ^ 12 * b2n x.surplus + 2 ^ 32 * min (2 ^ 32 - 1) x.done

/-- Write STATUS back to the descriptor of mover `m`, in store or host memory (R30, R195). False: the store refuses it (R163, R193). -/
def State.movWriteback (s : State) (m : Nat) : State × Bool :=
  let x := s.mover m
  let a := s.movAddr m
  if x.bits 7 1 = 1 && x.code = 0 then (s, true)
  else if a / 2 ^ 62 = 1 then ((s.hostPut (a % 2 ^ 57 + 56) (leBytes 8 x.status)).addF (MOV_M_BYTES.COUNT m) 8, true)
  else if s.movMayWrite m (a % 2 ^ 38) then
    ((s.agentWrite 7 (a % 2 ^ 38) (List.replicate 56 0 ++ leBytes 8 x.status) (255 * 2 ^ 56)).addF
      (MOV_M_BYTES.COUNT m) 8, true)
  else (s.deny 7 (a % 2 ^ 38), false)

/-- The store refuses STATUS: a bus error, which every retry meets again (R163, R198). A code that is no error becomes BUS_ERR. -/
def State.movRefused (s : State) (m : Nat) : State :=
  let x := s.mover m
  let s := s.each (List.range (s.movRetry m)) (fun s _ => s.deny 7 (s.movAddr m % 2 ^ 38))
  (s.incF (MOV_M_RETRY.COUNT m) (s.movRetry m)).setMover m { x with code := if x.code ≤ 1 then 2 else x.code }

/-- A descriptor ends: STATUS is written back, its code shows, and NOTE writes event 0x0602. False: STATUS was refused. -/
def State.movEnd (s : State) (m : Nat) : State × Bool :=
  let r := s.movWriteback m
  let s := if r.2 then r.1 else r.1.movRefused m
  let x := s.mover m
  let s := (s.setF (MOV_M_STATE.LAST_CODE m) x.code).setF (MOV_M_STATE.PACE_WAIT m) 0
  (if x.bits 4 1 = 1 then s.emitFor (s.movSubs m) (movSrc m) 0x0602 (s.movAddr m) (m + 256 * x.code) 0 else s, r.2)

/-- Every MOV_STOP that waits for mover `m` completes OK with the saved address (R201). -/
def State.movStopped (s : State) (m : Nat) : State :=
  let rs := (s.mover m).stopRings
  (s.setMover m { s.mover m with stopRings := [] }).each rs (fun s r =>
    match s.running r 0x21 with
    | some e => s.complete r e stOk (s.movAddr m) 0
    | none => s)

/-- Mover `m` halts on the descriptor in progress, which is its saved address (R198, R200). -/
def State.movHalt (s : State) (m : Nat) : State :=
  let x := s.mover m
  let s := s.setF (MOV_M_STATE.STATE m) 3
  let s := s.emitFor (s.movSubs m) (movSrc m) 0x0603 (s.movAddr m) (m + 256 * x.code + 65536 * b2n x.lastb) 1
  ((s.pulse 106).setMover m { x with work := false }).movStopped m |>.ironSleep

/-- The descriptor in progress fails with a code, and the mover halts. -/
def State.movFail (s : State) (m code : Nat) : State :=
  ((s.setMover m { s.mover m with code := code }).movEnd m).1.movHalt m

/-- Start work on a descriptor. -/
def State.movBegin (s : State) (m addr : Nat) (desc : BitVec 512) : State :=
  let x := s.mover m
  let s := s.setMover m { x with 
    desc := desc, work := false, done := 0, retries := 0, code := 0, lastb := false, surplus := false, dwell := s.houseDwell }
  ((s.setF (MOV_M_DESC.ADDR m) addr).setF (MOV_M_STATE.PACE_WAIT m) (bitsOf desc.toNat 5 1)).startTimer (.pace m)

/-- Mover `m` enters IDLE with a saved address. -/
def State.movIdle (s : State) (m saved : Nat) : State :=
  ((s.setF (MOV_M_STATE.STATE m) 0).setF (MOV_M_DESC.ADDR m) saved).movStopped m |>.ironSleep

/-! ## Abandoned dwells and pages (R18) -/

/-- The dwell sequencer abandons dwell `n` (R18): its remaining entries are skipped, its pages return, its products are
PARTIAL; a hold under R221 ends with it. `fault`: a REPLAY_OVERRUN is raised. -/
def State.abandon (s : State) (n : Int) (fault : Bool) : State :=
  let im := s.governing n
  let s := if s.seq.replay = some n then (s.each (List.range im.parts) (fun s p => (s.overrunPart im n p).reportStalls p n)).restMarks n
    else s
  let s := s.condDwell n fPartial
  let s := if fault then (s.raiseFor [] seqSrc 0x0001 3 false (ofSigned 31 n)).pulse 93 else s
  let s := if s.seq.ringWait.head? = some n then ({ s.setF STG_STATUS.FMT_WAIT 0 with seq.fmtHeld := 0 } : State) else s
  let s := { s with seq.ringWait := s.seq.ringWait.filter (fun k => decide (k ≠ n)) }
  if s.seq.replay = some n then s.endReplay n
  else
    let s := s.returnPages n (fun _ _ => false)
    { s with seq.gone := s.seq.gone ++ [n], seq.replayed := s.seq.replayed ++ [n] }

/-- The oldest closed dwell that holds pages. -/
def State.oldestHeld (s : State) : Option Int :=
  (s.seq.pages.map (fun e => e.1.1)).foldl (fun best n =>
    if s.seq.closed < n then best
    else match best with | none => some n | some b => if n < b then some n else some b) none

/-- Take a free page, or else answer `other`. -/
def State.takeOr (s : State) (n : Int) (c b k : Nat) (other : State × Option Nat) : State × Option Nat :=
  (s.takeFree n c b k).elim other (fun q => (q.1, some q.2))

/-- Abandon dwell `d` and take a page. -/
def State.takeAbandon (s : State) (n : Int) (c b k : Nat) (d : Int) : State × Option Nat :=
  (s.abandon d true).takeOr n c b k (s.abandon d true, none)

/-- The page of slab (n, c, b) that holds page number `k`: the one it has, a free one, or one an abandoned dwell returns. -/
def State.takePage (s : State) (n : Int) (c b k : Nat) : State × Option Nat :=
  (s.pageOf n c b k).elim
    (s.takeOr n c b k (s.oldestHeld.elim (s, none) (s.takeAbandon n c b k)))
    (fun p => (s, some p))

end Sys2Proof.Machine
end

