-- ==== Sys2Proof/Machine/UnitOps.lean ====
section
/-!
DEFINITION. What several units share: claims (R327, R328), the stop of the stage (R226, R242), iron entry (R321, R322), and
how every command ends.
-/

namespace Sys2Proof.Machine

/-! ## Sources (R309, R341, R419) -/

/-- A cluster. -/
def State.cluster (s : State) (c : Nat) : Cluster := (Tbl.get s.clu none c).getD Cluster.idle

/-- Change a cluster. -/
def State.setCluster (s : State) (c : Nat) (x : Cluster) : State := { s with clu := Tbl.set s.clu none c (some x) }

/-- A port's own state, and its change. -/
def State.port (s : State) (p : Nat) : Port := (Tbl.get s.ing.port none p).getD Port.fresh
def State.setPort (s : State) (p : Nat) (x : Port) : State := { s with ing.port := Tbl.set s.ing.port none p (some x) }

/-- The spare that stands for logical cluster `c`. -/
def State.spareOf (s : State) (c : Nat) : Option Nat :=
  (List.range 4).reverse.find? (fun k => bitsOf (s.getF DUO_SPARE.PIT_MAP) (7 * k) 7 == c)

/-- Physical number of a logical cluster (R341). -/
def State.physOf (s : State) (c : Nat) : Nat := match s.spareOf c with | some k => 128 + k | none => c

/-- Logical number of a physical cluster. -/
def State.logicalOf (s : State) (phys : Nat) : Option Nat :=
  if phys < 128 then (if (s.spareOf phys).isSome then none else some phys)
  else
    let c := bitsOf (s.getF DUO_SPARE.PIT_MAP) (7 * (phys - 128)) 7
    if c = 127 then none else some c

/-- Element of PIT_CLU_PROG of a logical cluster, in force at the house dwell. -/
def State.cluElem (s : State) (c : Nat) : Nat := s.se Scr.PIT_CLU_PROG c

/-- The owner of a cluster in the image that governs a dwell. -/
def State.cluOwner (s : State) (c : Nat) (n : Int) : Nat := bitsOf ((s.governing n).el Scr.PIT_CLU_PROG c) 6 6

/-- Event source of a logical cluster: its physical number (R309). -/
def State.pitSrc (s : State) (c : Nat) : Nat := 0x0C0 + s.physOf c

/-- Subarray a cluster's events are attributed to: its owner for the dwell of the last vector it took, or for the house dwell. -/
def State.pitSubs (s : State) (c : Nat) : List Nat :=
  [s.cluOwner c (match (s.cluster c).lastTaken with | some v => v.dwell | none => s.houseDwell)]

/-- Subarrays an ingest port's events are attributed to. -/
def State.ingSubs (s : State) (p : Nat) : List Nat := subsOf (s.se Scr.ING_PORT_SUB p)

/-- The attribution of a source's own entries (R419). -/
def State.srcSubs (s : State) (src : Nat) : List Nat :=
  if 0x020 ≤ src && src < 0x038 then s.ingSubs (src - 0x020)
  else if 0x080 ≤ src && src < 0x0C0 then s.movSubs (src - 0x080)
  else if 0x0C0 ≤ src && src < 0x144 then (match s.logicalOf (src - 0x0C0) with | some c => s.pitSubs c | none => [])
  else []

/-- The highest class of a source (R309); 0 for an ID that is reserved. -/
def hiClass (src : Nat) : Nat :=
  if src = 0x000 || (0x005 ≤ src && src ≤ 0x00C) || (0x200 ≤ src && src ≤ 0x2FF) then 4
  else if (0x001 ≤ src && src ≤ 0x004) || (0x00D ≤ src && src ≤ 0x011) || (0x038 ≤ src && src ≤ 0x03F) ||
    (0x080 ≤ src && src ≤ 0x143) || (0x300 ≤ src && src ≤ 0x307) then 3
  else if 0x020 ≤ src && src ≤ 0x037 then 2
  else if src = 0x040 || src = 0x041 then 1
  else 0

/-! ## Claims (R327, R328, R346) -/

/-- A claim: epoch and rank. Rank 0 is null. -/
abbrev Claim := Nat × Nat

/-- Claim `x` is greater than claim `y` (R327). -/
def claimGreater (x y : Claim) : Bool :=
  if y.2 = 0 then x.2 != 0
  else if x.2 = 0 then false
  else
    let d := (x.1 + 65536 - y.1 % 65536) % 65536
    if d = 0 || d = 32768 then decide (y.2 < x.2) else decide (d < 32768)

/-- The claim in force. -/
def State.claim (s : State) : Claim := (s.getF DUO_STATUS.EPOCH, s.getF DUO_STATUS.RANK)

/-- The partner's claim last heard. -/
def State.partnerClaim (s : State) : Claim := (s.getF DUO_PARTNER.EPOCH, s.getF DUO_PARTNER.RANK)

/-- The element of FAB_DUET that names a chip: A and B. -/
def Image.pairOf (im : Image) (chip : Nat) : Option (Nat × Nat) :=
  ((List.range 64).map (fun i => (bitsOf (im.el Scr.FAB_DUET i) 0 11, bitsOf (im.el Scr.FAB_DUET i) 11 11))).find? (fun p =>
    p.1 != p.2 && (p.1 == chip || p.2 == chip))

/-- The chip is paired under an image (R330). -/
def Image.paired (im : Image) : Bool :=
  im.val Scr.DUO_EN = 1 && (im.pairOf (im.val Scr.FAB_CHIP_ID)).isSome && im.val Scr.FAB_PAIR_PORT != 15

/-- The partner's chip ID. -/
def Image.partner (im : Image) : Nat :=
  match im.pairOf (im.val Scr.FAB_CHIP_ID) with
  | some p => if p.1 = im.val Scr.FAB_CHIP_ID then p.2 else p.1
  | none => 0

/-- MEMBER of this chip (R327). -/
def Image.member (im : Image) : Nat :=
  if im.paired then
    match im.pairOf (im.val Scr.FAB_CHIP_ID) with
    | some p => if p.1 = im.val Scr.FAB_CHIP_ID then 0 else 1
    | none => 0
  else 0

/-- The live rank of a member (R327). -/
def liveRank (active : Bool) (member : Nat) : Nat := (if active then 0xA else 0x2) + member

/-- ACCEPTED follows the claims and drives producer DUET_ACTIVE (R348). -/
def State.showAccepted (s : State) : State :=
  let b := claimGreater s.claim s.partnerClaim
  (s.setFlag DUO_STATUS.ACCEPTED b).drive 100 b

/-- Take a claim, with event 0x0E01 when it changes (R346). -/
def State.setClaim (s : State) (e r cause : Nat) : State :=
  if s.claim = (e % 65536, r) then s else
  let old := s.claim
  let s := (s.setF DUO_STATUS.EPOCH e).setF DUO_STATUS.RANK r
  let s := if decide (8 ≤ old.2) == decide (8 ≤ r) then s else s.startTimer .role
  (s.emit 0x00D 0x0E01 (old.1 + 2 ^ 16 * old.2 + 2 ^ 32 * (e % 65536) + 2 ^ 48 * r) cause 0).showAccepted

/-! ## The stage stops (R226, R242, R246) -/

/-- Stop every pass and free every slot: cause 1 iron, 2 block reset. How many spectra had been injected is a free value. -/
def State.stopPasses (s : State) (cause : Nat) : State :=
  match s.seq.replay with
  | none => s
  | some n =>
    let im := s.governing n
    s.each (List.range im.parts) (fun s p =>
      match (s.part p).pass with
      | none => s
      | some i => s.drew.passTruncated n p i (s.free % im.dlen + 1) cause)

/-- Every slot is FREE, no pass runs. -/
def State.freeSlots (s : State) : State :=
  s.each (List.range 16) (fun s p => s.setPart p Part.fresh)

/-- The stage stops (R226): passes end early, slots are FREE, records are discarded. -/
def State.stopStage (s : State) (cause : Nat) : State :=
  ((s.stopPasses cause).freeSlots.setF STG_STATUS.STOPPED 1).discardRecs

/-! ## Iron (R321, R322) -/

/-- A paced descriptor that waits for a request in iron completes with PACE_TIMEOUT (R322). -/
def State.ironPace (s : State) (m : Nat) : State :=
  if s.flag (MOV_M_STATE.PACE_WAIT m) then s.movFail m 4 else s

/-- A cluster that stops at its next IN or INA, or after 4,096 cycles (R321). -/
def Cluster.stopping (c : Cluster) : Cluster := { c with stopLeft := some (c.stopLeft.getD 4096) }

/-- Every cluster stops so. -/
def State.stopPit (s : State) : State := { s with clu := List.map (fun e => (e.1, e.2.map Cluster.stopping)) s.clu }

/-- Iron entry (R321, R322) for a reason and a source. -/
def State.ironEntry (s : State) (reason src : Nat) : State :=
  if s.iron then s else
  let s := (s.setF FLT_STATUS.IRON 1).setF HST_STATUS.IRON 1
  let s := (s.drive 98 true).attn 0
  let s := ((s.setF FLT_IRON.REASON reason).setF FLT_IRON.SRC src).incF FLT_IRON.COUNT 1
  let s := { s with flt.ironAt := some s.clk.cycles, flt.ironDwell := s.houseDwell }
  let s := s.setClaim 0 0 7
  let s := s.stopStage 1
  let s := { s with fab.txq := s.fab.txq.filter (fun e => e.2.1 != 4), fab.addsSent := [] }
  let s := s.each (List.range 8) (fun s p => (if s.fabUp p then (s.sendBeacon p).startTimer (.curtain p) else s).egqLevel p)
  let s := s.stopPit
  let s := s.each (List.range 28) (fun s k =>
    let s := s.ironPace (32 + k)
    if s.movState (32 + k) = 1 then s.setF (MOV_M_STATE.STATE (32 + k)) 2 else s)
  let s := { s with pwr.trans := none }
  let s := (s.setF PWR_STATUS.BUSY 0).setF PWR_STATUS.TARGET (s.getF PWR_STATUS.STATE)
  let s := s.setF PWR_EMERG.HOLD_NOW 0
  let s := s.emit 0x000 0x0D03 (reason + 2 ^ 16 * src) (dwell32 s.houseDwell) 4
  s.ironSleep

/-! ## How a command ends -/

/-- Class 4 faults that have arrived send the device to iron (R320). -/
def State.settle (s : State) : State :=
  match s.flt.c4 with
  | [] => s
  | (src, reason) :: _ => { (s.ironEntry reason src) with flt.c4 := [] }

/-- The next state of a meaning. -/
def done (s : State) : Res := .next s.settle

/-- State of control core `k`: 0 reset, 1 boot, 2 running, 3 reloading (R376). -/
def State.coreState (s : State) (k : Nat) : Nat := bitsOf (s.getF CTL_CORES.STATE) (2 * k) 2

/-- Some control core runs (R355). -/
def State.coreRuns (s : State) : Bool := (List.range 4).any (fun k => s.coreState k = 2)

/-- Carry out a command only while ring `r` executes opcode `op` (log 2). Opcodes above 0x04 wait while no core runs (R355). -/
def withCmd (s : State) (r op : Nat) (f : State → Exec → State) : Res :=
  match s.running r op with
  | some e => if 4 < op && !s.coreRuns then done s else done (f s e)
  | none => done s

/-- Apply an effect when a condition holds (log 2). -/
def State.whenever (s : State) (b : Bool) (f : State → State) : State := if b then f s else s

end Sys2Proof.Machine
end

