-- ==== Sys2Proof/Machine/Clock.lean ====
section
/-!
DEFINITION. The house clock's count (R93 to R98): house cycles, house SIX, the TAI clock, and the change of the epoch group at
a dwell boundary.
-/

namespace Sys2Proof.Machine

/-- The epoch group of an image (R93). -/
def Image.group (im : Image) : List Nat :=
  [im.val Scr.TIM_SIX0, im.val Scr.TIM_TAI0, im.val Scr.TIM_DT_NUM, im.val Scr.TIM_DT_DEN, im.val Scr.TIM_DWELL]

/-- NUM and DEN in force. -/
def State.num (s : State) : Nat := s.now.val Scr.TIM_DT_NUM
def State.den (s : State) : Nat := s.now.val Scr.TIM_DT_DEN

/-- The mapping offset of the latest house SIX, which advanced `back` cycles ago (R98). -/
def State.epsNow (s : State) (back : Nat) : Int :=
  fdiv ((s.clk.tai : Int) - (back : Int) * (262144 * (10 ^ 15 + s.clk.freq + s.clk.slew))) (10 ^ 15) - s.now.nominalTai s.clk.six

/-- `n` house cycles within one epoch group (R95, R97). -/
def State.rawRun (s : State) (n : Nat) : State :=
  if s.epoch then
    let t := s.clk.acc + 4 * n * s.den
    let d := t / s.num
    let im := s.now
    let c := { s.clk with cycles := s.clk.cycles + n, six := (s.clk.six + d) % 2 ^ 64, acc := t % s.num,
                          tai := s.clk.taiAfter n }
    let s := { s with clk := c }
    if d = 0 then s else
      let back := c.acc / (4 * im.val Scr.TIM_DT_DEN)
      let eps := fdiv ((c.tai : Int) - (back : Int) * (262144 * (10 ^ 15 + c.freq + c.slew))) (10 ^ 15) - im.nominalTai c.six
      s.setS TIM_EPS.VALUE eps
  else { s with clk.cycles := s.clk.cycles + n, clk.tai := s.clk.taiAfter n }

/-- At the first SIX of dwell `im.first` a changed epoch group rescales the accumulator and writes event 0x0207 (R93). -/
def State.cross (s : State) (im old : Image) : State :=
  if im.group = old.group then s else
  let acc := s.clk.acc * im.val Scr.TIM_DT_DEN / old.val Scr.TIM_DT_DEN
  let s := { s with clk.acc := acc }
  ((s.setS TIM_EPS.VALUE (s.epsNow 0)).putBit TIM_EVT.BITS 5 true).emit 0x002 0x0207 s.clk.six
    (2 * b2n (s.flag TIM_STATUS.TAI_VALID)) 0

/-- The images whose first dwell is still ahead, with the house cycles until it. -/
def State.ahead (s : State) : List Image :=
  if s.epoch then s.scr.images.filter (fun im => !im.whole && decide (s.houseDwell < im.first)) else []

/-- House cycles until house SIX becomes `six`, within one epoch group. -/
def State.cyclesTo (s : State) (six : Nat) : Nat :=
  let d := sixDiff six s.clk.six
  if d ≤ 0 then 0 else cyclesFor s.num s.den s.clk.acc d.toNat

/-! ## What a port sends (R111) -/

/-- EN of a port; ports 24 to 31 are the fabric's. -/
def portEnF (p : Nat) : Fld := if p < 24 then ING_P_CTRL.EN p else FAB_P_CTRL.EN (p - 24)

/-- A port runs in forerunner mode (R109). -/
def State.forerunner (s : State) (p : Nat) : Bool := decide (p < 24) && s.flag (ING_P_CTRL.MODE p)

/-- A port whose lanes run: enabled, and not in DARK (R386). -/
def State.portLive (s : State) (p : Nat) : Bool := s.flag (portEnF p) && s.getF PWR_STATUS.STATE != 3

/-- The transmit taps as TXEQ of lane `l` of port `p` codes them. -/
def State.txCode (s : State) (p l : Nat) : Nat :=
  if p < 24 then
    s.getF (ING_P_L_TXEQ.PRE p l) + 2 ^ 4 * s.getF (ING_P_L_TXEQ.POST p l) + 2 ^ 8 * s.getF (ING_P_L_TXEQ.AMP p l)
  else
    s.getF (FAB_P_L_TXEQ.PRE (p - 24) l) + 2 ^ 4 * s.getF (FAB_P_L_TXEQ.POST (p - 24) l) +
      2 ^ 8 * s.getF (FAB_P_L_TXEQ.AMP (p - 24) l)

/-- The taps after reset (R111). -/
def tapsReset : Nat := 0x842

/-- The comma words that have gone out bring the taps written before them into force (R111): a forerunner port sends none. -/
def State.commaSent (s : State) : State :=
  let out (e : Nat × Nat) : Bool := decide (e.2 ≤ s.clk.cycles) && s.portLive (e.1 / 4) && !s.forerunner (e.1 / 4)
  { s with
    ing.taps := (s.ing.tapsDue.filter out).foldl (fun t e => Tbl.set t tapsReset e.1 (s.txCode (e.1 / 4) (e.1 % 4))) s.ing.taps,
    ing.tapsDue := s.ing.tapsDue.filter (fun e => !out e) }

/-- `n` house cycles, with the epoch groups that change in them. -/
def State.runCycles (s : State) (n : Nat) : State :=
  let r := s.ahead.foldl (fun (q : State × Nat) im =>
    let k := q.1.cyclesTo (im.startSix im.first)
    if k ≤ q.2 then ((q.1.rawRun k).cross im q.1.now, q.2 - k) else q) (s, n)
  (r.1.rawRun r.2).commaSent

/-- The house clock runs on until `n` cycles have passed since a time was started; one that does not run is over (log 3). -/
def State.lapse (s : State) (k : Timer) (n : Nat) : State :=
  match s.timerOf k with
  | some t => s.runCycles (t + n - s.clk.cycles)
  | none => s

/-- Run until house SIX is `six`. -/
def State.advanceTo (s : State) (six : Nat) : State :=
  let s := s.ahead.foldl (fun (q : State) im =>
    if 0 ≤ sixDiff six (im.startSix im.first) then
      (q.rawRun (q.cyclesTo (im.startSix im.first))).cross im q.now
    else q) s
  (s.rawRun (s.cyclesTo six)).commaSent

/-- The house clock runs on until `ms` milliseconds after the close of dwell `n` (R17). -/
def State.afterClose (s : State) (n : Int) (ms : Nat) : State :=
  let im := s.governing n
  s.advanceTo ((im.startSix (n + 1) + im.val Scr.ING_LATE_WINDOW + cdiv (ms * 1000000 * s.den) s.num) % 2 ^ 64)

/-- The HCK_ST pins show the state (R82). -/
def State.showHckSt (s : State) : State := { s with hck.hckSt := BitVec.ofNat 3 (s.getF HCK_STATUS.STATE) }

/-- One house cycle passes (log 1). The house DPLL runs, and its pins show its state (R82). -/
def tick (s : State) : State := (s.runCycles 1).showHckSt

end Sys2Proof.Machine
end

