-- ==== Sys2Proof/Machine/HckOps.lean ====
section
/-!
DEFINITION. The house DPLL (R70 to R89): priority entries, states, selection and switches.
-/

namespace Sys2Proof.Machine

/-- Event source of the house clock (R309). -/
def hckSrc : Nat := 0x001

/-- A configuration field of the DPLL as it is in force: writes take effect at the next tick (R89). -/
def State.hcfg (s : State) (f : Fld) : Nat := (Tbl.get s.hck.cfg (BitVec.ofNat 64 f.rst) f.key).toNat

/-- The written configuration comes into force. -/
def State.hckApply (s : State) : State :=
  { s with hck.cfg := s.regs.filter (fun e => decide (0x100000 * 64 ≤ e.1) && decide (e.1 < 0x100040 * 64)) }

/-- The word of priority entry `e` (R72). -/
def entF (e : Nat) : Fld :=
  [HCK_PRIO0.ENT0, HCK_PRIO0.ENT1, HCK_PRIO0.ENT2, HCK_PRIO0.ENT3,
   HCK_PRIO1.ENT4, HCK_PRIO1.ENT5, HCK_PRIO1.ENT6, HCK_PRIO1.ENT7].getD e HCK_PRIO0.ENT0

/-- The word of an entry in force. -/
def State.entWord (s : State) (e : Nat) : Nat := s.hcfg (entF e)

/-- INPUT, PORT, RANK and EN of an entry word. -/
def entInput (w : Nat) : Nat := bitsOf w 0 3
def entPort (w : Nat) : Nat := bitsOf w 3 5
def entRank (w : Nat) : Nat := bitsOf w 8 3
def entEn (w : Nat) : Bool := bitOf w 15

/-- Two entry words name the same input and port. -/
def sameRef (a b : Nat) : Bool :=
  entInput a == entInput b && (entInput a != 2 && entInput a != 3 || entPort a == entPort b)

/-- An entry reads OFF (R72). -/
def State.entOff (s : State) (e : Nat) : Bool :=
  let w := s.entWord e
  !entEn w || decide (4 < entInput w) || (entInput w == 2 && decide (s.getF CTL_CAP1.ING_PORTS ≤ entPort w)) ||
    (entInput w == 3 && decide (s.getF CTL_CAP1.FAB_PORTS ≤ entPort w)) ||
    (List.range e).any (fun k => entEn (s.entWord k) && sameRef (s.entWord k) w)

/-- The signal of an entry's input is present (R70). -/
def State.entSignal (s : State) (e : Nat) : Bool :=
  let w := s.entWord e
  let i := entInput w
  if i = 0 then s.hck.present.getLsbD 0 && s.hcfg HCK_CTRL.REFA_FREQ != 3
  else if i = 1 then s.hck.present.getLsbD 1 && s.hcfg HCK_CTRL.REFB_FREQ != 3
  else if i = 2 then s.bit (ING_P_STATUS.LOCK (entPort w)) 0
  else if i = 3 then s.bit (FAB_P_STATUS.LOCK (entPort w)) 0
  else s.getF TIM_STATUS.SERVO = 2

/-- State of an entry: 0 OFF, 1 NO_SIGNAL, 2 WTR, 3 QUALIFIED, 4 SUSPECT, 5 DISQUALIFIED, 6 UNCHECKED. -/
def State.entState (s : State) (e : Nat) : Nat := bitsOf (s.getF HCK_STATUS.ENT_STATE) (3 * e) 3

/-- Set the state of an entry. -/
def State.setEntState (s : State) (e v : Nat) : State :=
  s.setF HCK_STATUS.ENT_STATE (putBits (s.getF HCK_STATUS.ENT_STATE) (3 * e) 3 v)

/-- The entry may be selected: QUALIFIED, SUSPECT or UNCHECKED. -/
def State.entUsable (s : State) (e : Nat) : Bool := s.entState e = 3 || s.entState e = 4 || s.entState e = 6

/-- An entry enters WTR (R74). -/
def State.enterWtr (s : State) (e : Nat) : State :=
  let s := (s.setEntState e 2).setF (HCK_ENT.WTR_LEFT e) (s.hcfg HCK_CTRL.WTR)
  { s with hck.wtrNew := s.hck.wtrNew ++ [e] }

/-- OFF, NO_SIGNAL and the entry to WTR follow the configuration and the signals (R71, R72, R74). -/
def State.entSignals (s : State) : State :=
  s.each (List.range 8) (fun s e =>
    if s.entOff e then s.setEntState e 0
    else if !s.entSignal e then s.setEntState e 1
    else if s.entState e < 2 then s.enterWtr e
    else s)

/-- Dwells that are open to the house clock's conditions (R90): from the first not closed to the current one. -/
def State.openDwells (s : State) : List Int := if s.epoch then dwellRange (s.seq.closed + 1) s.houseDwell else []

/-- The state of the house clock marks the products of the open dwells (R90). -/
def State.hckMark (s : State) : State :=
  s.each s.openDwells (fun s n =>
    if ((s.governing n).val Scr.HCK_FLAG_MASK).testBit (s.getF HCK_STATUS.STATE) then s.condDwell n fHoldover else s)

/-! ## Bandwidth and rate limit (R80, R83, R84) -/

/-- Bandwidth set for the input type of an entry word, and the type's maximum, in µHz (R80). -/
def State.setBw (s : State) (w : Nat) : Nat × Nat :=
  let i := entInput w
  if i = 2 then (s.hcfg HCK_BW0.BW_LINK, 1000000000)
  else if i = 3 then (s.hcfg HCK_BW1.BW_FAB, 100000000)
  else if i = 4 then (s.hcfg HCK_BW1.BW_PTP, 1000000)
  else (s.hcfg HCK_BW0.BW_REF, 100000000)

/-- Bandwidth set for the active entry. -/
def State.activeBw (s : State) : Nat × Nat := s.setBw (s.entWord (s.getF HCK_STATUS.ACTIVE))

/-- The loop takes its bandwidth: in ACQUIRING 8 times the set value, up to the type's maximum (R80). -/
def State.takeBw (s : State) : State :=
  let b := s.activeBw
  { s with hck.bw := if s.getF HCK_STATUS.STATE = 1 then min b.2 (8 * b.1) else b.1 }

/-- House cycles in 10 time constants, 10 / (2π × bandwidth), of a bandwidth in µHz: 2.5 × 10^15 / 2π is 397,887,357,729,738.3
(R80). -/
def tenTimeConstants (bw : Nat) : Nat := cdiv 397887357729739 bw

/-- The greatest change of the DCO offset in one tick, in 10^-15; 0 for none (R84). -/
def State.pslStep (s : State) : Nat := 1000 * s.hcfg HCK_TIMING.PSL

/-- `v` kept within `lim` of `mid`; a limit of 0 is none. -/
def within (lim : Nat) (mid v : Int) : Int := if lim = 0 then v else max (mid - lim) (min (mid + lim) v)

/-- Without a rate limit the DCO is at once where it goes (R84). -/
def State.goAtOnce (s : State) : State := if s.pslStep = 0 then s.setS HCK_DCO.OFFSET s.hck.goal else s

/-- The DPLL enters a state (R81, R82): 0 FREE RUN, 1 ACQUIRING, 2 LOCKED, 3 HOLDOVER, 4 LOST. -/
def State.hckState (s : State) (new : Nat) : State :=
  let old := s.getF HCK_STATUS.STATE
  if old = new then s else
  let s := (s.setF HCK_STATUS.STATE new).showHckSt
  let s := (s.putBit HCK_EVT.BITS 1 true).emit hckSrc 0x0102 (old + 256 * new) s.hck.ticks (if new = 4 then 3 else 0)
  let s := if new = 4 then s.raise hckSrc 0x0003 3 true else s
  let s := if new = 2 then { s with hck.history := [], hck.everLocked := true, hck.lockedFor := 0 } else s
  let s := if new = 1 then { s with hck.closedAt := s.clk.cycles } else if new = 3 then s.startTimer .holdover else s
  (s.takeBw.drive 55 (new != 2)).hckMark

/-- The build-out of a switch (R83): offset in ps, old and new entry, cause 0 loss, 1 disqualified, 2 revertive, 3 leaving
holdover. The pull-in that the limit against the pre-switch frequency holds in lasts 10 time constants at the set bandwidth
(DEDUCED from the worked example of chapter 04, log 33). -/
def State.hckSwitch (s : State) (new cause : Nat) (ps : Int) : State :=
  let old := s.getF HCK_STATUS.ACTIVE
  let s := (s.setS HCK_PBO.LAST_PS ps).addF HCK_PBO.SWITCHES 1
  let s := (s.setF HCK_STATUS.ACTIVE new).setF HCK_STATUS.ACT_VALID 1
  let s := { s with hck.pullFrom := s.getS HCK_DCO.OFFSET, hck.closedAt := s.clk.cycles,
                    hck.pullUntil := s.clk.cycles + tenTimeConstants s.activeBw.1 }.takeBw
  ((s.putBit HCK_EVT.BITS 0 true).emit hckSrc 0x0101 (ofSigned 64 ps) (old + 8 * new + 64 * cause) 0).pulse 54

/-- The entry R73 prefers: lowest rank, then not SUSPECT, then the active entry, then the lowest number. -/
def State.bestEntry (s : State) : Option Nat :=
  let key (e : Nat) : Nat :=
    entRank (s.entWord e) * 64 + (if s.entState e = 4 then 32 else 0) +
      (if s.flag HCK_STATUS.ACT_VALID && s.getF HCK_STATUS.ACTIVE = e then 0 else 16) + e
  ((List.range 8).filter s.entUsable).foldl (fun best e =>
    match best with | none => some e | some b => if key e < key b then some e else some b) none

/-- Mean of a list of frequencies, rounded down. -/
def meanInt (l : List Int) : Int := if l.isEmpty then 0 else fdiv (l.foldl (· + ·) 0) (l.length : Int)

/-- HOLDOVER with guard `g` ticks, or LOST, holding the last frequency, when less than 10 s of history remain (R85). The
holdover frequency is the mean of the history, and then follows the aging that a valid XO history predicts: as the XO's frequency
grows against the house clock, the DCO's offset from the XO falls (DEDUCED, log 33). -/
def State.enterHoldover (s : State) (g : Nat) : State :=
  let h := s.hck.history.drop g
  let s := s.setF HCK_STATUS.ACT_VALID 0
  if h.length < 10 then { s with hck.goal := s.getS HCK_DCO.OFFSET, hck.aging := 0 }.hckState 4
  else
    let s := { s with hck.goal := meanInt (h.take (s.hcfg HCK_TIMING.HOLD_AVG)),
                      hck.aging := if s.flag HCK_STATUS.XO_HIST then s.hck.xoAging else 0 }
    s.goAtOnce.hckState 3

/-- The active entry has been outvoted at VALID_WIN ticks, with no DISPUTE: it is disqualified at this tick (R77). -/
def State.activeOutvoted (s : State) : Bool :=
  !s.flag HCK_STATUS.DISPUTE && decide (s.hcfg HCK_TIMING.VALID_WIN ≤ s.getF (HCK_ENT.EXCESS (s.getF HCK_STATUS.ACTIVE)))

/-- The guard G of R85, in ticks: the larger one where a loss and a disqualification meet at one tick. -/
def State.guardTicks (s : State) (disq : Bool) : Nat :=
  if disq || s.activeOutvoted then s.hcfg HCK_TIMING.VALID_WIN + 1 else 1

/-- Selection (R73). `lost`: the active entry lost its signal; `disq`: it was disqualified; `ps` the phase a switch measures. -/
def State.hckSelect (s : State) (lost disq : Bool) (ps : Int) : State :=
  if s.flag HCK_STATUS.SWLOOP then s else
  if !s.flag HCK_STATUS.ACT_VALID then
    match s.bestEntry with
    | none => s
    | some e =>
      if s.getF HCK_STATUS.STATE = 0 then ((s.setF HCK_STATUS.ACTIVE e).setF HCK_STATUS.ACT_VALID 1).hckState 1
      else (s.hckSwitch e 3 ps).hckState 1
  else if lost || disq then
    match s.bestEntry with
    | none => s.enterHoldover (s.guardTicks disq)
    | some e => s.hckSwitch e (if lost then 0 else 1) ps
  else if s.flag HCK_STATUS.DISPUTE then s
  else
    match s.bestEntry with
    | none => s
    | some e =>
      if s.hcfg HCK_CTRL.REVERT = 1 && entRank (s.entWord e) < entRank (s.entWord (s.getF HCK_STATUS.ACTIVE)) &&
          s.entState e != 4 then s.hckSwitch e 2 ps
      else s

/-- The active entry has a usable state. -/
def State.activeGood (s : State) : Bool := !s.flag HCK_STATUS.ACT_VALID || s.entUsable (s.getF HCK_STATUS.ACTIVE)

/-- A signal of an entry may have come or gone: the entries follow, and the loss of the active one selects anew (R73). -/
def State.hckSignals (s : State) (ps : Int) : State :=
  let s := s.entSignals
  if s.activeGood then s else s.hckSelect true false ps

/-- As `hckSignals` where the phase that a switch measures comes with no operand: a free value. -/
def State.hckLinks (s : State) : State :=
  let t := s.entSignals
  if t.activeGood then t else (t.drew).hckSelect true false (toSigned 32 t.free)

end Sys2Proof.Machine
end

