-- ==== Sys2Proof/Machine/DuetOps.lean ====
section
/-!
DEFINITION. What the duet logic shares (R328, R331, R334 to R338): how a claim changes, swaps, joins, and PAIR packets.
-/

namespace Sys2Proof.Machine

/-- Event source of the duet logic (R309). -/
def duoSrc : Nat := 0x00D

/-- This chip is active. -/
def State.active (s : State) : Bool := decide (8 ≤ s.getF DUO_STATUS.RANK)

/-- This chip is paired in its committed image (R330). -/
def State.paired (s : State) : Bool := s.newest.paired

/-- Take a claim with epoch `e`: at once when the journal holds that epoch, else after the journal write (R328). -/
def State.claimTo (s : State) (e r cause : Nat) : State :=
  if e % 65536 = s.ctl.jepoch then s.setClaim e r cause else s.journal (.epoch (e % 65536) r cause)

/-- Spectra of a time in ns, rounded up, in the epoch group in force. -/
def State.spectraOf (s : State) (ns : Nat) : Nat := cdiv (ns * s.den) s.num

/-- The first dwell that starts at least `ms` milliseconds ahead. -/
def State.dwellAhead (s : State) (ms : Nat) : Int :=
  s.dwellOf (s.clk.six + s.spectraOf (ms * 1000000) + (2 ^ 64 - 1)) + 1

/-- No reason holds a proposal back (R337). -/
def State.swapAllowed (s : State) : Bool :=
  s.flag DUO_STATUS.PARTNER_OK && !s.flag DUO_PARTNER.IRON && s.getF DUO_PARTNER.RANK != 0 && !s.flag DUO_PARTNER.REPLACE &&
    decide (s.duo.hbTagDiffer ≠ some s.houseDwell)

/-- Propose a swap at dwell `k`. -/
def State.propose (s : State) (k : Int) : State :=
  let s := (s.setF DUO_STATUS.SWAP_PEND 1).setF DUO_SWAPDW.DWELL (ofSigned 64 k)
  ({ s with duo.swapProposed := true, duo.swapAck := false, duo.swapSeen := false } : State).stopTimer .swapAgain

/-- Propose a swap at the earliest dwell, if an active chip may (R337). -/
def State.proposeEarliest (s : State) : State :=
  if s.paired && s.active && !s.flag DUO_STATUS.SWAP_PEND && s.swapAllowed then
    s.propose (s.dwellAhead (s.sv Scr.DUO_SWAP_LEAD))
  else s

/-- The pending swap is over. -/
def State.swapEnd (s : State) : State :=
  { s.setF DUO_STATUS.SWAP_PEND 0 with duo.swapProposed := false, duo.swapAck := false, duo.swapSeen := false }

/-- The dwell of the pending swap. -/
def State.swapDwell (s : State) : Int := toSigned 64 (s.getF DUO_SWAPDW.DWELL)

/-- SIX_k of a pending swap: it is applied, or event 0x0E08 is written and a new one is proposed after DUO_SWAP_LEAD (R337). -/
def State.swapApply (s : State) (n : Int) : State :=
  if !s.flag DUO_STATUS.SWAP_PEND || decide (s.swapDwell ≠ n) then s else
  let go := s.duo.swapAck && (if s.duo.swapProposed then s.active else s.duo.swapSeen && !s.active)
  if go && s.getF DUO_STATUS.RANK != 0 then
    (s.swapEnd.setClaim (s.getF DUO_STATUS.EPOCH) (liveRank (!s.active) s.newest.member) 0).pulse 101
  else if s.duo.swapProposed then
    (s.swapEnd.emit duoSrc 0x0E08 (ofSigned 64 n) 0 1).startTimer .swapAgain
  else s.swapEnd

/-- A claim agreed for this dwell boundary is taken (R336, R338); a reconciliation cancels a swap that is pending there, whatever its
dwell (DEDUCED, log 36). -/
def State.claimBoundary (s : State) : State :=
  match s.duo.claimNext with
  | none => s
  | some (e, r, cause) =>
    let s := { s with duo.claimNext := none }
    let s := if (cause = 3 || cause = 4) && s.flag DUO_STATUS.SWAP_PEND then
        s.swapEnd.emit duoSrc 0x0E08 (s.getF DUO_SWAPDW.DWELL) 1 1 else s
    let s := if cause = 5 then { s with duo.joinAt := none } else s
    if s.claim = (e, r) then s else s.claimTo e r cause

/-- An unpaired chip that joins takes (journal epoch, 0xA) at the first dwell start of the join (R338). -/
def State.joinAlone (s : State) : State :=
  match s.duo.joinAt with
  | some _ =>
    if s.paired || s.iron || s.flag DUO_STATUS.WITHDRAWN then s
    else ({ s with duo.joinAt := none } : State).setClaim s.ctl.jepoch (liveRank true 0) 5
  | none => s

/-- Begin a join: the claim is null until it ends (R338). -/
def State.join (s : State) : State :=
  ({ s with duo.joinAt := some s.houseDwell, duo.claimNext := none } : State).startTimer .join

/-- Send a PAIR packet on FAB_PAIR_PORT (R331). -/
def State.sendPair (s : State) (op : Nat) (args pay : Nat) : State :=
  let im := s.newest
  let p := im.val Scr.FAB_PAIR_PORT
  if s.fabUp p then
    let q := s.nextFabSeq im.partner 7
    let s := { s with fab.fabSeq := Tbl.set s.fab.fabSeq 0 (im.partner * 16 + 7) ((q + 1) % 256) }
    s.enqueue p 0 0 (fabHeader 7 op 1 im.partner s.chip 1 args ||| BitVec.ofNat 256 (2 ^ 72 * q)) (leBytes 32 pay)
  else s

/-! ## Retirements (R339, R341) -/

/-- Bits set in a map of 33 engine rows or columns. -/
def retired (m : Nat) : Nat := ((List.range 33).filter (fun i => m.testBit i)).length

/-- The stage's capabilities (R25, R339). -/
def State.engineCaps (s : State) : State :=
  let rows := s.getF DUO_SPARE.ROWS
  let cols := s.getF DUO_SPARE.COLS
  s.setCaps 0x100 ([(CTL_CAP0.STG_HEIGHT, 32 * min rows 32), (CTL_CAP0.STG_WIDTH, 32 * min (min rows cols) 32)] ++
    (if rows < 33 then [(CTL_CAP0.ENG_SPARE_ROW, 0)] else []) ++ (if cols < 33 then [(CTL_CAP0.ENG_SPARE_COL, 0)] else []))

/-- The spares that can take over: those the part was made with, less those in use and those that are faulty (R341). -/
def State.spares (s : State) : List Nat :=
  (List.range (min 4 CTL_CAP1.PIT_SPARES.rst)).filter (fun k =>
    bitsOf (s.getF DUO_SPARE.PIT_MAP) (7 * k) 7 == 127 && !s.duo.badClu.testBit (128 + k))

/-- The first spare that can take over (R341). -/
def State.freeSpare (s : State) : Option Nat :=
  s.spares.head?

/-- A logical cluster is retired: its physical cluster is faulty and no spare stands for it (R341). -/
def State.cluRetired (s : State) (c : Nat) : Bool := s.duo.badClu.testBit (s.physOf c) && !(s.cluster c).faulty

/-- The pit's capabilities (R25, R341): the clusters in service, and the spares that remain. -/
def State.pitCaps (s : State) : State :=
  s.setCaps 0x108 [(CTL_CAP1.PIT_CLUSTERS, 128 - ((List.range 128).filter (fun c => s.cluRetired c)).length),
    (CTL_CAP1.PIT_SPARES, s.spares.length)]

/-- A retired engine row or column takes effect between two replays: the capabilities change, SPARE is pulsed and event 0x0E06
written (R339). Other retirements of the list take their effect on the capabilities. -/
def State.applyRetire (s : State) (w : JWrite) : State :=
  let gone := b2n (decide (s.getF DUO_SPARE.ROWS < 33) && decide (s.getF DUO_SPARE.COLS < 33))
  let engine (s : State) (i col : Nat) : State :=
    let s := s.emit duoSrc 0x0E06 (2 * i + 512 * col) gone 2
    s.engineCaps.pulse 118
  match w with
  | .row i => engine s i 0
  | .col i => engine s i 1
  | .fence _ => s.fenceCap
  | .cluster _ => s.pitCaps
  | _ => s

/-- A retirement waits for the end of a replay, or for the end of the iron (R322, R339). -/
def State.retire (s : State) (w : JWrite) : State :=
  if s.seq.replay.isSome || s.iron then { s with duo.retireNext := s.duo.retireNext ++ [w] } else s.applyRetire w

/-- Retirements that wait take effect. -/
def State.retireAll (s : State) : State :=
  let ws := s.duo.retireNext
  ({ s with duo.retireNext := [] } : State).each ws State.applyRetire

/-- Retire an engine row. -/
def State.retireRow (s : State) (i : Nat) : State :=
  let s := s.putBit DUO_ROWMAP.MAP i true
  let s := if s.getF DUO_SPARE.ROW_RET = 63 then s.setF DUO_SPARE.ROW_RET i else s
  let s := (s.setF DUO_SPARE.ROWS (33 - retired (s.getF DUO_ROWMAP.MAP))).journal (.row i)
  s.retire (.row i)

/-- Retire an engine column. -/
def State.retireCol (s : State) (i : Nat) : State :=
  let s := s.putBit DUO_COLMAP.MAP i true
  let s := if s.getF DUO_SPARE.COL_RET = 63 then s.setF DUO_SPARE.COL_RET i else s
  let s := (s.setF DUO_SPARE.COLS (33 - retired (s.getF DUO_COLMAP.MAP))).journal (.col i)
  s.retire (.col i)

/-- What the device does about a faulty engine (R339). -/
def State.engineBad (s : State) (row col : Nat) : State :=
  if s.bit DUO_ROWMAP.MAP row || s.bit DUO_COLMAP.MAP col then s
  else if s.getF DUO_SPARE.ROW_RET = 63 then s.retireRow row
  else if s.getF DUO_SPARE.COL_RET = 63 then s.retireCol col
  else
    let s := if s.getF DUO_SPARE.COLS ≤ s.getF DUO_SPARE.ROWS then s.retireRow row else s.retireCol col
    s.setReplace 0

/-- The registers of a cluster that has never run: those of a spare. Memories, queues and page state move with the number. -/
def Cluster.onSpare (x : Cluster) (mref : Nat) : Cluster :=
  { x with d := [], a := [], p := [], b := [], l := [], cmp := [], sticky := [], ill := false, k := [], n := [], bw := 0,
           next := 0, redirects := [], savedPc := 0, rtiLeft := none, ecx := 0, hist := [], flights := [], mref := mref,
           faulty := false }

/-- A spare copies the memories of a faulty cluster: words that fail parity are 0 and reason SPARE_COPY is raised for the dwell it
starts in (R341). Which words fail is a free value; the source is the spare (DESIGN CHOICE, log 36). -/
def State.copyMemories (s : State) (c mref : Nat) : State :=
  let n := s.freeCount
  let s := s.drew
  if !Config.copyFails n then s else
  let x := s.cluster c
  let s := s.setCluster c { x with
    cm := x.cm.filter (fun e => !Config.coefBad n e.1), lm := x.lm.filter (fun e => !Config.localBad n e.1) }
  s.raiseFor (s.pitSubs c) (s.pitSrc c) 0x0013 3 false (ofSigned 31 (s.dwellOf mref))

/-- A spare takes over a faulty cluster, or the cluster is retired (R341). `mref` is the first SIX of the dwell it starts in. -/
def State.takeOver (s : State) (c mref : Nat) : State :=
  let phys := s.physOf c
  let old := s.spareOf c
  let s := match old with
    | some k => s.setF DUO_SPARE.PIT_MAP (putBits (s.getF DUO_SPARE.PIT_MAP) (7 * k) 7 127)
    | none => s
  match s.freeSpare with
  | some k =>
    let s := s.setF DUO_SPARE.PIT_MAP (putBits (s.getF DUO_SPARE.PIT_MAP) (7 * k) 7 c)
    let s := if (s.cluster c).faulty then s.copyMemories c mref else s
    let s := (s.setCluster c ((s.cluster c).onSpare mref)).setF (PIT_C_STATUS.HANDLER c) 0
    ((s.emit duoSrc 0x0E06 (1 + 2 * phys) (b2n s.freeSpare.isNone) 2).pulse 118).retire (.cluster phys)
  | none =>
    let s := (s.setCluster c { s.cluster c with faulty := false }).setF (PIT_C_STATUS.RUN c) 0
    let s := match old with
      | some k => s.setF DUO_SPARE.PIT_MAP (putBits (s.getF DUO_SPARE.PIT_MAP) (7 * k) 7 c)
      | none => s
    let s := s.emit duoSrc 0x0E06 (1 + 2 * phys) 1 2
    (s.retire (.cluster phys)).setReplace 1

/-- A physical cluster is faulty: the spare takes over at the next swap point of the logical cluster, or at once when that does
not run (R341). -/
def State.clusterBad (s : State) (phys : Nat) : State :=
  if s.duo.badClu.testBit phys then s else
  let s := ({ s with duo.badClu := s.duo.badClu ||| 2 ^ phys } : State).journal (.cluster phys)
  match s.logicalOf phys with
  | none => s.retire (.cluster phys)
  | some c =>
    let s := s.setCluster c { s.cluster c with faulty := true }
    if s.flag (PIT_C_STATUS.RUN c) then s else s.takeOver c (s.cluster c).mref

/-- Withdraw (R344): the claim becomes null. -/
def State.withdraw (s : State) : State :=
  let s := s.setF DUO_STATUS.WITHDRAWN 1
  ({ s with duo.joinAt := none, duo.claimNext := none } : State).setClaim 0 0 6

end Sys2Proof.Machine
end

