-- ==== Sys2Proof/Machine/CueOps.lean ====
section
/-!
DEFINITION. The cue matrix (R295 to R305): filters, cells, task inputs and channels, with the compare units and the blanking
intervals that task inputs drive (R105, R122).
-/

namespace Sys2Proof.Machine

/-- Event source of the time unit (R309). -/
def timSrc : Nat := 0x002

/-! ## Compare units (R105, R106), which cues may arm -/

/-- The target of a unit in TAI mode, in 2^-16 ns. -/
def State.cmpTai (s : State) (u : Nat) : Nat :=
  (s.getF (TIM_CMP_TARGET_HI.TARGET_HI u) % 2 ^ 48) * (1000000000 * 65536) + s.getF (TIM_CMP_TARGET_LO.TARGET_LO u)

/-- current − target of a unit. A TAI target more than 2^46 s ahead counts as past. -/
def State.cmpDiff (s : State) (u : Nat) : Int :=
  if s.flag (TIM_CMP_CTRL.MODE u) then (s.taiNow : Int) - s.cmpTai u
  else sixDiff s.houseSix (s.getF (TIM_CMP_TARGET_HI.TARGET_HI u))

/-- The target of a unit is past. -/
def State.cmpPast (s : State) (u : Nat) : Bool :=
  decide (0 ≤ s.cmpDiff u) ||
    (s.flag (TIM_CMP_CTRL.MODE u) && decide (s.cmpDiff u < -(2 ^ 46 * 1000000000 * 65536 : Int)))

/-- A unit that evaluates: armed, and in SIX mode while EPOCH = 1 (R94). -/
def State.cmpLive (s : State) (u : Nat) : Bool := s.flag (TIM_CMP_CTRL.ARM u) && (s.flag (TIM_CMP_CTRL.MODE u) || s.epoch)

/-- Note a unit whose target is already past: it fires late (R106). -/
def State.cmpNote (s : State) (u : Nat) : State :=
  if s.cmpLive u && s.cmpPast u then { s with tim.cmpLate := s.tim.cmpLate ||| BitVec.ofNat 8 (2 ^ u) } else s

/-- Every unit. -/
def State.cmpNoteAll (s : State) : State := s.each (List.range 8) State.cmpNote

/-- Arm a unit (R106). -/
def State.cmpArm (s : State) (u : Nat) : State := (s.setF (TIM_CMP_CTRL.ARM u) 1).cmpNote u

/-- Event source of the cue matrix (R309). -/
def cueSrc : Nat := 0x00C

/-- House SIX at an earlier or the present house cycle. -/
def State.sixAt (s : State) (cyc : Nat) : Nat :=
  if s.epoch then
    ofSigned 64 (fdiv ((s.clk.six : Int) * s.num + s.clk.acc - 4 * s.den * ((s.clk.cycles : Int) - cyc)) s.num)
  else 0

/-- The TAI clock at an earlier or the present house cycle, in 2^-16 ns. -/
def State.taiAt (s : State) (cyc : Nat) : Nat :=
  (fdiv ((s.clk.tai : Int) - ((s.clk.cycles : Int) - cyc) * (262144 * (10 ^ 15 + s.clk.freq + s.clk.slew))) (10 ^ 15)).toNat

/-! ## Blanking (R122) -/

/-- A blanking interval applies to a SIX and a subarray. -/
def State.blanked (s : State) (six sub : Nat) : Bool :=
  s.ing.blanks.any (fun b => b.subs.testBit sub && decide (b.start ≤ toSigned 64 six) &&
    (match b.stop with | some e => decide (toSigned 64 six ≤ e) | none => true))

/-- A vector whose samples are blanked. -/
def State.vectBlanked (s : State) (v : Vect) : Bool := v.sub.any (s.blanked v.six)

/-- A vector that the program has sent is blanked with the last vector of its input that went into it. -/
def State.outBlanked (s : State) (v : OutVect) : Bool := v.sub.any (s.blanked ((v.six + 2 ^ v.fine - 1) % 2 ^ 64))

/-- A vector with its samples zero and invalid if they are blanked (R121). -/
def State.blankVect (s : State) (v : Vect) : Vect :=
  if s.vectBlanked v then { v with valid := 0, samples := List.replicate 64 0 } else v
def State.blankOut (s : State) (v : OutVect) : OutVect :=
  if s.outBlanked v then { v with valid := 0, data := List.replicate 64 0 } else v

/-- The lanes of a dwell-ring line that a vector has written become invalid (R188). -/
def State.blankLine (s : State) (a : Nat) (v : OutVect) (code : Byte) : State :=
  if s.lineSet a then s.agentWrite 0 a (List.replicate 64 code) v.pres.toNat else s

/-- A vector written to the dwell ring is blanked: its samples become the invalid code (R122, R188). -/
def State.blankWritten (s : State) (v : OutVect) : State :=
  let n := s.dwellOf v.six
  let im := s.governing n
  let x := s.specIndex v.six >>> v.fine
  match s.pageOf n v.ch (64 * v.group / im.wb) (x / im.pageSpectra) with
  | none => s
  | some p =>
    let wide := im.bc = 2
    let s := s.blankLine (im.lineAddr p x v.group false) v (if wide then 0 else 0x88)
    if wide then s.blankLine (im.lineAddr p x v.group true) v 0x88 else s

/-- A cluster's vectors and outputs after an interval has opened. -/
def State.blankCluster (s : State) (x : Cluster) : Cluster :=
  { x with inQ := x.inQ.map s.blankVect, hist := x.hist.map s.blankVect, outQ := x.outQ.map s.blankOut }

/-- A blanked sample is invalid although its packet came before the cue (R122): in the ports' queues, in the clusters and in the
dwell ring. What has left the block, or is in another form, is not called back (DESIGN CHOICE, log 26). -/
def State.blankHeld (s : State) : State :=
  let port (x : Port) : Port := { x with queue := x.queue.map (fun l => l.map (fun q => (q.1, s.blankVect q.2))) }
  let hit := s.seq.written.filter s.outBlanked
  let t := { s with
    ing.port := s.ing.port.map (fun (e : Nat × Option Port) => (e.1, e.2.map port)),
    clu := s.clu.map (fun (e : Nat × Option Cluster) => (e.1, e.2.map s.blankCluster)),
    seq.written := s.seq.written.filter (fun v => !s.outBlanked v) }
  t.each hit State.blankWritten

/-- Blanking intervals have merged: event 0x0305. Which port writes it is not stated: a free value. -/
def State.blankMerged (s : State) (m : Blank) (k : Nat) : State :=
  let p := s.free % 24
  s.drew.emitFor (s.ingSubs p) (0x020 + p) 0x0305 (ofSigned 64 m.start) k 1

/-- An assertion of BLANKk: a new interval, or a merge with a held one when 16 are held. -/
def State.blankAdd (s : State) (k : Nat) (six : Nat) : State :=
  let a : Int := toSigned 64 six - (s.sv Scr.ING_BLANK_LEAD : Int)
  let new : Blank := ⟨a, none, [k], [k], s.se Scr.ING_BLANK_SUB k⟩
  let held := s.ing.blanks
  if held.length < 16 then { s with ing.blanks := held ++ [new] } else
  let own := (held.zipIdx.filter (fun q => q.1.inputs.contains k)).getLast?
  let late := held.zipIdx.foldl (fun best q =>
    match best with | none => some q | some b => if b.1.start < q.1.start then some q else some b) none
  match own.orElse (fun _ => late) with
  | none => s
  | some (b, i) =>
    let m : Blank := ⟨min b.start a, none, b.live ++ [k], if b.inputs.contains k then b.inputs else b.inputs ++ [k],
      b.subs ||| s.se Scr.ING_BLANK_SUB k⟩
    ({ s with ing.blanks := held.set i m } : State).blankMerged m k

/-- An assertion of BLANKk also reaches the samples that the block holds. -/
def State.blankStart (s : State) (k : Nat) (six : Nat) : State := (s.blankAdd k six).blankHeld

/-- A deassertion of BLANKk ends the latest interval in which it is asserted, once no other input of it is. -/
def State.blankStop (s : State) (k : Nat) (six : Nat) : State :=
  let e : Int := toSigned 64 six + (s.sv Scr.ING_BLANK_TRAIL : Int)
  match (s.ing.blanks.zipIdx.filter (fun q => q.1.live.contains k)).getLast? with
  | none => s
  | some (b, i) =>
    let live := b.live.erase k
    { s with ing.blanks := s.ing.blanks.set i { b with live := live, stop := if live.isEmpty then some e else none } }

/-! ## Task inputs (R298, R299) -/

/-- A task input combines levels. -/
def taskIsLevel (i : Nat) : Bool := decide (i < 16) || i == 74

/-- The level of a channel at its consumers: a disabled channel drives 0 (R304). -/
def State.chOut (s : State) (c : Nat) : Bool := s.cue.chLevel.toNat.testBit c && !s.bit CUE_CHDIS.MAP c

/-- The OR of the channels enabled on a task input. -/
def State.taskOr (s : State) (i : Nat) : Bool :=
  (List.range 64).any (fun c => (s.se Scr.CUE_DST c).testBit i && s.chOut c)

/-- A level task input takes a level. -/
def State.taskTake (s : State) (i stamp : Nat) : State :=
  let lev := s.taskOr i
  if Tbl.get s.cue.taskLevel false i = lev then s else
  let s := { s with cue.taskLevel := Tbl.set s.cue.taskLevel false i lev }
  if 8 ≤ i && i < 16 then (if lev then s.blankStart (i - 8) (s.sixAt stamp) else s.blankStop (i - 8) (s.sixAt stamp))
  else if i = 74 && lev then s.condDwell s.houseDwell fDegraded
  else s

/-- The level of pin CUE_OUT[k] (R298). -/
def State.cueOutPin (s : State) (k : Nat) : Bool :=
  xor (Tbl.get s.cue.taskLevel false k) ((s.sv Scr.CUE_OUT_POL).testBit k)

/-- Clusters a PITQ input reaches (R148). -/
def State.cueClusters (s : State) (q : Nat) : List Nat :=
  (List.range 128).filter (fun c => (s.se Scr.PIT_CUE_MAP q).testBit c)

/-- A trigger input is busy (R298). -/
def State.taskBusy (s : State) (i : Nat) : Bool :=
  if 16 ≤ i && i < 24 then (s.cueClusters (i - 16)).any (fun c => (s.cluster c).pitq.getLsbD (i - 16))
  else if 40 ≤ i && i < 56 then s.flag (CUE_SNAP_TAI.FULL (i - 40))
  else if 64 ≤ i && i < 72 then s.flag (TIM_CMP_CTRL.ARM (i - 64))
  else if i = 73 then s.flag DUO_STATUS.SWAP_PEND
  else false

/-- Capture a snapshot (R298). -/
def State.cueSnap (s : State) (k stamp : Nat) : State :=
  let t := s.taiAt stamp
  let s := (s.setF (CUE_SNAP_SIX.SIX k) (s.sixAt stamp)).setF (CUE_SNAP_TAI.TAI k) (t % (1000000000 * 65536))
  (s.setF (CUE_SNAP_TAI.SEC k) (t / (1000000000 * 65536))).setF (CUE_SNAP_TAI.FULL k) 1

/-- A trigger input acts on a rise of channel `c` (R298). -/
def State.taskAct (s : State) (i c stamp : Nat) : State :=
  if 16 ≤ i && i < 24 then
    s.each (s.cueClusters (i - 16)) (fun s k =>
      let x := s.cluster k
      s.setCluster k { x with pitq := x.pitq ||| BitVec.ofNat 8 (2 ^ (i - 16)),
                              cueSix := Tbl.set x.cueSix 0 (i - 16) (s.sixAt stamp % 65536) })
  else if 40 ≤ i && i < 56 then s.cueSnap (i - 40) stamp
  else if 56 ≤ i && i < 64 then s.emit cueSrc (0x0C10 + (i - 56)) (s.sixAt stamp) c 0
  else if 64 ≤ i && i < 72 then s.cmpArm (i - 64)
  else if i = 72 then s.raise cueSrc 0x0009 4 false
  else if i = 73 then s.proposeEarliest
  else if i = 75 then
    s.each (List.range 16) (fun s k => if s.flag (CUE_SNAP_TAI.FULL k) then s else s.cueSnap k stamp)
  else s

/-- Bit of a task input in the CUE_OVR or CUE_COINC registers. -/
def State.ovrBit (s : State) (i : Nat) : State :=
  if i < 64 then s.putBit CUE_OVR0.MAP i true else s.putBit CUE_OVR1.MAP (i - 64) true
def State.coincBit (s : State) (i : Nat) : State :=
  if i < 64 then s.putBit CUE_COINC0.MAP i true else s.putBit CUE_COINC1.MAP (i - 64) true

/-- An overrun of a task input (R299): the event at most once per input and dwell. -/
def State.taskOvr (s : State) (i stamp : Nat) : State :=
  let s := (s.ovrBit i).pulse 113
  if s.cue.ovrSeen.contains (i, s.houseDwell) then s
  else ({ s with cue.ovrSeen := s.cue.ovrSeen ++ [(i, s.houseDwell)] } : State).emit cueSrc 0x0C05 (s.sixAt stamp) i 0

/-- A rise of channel `c` reaches trigger input `i` in house cycle `cyc` (R299). -/
def State.taskRise (s : State) (i c cyc stamp : Nat) : State :=
  match Tbl.get s.cue.rises none i with
  | some (t, busy) =>
    if t = cyc then
      let s := s.coincBit i
      if busy then s.taskOvr i stamp else s
    else
      let b := s.taskBusy i
      let s := { s with cue.rises := Tbl.set s.cue.rises none i (some (cyc, b)) }
      if b then s.taskOvr i stamp else s.taskAct i c stamp
  | none =>
    let b := s.taskBusy i
    let s := { s with cue.rises := Tbl.set s.cue.rises none i (some (cyc, b)) }
    if b then s.taskOvr i stamp else s.taskAct i c stamp

/-- A channel's edge reaches the task inputs enabled on it. -/
def State.cueTasks (s : State) (c : Nat) (lev : Bool) (cyc stamp : Nat) : State :=
  let m := s.se Scr.CUE_DST c
  s.each ((List.range 76).filter (fun i => m.testBit i)) (fun s i =>
    if taskIsLevel i then s.taskTake i stamp
    else if !lev then s
    else if 24 ≤ i && i < 40 then s.addF (CUE_CNT.COUNT (i - 24)) 1
    else s.taskRise i c cyc stamp)

/-! ## Filters (R301) -/

/-- A filter and its parameters. -/
def State.filt (s : State) (f : Nat) : Filt := (Tbl.get s.cue.filt none f).getD Filt.fresh
def State.setFilt (s : State) (f : Nat) (x : Filt) : State := { s with cue.filt := Tbl.set s.cue.filt none f (some x) }
def State.fMinw (s : State) (f : Nat) : Nat := bitsOf (s.se Scr.CUE_FILT f) 0 8
def State.fRate (s : State) (f : Nat) : Nat := bitsOf (s.se Scr.CUE_FILT f) 8 20
def State.fStuck (s : State) (f : Nat) : Nat := bitsOf (s.se Scr.CUE_FILT f) 28 16
def State.fDis (s : State) (f : Nat) : Nat := bitsOf (s.se Scr.CUE_FILT f) 44 4
def State.fPol (s : State) (f : Nat) : Bool := decide (f < 8) && bitOf (s.se Scr.CUE_FILT f) 48

/-- The level a filter sees: a pin's after POL. -/
def State.filtIn (s : State) (f : Nat) : Bool := xor (s.filt f).level (s.fPol f)

/-- The producer a filter drives (R297). -/
def filtProducer (f : Nat) : Nat := if f < 8 then f else f + 8

/-- The output of a filter changes in house cycle `cyc`. -/
def State.filtDrive (s : State) (f : Nat) (lev : Bool) (cyc stamp : Nat) (mask : BitVec 64) (origin : Nat) : State :=
  let x := s.filt f
  if x.out = lev then s
  else (s.setFilt f { x with out := lev, outSince := cyc }).driveEdge (filtProducer f) lev cyc stamp mask origin

/-- A detection of a filter: STUCK (`code` 0x0C02) or CHATTER (0x0C03). At DIS detections the filter is disabled. The event's 4-bit
count stops at 15 (DESIGN CHOICE, log 35). -/
def State.filtDetect (s : State) (f code : Nat) : State :=
  let x := s.filt f
  let s := s.setFilt f { x with count := x.count + 1 }
  let s := (if code = 0x0C02 then s.putBit CUE_STUCK.MAP f true else s.putBit CUE_CHATTER.MAP f true)
  let s := (s.pulse (if code = 0x0C02 then 115 else 116)).emit cueSrc code s.houseSix (f + 256 * min 15 (x.count + 1)) 1
  if s.fDis f != 0 && s.fDis f ≤ x.count + 1 && !s.bit CUE_FDIS.MAP f then
    let s := (s.putBit CUE_FDIS.MAP f true).emit cueSrc 0x0C04 s.houseSix f 2
    s.filtDrive f false s.clk.cycles s.clk.cycles 0 s.clk.cycles
  else s

/-- A level that has held MINW cycles passes, or is held back by RATE. -/
def State.filtPass (s : State) (f cyc : Nat) : State :=
  let x := s.filt f
  let lev := s.filtIn f
  if s.bit CUE_FDIS.MAP f then s
  else if !lev then (s.setFilt f { x with stuck := false, held := false }).filtDrive f false cyc x.stamp x.mask x.origin
  else if x.stuck || x.out then s
  else
    let soon := match x.lastRise with | some r => decide (cyc < r + s.fRate f) | none => false
    if soon then
      let n := x.heldBack + 1
      let s := s.setFilt f { x with held := true, heldBack := n % 16 }
      if n = 16 then s.filtDetect f 0x0C03 else s
    else (s.setFilt f { x with lastRise := some cyc }).filtDrive f true cyc x.stamp x.mask x.origin

/-- The input of a filter takes a level. -/
def State.filtInput (s : State) (f : Nat) (lev : Bool) (cyc stamp : Nat) (mask : BitVec 64) (origin : Nat) : State :=
  let x := s.filt f
  if x.level = lev then s else
  let s := s.setFilt f { x with level := lev, since := cyc, stamp := stamp, mask := mask, origin := origin }
  if s.fMinw f = 0 then s.filtPass f cyc else s

/-- A filter whose element changed restarts with the new level passed at once; its count clears (R301, R305). -/
def State.filtRestart (s : State) (f : Nat) : State :=
  let t := s.clk.cycles
  let x := s.filt f
  let s := s.putBit CUE_FDIS.MAP f false
  let s := s.setFilt f { x with lastRise := none, held := false, heldBack := 0, count := 0, stuck := false }
  s.filtDrive f (s.filtIn f) t t 0 t

/-! ## Cells (R300) -/

/-- Fields of a cell's element. -/
def State.cellLut (s : State) (k : Nat) : Nat := bitsOf (s.se Scr.CUE_CELL k) 0 16
def State.cellIn (s : State) (k j : Nat) : Nat := bitsOf (s.se Scr.CUE_CELL k) (16 + 7 * j) 7
def State.cellMode (s : State) (k : Nat) : Nat := bitsOf (s.se Scr.CUE_CELL k) 44 2

/-- The level a channel has at its consumers once every edge due by house cycle `cyc` has arrived. -/
def State.levelAt (s : State) (c cyc : Nat) : Bool :=
  if s.bit CUE_CHDIS.MAP c then false
  else match (s.cue.edges.filter (fun e => e.ch == c && decide (e.due ≤ cyc))).getLast? with
    | some e => e.level
    | none => s.cue.chLevel.toNat.testBit c

/-- The LUT output of a cell in a house cycle. -/
def State.cellOut (s : State) (k cyc : Nat) : Bool :=
  let bit (j : Nat) : Nat := if s.cellIn k j = 0x7F then 0 else b2n (s.levelAt (s.cellIn k j) cyc)
  (s.cellLut k).testBit (bit 3 * 8 + bit 2 * 4 + bit 1 * 2 + bit 0)

/-- A cell is combinational. -/
def State.cellComb (s : State) (k : Nat) : Bool :=
  s.cellMode k = 0 && s.fMinw (8 + k) = 0 && s.fRate (8 + k) = 0 && s.fStuck (8 + k) = 0

/-- Set bit `i` of a 32-bit map. -/
def put32 (m : BitVec 32) (i : Nat) (b : Bool) : BitVec 32 :=
  if b then m ||| BitVec.ofNat 32 (2 ^ i) else m &&& ~~~(BitVec.ofNat 32 (2 ^ i))

/-- What a cell's output edge carries (R296): the earliest stamp and origin and all the masks of the input edges of house cycle
`cyc`. -/
def State.cellCause (s : State) (k cyc stamp : Nat) (mask : BitVec 64) (origin : Nat) : Nat × BitVec 64 × Nat :=
  match Tbl.get s.cue.cellEdges none k with
  | some (t, st, m, o) => if t = cyc then (min st stamp, m ||| mask, min o origin) else (stamp, mask, origin)
  | none => (stamp, mask, origin)

/-- A cell follows its inputs in house cycle `cyc`. -/
def State.cellEval (s : State) (k cyc stamp : Nat) (mask : BitVec 64) (origin : Nat) : State :=
  let (stamp, mask, origin) := s.cellCause k cyc stamp mask origin
  let s := { s with cue.cellEdges := Tbl.set s.cue.cellEdges none k (some (cyc, stamp, mask, origin)) }
  let out := s.cellOut k cyc
  let was := s.cue.lut.getLsbD k
  let ff := if s.cellMode k = 1 then out else if s.cellMode k = 2 && out && !was then !s.cue.ff.getLsbD k else s.cue.ff.getLsbD k
  let s := { s with cue.lut := put32 s.cue.lut k out, cue.ff := put32 s.cue.ff k ff }
  s.filtInput (8 + k) (if s.cellMode k = 0 then out else ff) (if s.cellComb k then cyc else cyc + 1) stamp mask origin

/-! ## Channels (R304) -/

/-- A channel's history. -/
def State.chan (s : State) (c : Nat) : Chan := (Tbl.get s.cue.chan none c).getD Chan.fresh
def State.setChan (s : State) (c : Nat) (x : Chan) : State := { s with cue.chan := Tbl.set s.cue.chan none c (some x) }

/-- A change of a channel at its consumers reaches cells and task inputs. -/
def State.cueDeliver (s : State) (c : Nat) (lev : Bool) (cyc stamp : Nat) : State :=
  let h := s.chan c
  let s := s.each ((List.range 32).filter (fun k => (List.range 4).any (fun j => s.cellIn k j == c))) (fun s k =>
    s.cellEval k cyc stamp h.mask h.origin)
  s.cueTasks c lev cyc stamp

/-- The history of a channel after an edge that arrives in house cycle `t` (R304). -/
def Chan.after (h : Chan) (c t : Nat) (e : Edge) : Chan :=
  let me := BitVec.ofNat 64 (2 ^ c)
  if e.origin + 16 < t then ⟨me, t, h.returns⟩
  else if e.mask.getLsbD c then ⟨me, t, h.returns + 1⟩
  else ⟨e.mask ||| me, e.origin, 0⟩

/-- Channel `c` is disabled by its fourth return. -/
def State.loopDisable (s : State) (c cyc stamp : Nat) : State :=
  let was := s.cue.chLevel.toNat.testBit c
  let s := (s.putBit CUE_CHDIS.MAP c true).putBit CUE_LOOP.MAP c true
  let s := (s.pulse 114).emit cueSrc 0x0C01 s.houseSix c 1
  if was then s.cueDeliver c false cyc stamp else s

/-- Set a channel's level. -/
def State.putLevel (s : State) (c : Nat) (lev : Bool) : State :=
  let m := BitVec.ofNat 64 (2 ^ c)
  { s with cue.chLevel := if lev then s.cue.chLevel ||| m else s.cue.chLevel &&& ~~~m }

/-- An edge reaches its channel (R304). -/
def State.edgeArrives (s : State) (e : Edge) : State :=
  let s := s.runCycles (e.due - s.clk.cycles)
  let c := e.ch
  if s.cue.chLevel.toNat.testBit c = e.level then s
  else if s.bit CUE_CHDIS.MAP c then s.putLevel c e.level
  else
    let h := (s.chan c).after c e.due e
    let s := s.setChan c h
    if 4 ≤ h.returns then (s.loopDisable c e.due e.stamp).putLevel c e.level
    else (s.putLevel c e.level).cueDeliver c e.level e.due e.stamp

/-- Re-enable a channel: its return count clears. -/
def State.chanEnable (s : State) (c : Nat) : State :=
  let s := (s.putBit CUE_CHDIS.MAP c false).setChan c { s.chan c with returns := 0 }
  if s.cue.chLevel.toNat.testBit c then s.cueDeliver c true s.clk.cycles s.clk.cycles else s

/-- A new image's wiring applies at the present house cycle (R305). -/
def State.cueRewire (s : State) (old new : Image) : State :=
  let t := s.clk.cycles
  let s := s.each ((List.range 40).filter (fun f => old.el Scr.CUE_FILT f != new.el Scr.CUE_FILT f)) State.filtRestart
  let s := s.each ((List.range 64).filter (fun c =>
    s.bit CUE_CHDIS.MAP c && (old.el Scr.CUE_SRC c != new.el Scr.CUE_SRC c || old.el Scr.CUE_DST c != new.el Scr.CUE_DST c)))
    State.chanEnable
  let s := s.each ((List.range 32).filter (fun k => old.el Scr.CUE_CELL k != new.el Scr.CUE_CELL k)) (fun s k =>
    s.cellEval k t t 0 t)
  let s := s.each ((List.range 64).filter (fun c => old.el Scr.CUE_SRC c != new.el Scr.CUE_SRC c)) (fun s c =>
    s.pushEdge c (s.levelOf c) t t 0 t)
  s.each ((List.range 76).filter taskIsLevel) (fun s i => s.taskTake i t)

end Sys2Proof.Machine
end

