-- ==== Sys2Proof/Machine/LaneOps.lean ====
section
/-!
DEFINITION. Lanes and states of the ingest and fabric ports (R109 to R118, R123 to R126, R276). Ports 24 to 31 are the fabric
ports.
-/

namespace Sys2Proof.Machine

/-! ## A port's fields -/

def portStateF (p : Nat) : Fld := if p < 24 then ING_P_STATUS.STATE p else FAB_P_STATUS.STATE (p - 24)
def portLockF (p : Nat) : Fld := if p < 24 then ING_P_STATUS.LOCK p else FAB_P_STATUS.LOCK (p - 24)
def portLmapF (p : Nat) : Fld := if p < 24 then ING_P_STATUS.LMAP p else FAB_P_STATUS.LMAP (p - 24)
def portDropF (p : Nat) : Fld := if p < 24 then ING_P_STATUS.DROP_REQ p else FAB_P_STATUS.DROP_REQ (p - 24)

def portLdEnF (p : Nat) : Fld := if p < 24 then ING_P_CTRL.LD_EN p else FAB_P_CTRL.LD_EN (p - 24)

/-- A lane's own state, and its change. -/
def State.lane (s : State) (p l : Nat) : Lane := (Tbl.get s.ing.lane none (4 * p + l)).getD Lane.fresh
def State.setLane (s : State) (p l : Nat) (x : Lane) : State :=
  { s with ing.lane := Tbl.set s.ing.lane none (4 * p + l) (some x) }


/-! ## States (R117) -/

/-- A port is in UP or DEGRADED. -/
def carries (st : Nat) : Bool := st = 2 || st = 3

/-- What leaving and entering UP or DEGRADED does to a fabric port (R279). -/
def State.fabPortMoves (s : State) (f old new : Nat) : State :=
  let s := if carries old && !carries new then
      (s.each (s.fab.txq.filter (fun e => e.1 == f)) (fun s e =>
        let s := { s with fab.txq := s.fab.txq.erase e }
        if e.2.1 < 8 then s else s.release (e.2.1 / 8 - 1) e.2.2.1)).egqLevel f
    else s
  if carries new && !carries old then
    (s.each (List.range 6) (fun s q => { s with fab.credit := Tbl.set s.fab.credit 0 (poolKey f q) (poolSize q) })).setF
      (FAB_P_STATUS.CRED_OK f) 0
  else s

/-- The event of a port's change of state (R128, R291). -/
def State.portEvent (s : State) (p old new : Nat) : State :=
  let d (k : Nat) : Nat := k + 2 ^ 8 * old + 2 ^ 12 * new
  let cls := if new = 3 || new = 4 then 2 else 0
  if p < 24 then s.emitFor (s.ingSubs p) (0x020 + p) 0x0302 (d p) s.houseSix cls
  else s.emit (fabSrc (p - 24)) 0x0A01 (d (p - 24)) s.houseSix cls

/-- A port enters a state. -/
def State.setPortState (s : State) (p new : Nat) : State :=
  let old := s.getF (portStateF p)
  if old = new then s else
  let s := ((s.setF (portStateF p) new).portEvent p old new).drive (59 + p) (new != 2)
  let s := if new = 2 then s.setPort p { s.port p with discSinceUp := 0, uncorrSinceUp := 0 } else s
  let s := if p < 24 && (new = 3 || new = 4) && s.epoch then s.condFor s.houseDwell fDegraded (s.se Scr.ING_PORT_SUB p) else s
  let s := if 24 ≤ p then s.fabPortMoves (p - 24) old new else s
  let s := if new = 3 then s.startTimer (.lane p) else s
  if old = 3 && s.bit DUO_REPLACE.BITS 3 && (List.range 32).all (fun q => s.getF (portStateF q) != 3) then s.clearLane else s

/-- EN and MODE act on the state: an enabled port that is OFF hunts, a disabled one is OFF. -/
def State.portRefresh (s : State) (p : Nat) : State :=
  if s.flag (portEnF p) then (if s.getF (portStateF p) = 0 then s.setPortState p 1 else s)
  else if s.getF (portStateF p) = 0 then s
  else
    let s := ((s.setF (portLockF p) 0).setF (portLmapF p) 0).setF (portDropF p) 0
    let s := { s with ing.lane := s.ing.lane.filter (fun e => decide (e.1 / 4 ≠ p)) }
    (s.setPortState p 0).hckLinks

/-- MODE of a port has changed: the port hunts anew. -/
def State.portModeChanged (s : State) (p : Nat) : State :=
  let s := ((s.setF (portLockF p) 0).setF (portLmapF p) 0).setF (portDropF p) 0
  let s := { s with ing.lane := s.ing.lane.filter (fun e => decide (e.1 / 4 ≠ p)) }
  (if s.getF (portStateF p) = 0 then s else s.setPortState p 1).hckLinks

/-! ## Lock (R116, R123, R124) -/

/-- Event 0x0301; fabric ports write none (R291). Causes: 0 comma, 1 FEC, 2 block lock, 3 reference. -/
def State.lockEvent (s : State) (p l : Nat) (locked : Bool) (cause : Nat) : State :=
  if p < 24 then
    s.emitFor (s.ingSubs p) (0x020 + p) 0x0301 (p + 2 ^ 5 * l + 2 ^ 7 * b2n locked) cause (if locked then 0 else 1)
  else s

/-- A lane gains lock. -/
def State.laneLocked (s : State) (p l cause : Nat) : State :=
  if s.bit (portLockF p) l then s
  else (((s.putBit (portLockF p) l true).lockEvent p l true cause).startTimer (.restore p l)).hckLinks

/-- The far end of a port supports lane drop. -/
def State.farDrops (s : State) (p : Nat) : Bool := (s.port p).ldCap

/-- A lane whose loss counts has lost lock (R123): lane drop is asked for, or the port goes DOWN. -/
def State.lmapLoss (s : State) (p l : Nat) : State :=
  let x := s.port p
  let s := s.setPort p { x with lossOpen := true, lossFirst := if x.lossOpen then x.lossFirst else none }
  let others := (List.range 4).all (fun k => k == l || s.bit (portLockF p) k)
  if s.getF (portStateF p) = 2 && s.farDrops p && s.flag (portLdEnF p) && others then
    (s.putBit (portDropF p) l true).startTimer (.drop p)
  else s.setPortState p 4

/-- A lane loses frame lock. A loss while the serdes-reference loop is unlocked has cause reference (R110). Without lane drop the loss
of any lane counts, also of one that LMAP does not name (R125). -/
def State.laneLost (s : State) (p l cause : Nat) : State :=
  if !s.bit (portLockF p) l then s else
  let s := s.putBit (portLockF p) l false
  let s := s.setLane p l Lane.fresh
  let s := s.lockEvent p l false (if s.flag HCK_STATUS.SER_LOCK then cause else 3)
  let s := if carries (s.getF (portStateF p)) && (s.bit (portLmapF p) l || !s.flag (portLdEnF p)) then s.lmapLoss p l else s
  s.hckLinks

/-- An LMAP whose lanes are aligned is followed (R115, R116, R124). A port without lane drop stays DOWN until all four lanes hold lock
(R125). A port newly aligned takes packets from the first unit that PKT_OFS names (R116). -/
def State.applyLmap (s : State) (p m : Nat) : State :=
  if s.getF (portStateF p) = 4 && !s.flag (portLdEnF p) && s.getF (portLockF p) != 15 then s else
  let old := s.getF (portLmapF p)
  let s := if carries (s.getF (portStateF p)) then s else s.setPort p { s.port p with seeking := true }
  let s := s.setF (portLmapF p) m
  let s := if p < 24 && old != 0 && old != m then s.emitFor (s.ingSubs p) (0x020 + p) 0x0303 p m 2 else s
  s.setPortState p (if m = 15 then 2 else 3)

/-- The lanes of an LMAP are aligned on a deskew count: their comma words came within 200 ns of one another, 50 house cycles. -/
def State.alignedOn (s : State) (p m dsk : Nat) : Bool :=
  m != 0 && (List.range 4).all (fun k => !m.testBit k ||
    (s.bit (portLockF p) k && (s.lane p k).dsk == dsk && (s.lane p k).lmap == m &&
      decide (s.clk.cycles ≤ (s.lane p k).commaAt + 50)))

/-! ## Comma words and codewords (R113, R114) -/

/-- CRC-8 of bits [55:32] of a comma word. -/
def commaCrc (w : Nat) : Nat := crcBytes 8 0x07 0 (leBytes 3 (bitsOf w 32 24))

/-- PATTERN and CCHK are correct. -/
def commaGood (w : Nat) : Bool := bitsOf w 0 32 == 0x4D2BE178 && bitsOf w 56 8 == commaCrc w

/-- The seed of the scrambler after a comma word (R113). -/
def scrSeed (lane dsk : Nat) : Nat := 0x7F000000 + lane * 256 + dsk

/-- One step of PRBS31: the next register and its output bit. The register's bit 30 is the oldest (DEDUCED, log 22). -/
def prbs31 (r : Nat) : Nat × Bool :=
  let b := xor (r.testBit 30) (r.testBit 27)
  ((2 * r) % 2 ^ 31 + b2n b, b)

/-- The register after `n` bits, and the key stream, the first bit lowest. -/
def keyStream (r n : Nat) : Nat × Nat :=
  (List.range n).foldl (fun (q : Nat × Nat) i =>
    let x := prbs31 q.1
    (x.1, if x.2 then q.2 + 2 ^ i else q.2)) (r, 0)

/-- The uncorrectable codeword that exceeds ING_FEC_LOSS ends lock (R116). -/
def State.fecBad (s : State) (p l : Nat) : State :=
  let s := if p < 24 then s.incF (ING_P_FEC.UNCORR p) 1 else s
  let s := (s.setPort p { s.port p with uncorrSinceUp := (s.port p).uncorrSinceUp + 1 }).startTimer (.restore p l)
  let x := s.lane p l
  let s := s.setLane p l { x with uncorr := x.uncorr + 1, scr := (keyStream x.scr 5140).1 }
  if s.sv Scr.ING_FEC_LOSS < x.uncorr + 1 then s.laneLost p l 1 else s

/-- RS symbols corrected on a lane. -/
def symErrF (p l : Nat) : Fld := if p < 24 then ING_P_L_SER.SYMERR p l else FAB_P_L_SER.SYMERR (p - 24) l

/-- The place of codeword `cw` of lane `l` in the port stream of a comma period: none for a lane that LMAP does not name, whose
codewords are idle (R115). -/
def streamPlace (lmap l cw : Nat) : Option Nat :=
  let ls := (List.range 4).filter (fun k => lmap.testBit k)
  (ls.findIdx? (fun k => k == l)).map (fun i => ls.length * cw + i)

/-- The port stream goes on with the comma period of a new deskew count. -/
def Port.period (x : Port) (dsk : Nat) : Port :=
  if x.dsk = dsk then x
  else { x with dsk := dsk, words := (x.words.filter (fun e => decide (4096 ≤ e.1))).map (fun e => (e.1 - 4096, e.2)) }

/-- A codeword's 640 bytes take their place in the port stream, whose lanes may be skewed; one in which a unit starts ends the
parser's search (R115, R116). -/
def State.joinStream (s : State) (p l cw ofs : Nat) (bytes : BitVec 5120) : State :=
  match streamPlace (s.getF (portLmapF p)) l cw with
  | none => s
  | some i =>
    let x := s.port p
    let j := if (s.lane p l).dsk = x.dsk then 4096 + i else i
    let before := x.words.takeWhile (fun e => decide (e.1 < j))
    let after := (x.words.drop before.length).filter (fun e => e.1 != j)
    s.setPort p { x with words := before ++ (j, bytes) :: after, seeking := x.seeking && ofs == 0x3FF }

/-- A codeword that decodes, with `k` symbols corrected: its message is descrambled. -/
def State.fecGood (s : State) (p l k : Nat) (msg : BitVec 5140) : State :=
  let s := if k = 0 then s else
    (if p < 24 then s.incF (ING_P_FEC.CORR p) 1 else s).incF (symErrF p l) k
  let x := s.lane p l
  let q := keyStream x.scr 5140
  let m := msg.toNat ^^^ q.2
  let ofs := bitsOf m 5120 10
  let cw := bitsOf m 5130 10
  let s := s.setLane p l { x with scr := q.1, stream := BitVec.ofNat 5120 m, ofs := ofs, cw := cw }
  s.joinStream p l cw ofs (BitVec.ofNat 5120 m)

/-- A correct comma word (R113 to R116). A new deskew count starts the port stream of a comma period. -/
def State.commaTaken (s : State) (p l w : Nat) : State :=
  let dsk := bitsOf w 40 8
  let m := bitsOf w 36 4
  let x := s.lane p l
  let s := s.setLane p l { x with goodCommas := min 3 (x.goodCommas + 1), missed := 0, commaAt := s.clk.cycles, uncorr := 0,
                                  scr := scrSeed (bitsOf w 32 2) dsk, cw := 0, dsk := dsk, lmap := m }
  let s := s.setPort p { (s.port p).period dsk with ldCap := bitOf w 48 }
  let s := if p < 24 then (s.setFlag (ING_P_STATUS.LD_CAP p) (bitOf w 48)).setF (ING_P_STATUS.DSK p) dsk else s
  let s := if 3 ≤ x.goodCommas + 1 then s.laneLocked p l 0 else s
  if s.alignedOn p m dsk then s.applyLmap p m else s

/-- An expected comma position without a correct comma word: a hunting lane starts to count anew, and the fourth in a row ends frame
lock (R116). The codewords that follow belong to a new comma period. -/
def State.commaBad (s : State) (p l : Nat) : State :=
  let x := s.lane p l
  let s := s.setLane p l { x with goodCommas := 0, missed := x.missed + 1, uncorr := 0 }
  if s.bit (portLockF p) l && decide (4 ≤ x.missed + 1) then s.laneLost p l 0 else s

/-! ## Receivers (R112) -/

/-- ADAPT_FREEZE of a port. -/
def portFreezeF (p : Nat) : Fld := if p < 24 then ING_P_CTRL.ADAPT_FREEZE p else FAB_P_CTRL.ADAPT_FREEZE (p - 24)

/-- The CTLE code, the five DFE taps and the eye margin of a lane. -/
def rxEqF (p l : Nat) : Fld × Fld × Fld :=
  if p < 24 then (ING_P_L_RXEQ.CTLE p l, ING_P_L_RXEQ.DFE p l, ING_P_L_RXEQ.EYE p l)
  else (FAB_P_L_RXEQ.CTLE (p - 24) l, FAB_P_L_RXEQ.DFE (p - 24) l, FAB_P_L_RXEQ.EYE (p - 24) l)

/-- A receiver that runs adapts (R112). What it adapts to is not stated: the CTLE code is a free value of 0 to 40, the taps and
the margin are free values. -/
def State.adapt (s : State) (p l : Nat) : State :=
  if !s.portLive p then s else
  let f := rxEqF p l
  let s := (s.setF f.1 (s.free % 41)).drew
  let s := (s.setF f.2.1 s.free).drew
  (s.setF f.2.2 s.free).drew

/-- With ADAPT_FREEZE the CTLE code and the taps hold, and the margin alone is measured anew. -/
def State.adaptNow (s : State) (p l : Nat) : State :=
  if !s.flag (portFreezeF p) then s.adapt p l
  else if s.portLive p then (s.setF (rxEqF p l).2.2 s.free).drew
  else s

end Sys2Proof.Machine
end

