-- ==== Sys2Proof/Machine/Duet.lean ====
section
/-!
DEFINITION. Meanings of the commands of the duet and the spares (16_duet_and_spares.md, R327 to R348), with the journal writes
(17_control_plane_and_security.md, R368).
-/

namespace Sys2Proof.Machine

/-- Power state code (R383): 0 SHOW, 1 HOLD, 2 INTERMISSION, 3 DARK. -/
def State.power (s : State) : Nat := s.getF PWR_STATUS.STATE

/-! ## Heartbeats (R331 to R338) -/

/-- The heartbeat of the house dwell. -/
def State.hbSend (s : State) : State :=
  let n := s.houseDwell
  let ack := s.duo.swapSeen && !s.duo.swapProposed
  let pay := b2n s.iron + 2 * b2n (s.flag DUO_STATUS.REPLACE) + 4 * b2n (s.flag DUO_STATUS.WITHDRAWN) +
    8 * b2n s.duo.swapProposed + 16 * b2n ack +
    (if s.flag DUO_STATUS.SWAP_PEND then 2 ^ 64 * s.getF DUO_SWAPDW.DWELL else 0)
  let s := (s.sendPair 0 (ofSigned 64 n + 2 ^ 64 * s.tagOf n) pay).startTimer .heartbeat
  if ack then { s with duo.swapAck := true } else s

/-- HEARTBEAT_SEND (R332): every DUO_HB_PERIOD µs, in every power state but DARK, and in iron. -/
def execHeartbeatSend (s : State) : Res :=
  done (s.whenever (s.paired && s.power != 3) (fun s => (s.lapse .heartbeat (usCycles * s.sv Scr.DUO_HB_PERIOD)).hbSend))

/-- A PAIR packet arrives from the partner on FAB_PAIR_PORT. -/
def State.takePair (s : State) (fecBad : Bool) (h : BitVec 256) (op : Nat) : State × Bool :=
  let im := s.newest
  if !s.paired then (s, false) else
  let p := im.val Scr.FAB_PAIR_PORT
  let r := s.fabTake p fecBad h 7 op
  (if r.2 then r.1.release p h else r.1, r.2 && hdr h 32 11 == im.partner)

/-- The dwell and the second argument of a PAIR packet. -/
def pairDwell (h : BitVec 256) : Int := toSigned 64 (hdr h 96 64)
def pairArg (h : BitVec 256) : Nat := hdr h 160 64

/-- The digest tag of a heartbeat is compared (R332): event 0x0E04 at most once per dwell. -/
def State.hbTag (s : State) (n : Int) (tag : Nat) : State :=
  if tag = s.tagOf n || s.duo.hbTagDiffer == some n then s
  else ({ s with duo.hbTagDiffer := some n } : State).emit duoSrc 0x0E04 tag (dwell32 n) 2

/-- The roles that follow from a heartbeat (R334, R336, R338). -/
def State.hbRoles (s : State) (n : Int) (tag : Nat) (gone : Bool) : State :=
  let own := s.claim
  let oth := s.partnerClaim
  let m := s.newest.member
  if s.duo.joinAt.isSome then
    (if oth.2 != 0 && n == s.houseDwell && tag == s.tagOf n then
      { s with duo.claimNext := some (oth.1, liveRank false m, 5) } else s)
  else if own.2 = 0 then s
  else if oth.2 = 0 || gone then (if s.active then s else s.claimTo own.1 (liveRank true m) 2)
  else if own.1 != oth.1 || decide (8 ≤ own.2) == decide (8 ≤ oth.2) then
    let mine := claimGreater own oth
    let e := if claimGreater (own.1, 2) (oth.1, 1) then own.1 else oth.1
    { s with duo.claimNext := some (e, liveRank mine m, if mine then 4 else 3) }
  else s

/-- The swap bits of a heartbeat (R337). -/
def State.hbSwap (s : State) (pay : Nat) : State :=
  let k := bitsOf pay 64 64
  if bitOf pay 3 && !s.duo.swapProposed && !s.active && s.getF DUO_STATUS.RANK != 0 then
    { (s.setF DUO_STATUS.SWAP_PEND 1).setF DUO_SWAPDW.DWELL k with
      duo.swapSeen := true, duo.swapAck := s.duo.swapAck && s.getF DUO_SWAPDW.DWELL == k }
  else if !bitOf pay 3 && s.duo.swapSeen then s.swapEnd
  else if bitOf pay 4 && s.duo.swapProposed && s.getF DUO_SWAPDW.DWELL == k then { s with duo.swapAck := true }
  else s

/-- What a heartbeat tells: the partner's claim and state, its tag, the roles, the swap. -/
def State.hbTaken (s : State) (header payload : BitVec 256) : State :=
  let pay := payload.toNat
  let s := s.startTimer .partner
  let s := (s.setF DUO_PARTNER.EPOCH (hdr header 48 16)).setF DUO_PARTNER.RANK (hdr header 64 4)
  let s := s.setF DUO_PARTNER.CHIP s.newest.partner
  let s := (s.setFlag DUO_PARTNER.IRON (bitOf pay 0)).setFlag DUO_PARTNER.REPLACE (bitOf pay 1)
  let s := if s.flag DUO_STATUS.PARTNER_OK then s else
    (s.setF DUO_STATUS.PARTNER_OK 1).emit duoSrc 0x0E03 (s.partnerClaim.1 + 2 ^ 16 * s.partnerClaim.2) s.newest.partner 0
  let s := s.showAccepted.hbTag (pairDwell header) (pairArg header)
  (s.hbRoles (pairDwell header) (pairArg header) (bitOf pay 0 || bitOf pay 2)).hbSwap pay

/-- HEARTBEAT (R332 to R338). -/
def execHeartbeat (fecBad : Bool) (header payload : BitVec 256) (s : State) : Res :=
  done (match s.takePair fecBad header 0 with
    | (s, false) => s
    | (s, true) => s.hbTaken header payload)

/-- The partner is lost; an understudy takes the active rank at the next epoch. -/
def State.partnerGone (s : State) : State :=
  let c := s.partnerClaim
  let s := (s.setF DUO_STATUS.PARTNER_OK 0).incF DUO_MISM.HB_LOSS 1
  let s := s.emit duoSrc 0x0E02 (c.1 + 2 ^ 16 * c.2) s.newest.partner 2
  let own := s.claim
  if own.2 != 0 && !s.active then s.claimTo (own.1 + 1) (liveRank true s.newest.member) 1 else s

/-- DUO_HB_TO in house cycles. -/
def State.hbTimeout (s : State) : Nat := msCycles * s.sv Scr.DUO_HB_TO

/-- PARTNER_LOST (R332, R335): no heartbeat for DUO_HB_TO; an understudy takes the active rank at the next epoch. -/
def execPartnerLost (s : State) : Res :=
  done (s.whenever (s.flag DUO_STATUS.PARTNER_OK) (fun s => (s.lapse .partner s.hbTimeout).partnerGone))

/-- The time that a proposal waits for (R337): none when this chip calls for its replacement, DUO_SWAP_LEAD after a swap that came to
nothing, else DUO_SWAP_PERIOD since the last change of role. -/
def State.swapDue (s : State) : State :=
  if s.flag DUO_STATUS.REPLACE then s
  else if (s.timerOf .swapAgain).isSome then s.lapse .swapAgain (msCycles * s.sv Scr.DUO_SWAP_LEAD)
  else s.lapse .role (secCycles * s.sv Scr.DUO_SWAP_PERIOD)

/-- SWAP_PROPOSE (R337). -/
def execSwapPropose (s : State) : Res :=
  done (s.whenever (s.sv Scr.DUO_SWAP_PERIOD != 0 || s.flag DUO_STATUS.REPLACE || (s.timerOf .swapAgain).isSome)
    (fun s => s.swapDue.proposeEarliest))

/-- The greater of two epochs, compared as in R327. -/
def maxEpoch (a b : Nat) : Nat := if claimGreater (a, 2) (b, 1) then a else b

/-- A join ends alone: the active rank is taken at the next dwell boundary. -/
def State.joinEnds (s : State) : State :=
  let e := maxEpoch (maxEpoch s.ctl.jepoch (s.sv Scr.DUO_EPOCH_FLOOR)) s.partnerClaim.1
  { s with duo.claimNext := some ((e + 1) % 65536, liveRank true s.newest.member, 5) }

/-- JOIN_TIMEOUT (R338): DUO_HB_TO has passed in a join and no live partner is heard. -/
def execJoinTimeout (s : State) : Res :=
  done (s.whenever (s.duo.joinAt.isSome && s.paired && !s.iron && !s.flag DUO_STATUS.WITHDRAWN &&
      !(s.flag DUO_STATUS.PARTNER_OK && s.partnerClaim.2 != 0)) (fun s => (s.lapse .join s.hbTimeout).joinEnds))

/-! ## Digests (R333) -/

/-- Own sums of a dwell. -/
def State.ownSums (s : State) (n : Int) : Nat × Nat :=
  match s.duo.sums.find? (fun e => e.1 == n) with | some e => e.2 | none => (0, 0)

/-- FLAGS of a DIGEST: POISONED, PARTIAL, DEGRADED, HOLDOVER recorded against a dwell. -/
def State.digestFlags (s : State) (n : Int) : Nat := s.flagsWhere (fun e => e.1 == n) % 16

/-- Compare the two digests of a dwell once both are there. -/
def State.digestCompare (s : State) (n : Int) : State :=
  match s.duo.partnerDigests.find? (fun e => e.1 == n) with
  | none => s
  | some (_, vis, beam, flags) =>
    if !s.duo.sentDigests.contains n then s else
    let own := s.ownSums n
    let mine := s.digestFlags n
    let s := { s.stopTimer (.digest n) with
      duo.partnerDigests := s.duo.partnerDigests.filter (fun e => e.1 != n),
      duo.sentDigests := s.duo.sentDigests.filter (fun d => d != n),
      duo.sums := s.duo.sums.filter (fun e => e.1 != n) }
    if own = (vis, beam) then s
    else if mine != flags then
      (s.incF DUO_MISM.EXPL 1).emit duoSrc 0x0E05 (ofSigned 64 n) (mine + 16 * flags) 1
    else (s.incF DUO_MISM.UNEXPL 1).raiseFor [] duoSrc 0x0012 3 false (ofSigned 31 n)

/-- The digest of a dwell goes to the partner. -/
def State.digestOut (s : State) (dwell : Int) : State :=
  let own := s.ownSums dwell
  let pay := own.2 + 2 ^ 64 * s.digestFlags dwell + 2 ^ 68 * (s.free % 2)
  let s := s.drew.sendPair 1 (ofSigned 64 dwell + 2 ^ 64 * own.1) pay
  (({ s with duo.sentDigests := s.duo.sentDigests ++ [dwell] } : State).startTimer (.digest dwell)).digestCompare dwell

/-- DIGEST_SEND (R333): the stage has reported the dwell drained and its BEAM passes are complete. VIS_ON, which the spec does
not explain, is a free value. -/
def execDigestSend (dwell : Int) (s : State) : Res :=
  done (s.whenever (s.paired && s.seq.gone.contains dwell && !s.seq.replayed.contains dwell &&
      !s.duo.sentDigests.contains dwell) (fun s => s.digestOut dwell))

/-- The partner's digest is kept and compared. -/
def State.digestTaken (s : State) (header payload : BitVec 256) : State :=
  let n := pairDwell header
  let e := (n, pairArg header, bitsOf payload.toNat 0 64, bitsOf payload.toNat 64 4)
  ({ s with duo.partnerDigests := s.duo.partnerDigests.filter (fun x => x.1 != n) ++ [e] } : State).digestCompare n

/-- DIGEST (R333): the partner's digest of a dwell. -/
def execDigest (fecBad : Bool) (header payload : BitVec 256) (s : State) : Res :=
  done (match s.takePair fecBad header 1 with
    | (s, false) => s
    | (s, true) => s.digestTaken header payload)

/-- DIGEST_SKIP (R333): the partner's digest did not come within DUO_HB_TO of the own one. -/
def execDigestSkip (dwell : Int) (s : State) : Res :=
  done (s.whenever (s.duo.sentDigests.contains dwell) (fun s =>
    let s := (s.lapse (.digest dwell) s.hbTimeout).stopTimer (.digest dwell)
    { s.incF DUO_MISM.SKIP 1 with
      duo.sentDigests := s.duo.sentDigests.filter (fun d => d != dwell), duo.sums := s.duo.sums.filter (fun e => e.1 != dwell) }))

/-! ## Spares (R339 to R343) -/

/-- ENGINE_FAULT (R339): the residue check of an engine fails at run time. -/
def execEngineFault (row col : Fin 33) (s : State) : Res :=
  let n := s.seq.replay.getD s.houseDwell
  done ((s.raiseFor [] stgSrc 0x0010 3 false (ofSigned 31 n)).engineBad row.val col.val)

/-- CLUSTER_FAULT (R341): a memory of a cluster fails parity, or its self-test fails. -/
def execClusterFault (phys : Fin 132) (s : State) : Res :=
  let src := 0x0C0 + phys.val
  let n := match s.logicalOf phys.val with
    | some c => match (s.cluster c).lastTaken with | some v => v.dwell | none => s.houseDwell
    | none => s.houseDwell
  done ((s.raiseFor (s.srcSubs src) src 0x0011 3 false (ofSigned 31 n)).clusterBad phys.val)

/-- LANE_GRACE_EXPIRY (R342): a port has been DEGRADED for DUO_LANE_GRACE minutes. -/
def execLaneGraceExpiry (port : Fin 32) (s : State) : Res :=
  done (s.whenever (s.getF (portStateF port.val) = 3 && s.sv Scr.DUO_LANE_GRACE != 0) (fun s =>
    (s.lapse (.lane port.val) (60 * secCycles * s.sv Scr.DUO_LANE_GRACE)).setReplace 3))

/-! ## Commands (R344) -/

/-- DUO_SWAP (R337, R344). A proposal that R337 forbids is cancelled at once. -/
def execDuoSwap (ring : Fin 262144) (s : State) : Res :=
  let r := ring.val
  withCmd s r 0x60 (fun s e =>
    let k0 := toSigned 64 (e.arg 64 64)
    let first := s.dwellAhead (s.sv Scr.DUO_SWAP_LEAD)
    let k := if k0 = 0 then first else k0
    if s.iron then s.finish r e stInIron
    else if s.flag DUO_STATUS.SWAP_PEND then s.finish r e stBusy
    else if !s.active || decide (k < first) then s.finish r e stBadArg
    else
      let s := s.finish r e stPending
      if e.arg 128 1 = 1 || s.swapAllowed then s.propose k else s.emit duoSrc 0x0E08 (ofSigned 64 k) 0 1)

/-- DUO_WITHDRAW (R344). -/
def execDuoWithdraw (ring : Fin 262144) (s : State) : Res :=
  withCmd s ring.val 0x61 (fun s e => s.withdraw.finish ring.val e stOk)

/-- DUO_REJOIN (R338, R344). -/
def execDuoRejoin (ring : Fin 262144) (s : State) : Res :=
  withCmd s ring.val 0x62 (fun s e =>
    if s.iron then s.finish ring.val e stInIron
    else ((s.setF DUO_STATUS.WITHDRAWN 0).join.setClaim 0 0 5).finish ring.val e stOk)

/-- SPARE_RETIRE (R344): handled as R339 or R341, without a fault. -/
def execSpareRetire (ring : Fin 262144) (s : State) : Res :=
  let r := ring.val
  withCmd s r 0x63 (fun s e =>
    if e.arg 64 1 = 0 then
      let row := e.arg 65 6
      let col := e.arg 71 6
      if 32 < row || 32 < col then s.finish r e stBadArg
      else (s.finish r e stPending).engineBad row col
    else
      let phys := e.arg 65 8
      if 131 < phys then s.finish r e stBadArg else (s.finish r e stPending).clusterBad phys)

/-! ## The journal (R368) -/

/-- F of R362. -/
def State.fuseFloor (s : State) : Nat := 1024 * s.ctl.fuseCount

/-- A journal record takes effect. -/
def State.jApply (s : State) (w : JWrite) : State :=
  match w with
  | .epoch e r cause =>
    let s := { s with ctl.jepoch := e }
    if s.iron || s.flag DUO_STATUS.WITHDRAWN then s else s.setClaim e r cause
  | .replace c => { s with ctl.jReplace := s.ctl.jReplace ||| 2 ^ c }
  | .row i => { s with ctl.jRows := s.ctl.jRows ||| 2 ^ i }
  | .col i => { s with ctl.jCols := s.ctl.jCols ||| 2 ^ i }
  | .cluster i => { s with ctl.jClusters := s.ctl.jClusters ||| 2 ^ i }
  | .fence n => { s with ctl.jFences := s.ctl.jFences ||| 2 ^ n }
  | .floor v =>
    if v ≤ s.ctl.jFloor then s else
    let s := ({ s with ctl.jFloor := v } : State).setF CTL_SEC.FLOOR (max s.fuseFloor v)
    s.emit 0x00A 0x0006 (max s.fuseFloor v) 0 0
  | .owner hash policy ring =>
    let s := { s with ctl.jOwner := hash, ctl.jPolicy := policy }
    let s := (s.setFlag CTL_SEC.OWNER (hash != 0)).setF CTL_SEC.POLICY policy
    let s := s.emit 0x00A 0x0005 hash policy 0
    match s.running ring 0x43 with | some e => s.finish ring e stOk | none => s
  | .revoke _ => s

/-- JOURNAL_WRITE_DONE (R368): both copies, one or none of the oldest record verify. -/
def execJournalWriteDone (copies : Fin 3) (s : State) : Res :=
  done (match s.ctl.jpend with
    | [] => s
    | w :: rest =>
      let s := { s with ctl.jpend := rest }
      let s := if copies.val = 0 then
          (match w with
            | .epoch _ _ _ => s.withdraw
            | .owner _ _ r => (match s.running r 0x43 with | some e => s.finish r e stDeviceError | none => s)
            | _ => s)
        else s.jApply w
      if copies.val < 2 then s.raise 0x00A 0x0023 3 false else s)

end Sys2Proof.Machine
end

