-- ==== Sys2Proof/Machine/Fault.lean ====
section
/-!
DEFINITION. Meanings of the commands of the fault collector and of the iron (15_faults_and_iron.md, R309 to R326).
-/

namespace Sys2Proof.Machine

/-- The pair of a source reads a code that is not legal. -/
def State.railBad (s : State) (src : Nat) : Bool := Tbl.get s.flt.pair 1 src == 0 || Tbl.get s.flt.pair 1 src == 3

/-- A rail fault of a source (R311): event 0x0D02 at the source's highest class. `found`: at entry to service. -/
def State.railFault (s : State) (src code : Nat) (found : Bool) : State :=
  let s := s.putBit (FLT_STICKY.MAP (src / 64)) (src % 64) true
  let s := s.putBit (FLT_RAIL.MAP (src / 64)) (src % 64) true
  s.post ⟨s.clk.cycles, s.houseSix, src, 0x0D02, code, 2 ^ 31 * b2n found, hiClass src, 0x000D, s.srcSubs src, false⟩

/-- RAIL_FAULT (R311): the pair of a source reads `code` on 3 control cycles. A legal code ends the rail fault; out of service
rail faults are not judged (R316). -/
def execRailFault (source : Fin 1024) (code : Fin 4) (s : State) : Res :=
  let src := source.val
  let old := s.railBad src
  let s1 := { s with flt.pair := Tbl.set s.flt.pair 1 src code.val }
  done (if (code.val = 0 || code.val = 3) && s.inService && !old && hiClass src != 0 then s1.railFault src code.val false else s1)

/-- REACTION_START (R318, R319): the entry of the highest class, then of the lowest sequence number, starts its reaction. -/
def execReactionStart (s : State) : Res := done s.nextReaction

/-- The wait step of a source's C2 reaction ends, in progress or pre-empted (R318, R319). -/
def State.ackReact (s : State) (src : Nat) : State :=
  let hit (x : React) : Bool := x.src == src && x.cls == 2
  (match s.flt.react with
    | some x =>
      if hit x then ({ s with flt.react := none } : State).resume
      else { s with flt.preempted := s.flt.preempted.map (fun y => if hit y then { y with acked := true } else y) }
    | none => { s with flt.preempted := s.flt.preempted.map (fun y => if hit y then { y with acked := true } else y) })

/-- FLT_ACK (R318, R319). -/
def execFltAck (source : Fin 1024) (s : State) : Res := done (s.ackReact source.val)

/-- A C2 reaction reached FLT_ACK_TO: a C3 fault with reason ACK_TIMEOUT of the same source (R318). -/
def State.ackLate (s : State) (src : Nat) : State :=
  s.raiseFor (s.srcSubs src) src 0x000C 3 false (ofSigned 31 s.houseDwell)

/-- ACK_TIMEOUT (R318, R319): the wait of a C2 reaction, in progress or pre-empted, has lasted FLT_ACK_TO. -/
def execAckTimeout (source : Fin 1024) (s : State) : Res :=
  let hit (x : React) : Bool := x.src == source.val && x.cls == 2 && !x.acked
  done (s.whenever (s.flt.react.any hit || s.flt.preempted.any hit) (fun s =>
    let s := s.lapse (.ack source.val) (msCycles * s.sv Scr.FLT_ACK_TO)
    if s.flt.react.any hit then (({ s with flt.react := none } : State).ackLate source.val).resume
    else ({ s with flt.preempted := s.flt.preempted.map (fun y => if hit y then { y with acked := true } else y) } : State).ackLate
      source.val))

/-- CURTAIN_FRAME (R321): in iron a port in UP or DEGRADED sends a curtain frame every FLT_CURTAIN µs. -/
def execCurtainFrame (port : Fin 8) (s : State) : Res :=
  let p := port.val
  done (s.whenever (s.iron && s.fabUp p) (fun s =>
    ((s.lapse (.curtain p) (usCycles * s.sv Scr.FLT_CURTAIN)).sendBeacon p).startTimer (.curtain p)))

/-- IRON_REQ (R313, R326): a C4 fault with reason SW_IRON. -/
def execIronReq (s : State) : Res := done (s.raise 0x000 0x000A 4 false)

/-! ## Service (R316, R317) -/

/-- Entries of class C1 to C4 that hold their source in error: they have no number yet (R310). -/
def State.heldErrors (s : State) : List Nat := ((s.outbox.filter (fun e => decide (1 ≤ e.cls))).map (fun e => e.src)).eraseDups

/-- The collector enters service (R317). `cause`: 0 software, 2 iron exit, 3 boot. `rails`: the pairs that read other than
good. -/
def State.enterService (s : State) (cause : Nat) (rails : List (Nat × Nat)) : State :=
  let bad := rails.filter (fun q => (q.2 == 0 || q.2 == 3) && hiClass q.1 != 0)
  let held := s.heldErrors
  let found := (held ++ (rails.filter (fun q => q.2 != 1)).map (fun q => q.1)).eraseDups.length
  let s := s.each rails (fun s q => { s with flt.pair := Tbl.set s.flt.pair 1 q.1 q.2 })
  let s := (s.setF FLT_CTRL.SERVICE 1).setF FLT_STATUS.SERVICE 1
  let up (e : Ev) : Ev := if 1 ≤ e.cls then { e with d1 := e.d1 % 2 ^ 31 + 2 ^ 31, cls := s.promoted e.src e.cls } else e
  let box := s.outbox.map up
  let c4 := box.filter (fun e => e.cls == 4)
  let s := { s with outbox := box, flt.c4 := s.flt.c4 ++ c4.map (fun (e : Ev) => (e.src, e.reason)) }
  let s := s.each c4 (fun s e => s.latch e.src 4 e.reason e.six)
  let s := s.emit 0x000 0x0D05 (1 + 2 * cause) found 0
  s.each bad (fun s q => s.railFault q.1 q.2 true)

/-- The collector leaves service (R316). -/
def State.leaveService (s : State) (cause : Nat) : State :=
  if s.inService then
    ((s.setF FLT_CTRL.SERVICE 0).setF FLT_STATUS.SERVICE 0).emit 0x000 0x0D05 (2 * cause) 0 0
  else s

/-- SERVICE_ENTRY (R317): software sets FLT_CTRL.SERVICE. -/
def execServiceEntry (rails : List (Fin 1024 × Fin 4)) (s : State) : Res :=
  done (s.whenever (!s.inService && !s.ctl.jtagHeld) (fun s =>
    s.enterService 0 (rails.map (fun q => (q.1.val, q.2.val)))))

/-- FFL_REARM (R315): VALID is written 0. -/
def execFflRearm (s : State) : Res := done (s.setF FLT_FFL0.VALID 0)

/-- PARITY_SWEEP (R320): a parity error is a self-fault of source 0x000 with reason COLLECTOR. -/
def execParitySweep (error : Bool) (s : State) : Res := done (s.whenever error (fun s => s.raise 0x000 0x000B 4 false))

/-! ## Leaving iron (R323) -/

/-- A C4 source is in error: its fault waits for its number, or its pair holds a rail fault. -/
def State.c4Error (s : State) : Bool :=
  s.outbox.any (fun e => s.promoted e.src e.cls == 4) || (List.range 1024).any (fun k => hiClass k == 4 && s.railBad k)

/-- Why an exit is refused: 0 not, 1 a C4 source, 2 temperature, 3 self-test. -/
def State.exitWhy (s : State) (selfTestOk : Bool) : Nat :=
  if s.c4Error then 1
  else if (s.sv Scr.PWR_RESUME : Int) ≤ s.getS PWR_STATUS.THETA then 2
  else if !selfTestOk then 3 else 0

/-- Dwells that overlapped the iron or wait for replay. -/
def State.ironOverlap (s : State) : List Int :=
  let old := s.seq.replay.toList ++ s.seq.ringWait
  old ++ (if s.epoch then (dwellRange (min s.flt.ironDwell (s.seq.closed + 1)) s.houseDwell).filter (fun n =>
    !old.contains n && !s.seq.gone.contains n && !s.seq.skipped.contains n) else [])

/-- A cluster restarts at word 0 of its active bank for dwell `k` (R323 step 3). -/
def Cluster.restart (x : Cluster) (mref : Nat) : Cluster :=
  { x with next := 0, redirects := [], rtiLeft := none, ecx := 0, hist := [], mref := mref, stopLeft := none }

/-- Every running cluster restarts. -/
def State.restartPit (s : State) (mref : Nat) : State :=
  s.each (List.range 128) (fun s c =>
    if s.flag (PIT_C_STATUS.RUN c) then
      ((s.setCluster c ((s.cluster c).restart mref)).setF (PIT_C_STATUS.HANDLER c) 0).setF (PIT_C_STATUS.IN_WAIT c) 0
        |>.setF (PIT_C_STATUS.OUT_WAIT c) 0
    else s)

/-- Steps 2 to 4 of R323: the iron is over. -/
def State.ironOver (s : State) : State :=
  let s := s.each s.ironOverlap (fun s n => s.abandon n false)
  let k := s.houseDwell + 1
  let s := ({ s with flt.ironAt := none, flt.ironLast := some s.houseDwell } : State).freeSlots
  let s := s.restartPit (s.startSix k)
  let s := ((s.setF FLT_STATUS.IRON 0).setF HST_STATUS.IRON 0).setF STG_STATUS.STOPPED 0
  let s := if s.getF PWR_STATUS.STATE = 2 then s else s.storeWake
  (s.setF FLT_STATUS.EXIT_WHY 0).drive 98 false |>.join

/-- FLT_CTRL.EXIT is written 1 (R323). -/
def State.ironExit (s : State) (selfTestOk : Bool) : State :=
  (s.whenever s.iron (fun s =>
    let why := s.exitWhy selfTestOk
    if why ≠ 0 then (s.setF FLT_STATUS.EXIT_FAIL 1).setF FLT_STATUS.EXIT_WHY why
    else
      let us := (s.clk.cycles - s.flt.ironAt.getD s.clk.cycles) / 250
      let s := (s.leaveService 2).ironOver.enterService 2 (s.flt.pair.filter (fun q => q.2 != 1))
      s.emit 0x000 0x0D04 us (dwell32 s.houseDwell) 0))

/-- IRON_EXIT (R323). -/
def execIronExit (selfTestOk : Bool) (s : State) : Res := done (s.ironExit selfTestOk)

end Sys2Proof.Machine
end

