-- ==== Sys2Proof/Machine/BootOps.lean ====
section
/-!
DEFINITION. What resets and boot share (17_control_plane_and_security.md, R349 to R368; 02_host_interface_and_rings.md, R40):
the end of the host interface, signed images, and the boot steps.
-/

namespace Sys2Proof.Machine

/-- Event source of the control plane (R375). -/
def ctlSrc : Nat := 0x00A

/-! ## The host interface is disabled (R40) -/

/-- ENABLE changes to 0: every ring is destroyed; commands already started run on and write no entries. -/
def State.disable (s : State) : State :=
  let orphans := s.host.rings.filterMap (fun (p : Nat × Option Ring) =>
    match p.2 with | some x => x.exec.map (fun e => (p.1, e)) | none => none)
  let s := { s with
    host.rings := [], host.orphans := s.host.orphans ++ orphans, host.notices := [], host.ctxCache := [], host.devCache := [],
    outbox := s.outbox.filter (fun e => e.code != 0x0B05) }
  (s.setF HST_CTRL.ENABLE 0).setF HST_STATUS.RUNNING 0

/-- The configuration space and the MSI-X table are reset, with the DOE mailbox that lies in it (R40, R49). -/
def State.resetConfig (s : State) : State :=
  { s.disable with host.msix := [], host.msixPba := [], host.msixLast := [], host.msixHeld := [],
                   host.doeIn := [], host.doeBusy := false, host.doeError := false }

/-! ## The matrix (R350, R353) -/

/-- Number of a master, in the order of R350 (DEDUCED, log 18). -/
def masterNo : Master → Nat
  | .bootEngine => 0
  | .core k => 1 + k.val
  | .hostBridge => 5
  | .debug => 6
  | .moverDma => 7

/-- A master is reset (R353): its requests not yet granted are withdrawn, and the beats its granted bursts have not yet issued go out
as null beats. -/
def State.matrixReset (s : State) (m : Master) : State :=
  let cut (h : HeldBurst) : HeldBurst := if h.burst.master = m then { h with nulls := some (h.nulls.getD (h.burst.beats - h.issued)) } else h
  { s with matrix.wait := s.matrix.wait.filter (fun b => b.master != m),
           matrix.held := s.matrix.held.map (fun (e : Nat × Option HeldBurst) => (e.1, e.2.map cut)) }

/-- Change the state of a control core (R376). -/
def State.setCore (s : State) (k v : Nat) : State :=
  s.setF CTL_CORES.STATE (putBits (s.getF CTL_CORES.STATE) (2 * k) 2 v)

/-- A control core is reset (R353, R356, R372). -/
def State.resetCore (s : State) (k : Nat) : State := (s.matrixReset (.core (Fin.ofNat 4 k))).setCore k 3

/-- The area a core runs from (R376). -/
def State.setArea (s : State) (k area : Nat) : State := s.putBit CTL_CORES.AREA k (area == 1)

/-! ## Signed images (R358, R359, R361 to R363) -/

/-- A field of a manifest. -/
def manField (m : List Byte) (lo n : Nat) : Nat := leNat ((m.drop lo).take n)

def manKind (m : List Byte) : Nat := manField m 6 2
def manVersion (m : List Byte) : Nat := manField m 8 4
def manSvn (m : List Byte) : Nat := manField m 12 2
def manRollfwd (m : List Byte) : Bool := bitOf (manField m 14 2) 0
def manMinPeer (m : List Byte) : Nat := manField m 16 4
def manLength (m : List Byte) : Nat := manField m 20 4
def manPayload (m : List Byte) : List Byte := (m.drop 8192).take (manLength m)

/-- SHA3-256 of the public key of an image. -/
def manKeyHash (m : List Byte) : Nat := sha3 ((m.drop 96).take 1952)

/-- The rollback floor (R362). -/
def State.rollFloor (s : State) : Nat := max s.fuseFloor s.ctl.jFloor

/-- The current nonce. -/
def State.nonce (s : State) : Nat :=
  (List.range 4).foldl (fun a w => a + 2 ^ (64 * w) * s.getF (CTL_NONCE.WORD w)) 0

/-- A new random nonce (R359). -/
def State.newNonce (s : State) : State :=
  s.each (List.range 4) (fun s w => (s.setF (CTL_NONCE.WORD w) s.free).drew)

/-- Verify an image of a kind, whose key must satisfy `key` (R359): 0, or the code of the first check that fails. A list shorter
than the image says is an image that could not be read (log 5): check 1. -/
def State.verify (s : State) (kind : Nat) (key : Nat → Bool) (m : List Byte) : Nat :=
  let fw := kind == 1
  if manField m 0 4 != 0x4C58394D || manField m 4 2 != 1 || manKind m != kind ||
      (fw && decide (2097152 < manLength m)) || decide (m.length < 8192 + manLength m) || manField m 5357 2835 != 0 then 1
  else if !key (manKeyHash m) then 2
  else if !Config.mlDsaVerify ((m.drop 96).take 1952) (sha3 (m.take 2048)) ((m.drop 2048).take 3309) then 3
  else if (manField m 24 8 != 0 && manField m 24 8 != s.getF CTL_ID.ID) ||
      manField m 64 32 != (if fw then 0 else s.nonce) then 4
  else if fw && decide (manSvn m < s.rollFloor) then 5
  else if sha3 (manPayload m) != manField m 32 32 then 6
  else 0

/-- The unrevoked root-key slot of a key hash (R361). -/
def State.rootSlot (s : State) (h : Nat) : Option Nat :=
  (List.range 4).find? (fun k => !s.ctl.fuseRevoked.testBit k && Config.rootKeyHash k == h)

/-- A key of an unrevoked root slot. -/
def State.rootKey (s : State) (h : Nat) : Bool := (s.rootSlot h).isSome

/-- A nonce that an image used is replaced (R359): the image has passed check 4. -/
def State.usedNonce (s : State) (code : Nat) : State := if code = 0 || 5 ≤ code then s.newNonce else s

/-- The bytes of an image at an address of R193: from the store, or from host memory, whose bytes come as operands. -/
def State.imageAt (s : State) (addr len : Nat) (host : List Byte) : State × List Byte :=
  if bitsOf addr 62 2 = 0 then
    let r := s.readSpan 7 (addr % 2 ^ 38) len
    (r.1, if r.2.2 then [] else r.2.1)
  else (s, host.take len)

/-- As `imageAt` where the length is the manifest's. -/
def State.recordAt (s : State) (addr : Nat) (host : List Byte) : State × List Byte :=
  if bitsOf addr 62 2 = 0 then s.imageAt addr (8192 + Memory.readNat s.mem (addr % 2 ^ 38 + 20) 4) []
  else (s, host)

/-- Firmware with ROLLFWD runs on all four cores: J rises to its SVN (R362). -/
def State.rollForward (s : State) (svn : Nat) (roll : Bool) : State :=
  if roll && decide (s.ctl.jFloor < svn) then s.journal (.floor svn) else s

/-! ## Boot (R357, R360) -/

/-- A boot is in progress: CTL_BOOT.STAGE reads fetch or verify, outside DARK. -/
def State.booting (s : State) : Bool := decide (s.getF CTL_BOOT.STAGE < 2) && s.power != 3

/-- The source the boot fetches from: 0 flash slot 0, 1 flash slot 1, 2 host push. BOOT_SEL 0b11 acts as 0b00. -/
def State.bootSource (s : State) : Nat := if s.getF CTL_BOOT.SEL = 1 then 2 else s.ctl.bootTry

/-- Steps 1 to 3: fuses shadowed, the strap read, core 0 started. `kind`: 0 PORST_N, 1 WRST_N, 2 the end of DARK. -/
def State.startBoot (s : State) (kind : Nat) : State :=
  let s := { s with ctl.bootTry := 0, ctl.bootKind := kind, ctl.push := [], ctl.update := none }
  let s := if kind = 1 then s else s.newNonce
  let s := (s.setF CTL_BOOT.SEL s.pwr.pinBoot).setF CTL_BOOT.STAGE 0
  let s := (s.setF CTL_SEC.REVOKED s.ctl.fuseRevoked).setF CTL_SEC.FUSE_CNT s.ctl.fuseCount
  let s := (s.setF CTL_MATRIX.REMAP 0).setF CTL_CORES.AREA 0
  s.setF CTL_CORES.STATE 1

/-- A source fails (R360): the next is tried, or boot halts. -/
def State.bootFail (s : State) (code : Nat) : State :=
  let src := s.bootSource
  let s := s.setF CTL_BOOT.ERR code
  if src = 0 then { s.setF CTL_BOOT.STAGE 0 with ctl.bootTry := 1 }
  else if src = 1 && s.getF CTL_BOOT.SEL = 2 then { s.setF CTL_BOOT.STAGE 0 with ctl.bootTry := 2 }
  else s.setF CTL_BOOT.STAGE 3

/-- Step 7: what the journal records is applied (R368). -/
def State.bootJournal (s : State) : State :=
  let s := s.each (List.range 256) (fun s n =>
    if s.ctl.jFences.testBit n && !s.fenced n then
      let s := (s.putBit (STO_FENCE.MAP (n / 64)) (n % 64) true).setF (STO_PC_STAT.STATE n) 3
      ((s.addF STO_STATUS.FENCES 1).setPch n { s.pch n with lost := true }).fenceCap
    else s)
  let first (m : Nat) : Nat := ((List.range 33).find? (fun i => m.testBit i)).getD 63
  let rows := 33 - retired s.ctl.jRows
  let cols := 33 - retired s.ctl.jCols
  let s := ((s.setF DUO_ROWMAP.MAP s.ctl.jRows).setF DUO_SPARE.ROW_RET (first s.ctl.jRows)).setF DUO_SPARE.ROWS rows
  let s := ((s.setF DUO_COLMAP.MAP s.ctl.jCols).setF DUO_SPARE.COL_RET (first s.ctl.jCols)).setF DUO_SPARE.COLS cols
  let s : State := { s.engineCaps with duo.badClu := s.ctl.jClusters }
  let s := s.setF DUO_SPARE.PIT_MAP DUO_SPARE.PIT_MAP.rst
  let s := s.each (List.range 128) (fun s c => if s.duo.badClu.testBit c then s.takeOver c 0 else s)
  let s := if s.ctl.jClusters = 0 then s else s.pitCaps
  let s := s.setF DUO_REPLACE.BITS (s.ctl.jReplace % 8)
  let bad := s.ctl.jReplace % 8 != 0
  let s := ({ s.setFlag DUO_STATUS.REPLACE bad with pwr.svcLow := bad } : State).drive 99 bad
  let s := (s.setFlag CTL_SEC.OWNER (s.ctl.jOwner != 0)).setF CTL_SEC.POLICY s.ctl.jPolicy
  s.setF CTL_SEC.FLOOR s.rollFloor

/-- The end of DARK leaves the device in HOLD, with the boot-image script (R385). Dwells up to the present one are past. -/
def State.wakeUp (s : State) : State :=
  let old := s.now
  let s := ({ s with scr.images := [] } : State).cross Image.boot old
  let n := s.houseDwell
  let s := { s with seq.started := n, seq.closed := n, pwr.trans := none }
  let s := ((s.setF PWR_STATUS.STATE 1).setF PWR_STATUS.TARGET 1).setF PWR_STATUS.BUSY 0
  (s.emit 0x00B 0x0F01 (3 + 256 * 1) (dwell32 n) 0).pulse 111

/-- Steps 6 to 8: the image has verified and every core runs it. -/
def State.bootDone (s : State) (m : List Byte) : State :=
  let src := s.bootSource
  let kind := s.ctl.bootKind
  let s := (s.setF CTL_MATRIX.REMAP 1).setF CTL_CORES.STATE 0xAA
  let s := s.each [0, 1, 2, 3] (fun s k => s.startTimer (.core k))
  let s := ((s.setF CTL_BOOT.STAGE 2).setF CTL_BOOT.ERR 0).setF CTL_BOOT.SOURCE src
  let s := (s.setF CTL_SEC.ROOT_USED ((s.rootSlot (manKeyHash m)).getD 0)).setF CTL_SEC.SVN (manSvn m)
  let s := { s with ctl.fwDigest := [sha3 (manPayload m), 0] }
  let s := if kind = 1 then s else s.bootJournal
  let s := if kind = 2 then s.wakeUp else s
  let s := s.enterService 3 (s.flt.pair.filter (fun q => q.2 != 1))
  let s := { (s.setF CTL_CAP3.FW_VERSION (manVersion m)).setF HST_STATUS.READY 1 with scr.installed := true }
  let s := s.emit ctlSrc 0x0001 (manVersion m) src 0
  let s := s.rollForward (manSvn m) (manRollfwd m)
  if kind = 1 then s else s.join

/-- An image has been fetched: it is verified (steps 4 and 5). -/
def State.bootImage (s : State) (m : List Byte) : State :=
  let code := s.verify 1 s.rootKey m
  if code = 0 then s.bootDone m else s.bootFail code

end Sys2Proof.Machine
end

