-- ==== Sys2Proof/Machine/Ctl.lean ====
section
/-!
DEFINITION. Meanings of the commands of the control plane (17_control_plane_and_security.md, R349 to R376).
-/

namespace Sys2Proof.Machine

/-! ## Control cores -/

/-- CORE_HEARTBEAT (R356, R376): the core sets its bit. -/
def execCoreHeartbeat (core : Fin 4) (s : State) : Res :=
  done (s.whenever (s.coreState core.val != 0) (fun s => (s.putBit CTL_CORES.HB core.val true).startTimer (.core core.val)))

/-- CORE_WATCHDOG_EXPIRY (R356): a running core missed its heartbeat for CORE_TO, which acts as 2 ms at least (DESIGN CHOICE, log 31):
it is reset and reloaded. -/
def execCoreWatchdogExpiry (core : Fin 4) (s : State) : Res :=
  done (s.whenever (s.coreState core.val = 2) (fun s =>
    ((s.lapse (.core core.val) (msCycles * max 2 (s.getF CTL_WDOG.CORE_TO))).resetCore core.val).raise ctlSrc 0x0021 2 false))

/-- The ABSENT_TO that acts: a value outside 2 to 60 s, which the register keeps, acts as the nearer end (DESIGN CHOICE, log 31). -/
def State.absentTo (s : State) : Nat := max 2 (min 60 (s.getF CTL_WDOG.ABSENT_TO))

/-- FW_ABSENT (R356): no core has written a heartbeat for ABSENT_TO. -/
def execFwAbsent (s : State) : Res :=
  let cores := (List.range 4).map Timer.core
  done ((s.each cores (fun s k => s.lapse k (secCycles * s.absentTo))).raise ctlSrc 0x0020 4 false)

/-! ## Boot -/

/-- BOOT_IMAGE_FETCHED (R357, R360): the flash slot that is being tried has been read. -/
def execBootImageFetched (source : Fin 2) (image : List Byte) (s : State) : Res :=
  done (s.whenever (s.booting && s.bootSource = source.val) (fun s => s.bootImage image))

/-- The host may push a chunk. -/
def State.pushOpen (s : State) : Bool := s.booting && s.bootSource = 2 && !s.flag CTL_PUSH.BUSY

/-- Start to copy a chunk (R360). A length outside 1 to 524,288 starts none. -/
def State.pushGo (s : State) : State :=
  s.whenever (s.pushOpen && decide (1 ≤ s.getF CTL_PUSH.LEN) && decide (s.getF CTL_PUSH.LEN ≤ 524288)) (fun s =>
    (s.setF CTL_PUSH.GO 1).setF CTL_PUSH.BUSY 1)

/-- PUSH_CHUNK (R360): a write of 1 to CTL_PUSH.GO. -/
def execPushChunk (s : State) : Res := done s.pushGo

/-- The chunk in CTL_PUSH_WIN. -/
def State.pushBytes (s : State) : List Byte :=
  let n := s.getF CTL_PUSH.LEN
  ((List.range (cdiv n 8)).flatMap (fun i => leBytes 8 (s.getF (CTL_PUSH_WIN.DATA i)))).take n

/-- A chunk has been copied. -/
def State.pushDone (s : State) : State :=
  let s := { s with ctl.push := s.ctl.push ++ s.pushBytes }
  let s := (s.setF CTL_PUSH.GO 0).setF CTL_PUSH.BUSY 0
  if s.flag CTL_PUSH.LAST then s.bootImage s.ctl.push else s

/-- PUSH_CHUNK_DONE (R360): the chunk is in area A; after LAST the image is verified. -/
def execPushChunkDone (s : State) : Res :=
  done (s.whenever (s.booting && s.flag CTL_PUSH.BUSY) State.pushDone)

/-! ## Live update (R372) -/

/-- The area an update goes to: the one core 0 does not run from. -/
def State.otherArea (s : State) : Nat := if s.bit CTL_CORES.AREA 0 then 0 else 1

/-- The next core of an update is reset and started from its area. -/
def State.updateNext (s : State) : State :=
  match s.ctl.update with
  | some u => (match u.todo with | k :: _ => (s.resetCore k).startTimer (.update k) | [] => s)
  | none => s

/-- An update that verified begins with core 3. -/
def State.updateBegin (s : State) (m : List Byte) (area : Nat) : State :=
  ({ s with ctl.update := some ⟨manVersion m, manSvn m, manRollfwd m, [3, 2, 1, 0], area, false⟩ } : State).updateNext

/-- FW_UPDATE (R372, R373). -/
def execFwUpdate (ring : Fin 262144) (image : List Byte) (s : State) : Res :=
  let r := ring.val
  withCmd s r 0x40 (fun s e =>
    let f := s.imageAt (e.arg 64 64) (e.arg 128 32) image
    let s := f.1
    let m := f.2
    let v := s.verify 1 s.rootKey m
    let code := if v = 0 && decide (s.getF CTL_CAP3.FW_VERSION < manMinPeer m) then 7 else v
    if s.ctl.update.isSome && code = 0 then s.finish r e stBusy
    else
      let area := s.otherArea
      let s := if s.ctl.update.isNone then { s with ctl.fwDigest := s.ctl.fwDigest.set area (sha3 (manPayload m)) } else s
      if code != 0 then s.complete r e stBadArg code 0
      else (s.finish r e stPending).updateBegin m area)

/-- A core of an update has taken its duties back; after core 0 the update is complete. -/
def State.updateStep (s : State) (k : Nat) (u : Update) : State :=
  let s := s.setArea k u.area
  let s := s.emit ctlSrc 0x0002 u.version k 0
  let u := { u with todo := u.todo.drop 1 }
  if u.todo.isEmpty then
    let s := { s with ctl.update := none }
    if u.back then s
    else
      let s := (s.setF CTL_CAP3.FW_VERSION u.version).setF CTL_SEC.SVN u.svn
      let s := s.rollForward u.svn u.rollfwd
      s.emit ctlSrc 0x0002 u.version (k + 8) 0
  else ({ s with ctl.update := some u } : State).updateNext

/-- CORE_READY (R356, R372): a core that was reloading reports ready. -/
def execCoreReady (core : Fin 4) (s : State) : Res :=
  let k := core.val
  done (s.whenever (s.coreState k = 3) (fun s =>
    let s := (s.setCore k 2).startTimer (.core k)
    match s.ctl.update with
    | some u => if u.todo.head? = some k then s.updateStep k u else s
    | none => s))

/-- An update goes back, the failing core first. -/
def State.updateBack (s : State) (k : Nat) (u : Update) : State :=
  let s := s.emit ctlSrc 0x0002 u.version (k + 16) 2
  let old := [3, 2, 1, 0].filter (fun c => decide (k < c))
  ({ s with ctl.update := some { u with todo := k :: old, area := 1 - u.area, back := true } } : State).updateNext

/-- UPDATE_CORE_TIMEOUT (R372): a core did not report ready within 100 ms: it and the cores already updated go back. -/
def execUpdateCoreTimeout (core : Fin 4) (s : State) : Res :=
  let k := core.val
  done (match s.ctl.update with
    | some u =>
      if u.todo.head? = some k && s.coreState k = 3 && !u.back then (s.lapse (.update k) (100 * msCycles)).updateBack k u else s
    | none => s)

/-! ## Keys, rollback, owner (R361 to R363) -/

/-- A root key slot is revoked: its fuse, its journal record, event 0x0004. -/
def State.revoke (s : State) (slot : Nat) : State :=
  let left := s.ctl.fuseRevoked ||| 2 ^ slot
  let s := ({ s with ctl.fuseRevoked := left } : State).setF CTL_SEC.REVOKED left
  (s.journal (.revoke slot)).emit ctlSrc 0x0004 0 slot 0

/-- KEY_REVOKE (R361): the slot is the first byte of the payload (DEDUCED, log 18). -/
def execKeyRevoke (ring : Fin 262144) (image : List Byte) (s : State) : Res :=
  let r := ring.val
  withCmd s r 0x41 (fun s e =>
    let f := s.recordAt (e.arg 64 64) image
    let s := f.1
    let m := f.2
    let code := s.verify 4 s.rootKey m
    let s := s.usedNonce code
    let slot := leNat ((manPayload m).take 1)
    let signer := (s.rootSlot (manKeyHash m)).getD 0
    let left := s.ctl.fuseRevoked ||| 2 ^ slot
    if code != 0 then s.complete r e stBadArg code 0
    else if (manPayload m).isEmpty || 4 ≤ slot || slot = signer || left % 16 = 15 then s.finish r e stBadArg
    else (s.revoke slot).finish r e stOk)

/-- The rollback fuses are blown up to `n`. -/
def State.anchor (s : State) (n : Nat) : State :=
  let s := ({ s with ctl.fuseCount := n } : State).setF CTL_SEC.FUSE_CNT n
  let s := s.setF CTL_SEC.FLOOR s.rollFloor
  s.emit ctlSrc 0x0006 s.rollFloor 1 0

/-- ROLLBACK_ANCHOR (R362). -/
def execRollbackAnchor (ring : Fin 262144) (s : State) : Res :=
  let r := ring.val
  withCmd s r 0x42 (fun s e =>
    let n := e.arg 64 6
    if n ≤ s.ctl.fuseCount || s.ctl.jFloor < 1024 * n then s.finish r e stBadArg
    else (s.anchor n).finish r e stOk)

/-- OWNER_SET (R363). The completion follows the journal record. -/
def execOwnerSet (ring : Fin 262144) (image : List Byte) (s : State) : Res :=
  let r := ring.val
  withCmd s r 0x43 (fun s e =>
    let none_ := s.ctl.jOwner = 0
    if s.ctl.jpend.any (fun w => match w with | .owner _ _ q => q == r | _ => false) then s
    else if none_ && s.power != 1 then s.finish r e stDenied
    else
      let f := s.recordAt (e.arg 64 64) image
      let s := f.1
      let m := f.2
      let hash := leNat ((manPayload m).take 32)
      let code := s.verify 3 (fun h => if none_ then h == hash else h == s.ctl.jOwner) m
      let s := s.usedNonce code
      if code != 0 then s.complete r e stBadArg code 0
      else if (manPayload m).length < 33 then s.finish r e stBadArg
      else s.journal (.owner hash (leNat (((manPayload m).drop 32).take 1) % 8) r))

/-- NONCE_READ (R373). -/
def execNonceRead (ring : Fin 262144) (s : State) : Res :=
  withCmd s ring.val 0x44 (fun s e => s.complete ring.val e stOk (s.getF (CTL_NONCE.WORD 0)) 0)

end Sys2Proof.Machine
end

