-- ==== Sys2Proof/Machine/Cue.lean ====
section
/-!
DEFINITION. Meanings of the commands of the cue matrix (14_cue_matrix.md, R295 to R308).
-/

namespace Sys2Proof.Machine

/-- CUE_IN_EDGE (R296): the pin's filter takes the level. An edge near a house-clock edge is stamped in either of the two
adjacent cycles (R409): which is a free value. -/
def execCueInEdge (pin : Fin 8) (level nearEdge : Bool) (s : State) : Res :=
  let t := s.clk.cycles + (if nearEdge then s.free % 2 else 0)
  let s := if nearEdge then s.drew else s
  done (s.filtInput pin.val level t t 0 t)

/-- CHANNEL_EDGE (R295, R296, R299, R304): the first edge on its way to the channel reaches it. -/
def execChannelEdge (channel : Fin 64) (s : State) : Res :=
  match s.cue.edges.find? (fun e => e.ch == channel.val) with
  | none => done s
  | some e => done (({ s with cue.edges := s.cue.edges.erase e } : State).edgeArrives e)

/-- FILTER_MINW_PASS (R301): the house clock has come to the cycle in which the level has held for MINW cycles. -/
def execFilterMinwPass (filter : Fin 40) (s : State) : Res :=
  let f := filter.val
  let s := s.runCycles ((s.filt f).since + s.fMinw f - s.clk.cycles)
  done (s.filtPass f s.clk.cycles)

/-- A held-back rise passes while the input is high, or is removed. -/
def State.filtRelease (s : State) (f : Nat) : State :=
  let t := s.clk.cycles
  if s.filtIn f then
    (s.setFilt f { s.filt f with held := false, lastRise := some t }).filtDrive f true t t (s.filt f).mask t
  else s.setFilt f { s.filt f with held := false }

/-- FILTER_RATE_RELEASE (R301): RATE cycles after the last rise that passed, a held-back rise passes with that cycle, or is
removed. -/
def execFilterRateRelease (filter : Fin 40) (s : State) : Res :=
  let f := filter.val
  done (s.whenever ((s.filt f).held && !s.bit CUE_FDIS.MAP f) (fun s =>
    (s.runCycles ((s.filt f).lastRise.getD 0 + s.fRate f - s.clk.cycles)).filtRelease f))

/-- A filter's output has been high too long: it is forced low. -/
def State.filtStuck (s : State) (f : Nat) : State :=
  let t := s.clk.cycles
  ((s.filtDrive f false t t 0 t).setFilt f { s.filt f with out := false, stuck := true }).filtDetect f 0x0C02

/-- FILTER_STUCK (R301): the output has been high for STUCK µs. -/
def execFilterStuck (filter : Fin 40) (s : State) : Res :=
  let f := filter.val
  done (s.whenever ((s.filt f).out && s.fStuck f != 0) (fun s =>
    (s.runCycles ((s.filt f).outSince + 250 * s.fStuck f - s.clk.cycles)).filtStuck f))

/-- A write to a disabled channel is discarded and sets FIRE_ERR (R302). -/
def State.cueFire (s : State) (c : Nat) (f : State → State) : State :=
  if s.bit CUE_CHDIS.MAP c then s.setF CUE_STATUS.FIRE_ERR 1 else f s

/-- The software level of a channel, and the edge it makes. -/
def State.softLevel (s : State) (c : Nat) (lev : Bool) : State :=
  let t := s.clk.cycles
  let m := BitVec.ofNat 64 (2 ^ c)
  let s := { s with cue.swLevel := if lev then s.cue.swLevel ||| m else s.cue.swLevel &&& ~~~m }
  s.pushEdge c (s.levelOf c) t t 0 t

/-- CUE_FIRE_PULSE (R302). -/
def execCueFirePulse (channel : Fin 64) (s : State) : Res := done (s.cueFire channel.val (fun s => s.pulseOn none channel.val))

/-- CUE_FIRE_SET (R302). -/
def execCueFireSet (channel : Fin 64) (s : State) : Res := done (s.cueFire channel.val (fun s => s.softLevel channel.val true))

/-- CUE_FIRE_CLEAR (R302). -/
def execCueFireClear (channel : Fin 64) (s : State) : Res := done (s.cueFire channel.val (fun s => s.softLevel channel.val false))

/-- CHANNEL_REENABLE (R304). -/
def execChannelReenable (channel : Fin 64) (s : State) : Res :=
  done (s.whenever (s.bit CUE_CHDIS.MAP channel.val) (fun s => s.chanEnable channel.val))

/-- A disabled filter is enabled again (R301). -/
def State.filtEnable (s : State) (f : Nat) : State :=
  s.whenever (s.bit CUE_FDIS.MAP f) (fun s =>
    ((s.putBit CUE_FDIS.MAP f false).setFilt f { s.filt f with count := 0 }).filtPass f s.clk.cycles)

/-- FILTER_REENABLE (R301). -/
def execFilterReenable (filter : Fin 40) (s : State) : Res := done (s.filtEnable filter.val)

end Sys2Proof.Machine
end

