-- ==== Sys2Proof/Machine/Fabric.lean ====
section
/-!
DEFINITION. Meanings of the commands of the fabric (13_fabric.md, R276 to R294).
-/

namespace Sys2Proof.Machine

/-! ## Receiving (R281, R284, R285) -/


/-- A packet SIX is late, or early (R16). -/
def State.isLate (s : State) (six : Nat) : Bool :=
  let n := s.dwellOf six
  let im := s.governing n
  decide ((im.val Scr.ING_LATE_WINDOW : Int) ≤ sixDiff s.houseSix (im.startSix (n + 1)))
def State.isEarly (s : State) (six : Nat) : Bool :=
  decide (((s.governing (s.dwellOf six)).val Scr.ING_EARLY_WINDOW : Int) ≤ sixDiff six s.houseSix)

/-- A late or early packet pulses its producer (R297). -/
def State.windowPulse (s : State) (six : Nat) : State := if s.isLate six then s.pulse 107 else s.pulse 108

/-- The last claim heard from a chip; null when it has been forgotten (R329). -/
def State.heardClaim (s : State) (chip : Nat) : Claim :=
  match Tbl.get s.fab.claims none chip with | some (e, r, _) => (e, r) | none => (0, 0)

/-- The claim check of R284 for a packet of dwell `n` from `src`: `kind` tells targets and input groups apart. -/
def State.claimCheck (s : State) (p src : Nat) (n : Int) (kind : Nat) : State × Bool :=
  match (s.governing n).pairOf src with
  | none => (s, true)
  | some (a, b) =>
    let other := if src = a then b else a
    let key := (a, n, kind)
    match s.fab.choice.find? (fun e => e.1 == key) with
    | some e => if e.2 = src then (s, true) else (s.incF (FAB_P_DISC1.CLAIM p) 1, false)
    | none =>
      if !claimGreater (s.heardClaim src) (s.heardClaim other) then (s.incF (FAB_P_DISC1.CLAIM p) 1, false)
      else
        let last := (s.fab.choice.filter (fun e => e.1.1 == a)).getLast?
        let s := { s with fab.choice := s.fab.choice ++ [(key, src)] }
        let c := s.heardClaim src
        (match last with
          | some e => if e.2 = src then s else s.emit (fabSrc p) 0x0A04 src (c.1 + 2 ^ 16 * c.2) 0
          | none => s, true)

/-- A packet for another chip goes on, or is discarded (R281). -/
def State.forward (s : State) (p : Nat) (h : BitVec 256) (pay : List Byte) : State :=
  let dst := hdr h 16 11
  let q := s.routeAt (s.packetDwell h) dst
  if hdr h 12 4 ≤ 1 || q = 15 || !s.fabUp q then (s.noRoute p dst (hdr h 4 4)).release p h
  else match poolOf (hdr h 4 4) (hdr h 8 4) with
    | some pool => s.enqueue q pool (1 + p) (h - BitVec.ofNat 256 (2 ^ 12)) pay
    | none => s

/-- A port takes a packet of a class: true when it is for this chip. -/
def State.fabArrive (s : State) (p : Nat) (fecBad : Bool) (h : BitVec 256) (pay : List Byte) (cls op : Nat) : State × Bool :=
  match s.fabTake p fecBad h cls op with
  | (s, false) => (s, false)
  | (s, true) => if hdr h 16 11 = s.chip then (s, true) else (s.forward p h pay, false)

/-- The vector an INPUT packet carries (R280, R285): an invalid code makes its lane invalid. -/
def inputVect (h : BitVec 256) (six : Nat) (pay : List Byte) : OutVect :=
  let z := hdr h 150 2
  let w := 2 ^ z
  let data := (List.range 64).map (fun l => leNat ((pay.drop (l * w)).take w))
  let bad (v : Nat) : Bool := if z = 0 then v == 0x88 else if z = 1 then v == 0x8080 else v == 0x80008000
  let valid := (data.zipIdx.filter (fun q => !bad q.1)).foldl (fun m q => m + 2 ^ q.2) 0
  { sub := none, stream := 0, size := z, fine := hdr h 147 3, six := six, ch := hdr h 128 12, tcr := 0, group := hdr h 140 7,
    pres := BitVec.ofNat 64 (hdr h 160 64), valid := BitVec.ofNat 64 valid &&& BitVec.ofNat 64 (hdr h 160 64), data := data,
    sentBursts := 0 }

/-- An INPUT packet for this chip (R284, R285): samples of a group in the window that the script of their dwell gives the port
wait on its receive line, and keep their units of the receive buffer until the mover has taken them. -/
def State.inputTaken (s : State) (p : Nat) (h : BitVec 256) (pay : List Byte) : State :=
  let six := s.packetSix h
  let n := s.dwellOf six
  let g := hdr h 140 7
  match s.claimCheck p (hdr h 32 11) n (4 * g) with
  | (s, false) => s.release p h
  | (s, true) =>
    let win := (s.governing n).el Scr.FAB_IN_WIN p
    if hdr h 8 4 ≠ 0 || g < bitsOf win 0 7 || bitsOf win 0 7 + bitsOf win 7 8 ≤ g then
      (s.incF (FAB_P_DISC1.WINDOW p) 1).release p h
    else if s.isLate six || s.isEarly six then ((s.incF (FAB_P_DISC1.LATE p) 1).windowPulse six).release p h
    else { s with fab.rxq := s.fab.rxq ++ [(p, inputVect h six pay)] }

/-- FABRIC_INPUT (R284, R285). -/
def execFabricInput (port : Fin 8) (fecBad : Bool) (header : BitVec 256) (payload : List Byte) (s : State) : Res :=
  let p := port.val
  let op := hdr header 8 4
  done (match s.fabArrive p fecBad header payload 3 (if op ≤ 1 then op else 0) with
    | (s, false) => s
    | (s, true) => s.inputTaken p header payload)

/-! ## Remote adds (R286) -/

/-- The parts of an ADD packet or end mark. -/
def addTarget (h : BitVec 256) : Nat := hdr h 128 1
def addRec (h : BitVec 256) : Nat := if addTarget h = 0 then 0 else hdr h 160 17
def addLineNo (h : BitVec 256) : Nat := if addTarget h = 0 then hdr h 160 46 else hdr h 177 28
def State.addDwell (s : State) (h : BitVec 256) : Int := expand32 (hdr h 96 32) s.houseDwell

/-- The key under which ADD packets are counted. -/
def State.addKey (s : State) (h : BitVec 256) : Nat × Int × Nat × Nat :=
  (hdr h 32 11, s.addDwell h, addTarget h, addRec h)

/-- A target the chip refuses. -/
def State.addRefused (s : State) (h : BitVec 256) : Bool :=
  let n := s.addDwell h
  if addTarget h = 0 then (s.integImage n).visPeer || bitsOf ((s.integImage n).val Scr.PRD_VIS) 41 6 == 0
  else bitsOf ((s.governing n).val Scr.BEM_STAGE) 0 17 == 0

/-- ADD packets accepted under a key. -/
def State.addsSeen (s : State) (k : Nat × Int × Nat × Nat) : Nat :=
  match s.fab.addsSeen.find? (fun e => e.1 == k) with | some e => e.2 | none => 0

/-- One more ADD packet accepted. -/
def State.addSeen (s : State) (k : Nat × Int × Nat × Nat) : State :=
  { s with fab.addsSeen := s.fab.addsSeen.filter (fun e => e.1 != k) ++ [(k, s.addsSeen k + 1)] }

/-- What becomes of an ADD packet or mark, with the bank or record it opens. -/
def State.addAccept (s : State) (h : BitVec 256) : State × Accept :=
  let n := s.addDwell h
  if addTarget h = 0 then s.accept n
  else match s.recAccept (addRec h) n with
    | .apply => (s.recOpen (addRec h) n, .apply)
    | r => (s, r)

/-- A late one. -/
def State.addLate (s : State) (h : BitVec 256) : State :=
  if addTarget h = 0 then s.late (s.addDwell h) (hdr h 32 11) false else s.recLate (addRec h) (s.addDwell h) true

/-- The lines of an ADD packet enter the store through port RADD. -/
def State.addLinesIn (s : State) (h : BitVec 256) (pay : List Byte) : State :=
  let n := s.addDwell h
  let fmt := hdr h 129 1
  let mask := hdr h 132 16
  s.each (List.range (hdr h 130 2 + 1)) (fun s i =>
    let op := leNat ((pay.drop (64 * i)).take 64)
    if addTarget h = 0 then s.bankAdd 4 (s.bankNo n) fmt (addLineNo h + i) mask op
    else s.agentAdd 4 ((s.governing n).recAddr (addRec h) + 64 * (addLineNo h + i)) fmt mask op)

/-- A mark of a stream counts (R286): it sets its flags in the product. -/
def State.markIn (s : State) (m : EndMark) : State :=
  if m.target = 0 then
    let b := s.bankNo m.dwell
    let held := s.getF (bankStateF b) = 1 && decide ((s.bank b).integ = s.integ m.dwell)
    let s := if m.flags = 0 then s else if held then s.flagBank b m.flags else s.markDwell m.dwell m.flags allSubs
    s.mark m.dwell m.src
  else match s.recAccept m.record m.dwell with
    | .late => s.recLate m.record m.dwell true
    | _ =>
      let s := s.recOpen m.record m.dwell
      (s.flagRec m.record m.flags).recMark m.record m.dwell (m.flags.testBit 0) (m.flags.testBit 1)

/-- Marks whose count has been reached count. -/
def State.marksDue (s : State) : State :=
  let due (m : EndMark) : Bool := s.addsSeen (m.src, m.dwell, m.target, m.record) == m.count
  let ms := s.fab.waitMarks.filter due
  ({ s with fab.waitMarks := s.fab.waitMarks.filter (fun m => !due m) } : State).each ms State.markIn

/-- Deliver an ADD packet: it applies, is late, or waits for the close or release it needs. -/
def State.deliverAdd (s : State) (p : Nat) (h : BitVec 256) (pay : List Byte) : State :=
  if s.addRefused h then (s.incF (FAB_P_DISC1.REFUSED p) 1).release p h else
  match s.addAccept h with
  | (s, .late) => (s.addLate h).release p h
  | (s, .wait) => { s with fab.addWait := s.fab.addWait ++ [(p, h, pay)] }
  | (s, .apply) =>
    let before := s.getF STO_DENY.COUNT
    let s := (s.addLinesIn h pay).release p h
    if s.getF STO_DENY.COUNT ≠ before then s.incF (FAB_P_DISC1.REFUSED p) 1
    else (s.addSeen (s.addKey h)).marksDue

/-- The bank of dwell `n` takes nothing more for its integration (R261). -/
def State.visLate (s : State) (n : Int) : Bool :=
  let b := s.bankNo n
  let k := s.bank b
  let st := s.getF (bankStateF b)
  st != 0 && (decide (s.integ n < k.integ) || (decide (s.integ n = k.integ) && (st == 2 || k.closing)))

/-- An end mark that comes too late for its product (R246, R261). -/
def State.markLate (s : State) (h : BitVec 256) : Bool :=
  if addTarget h = 0 then s.visLate (s.addDwell h) else s.recAccept (addRec h) (s.addDwell h) = .late

/-- Deliver an end mark: one that arrives early waits for the count, one of a record that is not free waits for the release. -/
def State.deliverMark (s : State) (p : Nat) (h : BitVec 256) : State :=
  if s.addRefused h then (s.incF (FAB_P_DISC1.REFUSED p) 1).release p h else
  if s.markLate h then (s.addLate h).release p h else
  let wait := addTarget h = 1 && s.recAccept (addRec h) (s.addDwell h) = .wait
  if wait then { s with fab.addWait := s.fab.addWait ++ [(p, h, [])] }
  else
    let m : EndMark := ⟨p, hdr h 32 11, s.addDwell h, addTarget h, addRec h, addLineNo h, hdr h 132 3⟩
    (({ s with fab.waitMarks := s.fab.waitMarks ++ [m] } : State).release p h).marksDue

/-- Packets that waited for a close or a release are delivered again, in order. -/
def State.retryAdds (s : State) : State :=
  let l := s.fab.addWait
  ({ s with fab.addWait := [] } : State).each l (fun s q =>
    if hdr q.2.1 8 4 = 0 then s.deliverAdd q.1 q.2.1 q.2.2 else s.deliverMark q.1 q.2.1)

/-- FABRIC_ADD (R284, R286). -/
def execFabricAdd (port : Fin 8) (fecBad : Bool) (header : BitVec 256) (payload : List Byte) (s : State) : Res :=
  let p := port.val
  done (match s.fabArrive p fecBad header payload 4 0 with
    | (s, false) => s
    | (s, true) =>
      match s.claimCheck p (hdr header 32 11) (s.addDwell header) (4 * addTarget header + 1) with
      | (s, false) => s.release p header
      | (s, true) => s.deliverAdd p header payload)

/-- END_MARK (R284, R286). -/
def execEndMark (port : Fin 8) (fecBad : Bool) (header : BitVec 256) (s : State) : Res :=
  let p := port.val
  done (match s.fabArrive p fecBad header [] 4 1 with
    | (s, false) => s
    | (s, true) =>
      match s.claimCheck p (hdr header 32 11) (s.addDwell header) (4 * addTarget header + 1) with
      | (s, false) => s.release p header
      | (s, true) => s.deliverMark p header)

/-! ## Writes (R163, R287) -/

/-- A region takes peer writes at an address (R163). -/
def State.peerMayWrite (s : State) (a : Nat) : Bool := decide (a < s.capBytes) && s.portMayWrite 1 a

/-- A peer's write is carried out or denied, and acknowledged. -/
def State.peerWrite (s : State) (header : BitVec 256) (payload : List Byte) : State :=
  let src := hdr header 32 11
  let a := hdr header 96 38 / 64 * 64
  let ok := s.peerMayWrite a
  let s := if ok then s.agentWrite 1 a payload (2 ^ 64 - 1) else s.deny 1 a
  s.sendFab src (fabHeader 5 1 15 src s.chip 0 (hdr header 96 38 + 2 ^ 40 * b2n (!ok) + 2 ^ 46 * hdr header 72 8)) []

/-- FABRIC_WRITE (R287): the write is accepted where FW = 1, and acknowledged. -/
def execFabricWrite (port : Fin 8) (fecBad : Bool) (header : BitVec 256) (payload : List Byte) (s : State) : Res :=
  let p := port.val
  done (match s.fabArrive p fecBad header payload 5 0 with
    | (s, false) => s
    | (s, true) =>
      let src := hdr header 32 11
      match s.claimCheck p src s.houseDwell 2 with
      | (s, false) => s.release p header
      | (s, true) => (s.peerWrite header payload).release p header)

/-- A peer write was refused or not acknowledged: `why` 1 refused, 2 timeout (R287, R291). -/
def State.peerFailed (s : State) (m w why : Nat) : State :=
  let dst := w / 256 % 2048
  let s := s.setMover m { s.mover m with peerRefused := true }
  s.emit (fabSrc (s.route dst % 8)) 0x0A05 (w / 2 ^ 19) (dst + 4096 * why) 1

/-- The mover that waits for an acknowledgment of a chip and sequence number, with the entry. -/
def State.peerWait (s : State) (key : Nat) : Option (Nat × Nat) :=
  (List.range 28).findSome? (fun k => ((s.mover (32 + k)).peerWaits.find? (fun w => w % 2 ^ 19 == key)).map (fun w => (32 + k, w)))

/-- The entry is no longer awaited. -/
def State.peerDone (s : State) (m w : Nat) : State :=
  (s.setMover m { s.mover m with peerWaits := (s.mover m).peerWaits.erase w }).stopTimer (.peer m w)

/-- WRITE_ACK (R197, R287). -/
def execWriteAck (port : Fin 8) (fecBad : Bool) (header : BitVec 256) (s : State) : Res :=
  done (match s.fabArrive port.val fecBad header [] 5 1 with
    | (s, false) => s
    | (s, true) =>
      let s := s.release port.val header
      match s.peerWait (hdr header 32 11 * 256 + hdr header 142 8) with
      | none => s
      | some (m, w) =>
        let s := s.peerDone m w
        if hdr header 136 6 = 0 then s else s.peerFailed m w 1)

/-- WRITE_ACK_TIMEOUT (R287): a mover has waited FAB_ACK_TO. -/
def execWriteAckTimeout (mover : Fin 64) (seq : BitVec 8) (s : State) : Res :=
  let m := mover.val
  done (match (s.mover m).peerWaits.find? (fun w => w % 256 == seq.toNat) with
    | none => s
    | some w => ((s.lapse (.peer m w) (usCycles * s.sv Scr.FAB_ACK_TO)).peerDone m w).peerFailed m w 2)

/-! ## Beacons and claims (R62, R288, R329) -/

/-- A beacon's tag is compared with the tag of the same dwell here (R62). -/
def State.beaconTag (s : State) (src : Nat) (n : Int) (tag : Nat) : State :=
  let im := s.governing n
  let held := s.scr.images.isEmpty || s.scr.images.any (fun x => x.whole || decide (x.first ≤ n))
  if im.val Scr.SCP_BEACON_CHECK = 0 || !held || tag == im.tag then s else
  let s := (s.incF SCP_BEACON_MISMATCH.COUNT 1).pulse 110
  if s.scr.beaconSeen.contains (src, n) then s
  else (({ s with scr.beaconSeen := s.scr.beaconSeen ++ [(src, n)] } : State).attn 3).emitScript 0x1006 tag src

/-- A beacon names the neighbour of its port. -/
def State.beaconTaken (s : State) (p : Nat) (header : BitVec 256) : State :=
  let src := hdr header 32 11
  let s := (s.setF (FAB_P_STATUS.NEIGH p) src).setF (FAB_P_STATUS.NEIGH_VALID p) 1
  let s := { s with fab.beaconDwell := Tbl.set s.fab.beaconDwell (-1) p s.houseDwell }
  s.beaconTag src (toSigned 64 (hdr header 96 64)) (hdr header 160 64)

/-- BEACON (R62, R288, R329). -/
def execBeacon (port : Fin 8) (fecBad : Bool) (header : BitVec 256) (_payload : BitVec 256) (s : State) : Res :=
  let p := port.val
  done (match s.fabTake p fecBad header 6 0 with
    | (s, false) => s
    | (s, true) => (s.release p header).beaconTaken p header)

/-- BEACON_SEND (R288): outside iron, in every state but DARK, a port in UP or DEGRADED sends its beacon for the house dwell. -/
def execBeaconSend (port : Fin 8) (s : State) : Res :=
  done (s.whenever (s.fabUp port.val && !s.iron && s.getF PWR_STATUS.STATE != 3) (fun s => s.sendBeacon port.val))

/-- CLAIM_FORGET (R329): nothing has been received from a chip for 2 house dwells. -/
def execClaimForget (chip : Fin 2048) (s : State) : Res :=
  done (match Tbl.get s.fab.claims none chip.val with
    | none => s
    | some (_, _, n) =>
      if n + 2 ≤ s.houseDwell then { s with fab.claims := Tbl.set s.fab.claims none chip.val none } else s)

/-! ## Sending (R278, R279, R289) -/

/-- Credit a port holds in a pool. -/
def State.credit (s : State) (p q : Nat) : Nat := Tbl.get s.fab.credit 0 (poolKey p q)

/-- Change a credit. -/
def State.setCredit (s : State) (p q v : Nat) : State := { s with fab.credit := Tbl.set s.fab.credit 0 (poolKey p q) v }

/-- The first packet a port has queued in a pool. -/
def State.queued (s : State) (p q : Nat) : Option (Nat × Nat × BitVec 256 × List Byte) :=
  s.fab.txq.find? (fun e => e.1 == p && e.2.1 % 8 == q)


/-- A pool can send its first packet. In iron INPUT, ADD and WRITE stand still (R321). -/
def State.canSend (s : State) (p q : Nat) : Bool :=
  match s.queued p q with
  | some e => decide (packetUnits e.2.2.1 ≤ s.credit p q) && !(s.iron && 3 ≤ q)
  | none => false

/-- The pool that sends next: PAIR, BEACON, acknowledgments, then INPUT, ADD and WRITE in turn (R278). -/
def State.nextPool (s : State) (p : Nat) : Option Nat :=
  ([0, 1, 2].find? (s.canSend p)).orElse (fun _ =>
    let t := Tbl.get s.fab.turn 0 p
    ((List.range 3).map (fun i => 3 + (t + i) % 3)).find? (s.canSend p))

/-- The header as it is sent: the device's own packets carry the claim in force (R328). -/
def State.sentHeader (s : State) (own : Bool) (h : BitVec 256) : BitVec 256 :=
  let c := s.claim
  sealed (if own then putBits (putBits h.toNat 48 16 c.1) 64 4 c.2 else h.toNat)

/-- A queued packet leaves: it spends credit of its pool. -/
def State.packetOut (s : State) (p q : Nat) (e : Nat × Nat × BitVec 256 × List Byte) : State :=
  let s := { s with fab.txq := s.fab.txq.erase e,
                    fab.turn := if 3 ≤ q then Tbl.set s.fab.turn 0 p ((q - 2) % 3) else s.fab.turn }
  let s := (s.setCredit p q (s.credit p q - packetUnits e.2.2.1)).addF (FAB_P_PKT.TX p) 1
  let s := if e.2.1 < 8 then s else s.release (e.2.1 / 8 - 1) e.2.2.1
  (s.send (.packet p (s.sentHeader (e.2.1 < 8) e.2.2.1) e.2.2.2)).egqLevel p

/-- FABRIC_TRANSMIT (R278, R279): the port sends one packet. -/
def execFabricTransmit (port : Fin 8) (s : State) : Res :=
  let p := port.val
  done (s.whenever (s.fabUp p && s.flag (FAB_P_STATUS.CRED_OK p)) (fun s =>
    match s.nextPool p with
    | none => s
    | some q =>
      match s.queued p q with
      | none => s
      | some e => s.packetOut p q e))

/-- A credit unit leaves: per pool at most 255 of the units freed. -/
def State.creditOut (s : State) (p : Nat) : State :=
  let inc (q : Nat) : Nat := min 255 (Tbl.get s.fab.freed 0 (poolKey p q))
  let v := (List.range 6).foldl (fun v q => v + 2 ^ (16 + 8 * q) * inc q) (1 + 16 * 0xE) + 2 ^ 64 * s.getF (FAB_P_STATUS.DROP_REQ p)
  let s := s.each (List.range 6) (fun s q =>
    { s with fab.freed := Tbl.set s.fab.freed 0 (poolKey p q) (Tbl.get s.fab.freed 0 (poolKey p q) - inc q) })
  s.send (.packet p (sealed v) [])

/-- CREDIT_SEND (R279): the units freed since the last credit unit, with DROP_REQ. -/
def execCreditSend (port : Fin 8) (s : State) : Res :=
  let p := port.val
  done (s.whenever (s.fabUp p) (fun s => s.creditOut p))

/-- Bytes of an output vector as an INPUT packet carries them: an invalid lane is the invalid code (R280). -/
def OutVect.payload (v : OutVect) : List Byte :=
  (List.range 64).flatMap (fun l =>
    let bad := if v.size = 0 then 0x88 else if v.size = 1 then 0x8080 else 0x80008000
    leBytes (2 ^ v.size) (if v.valid.getLsbD l then v.data.getD l 0 else bad))

/-- Send an output vector of pit stream `j` (R289). A stream whose element is 0 sends nothing: the vector counts in PIT_NOROUTE
(R417). -/
def State.sendInput (s : State) (j : Nat) (v : OutVect) : State :=
  let e := (s.governing (s.dwellOf v.six)).el Scr.FAB_STREAM j
  if e = 0 then s.incF PIT_NOROUTE.COUNT 1 else
  let dst := bitsOf e 0 11
  let g := ofSigned 7 ((v.group : Int) + toSigned 8 (bitsOf e 11 8))
  let args := v.six % 2 ^ 32 + 2 ^ 32 * (v.ch % 4096) + 2 ^ 44 * g + 2 ^ 51 * v.fine + 2 ^ 54 * v.size + 2 ^ 64 * v.pres.toNat
  s.sendFab dst (fabHeader 3 (bitsOf e 19 1) (bitsOf e 20 4) dst s.chip (2 * 2 ^ v.size) args) v.payload

/-- The INPUT pool has room for a vector of pit stream `j`; a vector without a route is discarded at once (R281, R289, R417). -/
def State.inputRoom (s : State) (j : Nat) (v : OutVect) : Bool :=
  let n := s.dwellOf v.six
  let e := (s.governing n).el Scr.FAB_STREAM j
  let p := s.routeAt n (bitsOf e 0 11)
  if e = 0 || p = 15 || !s.fabUp p then true
  else
    let busy := (s.fab.txq.filter (fun e => e.1 == p && e.2.1 % 8 == 3)).foldl (fun n e => n + packetUnits e.2.2.1) 0
    decide (busy + 1 + 2 * 2 ^ v.size ≤ s.credit p 3)

/-- A cluster's output vectors for the fabric leave while the pool has room. -/
def State.outDrain (s : State) (c : Nat) : State :=
  (List.range 8).foldl (fun s _ =>
    let x := s.cluster c
    match x.outQ.find? (fun v => (s.governing (s.dwellOf v.six)).el Scr.PIT_OUT_ROUTE (4 * c + v.stream) == 2 &&
        s.inputRoom (4 * c + v.stream) v) with
    | some v => (s.setCluster c { x with outQ := x.outQ.erase v }).sendInput (4 * c + v.stream) v
    | none => s) s

/-- Credit returns: per pool up to its size. -/
def State.creditIn (s : State) (p : Nat) (header : BitVec 256) : State :=
  let s := s.setF (FAB_P_STATUS.CRED_OK p) 1
  let s := s.each (List.range 6) (fun s q =>
    s.setCredit p q (min (poolSize q) (s.credit p q + hdr header (16 + 8 * q) 8)))
  s.each (s.clu.map (fun e => e.1)) State.outDrain

/-- CREDIT_UNIT (R276, R279): credit returns, and vectors that were held off leave. -/
def execCreditUnit (port : Fin 8) (fecBad : Bool) (header : BitVec 256) (s : State) : Res :=
  let p := port.val
  done (if !s.fabUp p then s
    else if fecBad then s.incF (FAB_P_DISC0.FEC p) 1
    else if hcrcOf (header.toNat % 2 ^ 240) ≠ hdr header 240 16 then s.incF (FAB_P_DISC0.HCRC p) 1
    else if hdr header 4 4 ≠ 0xE then s.incF (FAB_P_DISC0.CLASS p) 1
    else s.creditIn p header)

end Sys2Proof.Machine
end

