-- ==== Sys2Proof/Machine/Operands.lean ====
section
/-!
DEFINITION. Operands of the pit (R131, R134, R139, R142, R145 to R147): the fields of a program word, operand forms, tags, the
phasor ROM, and circular addresses.
-/

namespace Sys2Proof.Machine

/-! ## Fields of a program word (R139, R142) -/

def wOp (w : Nat) : Nat := bitsOf w 58 6

def rDst (w : Nat) : Nat := bitsOf w 54 4
def rSa (w : Nat) : Nat := bitsOf w 50 4
def rSb (w : Nat) : Nat := bitsOf w 46 4
def rXa (w : Nat) : Nat := bitsOf w 44 2
def rXb (w : Nat) : Nat := bitsOf w 42 2
def rSh (w : Nat) : Nat := bitsOf w 37 5
def rNeg (w : Nat) : Bool := bitOf w 36
def rTb (w : Nat) : Bool := bitOf w 35
def rSc (w : Nat) : Nat := bitsOf w 31 4
def rFlag (w : Nat) : Nat := bitsOf w 31 2
def rW (w : Nat) : Nat := bitsOf w 29 2
def rSat (w : Nat) : Nat := bitsOf w 27 2
def rAcc (w : Nat) : Nat := bitsOf w 26 1
def rBias (w : Nat) : Bool := bitOf w 25
def rSrcr (w : Nat) : Bool := bitOf w 24

def iImm (w : Nat) : Nat := bitsOf w 34 16
def iSh (w : Nat) : Nat := bitsOf w 29 5
def iZa (w : Nat) : Bool := bitOf w 28
def iM (w : Nat) : Nat := bitsOf w 24 4

def tAcc (w : Nat) : Nat := bitsOf w 57 1
def tPm (w : Nat) : Nat := bitsOf w 55 2
def tKc (w : Nat) : Nat := bitsOf w 53 2
def tXa (w : Nat) : Nat := bitsOf w 51 2
def tNeg (w : Nat) : Bool := bitOf w 50
def tMv (w : Nat) : Bool := bitOf w 49
def tSh (w : Nat) : Nat := bitsOf w 44 5

def xReg (w : Nat) : Nat := bitsOf w 54 4
def xTag (w : Nat) : Nat := bitsOf w 50 4
def xDcl (w : Nat) : Nat := bitsOf w 48 2
def xLag (w : Nat) : Nat := bitsOf w 46 2
def xStream (w : Nat) : Nat := bitsOf w 44 2
def xFine (w : Nat) : Nat := bitsOf w 41 3
def xKf (w : Nat) : Nat := bitsOf w 37 4
def xFsel (w : Nat) : Nat := bitsOf w 35 2

def bCond (w : Nat) : Nat := bitsOf w 54 4
def bTarget (w : Nat) : Nat := bitsOf w 42 12
def bKb (w : Nat) : Nat := bitsOf w 38 4
def bNsel (w : Nat) : Nat := bitsOf w 37 1

def mOp (w : Nat) : Nat := bitsOf w 20 4
def mMd (w : Nat) : Nat := bitsOf w 16 4
def mMp (w : Nat) : Nat := bitsOf w 14 2
def mMm (w : Nat) : Nat := bitsOf w 12 2
def mImm (w : Nat) : Int := toSigned 12 (bitsOf w 0 12)

/-! ## Registers of a cluster (R131) -/

/-- Data register `r` of a lane. -/
def Cluster.dreg (x : Cluster) (bank lane r : Nat) : Nat := (Tbl.get x.d 0 ((bank * 64 + lane) * 16 + r % 16)).toNat

/-- Accumulator `i` of a lane as it has landed. -/
def Cluster.acc (x : Cluster) (bank lane i : Nat) : Int := (Tbl.get x.a 0 ((bank * 64 + lane) * 2 + i)).toInt

/-- Address, base and length register `n` of a lane. -/
def Cluster.preg (x : Cluster) (bank lane n : Nat) : Nat := (Tbl.get x.p 0 ((bank * 64 + lane) * 4 + n)).toNat
def Cluster.breg (x : Cluster) (lane n : Nat) : Nat := (Tbl.get x.b 0 (lane * 4 + n)).toNat
def Cluster.lreg (x : Cluster) (lane n : Nat) : Nat := (Tbl.get x.l 0 (lane * 4 + n)).toNat

/-- Coefficient pointer and counter `n`. -/
def Cluster.kreg (x : Cluster) (bank n : Nat) : Nat := (Tbl.get x.k 0 (bank * 4 + n)).toNat
def Cluster.nreg (x : Cluster) (bank n : Nat) : Nat := (Tbl.get x.n 0 (bank * 2 + n)).toNat

/-- A halfword of local and of coefficient memory. -/
def Cluster.local (x : Cluster) (lane a : Nat) : Nat := (Tbl.get x.lm 0 (lane * 1024 + a % 1024)).toNat
def Cluster.coef (x : Cluster) (a : Nat) : Nat := (Tbl.get x.cm 0 (a % 16384)).toNat

/-- The newest result in flight for a place. -/
def Cluster.inFlight (x : Cluster) (bank : Nat) (d : Dest) (ok : Flight → Bool) : Option Flight :=
  (x.flights.filter (fun f => f.bank == bank && decide (f.dest = d) && ok f)).getLast?

/-- Accumulator `i` as a MAC or TAPM sees it: forwarded (R143). -/
def Cluster.accFwd (x : Cluster) (bank lane i : Nat) : Int :=
  match x.inFlight bank (.a i) (fun _ => true) with
  | some f => toSigned 40 (f.vals.getD lane 0)
  | none => x.acc bank lane i

/-- Pn and Kn as a TAPM sees them: what an earlier TAPM has just made of them is forwarded (R143). -/
def Cluster.pFwd (x : Cluster) (bank lane n : Nat) : Nat :=
  match x.inFlight bank (.p n) (fun f => f.byTapm) with
  | some f => f.vals.getD lane 0
  | none => x.preg bank lane n
def Cluster.kFwd (x : Cluster) (bank n : Nat) : Nat :=
  match x.inFlight bank (.k n) (fun f => f.byTapm) with
  | some f => f.vals.getD 0 0
  | none => x.kreg bank n

/-! ## What an instruction reads -/

/-- An issue: the cluster before it, its logical number, the register bank (1 is the shadow bank), the page in force, PIT_LAYOUT,
the side, and the word. -/
structure Ctx where
  x : Cluster
  clu : Nat
  bank : Nat
  page : Nat
  layout : Nat
  beam : Bool
  w : Nat
  deriving DecidableEq, Repr

/-- The newest vector of the history. -/
def Ctx.h0 (q : Ctx) : Option Vect := q.x.hist.head?

/-- A number from h0; a cleared history reads 0 (DEDUCED, log 23). -/
def Ctx.ofH0 (q : Ctx) (f : Vect → Nat) : Nat := match q.h0 with | some v => f v | none => 0

/-- TMS (R134). -/
def Ctx.tms (q : Ctx) : Nat := (q.ofH0 (fun v => v.six) + (2 ^ 64 - q.x.mref % 2 ^ 64)) % 65536

/-- TBLK (R134, R157). -/
def Ctx.tblk (q : Ctx) : Nat :=
  (8 * bitsOf q.layout 0 7 + q.page * (8 * 2 ^ bitsOf q.layout 7 3) +
    q.ofH0 (fun v => v.tun) * (8 * 2 ^ bitsOf q.layout 10 3)) % 1024

/-- VALID of a lane of h0. -/
def Ctx.vld (q : Ctx) (lane : Nat) : Bool := match q.h0 with | some v => v.valid.getLsbD lane | none => false

/-- A tag (R134), as an unsigned halfword. -/
def Ctx.tag (q : Ctx) (lane code : Nat) : Nat :=
  if code = 0 then q.ofH0 (fun v => v.ch)
  else if code = 1 then q.ofH0 (fun v => v.tcr) % 65536
  else if code = 2 then q.ofH0 (fun v => v.tun)
  else if code = 3 then q.tms
  else if code = 4 then q.page
  else if code = 5 then q.tblk
  else if code = 6 then lane
  else if code = 7 then q.ofH0 (fun v => v.six) % 65536
  else if code = 8 then b2n (q.vld lane)
  else if code = 9 then (match q.h0 with | some v => b2n (v.pres.getLsbD lane) | none => 0)
  else if code = 10 then q.x.ecx
  else if code = 11 then q.clu
  else 0

/-- Operand forms XA and XB (R139). -/
def form (f v : Nat) : Int :=
  if f = 0 then toSigned 16 v else if f = 1 then toSigned 8 v else if f = 2 then toSigned 8 (v / 256)
  else ((v % 65536 : Nat) : Int)

/-- Data register of the issue's bank. -/
def Ctx.d (q : Ctx) (lane r : Nat) : Nat := q.x.dreg q.bank lane r

/-- Operands a and b of format R. -/
def Ctx.a (q : Ctx) (lane : Nat) : Int := form (rXa q.w) (q.d lane (rSa q.w))
def Ctx.b (q : Ctx) (lane : Nat) : Int :=
  if rTb q.w then (q.tag lane (rSb q.w) : Int) else form (rXb q.w) (q.d lane (rSb q.w))

/-- Operand Da of format I. -/
def Ctx.ia (q : Ctx) (lane : Nat) : Nat := if iZa q.w then 0 else q.d lane (rSa q.w)

/-- The 16 bits of an integer, and a signed reading of them. -/
def half (v : Int) : Nat := ofSigned 16 v
def shalf (v : Int) : Int := toSigned 16 (ofSigned 16 v)

/-- Flag of SEL, CNT and VCLR in a lane: 0 GT, 1 EQ, 2 LT; of a comparison value. -/
def Ctx.cmpFlag (q : Ctx) (lane k : Nat) : Bool := (Tbl.get q.x.cmp 0 (q.bank * 64 + lane)).getLsbD k

/-- Flag of SEL and CNT; 3 is VLD. -/
def Ctx.flagOf (q : Ctx) (lane k : Nat) : Bool := if k = 3 then q.vld lane else q.cmpFlag lane k

/-! ## Circular addresses (R147) -/

/-- Post-modify by `m`: the new address, and whether it fell back to the base. -/
def circ (p b l : Nat) (m : Int) : Nat × Bool :=
  if l = 0 then ((((p : Int) + m) % 1024).toNat, false)
  else
    let o2 : Int := ((p + 1024 - b % 1024) % 1024 : Nat) + m
    let o3 := if (l : Int) ≤ o2 then o2 - l else if o2 < 0 then o2 + l else o2
    if o3 < 0 || decide ((l : Int) ≤ o3) then (b, true) else ((((b : Int) + o3) % 1024).toNat, false)

/-- Pn after a write of Ln (R147). Ln = 0 makes it linear and leaves it. -/
def circWrite (p b l : Nat) : Nat × Bool :=
  let o := (p + 1024 - b % 1024) % 1024
  if l = 0 || decide (o < l) then (p, false)
  else if o - l < l then ((b + (o - l)) % 1024, false)
  else (b, true)

/-! ## The phasor ROM (R146) -/

def sinRom0 : List Nat :=
  [0, 201, 402, 603, 804, 1005, 1206, 1407, 1608, 1809, 2009, 2210, 2410, 2611, 2811, 3012, 3212, 3412, 3612, 3811, 4011,
   4210, 4410, 4609, 4808, 5007, 5205, 5404, 5602, 5800, 5998, 6195]

def sinRom1 : List Nat :=
  [6393, 6590, 6786, 6983, 7179, 7375, 7571, 7767, 7962, 8157, 8351, 8545, 8739, 8933, 9126, 9319, 9512, 9704, 9896, 10087,
   10278, 10469, 10659, 10849, 11039, 11228, 11417, 11605, 11793, 11980, 12167, 12353]

def sinRom2 : List Nat :=
  [12539, 12725, 12910, 13094, 13279, 13462, 13645, 13828, 14010, 14191, 14372, 14553, 14732, 14912, 15090, 15269, 15446,
   15623, 15800, 15976, 16151, 16325, 16499, 16673, 16846, 17018, 17189, 17360, 17530, 17700, 17869, 18037]

def sinRom3 : List Nat :=
  [18204, 18371, 18537, 18703, 18868, 19032, 19195, 19357, 19519, 19680, 19841, 20000, 20159, 20317, 20475, 20631, 20787,
   20942, 21096, 21250, 21403, 21554, 21705, 21856, 22005, 22154, 22301, 22448, 22594, 22739, 22884, 23027]

def sinRom4 : List Nat :=
  [23170, 23311, 23452, 23592, 23731, 23870, 24007, 24143, 24279, 24413, 24547, 24680, 24811, 24942, 25072, 25201, 25329,
   25456, 25582, 25708, 25832, 25955, 26077, 26198, 26319, 26438, 26556, 26674, 26790, 26905, 27019, 27133]

def sinRom5 : List Nat :=
  [27245, 27356, 27466, 27575, 27683, 27790, 27896, 28001, 28105, 28208, 28310, 28411, 28510, 28609, 28706, 28803, 28898,
   28992, 29085, 29177, 29268, 29358, 29447, 29534, 29621, 29706, 29791, 29874, 29956, 30037, 30117, 30195]

def sinRom6 : List Nat :=
  [30273, 30349, 30424, 30498, 30571, 30643, 30714, 30783, 30852, 30919, 30985, 31050, 31113, 31176, 31237, 31297, 31356,
   31414, 31470, 31526, 31580, 31633, 31685, 31736, 31785, 31833, 31880, 31926, 31971, 32014, 32057, 32098]

def sinRom7 : List Nat :=
  [32137, 32176, 32213, 32250, 32285, 32318, 32351, 32382, 32412, 32441, 32469, 32495, 32521, 32545, 32567, 32589, 32609,
   32628, 32646, 32663, 32678, 32692, 32705, 32717, 32728, 32737, 32745, 32752, 32757, 32761, 32765, 32766]

/-- The first quadrant of the sine. -/
def sinRom : List Nat :=
  sinRom0 ++ sinRom1 ++ sinRom2 ++ sinRom3 ++ sinRom4 ++ sinRom5 ++ sinRom6 ++ sinRom7 ++ [32767]

/-- sin(2πk / 1,024) × 32,767, rounded to the nearest integer. -/
def romSin (k : Nat) : Int :=
  let j := k % 1024
  if j ≤ 256 then (sinRom.getD j 0 : Int)
  else if j ≤ 512 then (sinRom.getD (512 - j) 0 : Int)
  else if j ≤ 768 then -(sinRom.getD (j - 512) 0 : Int)
  else -(sinRom.getD (1024 - j) 0 : Int)

/-- cos(2πk / 1,024) × 32,767, rounded to the nearest integer. -/
def romCos (k : Nat) : Int := romSin (k + 256)

end Sys2Proof.Machine
end

