-- ==== Sys2Proof/Machine/Flags.lean ====
section
/-!
DEFINITION. Flags and reductions of the pit (R131, R143 to R145): comparison flags, sticky flags, accumulator overflow and the
reductions of EXT and QPK.
-/

namespace Sys2Proof.Machine

/-! ## Sticky flags, by bit -/

def fOV (i : Nat) : Nat := 2 ^ i
def fSAT : Nat := 4
def fCBW : Nat := 8
def fWCONF : Nat := 16

/-- Comparison flags of a signed difference: bit 0 GT, 1 EQ, 2 LT. -/
def cmpFlags (v : Int) : BitVec 3 := if 0 < v then 1 else if v = 0 then 2 else 4

/-- An accumulator wraps modulo 2^40; an exact result outside its range is an overflow (R145). -/
def accFit (v : Int) : Nat × Bool := (ofSigned 40 v, decide (v < -(2 ^ 39 : Int)) || decide ((2 ^ 39 : Int) ≤ v))

/-- Reduction to width `w` (R145): 0 wrap, 1 saturation, 2 symmetric saturation; and whether a saturation changed the value. -/
def reduce (w sat : Nat) (v : Int) : Int × Bool :=
  let top : Int := (2 ^ (w - 1) : Nat) - 1
  if sat = 0 then (toSigned w (ofSigned w v), false)
  else
    let low : Int := if sat = 1 then -top - 1 else -top
    let r := max low (min top v)
    (r, decide (r ≠ v))

/-- The source of EXT and QPK after bias and shift: truncated toward minus infinity (R145). -/
def biased (src : Int) (bias : Bool) (bw : BitVec 32) (sh : Nat) : Int :=
  fdiv (src + (if bias then (bw.toNat : Int) else 0)) ((2 ^ sh : Nat) : Int)

/-- Sticky flags set in a lane. -/
def Cluster.stick (x : Cluster) (lane m : Nat) : Cluster :=
  if m = 0 then x
  else { x with sticky := Tbl.set x.sticky 0 lane (Tbl.get x.sticky 0 lane ||| BitVec.ofNat 5 m) }

/-- Sticky flags set in every lane. -/
def Cluster.stickAll (x : Cluster) (m : Nat) : Cluster := (List.range 64).foldl (fun x l => x.stick l m) x

/-- Sticky flags cleared in every lane. -/
def Cluster.unstick (x : Cluster) (m : Nat) : Cluster :=
  (List.range 64).foldl (fun x l =>
    { x with sticky := Tbl.set x.sticky 0 l (Tbl.get x.sticky 0 l &&& ~~~(BitVec.ofNat 5 m)) }) x

/-- The flags any lane holds, and ILL: bits OV0, OV1, SAT, CBW, WCONF, ILL. -/
def Cluster.flagsOr (x : Cluster) : Nat := x.sticky.foldl (fun m e => m ||| e.2.toNat) (if x.ill then 32 else 0)

/-- Lanes that hold a sticky flag (R158). -/
def Cluster.laneMap (x : Cluster) : Nat := x.sticky.foldl (fun m e => if e.2 = 0 then m else m ||| 2 ^ e.1) 0

end Sys2Proof.Machine
end

