-- ==== Sys2Proof/Machine/RingOps.lean ====
section
/-!
DEFINITION. What the ring commands share (02_host_interface_and_rings.md, R34 to R48, R418, R419): page rights, the admin
rings, empty rings, lost entries and the sizes of rings.
-/

namespace Sys2Proof.Machine

/-- Event source of the host interface (R45, R309). -/
def hstSrc : Nat := 0x004

/-- An access of `size` bytes at a BAR0 offset is naturally aligned 32-bit or 64-bit (R32). -/
def accessOk (off size : Nat) : Bool := (size == 4 || size == 8) && off % size == 0

/-- An access that R32 does not accept. -/
def State.badAccess (s : State) : State := s.setF HST_ERR.BADACC 1

/-! ## Doorbell pages (R34, R37, R419) -/

/-- The page that owns a ring. -/
def pageOfRing (r : Nat) : Nat := r / 1024

/-- The owner byte of a page. -/
def State.pageByte (s : State) (p : Nat) : Nat := s.se Scr.HST_PAGE_OWNER p

/-- A page is VALID. -/
def State.pageValid (s : State) (p : Nat) : Bool := p == 0 || bitOf (s.pageByte p) 7

/-- A page is ADMIN. -/
def State.pageAdmin (s : State) (p : Nat) : Bool := p == 0 || bitOf (s.pageByte p) 6

/-- The subarray of a page. -/
def State.pageSub (s : State) (p : Nat) : Nat := bitsOf (s.pageByte p) 0 6

/-- An event of the host interface about a ring (R45, R419). -/
def State.hstEvent (s : State) (r code d0 d1 : Nat) : State :=
  s.emitFor (if pageOfRing r = 0 then [] else [s.pageSub (pageOfRing r)]) hstSrc code d0 d1 0

/-! ## Admin rings (R40) -/

/-- Bytes of an entry of a ring kind. -/
def entryBytes (kind : Nat) : Nat := if kind = 0 then 64 else 32

/-- A new ring context: both indices 0 (R43). The values of an admin ring stand here: its interrupts are enabled, one message per
entry and no timer, and its event ring takes every class (DESIGN CHOICE, log 32: the spec gives rings 0 to 2 no such values). -/
def Ring.fresh (kind log2 base : Nat) : Ring where
  kind := kind
  log2 := log2
  base := base
  prod := 0
  cons := 0
  error := false
  cplRing := 1
  vector := 0
  irqEn := true
  modCount := 1
  modTime := 0
  subSel := 0
  subAll := true
  minClass := 0
  cache := false
  pinned := false
  resize := none
  settling := false
  held := []
  lostFirst := 0
  lostCount := 0
  sinceMsg := 0
  exec := none

/-- Bytes a ring takes in host memory. -/
def Ring.bytes (x : Ring) : Nat := entryBytes x.kind * x.size

/-- Two rings overlap in host memory. -/
def Ring.overlaps (x y : Ring) : Bool := decide (x.base < y.base + y.bytes) && decide (y.base < x.base + x.bytes)

/-- An admin ring as its register gives it. -/
def State.adminRing (s : State) (kind : Nat) (log2 base : Fld) : Ring := Ring.fresh kind (s.getF log2) (s.getF base * 4096)

/-- The admin rings 0, 1 and 2: command, completion, event. -/
def State.adminRings (s : State) : Ring × Ring × Ring :=
  (s.adminRing 0 HST_ADM_CMD.LOG2SIZE HST_ADM_CMD.BASE, s.adminRing 1 HST_ADM_CPL.LOG2SIZE HST_ADM_CPL.BASE,
   s.adminRing 3 HST_ADM_EVT.LOG2SIZE HST_ADM_EVT.BASE)

/-- A size and a base that an admin ring may have. -/
def Ring.adminOk (x : Ring) : Bool := decide (4 ≤ x.log2) && decide (x.log2 ≤ 24) && x.base != 0

/-- The three admin registers can be used (R40). -/
def State.adminOk (s : State) : Bool :=
  let q := s.adminRings
  q.1.adminOk && q.2.1.adminOk && q.2.2.adminOk &&
    !q.1.overlaps q.2.1 && !q.1.overlaps q.2.2 && !q.2.1.overlaps q.2.2

/-- ENABLE changes from 0 to 1 (R40). -/
def State.enable (s : State) : State :=
  if s.flag HST_CTRL.ENABLE then s
  else
    let s := s.setF HST_CTRL.ENABLE 1
    if !s.adminOk then s.setF HST_ERR.ADM_CFG 1
    else
      let q := s.adminRings
      let s := ((s.setRing 0 (some q.1)).setRing 1 (some q.2.1)).setRing 2 (some q.2.2)
      (((s.cacheCtx 0).cacheCtx 1).cacheCtx 2).setF HST_STATUS.RUNNING 1

/-! ## Rings that fill and drain (R46, R48) -/

/-- A ring is empty. A command posted on ring `by_` that acts on that ring is still executing (R48). -/
def Ring.empty (x : Ring) : Bool := x.prod == x.cons && x.exec.isNone

/-- A ring with a new size and base: both indices 0, PHASE 1 (R48). -/
def Ring.moved (x : Ring) (log2 base : Nat) : Ring :=
  { x with log2 := log2, base := base, prod := 0, cons := 0, sinceMsg := 0, resize := none }

/-- The pending resize of a ring is dropped (R48). -/
def State.dropResize (s : State) (r : Nat) (x : Ring) : State :=
  match x.resize with
  | some q => s.hstEvent r 0x0B08 q.2 (r * 2 ^ 14)
  | none => s

/-- A ring may be named by a command from a page (R37). -/
def Exec.mayName (e : Exec) (from_ r : Nat) : Bool := e.admin || pageOfRing r == pageOfRing from_

/-- The ring a ring command names (R43, R44, R48). -/
def Exec.target (e : Exec) : Nat := e.arg 64 18

/-! ## Opcodes (R37, R41, R418) -/

/-- The opcodes the chapters define. -/
def opcodes : List Nat :=
  [0x00, 0x01, 0x02, 0x03, 0x04, 0x10, 0x11, 0x12, 0x13, 0x20, 0x21, 0x30, 0x31, 0x32, 0x40, 0x41, 0x42, 0x43, 0x44, 0x50,
   0x60, 0x61, 0x62, 0x63, 0x70, 0x71]

/-- An opcode only ADMIN pages may issue. -/
def adminOpcode (op : Nat) : Bool :=
  (decide (0x10 ≤ op) && decide (op ≤ 0x1F)) || (decide (0x40 ≤ op) && decide (op ≤ 0x5F)) ||
    (decide (0x60 ≤ op) && decide (op ≤ 0x63))

/-- A command outside its page's rights (R37). -/
def Exec.denied (e : Exec) : Bool := !e.admin && (adminOpcode e.op || e.arg 16 6 != e.sub)

/-- An entry that waits, for its number or for space, destroys ring `r` when it is written (R44). -/
def State.condemned (s : State) (r : Nat) : Bool :=
  s.host.notices.any (fun n => match n with | .completion _ _ _ _ _ _ _ _ _ g => g == some r | .product _ _ _ _ _ _ => false) ||
    s.host.rings.any (fun p => match p.2 with | some x => x.held.any (fun h => h.gone == some r) | none => false)

/-- Ring `r` is about to be destroyed (R44). -/
def State.dying (s : State) (r : Nat) : Bool :=
  s.condemned r || s.host.rings.any (fun p => p.1 != r && (match p.2 with
    | some x => x.exec.any (fun e => e.op == 0x02 && e.target == r)
    | none => false))

/-- A completion of command ring `t`, whose completion ring is `c`, has still to be written (R44). -/
def State.owesCompletion (s : State) (t c : Nat) : Bool :=
  s.host.notices.any (fun n => match n with | .completion _ _ r _ _ _ _ _ _ _ => r == t | .product _ _ _ _ _ _ => false) ||
    (match s.ring c with | some x => x.held.any (fun h => bitsOf h.entry 96 18 == t) | none => false)

end Sys2Proof.Machine
end

