-- ==== Sys2Proof/Machine/PitOps.lean ====
section
/-!
DEFINITION. The cycle of a pit cluster (R131 to R153): what a word does, when results land, branches, stalls, the taking of
vectors, swaps and flips.
-/

namespace Sys2Proof.Machine

/-! ## What a word does -/

/-- The effects of an issue: results that land later, comparison flags per lane, sticky flags per lane, ILL, lanes saturated,
local memory writes, a counter, the bias word, a branch target, whether two delay positions follow, RTI, sticky flags cleared, the
history after VCLR. -/
structure Eff where
  flights : List Flight
  cmp : List (BitVec 3)
  sticky : List Nat
  ill : Bool
  satN : Nat
  lm : List (Nat × Nat)
  setN : Option (Nat × Nat)
  setBw : Option Nat
  jump : Option Nat
  delay : Bool
  rti : Bool
  clear : Nat
  hist : Option (List Vect)
  deriving DecidableEq, Repr

/-- No effect. -/
def Eff.nop : Eff := ⟨[], [], [], false, 0, [], none, none, none, false, false, 0, none⟩

/-- A word whose code is reserved: NOP, and ILL. -/
def Eff.bad : Eff := { Eff.nop with ill := true }

/-- One value per lane. -/
def perLane {α : Type} (f : Nat → α) : List α := (List.range 64).map f

/-- A result of the main operation for a data register, an accumulator. -/
def Ctx.toD (q : Ctx) (r left : Nat) (f : Nat → Nat) : Flight := ⟨left, q.bank, .d (r % 16), perLane f, false, false⟩
def Ctx.toA (q : Ctx) (i left : Nat) (f : Nat → Nat) : Flight := ⟨left, q.bank, .a i, perLane f, false, false⟩

/-- The main operation writes Pn, Bn or Ln: its n. -/
def mainP (w : Nat) : Option Nat :=
  if wOp w = 0x26 then some (bitsOf w 54 2)
  else if wOp w = 0x33 && xDcl w = 1 then some (xReg w % 4)
  else none

/-- The local address of an M operation in a lane (R142). -/
def Ctx.mAddr (q : Ctx) (lane : Nat) : Nat :=
  let p := q.x.preg q.bank lane (mMp q.w)
  let m := mMm q.w
  if m = 0 then (((p : Int) + mImm q.w) % 1024).toNat
  else if m = 1 then p
  else if m = 2 then (((q.tblk : Int) + mImm q.w) % 1024).toNat
  else (((p : Int) + 2 * (q.tag lane 1 : Int) + mImm q.w) % 1024).toNat

/-- The coefficient address of an M operation. -/
def Ctx.cAddr (q : Ctx) : Nat :=
  let k := q.x.kreg q.bank (mMp q.w)
  if mMm q.w = 0 then (((k : Int) + mImm q.w) % 16384).toNat else k

/-- The post-modify of an M operation (R142, R144, R147). -/
def Ctx.mPost (q : Ctx) : List Flight × List Nat :=
  let n := mMp q.w
  if mMm q.w ≠ 1 then ([], [])
  else if 5 ≤ mOp q.w then
    ([⟨2, q.bank, .k n, [(((q.x.kreg q.bank n : Int) + mImm q.w) % 16384).toNat], true, false⟩], [])
  else if mainP q.w = some n then ([], List.replicate 64 fWCONF)
  else
    let r := perLane (fun l => circ (q.x.preg q.bank l n) (q.x.breg l n) (q.x.lreg l n) (mImm q.w))
    ([⟨2, q.bank, .p n, r.map (fun v => v.1), true, false⟩], r.map (fun v => if v.2 then fCBW else 0))

/-- The effects of the M operation (R142, R143). -/
def Ctx.mEff (q : Ctx) : Eff :=
  let o := mOp q.w
  let md := mMd q.w
  let res (r : Nat) (f : Nat → Nat) : Flight := ⟨3, q.bank, .d (r % 16), perLane f, true, false⟩
  if o = 0 then Eff.nop
  else if wOp q.w = 0x03 || 6 < o || (5 ≤ o && 2 ≤ mMm q.w) then Eff.bad
  else
    let post := q.mPost
    let e := { Eff.nop with sticky := post.2 }
    let ev (a : Nat) : Nat := a / 2 * 2
    if o = 1 then { e with flights := [res md (fun l => q.x.local l (q.mAddr l))] ++ post.1 }
    else if o = 2 then
      { e with flights := [res md (fun l => q.x.local l (ev (q.mAddr l))), res (md + 1) (fun l => q.x.local l (ev (q.mAddr l) + 1))]
                 ++ post.1 }
    else if o = 3 then
      { e with lm := perLane (fun l => (l * 1024 + q.mAddr l, q.d l md)), flights := post.1 }
    else if o = 4 then
      { e with lm := perLane (fun l => (l * 1024 + ev (q.mAddr l), q.d l md)) ++
                 perLane (fun l => (l * 1024 + ev (q.mAddr l) + 1, q.d l (md + 1))), flights := post.1 }
    else if o = 5 then { e with flights := [res md (fun _ => q.x.coef q.cAddr)] ++ post.1 }
    else { e with flights := [res md (fun _ => q.x.coef (ev q.cAddr)), res (md + 1) (fun _ => q.x.coef (ev q.cAddr + 1))] ++ post.1 }

/-! ## Landing (R143, R144) -/

/-- A result lands in its register. -/
def Cluster.write (x : Cluster) (f : Flight) : Cluster :=
  let v (l : Nat) : Nat := f.vals.getD l 0
  match f.dest with
  | .d r => { x with d := (List.range 64).foldl (fun t l => Tbl.set t 0 ((f.bank * 64 + l) * 16 + r) (BitVec.ofNat 16 (v l))) x.d }
  | .a i => { x with a := (List.range 64).foldl (fun t l => Tbl.set t 0 ((f.bank * 64 + l) * 2 + i) (BitVec.ofNat 40 (v l))) x.a }
  | .p n => { x with p := (List.range 64).foldl (fun t l => Tbl.set t 0 ((f.bank * 64 + l) * 4 + n) (BitVec.ofNat 10 (v l))) x.p }
  | .b n => { x with b := (List.range 64).foldl (fun t l => Tbl.set t 0 (l * 4 + n) (BitVec.ofNat 10 (v l))) x.b }
  | .l n => { x with l := (List.range 64).foldl (fun t l => Tbl.set t 0 (l * 4 + n) (BitVec.ofNat 11 (v l))) x.l }
  | .k n => { x with k := Tbl.set x.k 0 (f.bank * 4 + n) (BitVec.ofNat 14 (v 0)) }

/-- Two results are for one register. -/
def Flight.same (f g : Flight) : Bool := f.bank == g.bank && decide (f.dest = g.dest)

/-- The end of a cycle: results land; where the main operation's and the M operation's meet, the main operation's is kept and
WCONF is set. -/
def Cluster.land (x : Cluster) : Cluster :=
  let due := x.flights.filter (fun f => decide (f.left ≤ 1))
  let lost (f : Flight) : Bool := f.byM && due.any (fun g => !g.byM && g.same f)
  let rest := (x.flights.filter (fun f => decide (1 < f.left))).map (fun f => { f with left := f.left - 1 })
  let y := (due.filter (fun f => !lost f)).foldl Cluster.write { x with flights := rest }
  if due.any lost then y.stickAll fWCONF else y

/-! ## The cycle -/

/-- What an issue reads. -/
def State.ctx (s : State) (c : Nat) : Ctx :=
  let x := s.cluster c
  let n := match x.hist.head? with | some v => v.dwell | none => s.houseDwell
  { x := x, clu := c, bank := s.getF (PIT_C_STATUS.HANDLER c), page := s.getF (PIT_C_STATUS.TPG c),
    layout := (s.governing n).el Scr.PIT_LAYOUT c, beam := s.flag (PIT_C_STATUS.SIDE c),
    w := (Tbl.get x.prog 0 (s.getF (PIT_C_STATUS.BANK c) * 4096 + x.next)).toNat }

/-- A cluster issues: its program runs, the pit is clocked and not held in reset, and it has not stopped for iron. -/
def State.pitReady (s : State) (c : Nat) : Bool :=
  s.flag (PIT_C_STATUS.RUN c) && s.getF PWR_STATUS.STATE = 0 && !s.bit PWR_BLKRST.BITS 0 &&
    decide ((s.cluster c).stopLeft ≠ some 0)

/-- PIT_Cn_FLAGS shows the flags that some lane holds (R158). A flag that was clear, or that `cleared` names and that is set again,
writes event 0x0402 (R156). -/
def State.pitFlags (s : State) (c pc cleared : Nat) : State :=
  let old := s.getF (PIT_C_FLAGS.BITS c)
  let now := (s.cluster c).flagsOr
  let new := now &&& (63 - (old &&& (63 - cleared)))
  let s := s.setF (PIT_C_FLAGS.BITS c) now
  if new = 0 then s else s.emitFor (s.pitSubs c) (s.pitSrc c) 0x0402 (c + 2 ^ 8 * new) pc 1

/-- The cycle ends for cluster `c`, whose state before it was `x`, with the flags that an FCLR of it has cleared. -/
def State.cycleEnd (s : State) (c : Nat) (x : Cluster) (cleared : Nat) : State :=
  let y := { x with stopLeft := x.stopLeft.map (fun n => n - 1) }
  (s.setCluster c y.land).pitFlags c (s.getF (PIT_C_STATUS.PC c)) cleared

/-- The word after the one at `next`, with the branches in their delay positions (R143). -/
def Cluster.stepPc (x : Cluster) (e : Eff) : Cluster :=
  let rs := x.redirects.map (fun (r : Nat × Nat) => (r.1 - 1, r.2))
  let next := match rs.find? (fun r => r.1 == 0) with
    | some r => r.2
    | none => (x.next + 1) % 4096
  let new := match e.jump with | some t => [(2, t)] | none => []
  { x with next := next, redirects := rs.filter (fun r => r.1 != 0) ++ new, delay := if e.delay then 2 else x.delay - 1 }

/-- RTI's delay positions run out: the word at the saved address issues in the main bank, after an input that is pending (R150). -/
def State.rtiStep (s : State) (c : Nat) (rti : Bool) : State :=
  let x := s.cluster c
  match x.rtiLeft with
  | none => if rti then s.setCluster c { x with rtiLeft := some 2 } else s
  | some n =>
    if 1 < n then s.setCluster c { x with rtiLeft := some (n - 1) }
    else (s.setCluster c { x with rtiLeft := none, next := x.savedPc, redirects := [], delay := 0, atReturn := x.pitq != 0,
                                  ecx := 0 }).setF (PIT_C_STATUS.HANDLER c) 0

/-- The effects of one of the two operations on a cluster. -/
def Cluster.apply (x : Cluster) (bank : Nat) (e : Eff) : Cluster :=
  let x := if e.clear = 0 then x else x.unstick e.clear
  let x := e.sticky.zipIdx.foldl (fun x m => Cluster.stick x m.2 m.1) x
  { x with
    flights := x.flights ++ e.flights,
    cmp := e.cmp.zipIdx.foldl (fun t m => Tbl.set t 0 (bank * 64 + m.2) m.1) x.cmp,
    ill := x.ill || e.ill,
    lm := e.lm.foldl (fun t m => Tbl.set t 0 m.1 (BitVec.ofNat 16 m.2)) x.lm,
    n := match e.setN with | some (i, v) => Tbl.set x.n 0 (bank * 2 + i) (BitVec.ofNat 16 v) | none => x.n,
    bw := match e.setBw with | some v => BitVec.ofNat 32 v | none => x.bw,
    hist := e.hist.getD x.hist }

/-- The word at the program counter issues with the effects of its main operation; `s` may have taken a vector since `q` was
read. -/
def State.issue (s : State) (c : Nat) (q : Ctx) (e : Eff) : State :=
  let m := q.mEff
  let x := s.cluster c
  let y := ((x.apply q.bank e).apply q.bank m).stepPc e
  let s := (s.setF (PIT_C_STATUS.PC c) x.next).incF (PIT_C_SAT.COUNT c) e.satN
  let s := (s.setF (PIT_C_STATUS.IN_WAIT c) 0).setF (PIT_C_STATUS.OUT_WAIT c) 0
  (s.cycleEnd c { y with sinceIn := x.sinceIn + 1 } e.clear).rtiStep c e.rti

/-- The word waits: nothing issues, results in flight go on. LOOP_MAX counts the cycles of an OUT, not those of an IN (R136, R158). -/
def State.stall (s : State) (c : Nat) (f : Fld) : State :=
  let x := s.cluster c
  (s.setF f 1).cycleEnd c { x with sinceIn := if f = PIT_C_STATUS.OUT_WAIT c then x.sinceIn + 1 else x.sinceIn } 0

/-- The word of cluster `c` issues now, and has the operation code `op`. -/
def State.pitIssues (s : State) (c op : Nat) : Bool :=
  s.pitReady c && !(s.cluster c).atReturn && wOp (s.ctx c).w = op

/-- Issue the word of cluster `c` if its operation code is `op`. -/
def State.pitOp (s : State) (c op : Nat) (f : Ctx → Eff) : State :=
  s.whenever (s.pitIssues c op) (fun s => s.issue c (s.ctx c) (f (s.ctx c)))

/-! ## Waiting commands (R153, R155) -/

/-- A PIT_LOCAL_WRITE with FLIP ends when every running cluster it names has flipped: LATE is the lowest one's. A cluster that does
not run flips at its first vector, and nothing waits for it (DESIGN CHOICE, log 24). -/
def State.flipsDone (s : State) (r : Nat) : State :=
  let cs := (List.range 128).filter (fun c => (s.cluster c).flipRing == some r)
  if cs.all (fun c => (s.cluster c).flipDone.isSome || !s.flag (PIT_C_STATUS.RUN c)) then
    let late := (cs.findSome? (fun c => (s.cluster c).flipDone)).getD false
    let s := s.each cs (fun s c => s.setCluster c { s.cluster c with flipRing := none, flipDone := none })
    match s.running r 0x30 with
    | some e => s.complete r e stOk (b2n late) 0
    | none => s
  else s

/-- The SIX a cluster has taken for a ring's coefficient write: none when the ring has none there. -/
def Cluster.coefFor (x : Cluster) (r : Nat) : Option (Option Nat) :=
  (x.coefRings.find? (fun q => q.1 == r)).map (fun q => q.2)

/-- A PIT_COEF_WRITE ends when every running cluster it names has taken a vector after it: RESULT is the lowest one's (log 24).
Where none has, the spec gives no SIX: a free value. -/
def State.coefsDone (s : State) (r : Nat) : State :=
  let cs := (List.range 128).filter (fun c => ((s.cluster c).coefFor r).isSome)
  if cs.all (fun c => (s.cluster c).coefFor r != some none || !s.flag (PIT_C_STATUS.RUN c)) then
    let taken := cs.findSome? (fun c => ((s.cluster c).coefFor r).getD none)
    let six := taken.getD s.free
    let s := if taken.isNone then s.drew else s
    let s := s.each cs (fun s c =>
      s.setCluster c { s.cluster c with coefRings := (s.cluster c).coefRings.filter (fun q => q.1 != r) })
    match s.running r 0x32 with
    | some e => s.complete r e stOk six 0
    | none => s
  else s

/-- Local memory of 64 lanes as host memory holds it, lane-major. -/
def Cluster.localBytes (x : Cluster) (first count : Nat) : List Byte :=
  (List.range 64).flatMap (fun l => (List.range count).flatMap (fun i => leBytes 2 (x.local l (first + i))))

/-- A PIT_LOCAL_READ takes its snapshot and completes. Before the first vector RESULT is not stated: a free value. -/
def State.localRead (s : State) (c r : Nat) : State :=
  match s.running r 0x31 with
  | none => s
  | some e =>
    let x := s.cluster c
    let six := match x.lastTaken with | some v => v.six | none => s.free
    let s := if x.lastTaken.isNone then s.drew else s
    let data := x.localBytes (e.arg 72 10) (e.arg 82 11)
    (s.hostPut (e.arg 128 64) data).complete r e stOk six 0

/-- Coefficient writes take their place between two vectors. -/
def Cluster.coefWrite (x : Cluster) (first : Nat) (hs : List Nat) : Cluster :=
  { x with cm := hs.zipIdx.foldl (fun t m => Tbl.set t 0 (first + m.2) (BitVec.ofNat 16 m.1)) x.cm }

/-- What waits for the gap between two vectors (R153). -/
def State.betweenVectors (s : State) (c : Nat) : State :=
  let x := s.cluster c
  let y := x.coefPend.foldl (fun x p => x.coefWrite p.1 p.2) { x with coefPend := [], readRings := [] }
  (s.setCluster c y).each x.readRings (fun s r => s.localRead c r)

/-! ## Swaps (R151, R152) -/

/-- The dwell of a swap whose image governs every dwell: it is that of the first vector the cluster would take (R152). -/
def swapAny : Int := -(2 ^ 64)

/-- A cluster has a swap that a vector of dwell `n` brings on. -/
def Cluster.swapDue (x : Cluster) (n : Int) : Bool := match x.swapDwell with | some k => decide (k ≤ n) | none => false

/-- Every issued result lands. -/
def Cluster.drain (x : Cluster) : Cluster := x.land.land.land

/-- The cluster becomes idle: commands wait for it no longer. -/
def State.goIdle (s : State) (c : Nat) : State :=
  let x := (s.cluster c).drain
  let s := s.setCluster c { x with swapDwell := none, swapIdle := false, hist := [], next := 0, redirects := [], delay := 0 }
  let s := ((s.setF (PIT_C_STATUS.RUN c) 0).setF (PIT_C_STATUS.SWAP_PEND c) 0).setF (PIT_C_STATUS.IN_WAIT c) 0
  (s.each x.flipRing.toList State.flipsDone).each (x.coefRings.map (fun q => q.1)) State.coefsDone

/-- The swap at a vector of dwell `n` (R152). -/
def State.swapAt (s : State) (c : Nat) (n : Int) : State :=
  let x := (s.cluster c).drain
  let k := match x.swapDwell with | some k => if k = swapAny then n else k | none => n
  if x.swapIdle then s.goIdle c
  else
    let bank := 1 - s.getF (PIT_C_STATUS.BANK c)
    let s := s.setCluster c { x with swapDwell := none, hist := [], next := 0, redirects := [], delay := 0, mref := s.startSix k,
                                     sinceIn := 0 }
    let s := (((s.setF (PIT_C_STATUS.BANK c) bank).setF (PIT_C_STATUS.RUN c) 1).setF (PIT_C_STATUS.SWAP_PEND c) 0).setF
      (PIT_C_STATUS.IN_WAIT c) 0
    let s := s.setFlag (PIT_C_STATUS.SIDE c) (bitOf ((s.governing k).el Scr.PIT_CLU_PROG c) 4)
    s.emitFor [s.cluOwner c k] (s.pitSrc c) 0x0401 (c + 2 ^ 8 * bank) (dwell32 k) 0

/-! ## Taking vectors (R132, R135, R153) -/

/-- The last vector's dwell has come to its boundary: a later vector waits, or it has closed and none waits (R135). -/
def State.atBoundary (s : State) (c : Nat) : Bool :=
  let x := s.cluster c
  match x.lastTaken with
  | none => false
  | some w =>
    !x.nulled && x.nullsLeft = 0 &&
      (match x.inQ with
       | v :: _ => decide (w.dwell < v.dwell)
       | [] => decide (w.dwell ≤ s.seq.closed))

/-- Three null vectors are handed to the program (R135). -/
def State.startNulls (s : State) (c : Nat) : State :=
  if s.atBoundary c then s.setCluster c { s.cluster c with nullsLeft := 3 } else s

/-- The null vector: no lane present, the tags of the last real vector. -/
def Vect.nullOf (v : Vect) : Vect :=
  { v with pres := 0, valid := 0, null := true, samples := List.replicate 64 0, ims := List.replicate 64 0 }

/-- A flip applies at the vector taken (R153). -/
def State.flipAt (s : State) (c six : Nat) : State :=
  let x := s.cluster c
  match x.flipSix with
  | none => s
  | some f =>
    if x.flipLate || decide (0 ≤ sixDiff six f) then
      let page := 1 - s.getF (PIT_C_STATUS.TPG c)
      let s := s.setCluster c { x with flipSix := none, flipLate := false, flipDone := some x.flipLate, mref := f }
      let s := (s.setF (PIT_C_STATUS.TPG c) page).setF (PIT_C_STATUS.FLIP_PEND c) 0
      let s := s.emitFor (s.pitSubs c) (s.pitSrc c) 0x0403 six (c + 2 ^ 8 * b2n x.flipLate + 2 ^ 9 * page) 0
      match x.flipRing with | some r => s.flipsDone r | none => s
    else s

/-- The program takes a vector: history, counts, flips and waiting coefficient writes follow. -/
def State.takeVect (s : State) (c : Nat) (v : Vect) : State :=
  let x := s.cluster c
  let s := if x.hist.isEmpty then s else s.setF (PIT_C_CYC.LOOP_MAX c) (max (s.getF (PIT_C_CYC.LOOP_MAX c)) (min 65535 x.sinceIn))
  let s := s.setCluster c { x with hist := (v :: x.hist).take 4, sinceIn := 0,
                                   lastTaken := if v.null then x.lastTaken else some v,
                                   topSix := some (match x.topSix with
                                     | some t => if sixDiff t v.six < 0 then v.six else t
                                     | none => v.six),
                                   nulled := if v.null then x.nulled else false,
                                   coefRings := x.coefRings.map (fun (q : Nat × Option Nat) => (q.1, some (q.2.getD v.six))) }
  let s := (s.addF (PIT_C_VEC.COUNT c) 1).flipAt c v.six
  s.each (x.coefRings.map (fun q => q.1)) (fun s r => s.coefsDone r)

/-- A null vector is taken; after the third the flush marker of the dwell is ready (R135). -/
def State.takeNull (s : State) (c : Nat) : State × Option Vect :=
  let x := s.cluster c
  match x.lastTaken with
  | none => (s.setCluster c { x with nullsLeft := 0 }, none)
  | some w =>
    let last := decide (x.nullsLeft ≤ 1)
    let s := s.setCluster c { x with nullsLeft := x.nullsLeft - 1, nulled := x.nulled || last,
                                     nullDone := if last then x.nullDone ++ [w.dwell] else x.nullDone }
    (s.takeVect c w.nullOf, some w.nullOf)

/-- A vector arrives at a cluster's input queue. An idle cluster that waits for its program starts it at the vector (R152). -/
def State.pushVect (s : State) (c : Nat) (v : Vect) : State :=
  let x := s.cluster c
  let s := s.setCluster c { x with inQ := x.inQ ++ [v] }
  let s := s.setF (PIT_C_CYC.QHW c) (max (s.getF (PIT_C_CYC.QHW c)) (x.inQ.length + 1))
  if !s.flag (PIT_C_STATUS.RUN c) && x.swapDue v.dwell then s.swapAt c v.dwell else s

/-- A cluster receives vectors of dwell `n`: it runs, or its program starts at that dwell. -/
def State.cluTakes (s : State) (c : Nat) (n : Int) : Bool :=
  s.flag (PIT_C_STATUS.RUN c) || ((s.cluster c).swapDue n && !(s.cluster c).swapIdle && !s.cluRetired c)

/-- A vector that no cluster takes is discarded (R133, R156): counted, and reported at most once per port and dwell. A retired
cluster's marks its dwell DEGRADED (R341). Port 31 is the beam side; which cluster's source reports a beam vector that no route covers
is not stated: a free value. -/
def State.lostVect (s : State) (p : Nat) (c : Option Nat) (v : Vect) : State :=
  let s := s.incF PIT_NOROUTE.COUNT 1
  let s := if c.any s.cluRetired then s.condDwell v.dwell fDegraded else s
  if s.ing.noRouteSeen.contains (p, s.houseDwell) then s
  else
    let beam := decide (24 ≤ p)
    let src := c.getD (s.free % 128)
    let s := if beam && c.isNone then s.drew else s
    ({ s with ing.noRouteSeen := s.ing.noRouteSeen ++ [(p, s.houseDwell)] } : State).emitFor (if beam then [] else s.ingSubs p)
      (if beam then s.pitSrc src else 0x020 + p) 0x0404 v.six (p + 2 ^ 5 * v.group + 2 ^ 12 * v.ch) 0

/-- FLOW follows the lane-to-pit queue: 1 above three quarters, 2 while packets are discarded (R118). -/
def State.showFlow (s : State) (p : Nat) (full : Bool) : State :=
  s.setF (ING_P_STATUS.FLOW p)
    (if full then 2 else if 3 * (Config.laneQueue + 1) < 4 * (s.port p).queue.length then 1 else 0)

/-- The lane-to-pit queue of a port is full (R14). -/
def State.laneFull (s : State) (p : Nat) : Bool := decide (Config.laneQueue < (s.port p).queue.length)

/-- The first vector of a port's lane-to-pit queue enters its cluster's input queue, when that has room. -/
def State.pumpOne (s : State) (p : Nat) : State :=
  let x := s.port p
  match x.queue with
  | [] => s
  | [] :: rest => s.setPort p { x with queue := rest }
  | ((c, v) :: vs) :: rest =>
    let t := s.setPort p { x with queue := vs :: rest }
    if !s.cluTakes c v.dwell then t.lostVect p (some c) v
    else if (s.cluster c).inQ.length < 64 then t.pushVect c v
    else s

/-- A port's vectors enter as long as there is room; a queue that has drained discards no packet any more. -/
def State.pumpPort (s : State) (p : Nat) : State :=
  let s := (List.range ((s.port p).queue.foldl (fun n l => n + 1 + l.length) 0)).foldl (fun s _ => s.pumpOne p) s
  if 24 ≤ p then s else s.showFlow p (s.getF (ING_P_STATUS.FLOW p) = 2 && s.laneFull p)

/-- Every ingest port whose queue holds something. -/
def State.pump (s : State) : State :=
  (s.ing.port.map (fun e => e.1)).foldl (fun s p => s.pumpPort p) s

/-- What an IN or INA comes to: it takes a vector, or something else happens in the cycle. -/
def State.nextVect (s : State) (c : Nat) : State × Option Vect :=
  let s := (s.betweenVectors c).startNulls c
  let x := s.cluster c
  if 0 < x.nullsLeft then s.takeNull c
  else
    match x.inQ with
    | [] =>
      if x.swapIdle && x.swapDue (s.seq.closed + 1) then (s.goIdle c, none) else (s.stall c (PIT_C_STATUS.IN_WAIT c), none)
    | v :: rest =>
      let new := match x.lastTaken with | some w => decide (w.dwell < v.dwell) | none => true
      if new && x.faulty then (s.takeOver c (s.startSix v.dwell), none)
      else if x.swapDue v.dwell then (s.swapAt c v.dwell, none)
      else (((s.setCluster c { x with inQ := rest }).takeVect c v).pump, some v)

/-- IN and INA: `f` gives the results for the vector taken. In a handler they are NOP and set ILL (R150); a cluster that is to
stop for iron stops here (R321). -/
def State.pitTake (s : State) (c op : Nat) (f : Ctx → Vect → List Flight) : State :=
  s.whenever (s.pitIssues c op) (fun s =>
    let q := s.ctx c
    if q.bank = 1 then s.issue c q Eff.bad
    else if q.x.stopLeft.isSome then s.setCluster c { q.x with stopLeft := some 0 }
    else match s.nextVect c with
      | (s, none) => s
      | (s, some v) => s.issue c { q with x := { q.x with cm := (s.cluster c).cm } } { Eff.nop with flights := f q v })

end Sys2Proof.Machine
end

