-- ==== Sys2Proof/Machine/Seq.lean ====
section
/-!
DEFINITION. Meanings of the commands of the dwell sequencer and the stage (R17 to R24, R206 to R228, R232 to R247): replay,
passes, drains, weight loads and staging records.
-/

namespace Sys2Proof.Machine

/-- The stage and the sequencer act. -/
def State.stageOn (s : State) : Bool := !s.iron && s.getF PWR_STATUS.STATE = 0 && !s.seq.halted

/-! ## Replay (R17, R221, R238) -/

/-- The image's plan reserves weight banks for some partition. -/
def Image.reservesAny (im : Image) : Bool := (List.range im.parts).any (fun p => im.reserves p)

/-- The RESV map of an image. -/
def Image.resvMap (im : Image) : Nat :=
  ((List.range im.parts).filter (fun p => im.reserves p)).foldl (fun m p => m + 2 ^ p) 0

/-- The image changes the mode, a format or a reservation in force (R221, R236). -/
def State.fmtChange (s : State) (im : Image) : Bool :=
  im.mode != s.getF STG_STATUS.PMODE || im.resvMap != s.getF BEM_STATUS.RESV ||
    (List.range im.parts).any (fun p => im.fmt p != s.getF (STG_PART.FMT p))

/-- A drain is still to finish. -/
def State.draining (s : State) : Bool :=
  s.seq.part.any (fun x => x.slots.any (fun q => decide (q.st = .draining) || decide (q.st = .waiting)))

/-- The bank that holds an image's weights. Weights with equal digests are taken to be equal. -/
def State.weightBank (s : State) (im : Image) : Option Nat :=
  [0, 1].find? (fun b => match s.bem.wbank.getD b none with | some w => decide (w.weights = im.weights) | none => false)

/-- A new reservation at a replay gives both banks free (R238). -/
def State.newBanks (s : State) (im : Image) : State :=
  if ((List.range 16).any (fun p => (Nat.testBit im.resvMap p) && !s.bit BEM_STATUS.RESV p)) then
    let s := { s with bem.wbank := [none, none], bem.wload := none }
    ((s.setF BEM_WDIG0.TAG 0).setF BEM_WDIG1.TAG 0).setF BEM_STATUS.LOAD_BUSY 0
  else s

/-- A partition at the start of a replay. -/
def State.partStart (s : State) (im : Image) (p : Nat) : State :=
  let x := s.part p
  let s := s.setPart p { x with
    nextEntry := 0, ended := decide (im.parts ≤ p), pass := none, wing := none,
    feed := 0, oversub := false, out := 0, outOver := false }
  if im.parts ≤ p then s
  else (s.setF (STG_PART.FMT p) (im.fmt p)).setF (STG_PART.CSLOTS p) (im.cslots p)

/-- The replay of dwell `n` starts. -/
def State.replay (s : State) (n : Int) : State :=
  let im := s.governing n
  let s := s.retireAll
  let s := if s.seq.fmtHeld = 0 then s else
    (s.putBit STG_EVT.BITS 4 true).emit stgSrc 0x0705 s.seq.fmtHeld (dwell32 n) 0
  let s := { s with
    seq.ringWait := s.seq.ringWait.filter (fun k => decide (k ≠ n)), seq.replay := some n, seq.fmtHeld := 0, seq.lateReads := [] }
  let s := (s.newBanks im).setF BEM_STATUS.RESV im.resvMap
  let s := s.setF BEM_STATUS.ACT_BANK ((s.weightBank im).getD (s.getF BEM_STATUS.ACT_BANK))
  let s := (((s.setF STG_STATUS.PMODE im.mode).setF STG_STATUS.REPLAY 1).setF STG_STATUS.STOPPED 0).setF STG_STATUS.FMT_WAIT 0
  let s := (s.setF STG_DWELL.DWELL (ofSigned 64 n)).pulse 91
  let s := if s.narrowed im then s.condDwell n fDegraded else s
  let s := if im.planInvalid then (s.condDwell n fPartial).raiseFor [] seqSrc 0x0002 3 false (ofSigned 31 n) else s
  let s := s.each (List.range 16) (fun s p => s.partStart im p)
  let s := s.each (List.range im.parts) (fun s p => s.checkPart im n p)
  if (List.range im.parts).all (fun p => (s.part p).ended) then s.endReplay n else s

/-- REPLAY_START (R17, R221): the oldest dwell that waits, once nothing is replayed. A hold counts its cycles by the attempts made
(log 29). -/
def execReplayStart (s : State) : Res :=
  done (match s.seq.ringWait with
    | [] => s
    | n :: _ =>
      if !s.stageOn || s.seq.replay.isSome then s
      else if s.fmtChange (s.governing n) && s.draining then
        { s.setF STG_STATUS.FMT_WAIT 1 with seq.fmtHeld := s.seq.fmtHeld + 1 }
      else s.replay n)

/-! ## Passes (R21, R22, R219, R220, R228) -/

/-- Blocks are resident-capable (R227). -/
def Image.residentOk (im : Image) : Bool := decide (im.wb * im.dlen * im.bc * im.parts ≤ 67108864)

/-- The slabs a pass of partition `p` streams from the store: operands not in the wings, and the block it loads. -/
def State.streams (s : State) (im : Image) (p e : Nat) : List (Nat × Nat) :=
  let x := s.part p
  let blocks := if opOf e = 0 then (if rowbOf e = colbOf e then [rowbOf e] else [rowbOf e, colbOf e])
    else (List.range im.segments).map (fun g => rowbOf e + g)
  let far := (blocks.filter (fun b => !x.holds (chanOf e) b)).map (fun b => (chanOf e, b))
  far ++ (if loadOf e then [(loadcOf e, loadbOf e)] else [])

/-- A read of these slabs must wait for flush markers of dwell `n` (R189): a page that has waited its time no longer does. -/
def State.unflushed (s : State) (n : Int) (l : List (Nat × Nat)) : Bool :=
  s.seq.pages.any (fun e => e.1.1 == n && l.contains (e.1.2.1, e.1.2.2.1) && !s.seq.lateReads.contains e.2) &&
    !(s.markersOwed n).isEmpty

/-- A partition waits a cycle for its operands. -/
def State.feedStall (s : State) (p : Nat) : State :=
  let s := s.incF (STG_STALL.FEED p) 1
  s.setPart p { s.part p with stallFeed := (s.part p).stallFeed + 1 }

/-- The replay reads slabs, whose granules it waits for (R175): accesses that meet poison are counted (R165). -/
def State.readSlabs (s : State) (im : Image) (n : Int) (l : List (Nat × Nat)) : State :=
  s.awaitStore.each l (fun s q => s.incF STO_PSN_RD.COUNT (s.poisonReads im n q.1 q.2))

/-- The entry partition `p` comes to now, if it has operation `op`: the dwell, its number and word. -/
def State.entryNow (s : State) (p op : Nat) : Option (Int × Nat × Nat) :=
  match s.seq.replay with
  | none => none
  | some n =>
    let im := s.governing n
    let x := s.part p
    if !s.stageOn || x.ended || x.pass.isSome || decide (im.parts ≤ p) then none
    else match x.next im.plan p with
      | some (i, e) => if opOf e = op then some (n, i, e) else none
      | none => none

/-- The pass in progress of partition `p`, if it has operation `op`. -/
def State.passNow (s : State) (p op : Nat) : Option (Int × Nat × Nat) :=
  match s.seq.replay, (s.part p).pass with
  | some n, some i =>
    let e := (s.governing n).plan.getD i 0
    if s.stageOn && opOf e = op then some (n, i, e) else none
  | _, _ => none

/-- The lowest FREE correlation slot, when R220 allows a pass. -/
def State.freeSlot (s : State) (im : Image) (p : Nat) : Option Nat :=
  let l := (s.part p).slots.take (im.cslots p)
  let waiting := (l.filter (fun q => decide (q.st = .waiting))).length
  if waiting + 2 ≤ im.cslots p then (l.zipIdx.find? (fun q => decide (q.1.st = .free))).map (fun q => q.2) else none

/-- Bytes per stage cycle that a pass takes from the store for `k` streamed slabs, a LOAD among them (R228). -/
def Image.feedCost (im : Image) (e k : Nat) : Nat := k * (im.wb * im.bc) / (if opOf e = 1 then 2 else im.planes)

/-- The feeder shares 2,048 bytes per stage cycle among the passes that run (R228): past that, each of them waits for operands now and
then. -/
def State.feedShare (s : State) (p k : Nat) : State :=
  let s := s.setPart p { s.part p with feed := k, pages := (s.seq.pages.filter (fun e => s.seq.replay == some e.1.1)).map (fun e => e.2) }
  if (s.seq.part.foldl (fun t x => t + x.feed) 0) ≤ 2048 then s
  else { s with seq.part := s.seq.part.map (fun x => if x.feed = 0 then x else { x with oversub := true }) }

/-- A pass that shared a feeder with too many others ends: the cycles it waited are not stated, a free value. -/
def State.feedOver (s : State) (p : Nat) : State :=
  let x := s.part p
  let s := s.setPart p { x with feed := 0, oversub := false }
  if !x.oversub then s else
  let n := s.free % 2 ^ 32
  let s := s.drew.incF (STG_STALL.FEED p) n
  s.setPart p { s.part p with stallFeed := (s.part p).stallFeed + n }

/-- A CORR pass starts with slot `k` (R220). -/
def State.corrBegin (s : State) (p : Nat) (n : Int) (i e k : Nat) : State :=
  let im := s.governing n
  let x := s.part p
  let sl : Slot := ⟨.accumulating, n, i, chanOf e, rowbOf e, colbOf e, []⟩
  let l := s.streams im p e
  let s := s.setPart p { x with slots := x.slots.set k sl, pass := some i, nextEntry := i + 1 }
  (s.feedShare p (im.feedCost e l.length)).readSlabs im n l

/-- CORR_PASS_START (R220). -/
def execCorrPassStart (part : Fin 16) (s : State) : Res :=
  let p := part.val
  done (match s.entryNow p 0 with
    | none => s
    | some (n, i, e) =>
      let im := s.governing n
      let l := s.streams im p e
      match s.freeSlot im p with
      | none =>
        let s := s.incF (STG_STALL.SLOT p) 1
        s.setPart p { s.part p with stallSlot := (s.part p).stallSlot + 1 }
      | some k =>
        if s.unflushed n l then s.feedStall p
        else s.corrBegin p n i e k)

/-- Entry `i` is the first pass of partition `p` in a replay. -/
def Image.firstPass (im : Image) (p i : Nat) : Bool :=
  ((partEntries im.plan p).find? (fun q => decide (opOf q.2 < 2))).any (fun q => q.1 == i)

/-- The pass of entry `i` is over: the block it loaded is resident, or the operand of a diagonal CORR pass that is the first of the
replay (R22). -/
def State.passOver (s : State) (p : Nat) (n : Int) (i e : Nat) : State :=
  let x := s.part p
  let im := s.governing n
  let diag := opOf e == 0 && rowbOf e == colbOf e && im.firstPass p i && im.residentOk
  s.setPart p { x with
    pass := none,
    wing := if loadOf e then some (s.wingOf n (loadcOf e) (loadbOf e))
      else if diag then some (s.wingOf n (chanOf e) (rowbOf e)) else x.wing }

/-- CORR_PASS_END (R219). -/
def execCorrPassEnd (part : Fin 16) (s : State) : Res :=
  let p := part.val
  done (match s.passNow p 0 with
    | none => s
    | some (n, i, e) =>
      let im := s.governing n
      (((s.closeSlot im n p e im.dlen).passOver p n i e).feedOver p).afterEntry p)

/-- GAP (R21). LOAD = 1 on a GAP loads nothing: R22 has a LOAD take place during a pass, which a GAP is not (DESIGN CHOICE, log 26). -/
def execGap (part : Fin 16) (s : State) : Res :=
  let p := part.val
  done (match s.entryNow p 2 with
    | none => s
    | some (_, i, _) =>
      let s := s.setPart p { s.part p with nextEntry := i + 1 }
      (s.setF (STG_PART.ENTRY p) i).afterEntry p)

/-! ## Drains (R215, R222 to R225) -/

/-- A drain entry: its index in the bank, its row and column inputs, and the cell. -/
abbrev DrainEntry := Nat × Nat × Nat × CellSlot

/-- The entries of a slot's drain. -/
def State.drainEntries (s : State) (sl : Slot) : List DrainEntry :=
  let im := s.governing sl.dwell
  let bi := s.integImage sl.dwell
  sl.cells.map (fun q =>
    let a := sl.rowb * im.wb + q.1 / 1024
    let b := sl.colb * im.wb + q.1 % 1024
    (bi.entryIndex a b sl.chan, a, b, q.2))

/-- The adds of a drain: one per line that holds a kept entry, its mask bits those of the entries contributed (R256). -/
def drainAdds (w : Nat) (es : List DrainEntry) : List AddLine :=
  ((es.map (fun e => e.1 / 4)).eraseDups).map (fun l =>
    (es.filter (fun e => e.1 / 4 == l && !e.2.2.2.sat)).foldl (fun (r : AddLine) e =>
      (l, r.2.1 + 2 ^ (3 * (e.1 % 4)), r.2.2 + 2 ^ (128 * (e.1 % 4)) * e.2.2.2.entry w)) (l, 0, 0))

/-- Poisoned baselines of a drain (R215, R229). -/
def State.tallySat (s : State) (p : Nat) (sl : Slot) (bad : List DrainEntry) : State :=
  if bad.isEmpty then s else
  let lim := (s.governing sl.dwell).val Scr.STG_POISON_EVT
  let s := s.incF STG_POISON.COUNT bad.length
  let s := s.each (bad.take lim) (fun s e =>
    (s.putBit STG_EVT.BITS 0 true).emit stgSrc 0x0701
      (sl.chan + 2 ^ 12 * e.2.1 + 2 ^ 25 * e.2.2.1 + 2 ^ 38 * b2n (e.2.2.2.tre = 4) + 2 ^ 39 * b2n (e.2.2.2.tim = 4))
      (dwell32 sl.dwell) 3)
  let rest := bad.length - lim
  let s := if rest = 0 then s else
    (s.putBit STG_EVT.BITS 1 true).emit stgSrc 0x0702 rest (sl.entry + 65536 * p) 3
  (s.raiseFor [] stgSrc 0x0006 3 true (ofSigned 31 sl.dwell)).condDwell sl.dwell fPoisoned

/-- The adds of a drain go to the own banks, or to the peer that holds them, or nowhere (R224, R274). False: they wait for the
close that they force (R256). -/
def State.drainTo (s : State) (n : Int) (adds : List AddLine) : State × Bool :=
  let im := s.integImage n
  if im.visPeer then (s.sendAdds im.visChip n 0 1 0 adds, true)
  else if !im.visOwn || adds.isEmpty then (s, true)
  else match s.accept n with
    | (s, .wait) => (s, false)
    | (s, .late) => (s.late n 0x7FF true, true)
    | (s, .apply) => (s.each adds (fun s l => s.bankAdd 3 (s.bankNo n) 1 l.1 l.2.1 l.2.2), true)

/-- The drained slot is FREE, and the next waiting one drains (R219). -/
def State.slotFree (s : State) (p : Nat) : State :=
  let x := s.part p
  match x.order with
  | [] => s
  | i :: rest =>
    let slots := x.slots.set i Slot.fresh
    let slots := match rest with
      | j :: _ => slots.set j { slots.getD j Slot.fresh with st := .draining }
      | [] => slots
    s.setPart p { x with slots := slots, order := rest }

/-- A slot has drained: what was good counts and goes into the sums, saturated entries are reported, the slot is free. -/
def State.drainOver (s : State) (p : Nat) (sl : Slot) (w : Nat) (es : List (Nat × Nat × Nat × CellSlot)) : State :=
  let good := es.filter (fun e => !e.2.2.2.sat)
  let s := s.addF STG_DRAINED.COUNT good.length
  let s := s.addSums sl.dwell (good.foldl (fun t e =>
    (t + crc64 (leBytes 8 e.1 ++ leBytes 16 (e.2.2.2.entry w))) % 2 ^ 64) 0) 0
  (s.tallySat p sl (es.filter (fun e => e.2.2.2.sat))).slotFree p

/-- DRAIN_COMPLETE (R219, R222 to R225): the drain of the oldest closed slot of a partition. -/
def execDrainComplete (part : Fin 16) (s : State) : Res :=
  let p := part.val
  done (match (s.part p).order with
    | [] => s
    | i :: _ =>
      if s.iron then s else
      let sl := (s.part p).slots.getD i Slot.fresh
      let w := fmtWidth ((s.governing sl.dwell).fmt p)
      let es := s.drainEntries sl
      match s.drainTo sl.dwell (drainAdds w es) with
      | (s, false) => s
      | (s, true) => s.drainOver p sl w es)

/-- A slot still holds terms of dwell `n`. -/
def State.holdsDwell (s : State) (n : Int) : Bool :=
  s.seq.part.any (fun x => x.slots.any (fun q => decide (q.st ≠ .free) && decide (q.dwell = n)))

/-- Dwell `n` has drained: the local mark counts, or the end mark goes to the peer. -/
def State.dwellOut (s : State) (n : Int) : State :=
  let s := { s with seq.replayed := s.seq.replayed.filter (fun k => decide (k ≠ n)) }
  let im := s.integImage n
  if im.visPeer then s.sendMark im.visChip n 0 0 (s.markFlags n)
  else if bitOf (im.val Scr.PRD_VIS) 40 then s.mark n 0x7FF
  else s

/-- DWELL_DRAINED (R224, R259, R290): the oldest replayed dwell whose drains have all been accepted. The local mark counts, or the
end mark goes to the peer. -/
def execDwellDrained (s : State) : Res :=
  done (match s.seq.replayed.find? (fun n => !s.holdsDwell n) with
    | none => s
    | some n =>
      if s.iron then s else s.dwellOut n)

/-! ## Beam passes (R232 to R246) -/

/-- A partition waits a cycle for its weights. -/
def State.wloadStall (s : State) (p : Nat) : State :=
  let s := s.incF BEM_STALL0.WLOAD 1
  s.setPart p { s.part p with stallWload := (s.part p).stallWload + 1 }

/-- A partition waits a cycle for a staging record. -/
def State.stageStall (s : State) (p : Nat) : State :=
  let s := s.incF BEM_STALL0.STAGE 1
  s.setPart p { s.part p with stallStage := (s.part p).stallStage + 1 }

/-- A partition waits a cycle for its output. -/
def State.outStall (s : State) (p : Nat) : State :=
  let s := s.incF BEM_STALL1.OUT 1
  s.setPart p { s.part p with stallOut := (s.part p).stallOut + 1 }

/-- ADD packets of dwell `n` toward a chip are held off (R244, R290): the egress queue of the port is full, or without one the next
ADD packet of the port lacks credit. -/
def State.addHeld (s : State) (n : Int) (dst : Nat) : Bool :=
  let p := s.routeAt n dst
  if p = 15 || !s.fabUp p then false
  else if s.scr.egq ≠ 0 then decide (s.egqPages * 65536 ≤ s.getF (FAB_P_EGQ.LEVEL p))
  else match s.fab.txq.find? (fun e => e.1 == p && e.2.1 % 8 == 4) with
    | some e => decide (Tbl.get s.fab.credit 0 (poolKey p 4) < 1 + e.2.2.2.length / 32)
    | none => false

/-- The chips to which a BEAM entry sends. -/
def Image.beamChips (im : Image) (e : Nat) : List Nat :=
  ((List.range 4).filter (fun j => decide (im.dest (groupOf e + j) = 3))).map (fun j => im.destChip (groupOf e + j))

/-- The staging records of its own that a BEAM entry fills. -/
def Image.beamRecs (im : Image) (e : Nat) : List Nat :=
  ((List.range 4).filter (fun j => decide (im.dest (groupOf e + j) < 3))).map (fun j =>
    (groupOf e + j) * im.val Scr.STG_CHANNELS + chanOf e)

/-- Bytes per stage cycle that a BEAM pass gives the finisher (R244): 64 beam samples of each group in two cycles. -/
def Image.finisherCost (im : Image) (e : Nat) : Nat :=
  ((List.range 4).map (fun j =>
    let d := im.dest (groupOf e + j)
    32 * (if d = 15 then 0 else if d = 1 then 4 else if d = 2 then 2 else 8))).foldl (fun t x => t + x) 0

/-- The finisher issues 1,024 bytes per stage cycle, granted in turn to the passes that run (R244): past that, each of them waits now
and then. -/
def State.finisherShare (s : State) (p k : Nat) : State :=
  let s := s.setPart p { s.part p with out := k }
  if (s.seq.part.foldl (fun t x => t + x.out) 0) ≤ 1024 then s
  else { s with seq.part := s.seq.part.map (fun x => if x.out = 0 then x else { x with outOver := true }) }

/-- A pass that shared the finisher with too many others ends: the cycles it waited are not stated, a free value. -/
def State.finisherOver (s : State) (p : Nat) : State :=
  let x := s.part p
  let s := s.setPart p { x with out := 0, outOver := false }
  if !x.outOver then s else
  let n := s.free % 2 ^ 32
  let s := s.drew.incF BEM_STALL1.OUT n
  s.setPart p { s.part p with stallOut := (s.part p).stallOut + n }

/-- A BEAM pass starts: its records open. -/
def State.beamBegin (s : State) (p : Nat) (n : Int) (i e : Nat) : State :=
  let im := s.governing n
  let l := s.streams im p e
  let s := s.setF BEM_STATUS.ACT_BANK ((s.weightBank im).getD 0)
  let s := s.setPart p { s.part p with pass := some i, nextEntry := i + 1 }
  let s := (s.feedShare p (im.feedCost e l.length)).finisherShare p (im.finisherCost e)
  let s := s.each (im.beamRecs e) (fun s x => if s.recAccept x n = .apply then s.recOpen x n else s)
  s.readSlabs im n l

/-- BEAM_PASS_START (R239, R244, R246). -/
def execBeamPassStart (part : Fin 16) (s : State) : Res :=
  let p := part.val
  done (match s.entryNow p 1 with
    | none => s
    | some (n, i, e) =>
      let im := s.governing n
      let l := s.streams im p e
      let ready := match s.weightBank im with | some b => decide (s.bem.wload ≠ some b) | none => false
      if !ready then s.wloadStall p
      else if (im.beamRecs e).any (fun x => decide (s.recAccept x n = .wait)) then s.stageStall p
      else if s.unflushed n l then s.feedStall p
      else if (im.beamChips e).any (s.addHeld n) then s.outStall p
      else s.beamBegin p n i e)

/-- BEAM_PASS_COMPLETE (R241). -/
def execBeamPassComplete (part : Fin 16) (s : State) : Res :=
  let p := part.val
  done (match s.passNow p 1 with
    | none => s
    | some (n, i, e) =>
      let im := s.governing n
      (((s.beamDone ⟨im, n, p, e⟩ im.dlen false).passOver p n i e).feedOver p).finisherOver p |>.afterEntry p)

/-! ## The weight loader (R238, R239) -/

/-- The image at place `i` governs a dwell still to be replayed or being replayed. -/
def State.imageLive (s : State) (i : Nat) : Bool :=
  match s.scr.images[i + 1]? with
  | none => true
  | some next =>
    !next.whole && (decide (s.seq.closed < next.first - 1) ||
      (s.seq.ringWait ++ s.seq.replay.toList).any (fun n => decide (n < next.first)))

/-- The images whose weights are still needed, in dwell order. -/
def State.liveImages (s : State) : List Image :=
  (s.scr.images.zipIdx.filter (fun q => s.imageLive q.2)).map (fun q => q.1)

/-- The image whose weights are to be loaded next. -/
def State.loadNext (s : State) : Option Image :=
  if s.getF BEM_STATUS.RESV = 0 then none
  else s.liveImages.find? (fun im => im.reservesAny && (s.weightBank im).isNone)

/-- The lowest bank that is designated for no such dwell. -/
def State.freeBank (s : State) : Option Nat :=
  [0, 1].find? (fun b => match s.bem.wbank.getD b none with
    | none => true
    | some w => !s.liveImages.any (fun im => im.reservesAny && decide (im.weights = w.weights)))

/-- WEIGHT_LOAD_START (R238). -/
def execWeightLoadStart (s : State) : Res :=
  done (if s.bem.wload.isSome || s.iron then s
    else match s.loadNext, s.freeBank with
      | some im, some b =>
        ({ s with bem.wbank := s.bem.wbank.set b (some im), bem.wload := some b }).setF BEM_STATUS.LOAD_BUSY 1
      | _, _ => s)

/-- The digest tag of an image's weights (R252). -/
def Image.weightTag (im : Image) : Nat := leNat (im.weights.hash.take 8)

/-- WEIGHT_LOAD_COMPLETE (R238, R250). -/
def execWeightLoadComplete (s : State) : Res :=
  done (match s.bem.wload with
    | none => s
    | some b =>
      let im := (s.bem.wbank.getD b none).getD Image.boot
      let s := ({ s with bem.wload := none }).setF BEM_STATUS.LOAD_BUSY 0
      let s := s.setF (if b = 0 then BEM_WDIG0.TAG else BEM_WDIG1.TAG) im.weightTag
      let sets := bitsOf (im.val Scr.BEM_WEIGHTS) 52 4
      (s.putBit BEM_EVT.BITS 0 true).emit stgSrc 0x0801 im.weightTag (b + 2 * (sets - 1)) 0)

/-- WEIGHT_LOAD_ESCALATE (R239): the load takes every second cycle of each lane, which changes only when things end. -/
def execWeightLoadEscalate (s : State) : Res := done s

/-! ## Staging records (R246, R247) -/

/-- A record is released without the marks it lacks (R246). -/
def State.recTimeout (s : State) (x : Nat) : State :=
  let r := s.rec_ x
  let s := (s.putBit BEM_EVT.BITS 2 true).emit stgSrc 0x0803 (ofSigned 64 r.dwell) (x + 2 ^ 18 * r.marks) 3
  let s := (s.dropMarks 1 x r.dwell r.dwell).1
  (s.setRec x { s.rec_ x with partialData := true }).fillRec x

/-- RECORD_RELEASE_TIMEOUT (R246): BEM_REL_TO has passed since the close of the record's dwell. -/
def execRecordReleaseTimeout (record : Fin 65536) (s : State) : Res :=
  let x := record.val
  let r := s.rec_ x
  done (s.whenever (r.st = .filling && decide (r.dwell ≤ s.seq.closed)) (fun s =>
    (s.afterClose r.dwell ((s.governing r.dwell).val Scr.BEM_REL_TO)).recTimeout x))

/-- The cluster whose PIT_BEAM_ROUTE covers a beam group and channel (R133), with its route. -/
def Image.beamRoute (im : Image) (g c : Nat) : Option (Nat × Nat) :=
  ((List.range 128).map (fun k => (k, im.el Scr.PIT_BEAM_ROUTE k))).find? (fun q =>
    decide (bitsOf q.2 0 8 ≤ g) && decide (g < bitsOf q.2 0 8 + bitsOf q.2 8 8) &&
      decide (bitsOf q.2 16 12 ≤ c) && decide (c < bitsOf q.2 16 12 + bitsOf q.2 28 12))

/-- The cluster that takes a record. -/
def State.recCluster (s : State) (x : Nat) : Option (Nat × Nat) :=
  let im := s.governing (s.rec_ x).dwell
  im.beamRoute (im.recGroup x) (im.recChan x)

/-- A record that is FULL or RELEASING goes to the pit (R247). -/
def State.toPit (s : State) (x : Nat) : Bool :=
  let r := s.rec_ x
  decide ((s.governing r.dwell).dest ((s.governing r.dwell).recGroup x) < 2) && (decide (r.st = .full) || decide (r.st = .releasing))

/-- The record the release unit serves for a cluster: the one it has open, or the one that became FULL first. -/
def State.recTurn (s : State) (c : Nat) : Option Nat :=
  let l := s.liveRecs.filter (fun x => s.toPit x && (s.recCluster x).any (fun q => q.1 == c))
  (l.find? (fun x => decide ((s.rec_ x).st = .releasing))).orElse (fun _ =>
    l.foldl (fun best x => match best with
      | none => some x
      | some y => if (s.rec_ x).order < (s.rec_ y).order then some x else some y) none)

/-- A value of a record as the release unit reads it; what it takes from a poisoned code word is not stated: a free value. -/
def State.recRead (s : State) (a n : Nat) : Nat :=
  if s.poisoned (a / 8) then s.free % 256 ^ n else Memory.readNat s.mem a n

/-- The vector of spectrum `k` of record `x` (R247). -/
def State.recVect (s : State) (x k route : Nat) : Vect :=
  let n := (s.rec_ x).dwell
  let im := s.governing n
  let g := im.recGroup x
  let c := im.recChan x
  let base := im.recAddr x
  let v := s.recRead (base + 4 * k) 4
  let row := base + 4 * im.dlen + im.specBytes * k
  let part (l h : Nat) : Nat :=
    if im.dest g = 0 then s.recRead (row + 8 * l + 4 * h) 4
    else ofSigned 32 (toSigned 16 (s.recRead (row + 4 * l + 2 * h) 2) * ((2 ^ im.destShift g : Nat) : Int))
  { sub := none, six := (im.startSix n + k) % 2 ^ 64, dwell := n, ch := c,
    tcr := (g - bitsOf route 0 8) * bitsOf route 28 12 + (c - bitsOf route 16 12), tun := 0, group := g,
    pres := BitVec.allOnes 64, valid := if im.val Scr.BEM_MIN_VALID ≤ v then BitVec.allOnes 64 else 0, null := false,
    samples := (List.range 64).map (fun l => part l 0), ims := (List.range 64).map (fun l => part l 1) }

/-- The store accesses of a spectrum's release: its V word and its beam lines. -/
def State.recAccess (s : State) (x k : Nat) : State :=
  let im := s.governing (s.rec_ x).dwell
  let a := s.readSpan 5 (im.recAddr x + 4 * k) 4
  let b := a.1.readSpan 5 (im.recAddr x + 4 * im.dlen + im.specBytes * k) (if im.dest (im.recGroup x) = 0 then 512 else 256)
  if a.2.2 || b.2.2 then b.1.drew else b.1

/-- Send the next spectrum of record `x` when its cluster has room. -/
def State.releaseOne (s : State) (x c route : Nat) : State :=
  let r := s.rec_ x
  if (s.governing r.dwell).dlen ≤ r.sent || (s.cluTakes c r.dwell && decide (64 ≤ (s.cluster c).inQ.length)) then s else
  let v := s.recVect x r.sent route
  let s := s.recAccess x r.sent
  if !s.cluTakes c r.dwell then (s.lostVect 31 (some c) v).setRec x { s.rec_ x with sent := r.sent + 1 }
  else (s.pushVect c v).setRec x { s.rec_ x with sent := r.sent + 1 }

/-- The vectors of a record that no route covers are discarded (R133). -/
def State.discardRec (s : State) (x : Nat) : State :=
  let r := s.rec_ x
  s.each (List.range ((s.governing r.dwell).dlen - r.sent)) (fun s k =>
    let v := s.recVect x (r.sent + k) 0
    ((s.recAccess x (r.sent + k)).lostVect 31 none v).setRec x { s.rec_ x with sent := r.sent + k + 1 })

/-- Every spectrum has gone: the V words, and with WIDE the beam lines, are zero, and the record is EMPTY. -/
def State.releaseEnd (s : State) (x : Nat) : State :=
  let r := s.rec_ x
  let im := s.governing r.dwell
  if r.sent < im.dlen then s else
  let s := s.zeroSpan (im.recAddr x) (if im.wide then im.recBytes else 4 * im.dlen)
  ((s.emptyRec x r.dwell).addF BEM_RELEASED.COUNT 1).retryAdds

/-- A record releases what its cluster's queue takes (R247). -/
def State.recRelease (s : State) (x c route : Nat) : State :=
  let s := s.setRec x { s.rec_ x with st := .releasing }
  let s := s.each (List.range ((s.governing (s.rec_ x).dwell).dlen - (s.rec_ x).sent)) (fun s _ => s.releaseOne x c route)
  s.releaseEnd x

/-- RECORD_RELEASE (R133, R247): the spectra that the cluster's queue has room for go to the pit. -/
def execRecordRelease (record : Fin 65536) (s : State) : Res :=
  let x := record.val
  done (match s.recCluster x with
    | none => if s.iron || !s.toPit x then s else ((s.setRec x { s.rec_ x with st := .releasing }).discardRec x).releaseEnd x
    | some (c, route) =>
      if s.iron || s.recTurn c != some x then s else s.recRelease x c route)

end Sys2Proof.Machine
end

