-- ==== Sys2Proof/Machine/ScriptCheck.lean ====
section
/-!
DEFINITION. Ranges and clamps of the script fields (R9, R56, R57, R416, R417), from the field tables of the chapters, and the
check of a pass plan (R23, R227, R249).
-/

namespace Sys2Proof.Machine

/-- A clamp report: field, element, written value, applied value (R57). -/
abbrev Report := Nat × Nat × Nat × Nat

/-- What a check depends on beside the image built so far: the device's state (for its capabilities), the dwell k of the commit,
the base, and the PIT_PROG_TABLE elements whose signature fails (R364). -/
structure Chk where
  s : State
  k : Int
  base : Image
  badProg : Nat → Bool

/-- KEEP: a value out of range is discarded. -/
def keepIf (b : Bool) (v : Nat) : Option Nat := if b then some v else none

/-- BOUND: the nearer end of the range. -/
def bound (lo hi v : Nat) : Option Nat := some (max lo (min hi v))

/-- A span lies in one region that satisfies `p`. -/
def Image.within (im : Image) (a n : Nat) (p : Region → Bool) : Bool :=
  im.regions.any (fun r => p r && decide (r.base * pageBytes ≤ a) && decide (a + n ≤ (r.base + r.pages) * pageBytes))

/-! ## Time (R91) and ingest (R19, R129) -/

/-- 64 ns ≤ NUM / DEN ≤ 1 s. -/
def ratioOk (num den : Nat) : Bool := decide (64 * den ≤ num) && decide (num ≤ 1000000000 * den)

/-- Script, clock and time fields. -/
def timRange (im : Image) (f : SField) (v : Nat) : Option Nat :=
  if f.id = Scr.HCK_FLAG_MASK.id then keepIf (!bitOf v 2 && bitOf v 4) v
  else if f.id = Scr.TIM_TAI0.id then keepIf (decide (bitsOf v 16 32 ≤ 999999999)) v
  else if f.id = Scr.TIM_DT_NUM.id then keepIf (decide (1 ≤ v) && ratioOk v (im.val Scr.TIM_DT_DEN)) v
  else if f.id = Scr.TIM_DT_DEN.id then keepIf (decide (1 ≤ v) && ratioOk (im.val Scr.TIM_DT_NUM) v) v
  else if f.id = Scr.TIM_DWELL.id then bound 2048 16777216 (v / 2048 * 2048)
  else if f.id = Scr.TIM_EPS_REC.id then bound 0 3600 v
  else if f.id = Scr.TIM_EPS_WARN.id then bound 1 4000000000 v
  else some v

/-- Ingest fields. -/
def ingRange (q : Chk) (im : Image) (f : SField) (v : Nat) : Option Nat :=
  if f.id = Scr.ING_PORT_WIN.id then
    some (putBits v 16 14 (min (bitsOf v 16 14) (q.s.getF CTL_CAP2.MAX_INPUTS - bitsOf v 0 14)))
  else if f.id = Scr.ING_PORT_FMT.id then keepIf (decide (v ≤ 2)) v
  else if f.id = Scr.ING_FEC_LOSS.id then bound 1 255 v
  else if f.id = Scr.ING_RESTORE.id then bound 10 65535 v
  else if f.id = Scr.ING_BLANK_LEAD.id || f.id = Scr.ING_BLANK_TRAIL.id then bound 0 16384 v
  else if f.id = Scr.ING_LATE_WINDOW.id then bound 64 (min 16384 (im.dlen / 4)) (v / 64 * 64)
  else if f.id = Scr.ING_EARLY_WINDOW.id then bound 0 (min 32768 (im.dlen / 2)) v
  else some v

/-! ## Pit (R152, R157) -/

/-- The side of a cluster that is not idle: 0 ingest, 1 beam. -/
def Image.side (im : Image) (c : Nat) : Option Nat :=
  let e := im.el Scr.PIT_CLU_PROG c
  if e % 16 = 15 then none else some (bitsOf e 4 1)

/-- Store address and length in bytes of the words of an element of PIT_PROG_TABLE. -/
def progAddr (e : Nat) : Nat := bitsOf e 12 40 * 4096
def progBytes (e : Nat) : Nat := 8 * (bitsOf e 52 12 + 1)

/-- Pit fields, element `i`. -/
def pitRange (q : Chk) (im : Image) (f : SField) (i v : Nat) : Option Nat :=
  if f.id = Scr.PIT_CLU_PROG.id then
    keepIf (v % 16 = 15 || (decide (v % 16 ≤ 7) && decide (i < q.s.getF CTL_CAP1.PIT_CLUSTERS) &&
      progAddr (im.el Scr.PIT_PROG_TABLE (v % 16)) != 0)) v
  else if f.id = Scr.PIT_PROG_TABLE.id then
    keepIf (progAddr v = 0 || (decide (progAddr v + progBytes v ≤ q.s.capBytes) && !q.badProg i)) v
  else if f.id = Scr.PIT_IN_ROUTE.id then
    keepIf (!bitOf v 5 || (decide (bitsOf v 0 5 ≤ 23) && decide (1 ≤ bitsOf v 25 12) &&
      decide (im.side (bitsOf v 37 7) = some 0) && decide (bitsOf v 13 12 + bitsOf v 25 12 ≤ im.val Scr.STG_CHANNELS))) v
  else if f.id = Scr.PIT_BEAM_ROUTE.id then keepIf (bitsOf v 8 8 = 0 || decide (im.side i = some 1)) v
  else if f.id = Scr.PIT_LAYOUT.id then
    keepIf (decide (bitsOf v 7 3 ≤ 6) && decide (bitsOf v 10 3 ≤ 6) &&
      decide (8 * bitsOf v 0 7 + 2 * (8 * 2 ^ bitsOf v 7 3) ≤ 1024)) v
  else if f.id = Scr.PIT_OUT_ROUTE.id then
    keepIf ((v = 0 && decide (im.side (i / 4) ≠ some 1)) || (decide (1 ≤ v) && decide (v ≤ 3)) || v = 15) v
  else some v

/-! ## Store (R162, R164, R181) and movers (R190, R203) -/

/-- Pages of the DRING regions. -/
def dringPages (rs : List Region) : Nat := (rs.filter (fun r => r.kind == 0)).foldl (fun a r => a + r.pages) 0

/-- STO_REGIONS is in range under the image built so far (R162). -/
def regionsOk (q : Chk) (im : Image) (v : Nat) : Bool :=
  let rs := (List.range 64).filterMap (fun i => Region.ofElem (bitsOf v (64 * i) 64))
  let lim := 8 * (q.s.getF CTL_CAP1.STO_CAP - 48 * im.val Scr.STO_FENCE_RESERVE)
  rs.all (fun r => decide (r.kind ≤ 4) && decide (1 ≤ r.pages) && decide (512 ≤ r.base) && decide (r.base + r.pages ≤ lim)) &&
    (rs.zipIdx.all (fun a => rs.zipIdx.all (fun b =>
      a.2 == b.2 || decide (a.1.base + a.1.pages ≤ b.1.base) || decide (b.1.base + b.1.pages ≤ a.1.base)))) &&
    (rs.isEmpty || decide (3 * im.halfPages ≤ dringPages rs))

/-- Half-dwells the DRING regions hold. -/
def Image.halvesHeld (im : Image) : Nat := dringPages im.regions / max 1 im.halfPages

/-- Store fields. -/
def stoRange (q : Chk) (im : Image) (f : SField) (v : Nat) : Option Nat :=
  if f.id = Scr.STO_REGIONS.id then keepIf (regionsOk q im v) v
  else if f.id = Scr.STO_FENCE_RESERVE.id then bound 0 8 v
  else if f.id = Scr.STO_PORT_CLASS.id then bound 0 6 v
  else if f.id = Scr.STO_AGE_LIM.id || f.id = Scr.STO_LAT_TGT.id then bound 8 65535 v
  else if f.id = Scr.STO_SCRUB_HOURS.id then bound 1 168 v
  else if f.id = Scr.STO_CE_RETRAIN.id || f.id = Scr.STO_SR_IDLE.id then bound 1 65535 v
  else if f.id = Scr.STO_RETRAIN_DT.id then bound 2 30 v
  else if f.id = Scr.STO_DRING_HALVES.id then
    bound 3 (if im.regions.isEmpty then 8 else min 8 (max 3 im.halvesHeld)) v
  else some v

/-- A window of MOV_STREAM_WIN is in range. -/
def winOk (im : Image) (v : Nat) : Bool :=
  let half := bitsOf v 27 16 * cdiv im.dlen (2 ^ bitsOf v 22 5) * 64 * 2 ^ bitsOf v 43 2
  decide (bitsOf v 22 5 ≤ 16) && decide (1 ≤ bitsOf v 27 16) && decide (bitsOf v 43 2 ≤ 2) &&
    im.within (bitsOf v 0 22 * 65536) (2 * half) (fun r => r.kind == 2 || r.kind == 4)

/-- Mover fields, element `i`. -/
def movRange (im : Image) (f : SField) (i v : Nat) : Option Nat :=
  if f.id = Scr.MOV_BIND.id then keepIf (!bitOf v 7 || !(decide (513 ≤ i) && i % 2 == 1)) v
  else if f.id = Scr.MOV_STREAM_WIN.id then keepIf (v = 0 || winOk im v) v
  else some v

/-! ## Stage (R19, R212, R230) and beams (R251) -/

/-- The longest dwell an accumulator format takes (R212). -/
def accOk (fmt d : Nat) : Bool :=
  if fmt = 0 then decide (d ≤ 63488) else if fmt = 1 then decide (d ≤ 16775168) else decide (fmt = 2)

/-- Stage fields, element `i`. -/
def stgRange (q : Chk) (im : Image) (f : SField) (i v : Nat) : Option Nat :=
  if f.id = Scr.STG_PART_MODE.id then keepIf (decide (v ≤ 2) && q.s.bit CTL_CAP0.PARTS v) v
  else if f.id = Scr.STG_INPUTS.id then keepIf (decide (1 ≤ v) && decide (v ≤ q.s.getF CTL_CAP2.MAX_INPUTS)) v
  else if f.id = Scr.STG_CHANNELS.id then keepIf (decide (1 ≤ v) && decide (v ≤ q.s.getF CTL_CAP2.MAX_CHANNELS)) v
  else if f.id = Scr.STG_ACC_FMT.id then
    keepIf (decide (im.parts ≤ i) || (accOk v im.dlen && q.s.bit CTL_CAP0.ACC_FMT v)) v
  else if f.id = Scr.STG_PLAN_ADDR.id then
    keepIf (v = 0 || (v % 4096 = 0 && im.within v (8 * im.val Scr.STG_PLAN_COUNT) (fun _ => true))) v
  else if f.id = Scr.STG_PLAN_COUNT.id then
    keepIf (im.val Scr.STG_PLAN_ADDR = 0 || (decide (1 ≤ v) && decide (v ≤ 65536))) v
  else if f.id = Scr.STG_PLAN_LIMIT.id then bound 50 98 v
  else some v

/-- Store address and SETS of BEM_WEIGHTS. -/
def wtsAddr (v : Nat) : Nat := bitsOf v 12 40 * 4096
def wtsSets (v : Nat) : Nat := bitsOf v 52 4

/-- Beam fields. -/
def bemRange (im : Image) (f : SField) (v : Nat) : Option Nat :=
  if f.id = Scr.BEM_GROUPS.id then bound 1 256 v
  else if f.id = Scr.BEM_WEIGHTS.id then
    keepIf (wtsAddr v = 0 || (decide (1 ≤ wtsSets v) && decide (wtsSets v ≤ 8) &&
      im.within (wtsAddr v) (wtsSets v * pageBytes) (fun r => r.kind == 3))) v
  else if f.id = Scr.BEM_OUT.id then
    keepIf (v % 16 = 15 || (decide (v % 16 ≤ 3) && decide (bitsOf v 4 5 ≤ 24) && decide (1 ≤ bitsOf v 9 2) &&
      decide (bitsOf v 9 2 ≤ 2) && decide (1 ≤ bitsOf v 23 16))) v
  else if f.id = Scr.BEM_STAGE.id then
    let recs := im.val Scr.BEM_GROUPS * im.val Scr.STG_CHANNELS
    let z := im.dlen * (4 + 256 * (1 + bitsOf v 17 1))
    keepIf (bitsOf v 0 17 = 0 || (decide (recs ≤ 65536) &&
      im.within (bitsOf v 0 17 * pageBytes) (recs * z) (fun r => r.kind == 2 && r.ad))) v
  else if f.id = Scr.BEM_MIN_VALID.id then bound 0 8192 v
  else if f.id = Scr.BEM_REL_TO.id then bound 1 65535 v
  else some v

/-! ## Products (R264, R269, R274) and fabric (R290, R292) -/

/-- PRD_VIS is in range. -/
def visOk (im : Image) (v : Nat) : Bool :=
  let bytes := 64 + 16 * im.entries
  let b0 := bitsOf v 0 17 * pageBytes
  let b1 := bitsOf v 17 17 * pageBytes
  let bank (a : Nat) : Bool := im.within a bytes (fun r => r.kind == 1 && r.ad && r.sub == bitsOf v 34 6)
  let m := bitsOf v 40 1 + bitsOf v 41 6
  if bitOf v 47 then bitOf v 40 && bitsOf v 41 6 = 0
  else m = 0 || (bank b0 && bank b1 && (decide (b0 + bytes ≤ b1) || decide (b1 + bytes ≤ b0)))

/-- Product fields. -/
def prdRange (im : Image) (f : SField) (v : Nat) : Option Nat :=
  if f.id = Scr.PRD_INTEG.id then
    let m := bitsOf (im.val Scr.PRD_VIS) 40 1 + bitsOf (im.val Scr.PRD_VIS) 41 6
    bound 1 (if m = 0 then 65535 else min 65535 ((2 ^ 32 - 1) / (im.dlen * m))) v
  else if f.id = Scr.PRD_VIS.id then keepIf (visOk im v) v
  else if f.id = Scr.PRD_CLOSE_TO.id || f.id = Scr.PRD_BEAM_HOLD.id then bound 1 65535 v
  else if f.id = Scr.PRD_POOL.id then
    keepIf (bitsOf v 0 17 = 0 ||
      im.within (bitsOf v 0 17 * pageBytes) (66560 * 64) (fun r => r.kind == 3 || r.kind == 4)) v
  else if f.id = Scr.PRD_BUF_ANN.id then keepIf (v = 0 || bitsOf (im.val Scr.PRD_POOL) 0 17 != 0) v
  else some v

/-- Fabric fields. -/
def fabRange (im : Image) (f : SField) (v : Nat) : Option Nat :=
  if f.id = Scr.FAB_DUET.id then keepIf (v = 0 || bitsOf v 0 11 != bitsOf v 11 11) v
  else if f.id = Scr.FAB_EGQ.id then
    keepIf (v = 0 || (decide (1 ≤ bitsOf v 17 8) &&
      im.within (bitsOf v 0 17 * pageBytes) (8 * bitsOf v 17 8 * pageBytes) (fun r => r.kind == 3))) v
  else if f.id = Scr.FAB_ACK_TO.id then bound 1 65535 v
  else if f.id = Scr.FAB_ROUTE.id || f.id = Scr.FAB_PAIR_PORT.id then keepIf (decide (v ≤ 7) || v = 15) v
  else if f.id = Scr.FAB_STREAM.id then keepIf (v = 0 || decide (1 ≤ bitsOf v 20 4)) v
  else if f.id = Scr.FAB_IN_WIN.id then
    keepIf (bitsOf v 7 8 = 0 || (decide (bitsOf v 7 8 ≤ 128) &&
      decide (bitsOf v 0 7 + bitsOf v 7 8 ≤ im.val Scr.STG_INPUTS / 64))) v
  else some v

/-! ## Cue matrix (R303, R307) -/

/-- Cell `k` is combinational under an image. -/
def Image.cellComb (im : Image) (k : Nat) : Bool :=
  bitsOf (im.el Scr.CUE_CELL k) 44 2 = 0 && bitsOf (im.el Scr.CUE_FILT (8 + k)) 0 44 = 0

/-- Channel `c` feeds channel `d` through a combinational cell. -/
def Image.cellJoins (im : Image) (c d : Nat) : Bool :=
  (List.range 32).any (fun k => (im.el Scr.CUE_SRC d).testBit (16 + k) && im.cellComb k &&
    (List.range 4).any (fun j => bitsOf (im.el Scr.CUE_CELL k) (16 + 7 * j) 7 == c))

/-- Channels of `l` reached from those of `r` in `n` steps more. -/
def reach (im : Image) (l : List Nat) : Nat → List Nat → List Nat
  | 0, r => r
  | n + 1, r => reach im l n (r ++ l.filter (fun d => !r.contains d && r.any (fun c => im.cellJoins c d)))

/-- Bit `c` of CUE_UNCLK is in range for the written mask `w` (R303). -/
def unclkOk (im : Image) (w c : Nat) : Bool :=
  let pure_ (c : Nat) : Bool := (List.range 128).all (fun p => !(im.el Scr.CUE_SRC c).testBit p || decide (p < 8) ||
    (decide (16 ≤ p) && decide (p < 48) && im.cellComb (p - 16)))
  let l := (List.range 64).filter (fun c => w.testBit c && pure_ c)
  l.contains c && !(reach im l 64 (l.filter (fun d => im.cellJoins c d))).contains c

/-- Cue fields, element `i`; `w` is the whole written value. -/
def cueRange (im : Image) (f : SField) (i v w : Nat) : Option Nat :=
  if f.id = Scr.CUE_SRC.id then keepIf (bitsOf v 120 8 = 0) v
  else if f.id = Scr.CUE_DST.id then keepIf (bitsOf v 76 4 = 0) v
  else if f.id = Scr.CUE_CELL.id then
    keepIf (decide (bitsOf v 44 2 ≤ 2) && (List.range 4).all (fun j =>
      decide (bitsOf v (16 + 7 * j) 7 < 64) || bitsOf v (16 + 7 * j) 7 == 0x7F)) v
  else if f.id = Scr.CUE_FILT.id then some (if i < 8 then v else putBits v 48 1 0)
  else if f.id = Scr.CUE_UNCLK.id then some (if v = 0 || unclkOk im w i then v else 0)
  else some v

/-! ## Faults (R325), duet (R347), power (R394), host (R38) -/

/-- Fault, duet, power and host fields. -/
def lateRange (q : Chk) (im : Image) (f : SField) (v : Nat) : Option Nat :=
  if f.id = Scr.FLT_PROMOTE.id then bound 0 4 v
  else if f.id = Scr.FLT_ACK_TO.id then bound 1 65535 v
  else if f.id = Scr.FLT_CURTAIN.id then bound 1 1000 v
  else if f.id = Scr.DUO_EN.id then
    bound 0 (b2n ((im.pairOf (im.val Scr.FAB_CHIP_ID)).isSome && im.val Scr.FAB_PAIR_PORT != 15)) v
  else if f.id = Scr.DUO_HB_PERIOD.id then bound 10 65535 v
  else if f.id = Scr.DUO_HB_TO.id then bound (max 1 (cdiv (3 * im.val Scr.DUO_HB_PERIOD) 1000)) 65535 v
  else if f.id = Scr.DUO_SWAP_PERIOD.id then if v = 0 then some 0 else bound 60 86400 v
  else if f.id = Scr.DUO_SWAP_LEAD.id then some (min 65535 (max (2 * im.val Scr.DUO_HB_TO) (max 1 v)))
  else if f.id = Scr.DUO_PLAN_WIDTH.id then bound 0 (q.s.getF CTL_CAP0.STG_WIDTH / 64 * 64) (v / 64 * 64)
  else if f.id = Scr.PWR_THROTTLE.id then bound 85 100 v
  else if f.id = Scr.PWR_HYST.id then bound 1 10 v
  else if f.id = Scr.PWR_CLK_FLOOR.id then bound 0 4 v
  else if f.id = Scr.PWR_RESUME.id then bound 70 (im.val Scr.PWR_THROTTLE - 5) v
  else if f.id = Scr.HST_CTX_PINNED.id then bound 0 2048 v
  else if f.id = Scr.HST_MSIX_HOLDOFF.id then bound 0 65520 (v / 16 * 16)
  else some v

/-- The value element `i` of a field takes when `v` is written: `none` keeps the previous value. -/
def rangeOf (q : Chk) (im : Image) (f : SField) (i v w : Nat) : Option Nat :=
  let b := f.id / 256
  if b ≤ 2 then timRange im f v
  else if b = 3 then ingRange q im f v
  else if b = 4 then pitRange q im f i v
  else if b = 5 then stoRange q im f v
  else if b = 6 then movRange im f i v
  else if b = 7 then stgRange q im f i v
  else if b = 8 then bemRange im f v
  else if b = 9 then prdRange im f v
  else if b = 10 then fabRange im f v
  else if b = 12 then cueRange im f i v w
  else lateRange q im f v

/-- A field is clamped as a whole. -/
def SField.whole (f : SField) : Bool := f.n = 1 || f.id = Scr.STO_REGIONS.id

/-- Check one field and put it into the image (R56, R57). A written value that a KEEP discards makes its report even if it equals what
stays; the value of a field that was not written stays without one (R58; DESIGN CHOICE, log 30). -/
def checkField (q : Chk) (im : Image) (f : SField) (w : Nat) (written : Bool) : Image × List Report :=
  let n := if f.whole then 1 else f.n
  let ew := if f.whole then f.width else f.ew
  let base := im.val f
  let parts := (List.range n).map (fun i =>
    let x := bitsOf w (ew * i) ew
    let r := rangeOf q im f i x w
    (i, x, r.getD (bitsOf base (ew * i) ew), written && r.isNone))
  let v := elems ew (parts.map (fun p => p.2.2.1))
  let hits := parts.filter (fun p => p.2.2.2 || p.2.1 != p.2.2.1)
  ({ im with vals := Tbl.set im.vals f.boot f.id v },
   hits.map (fun p =>
     if f.width ≤ 64 then (f.id, 0, w, v)
     else (f.id, if f.whole then 0xFFFF else p.1, p.2.1 % 2 ^ 64, p.2.2.1 % 2 ^ 64)))

/-! ## The epoch group (R93) -/

/-- The fields of the epoch group. -/
def groupFields : List SField := [Scr.TIM_SIX0, Scr.TIM_TAI0, Scr.TIM_DT_NUM, Scr.TIM_DT_DEN, Scr.TIM_DWELL]

/-- By how much the nominal TAI of house SIX `six` under one image exceeds that under another, in 2^-16 ns times the product of their DEN
(R92): exact. -/
def taiGap (a b : Image) (six : Nat) : Int :=
  let da : Int := (a.val Scr.TIM_DT_DEN : Int)
  let db : Int := (b.val Scr.TIM_DT_DEN : Int)
  ((taiTicks (a.val Scr.TIM_TAI0) : Int) - (taiTicks (b.val Scr.TIM_TAI0) : Int)) * da * db +
    65536 * (sixDiff six (a.val Scr.TIM_SIX0) * (a.val Scr.TIM_DT_NUM : Int) * db -
      sixDiff six (b.val Scr.TIM_SIX0) * (b.val Scr.TIM_DT_NUM : Int) * da)

/-- The new group is accepted while the epoch runs. -/
def groupOk (q : Chk) (im : Image) : Bool :=
  let six := q.base.startSix q.k
  (sixDiff six (im.val Scr.TIM_SIX0) - q.k * (im.dlen : Int)) % (2 ^ 64 : Int) = 0 &&
    decide ((taiGap im q.base six).natAbs < 262144 * im.val Scr.TIM_DT_DEN * q.base.val Scr.TIM_DT_DEN)

/-- The check of the group as a whole, after its last field. -/
def checkGroup (q : Chk) (im : Image) (recs : List (Nat × Nat)) : Image × List Report :=
  if !q.s.epoch || groupOk q im then (im, []) else
  (groupFields.foldl (fun im f => { im with vals := Tbl.set im.vals f.boot f.id (q.base.val f) }) im,
   groupFields.filterMap (fun f =>
     (recs.find? (fun r => r.1 == f.id)).map (fun r =>
       (f.id, if f.width ≤ 64 then 0 else 0xFFFF, r.2 % 2 ^ 64, q.base.val f % 2 ^ 64))))

/-- Every field in ascending ID order (R56, R58). -/
def checkFields (q : Chk) (recs : List (Nat × Nat)) : Image × List Report :=
  Scr.table.foldl (fun (acc : Image × List Report) f =>
    let r := recs.find? (fun r => r.1 == f.id)
    let c := checkField q acc.1 f ((r.map (fun r => r.2)).getD (acc.1.val f)) r.isSome
    let g := if f.id = Scr.TIM_DWELL.id then checkGroup q c.1 recs else (c.1, [])
    (g.1, acc.2 ++ c.2 ++ g.2)) (q.base, [])

/-! ## The pass plan (R23, R227, R249) -/

/-- Cycles of the entries of one partition, with 24 at each change between CORR and BEAM (R21). -/
def planCycles (im : Image) : Option Nat → List Nat → Nat
  | _, [] => 0
  | last, e :: r =>
    if opOf e = 2 then 64 * bitsOf e 48 16 + planCycles im last r
    else if opOf e ≤ 1 then
      (if opOf e = 0 then im.planes * im.dlen else 2 * im.dlen) +
        (match last with | some o => if o = opOf e then 0 else 24 | none => 0) + planCycles im (some (opOf e)) r
    else planCycles im last r

/-- A block index is valid. -/
def Image.blockOk (im : Image) (b : Nat) : Bool := decide (b * im.wb < im.val Scr.STG_INPUTS)

/-- Weight sets a bank holds (R236). -/
def setsPerBank (fmt : Nat) : Nat := if fmt = 0 then 4 else if fmt = 1 then 5 else 8

/-- One entry is valid (R23, R227, R249). -/
def entryOk (im : Image) (e : Nat) : Bool :=
  (decide (opOf e ≤ 2) || opOf e = 15) && decide (partOf e < im.parts) && decide (chanOf e < im.val Scr.STG_CHANNELS) &&
  (!loadOf e || (decide (loadcOf e < im.val Scr.STG_CHANNELS) && im.blockOk (loadbOf e) && im.residentOk)) &&
  (opOf e != 0 || (im.blockOk (rowbOf e) && im.blockOk (colbOf e) && decide (colbOf e ≤ rowbOf e))) &&
  (opOf e != 1 ||
    (im.blockOk (rowbOf e) && im.val Scr.MOV_DRING_FMT = 0 && wtsAddr (im.val Scr.BEM_WEIGHTS) != 0 &&
      decide (setOf e < wtsSets (im.val Scr.BEM_WEIGHTS)) && decide (groupOf e + 4 ≤ im.val Scr.BEM_GROUPS) &&
      decide (wtsSets (im.val Scr.BEM_WEIGHTS) ≤ setsPerBank (im.fmt (partOf e)))))

/-- No two CORR entries name the same tile (R227). -/
def tilesDistinct : List Nat → Bool
  | [] => true
  | e :: r => (opOf e != 0 || r.all (fun x => opOf x != 0 || chanOf x != chanOf e || rowbOf x != rowbOf e || colbOf x != colbOf e)) &&
      tilesDistinct r

/-- The BEAM entries of a plan cover group `g` at channel `c` so often. -/
def coverCount (ws : List Nat) (g c : Nat) : Nat :=
  (ws.filter (fun e => opOf e = 1 && chanOf e == c && decide (groupOf e ≤ g) && decide (g < groupOf e + 4))).length

/-- The rules on a used group (R249). -/
def groupUseOk (im : Image) (ws : List Nat) (g : Nat) : Bool :=
  let o := im.el Scr.BEM_OUT g
  let d := o % 16
  let chans := ((ws.filter (fun e => opOf e = 1 && decide (groupOf e ≤ g) && decide (g < groupOf e + 4))).map chanOf).eraseDups
  chans.all (fun c => decide (coverCount ws g c ≤ bitsOf o 23 16)) &&
    !((d = 1 || d = 2) && bitsOf o 23 16 != 1) && !(d = 0 && !bitOf (im.val Scr.BEM_STAGE) 17) &&
    !(decide (d ≤ 2) && bitsOf (im.val Scr.BEM_STAGE) 0 17 = 0) && !(d = 2 && bitsOf (im.val Scr.PRD_POOL) 0 17 = 0)

/-- A plan passes the check under an image. -/
def planOk (im : Image) (ws : List Nat) : Bool :=
  ws.all (entryOk im) && ws.any (fun e => opOf e = 15) && tilesDistinct ws &&
  (List.range im.parts).all (fun p =>
    let es := ws.filter (fun e => partOf e == p)
    !(im.fmt p = 2 && es.any (fun e => opOf e = 0) && es.any (fun e => opOf e = 1)) &&
    decide (400 * im.val Scr.TIM_DT_DEN * planCycles im none ((partEntries ws p).map (fun q => q.2)) ≤
      5 * im.val Scr.STG_PLAN_LIMIT * im.dlen * im.val Scr.TIM_DT_NUM)) &&
  ((((ws.filter (fun e => opOf e = 1)).flatMap (fun e => (List.range 4).map (fun j => groupOf e + j))).eraseDups).all
    (groupUseOk im ws))

end Sys2Proof.Machine
end

