-- ==== Sys2Proof/Machine/ScriptOps.lean ====
section
/-!
DEFINITION. How a commit builds, applies and drops an image (R51 to R61, R151, R364, R365), and the roll call (R65 to R68).
-/

namespace Sys2Proof.Machine

/-! ## Object copies (R20, R151, R237, R416) -/

/-- A device mover has written `n` bytes (R183, R204): the first of them carries every copy (DESIGN CHOICE, log 30). -/
def State.deviceBytes (s : State) (n : Nat) : State := s.addF (MOV_M_BYTES.COUNT 60) n

/-- Copy a store object through port RING: the copy, and whether it met an uncorrectable error. `unc`: its first code word is one (log 9). -/
def State.copyObj (s : State) (unc : Bool) (a n : Nat) : State × Obj × Bool :=
  let r := (List.range (cdiv n 64)).foldl (fun (q : State × Bool) i =>
    let l := q.1.agentRead 8 (a + 64 * i) (if unc && i == 0 then [3] else [])
    (l.1, q.2 || (List.range (min 8 (cdiv (n - 64 * i) 8))).any (fun w => l.2.2.getD w false))) (s, false)
  (r.1.deviceBytes n, ⟨n, (r.1.mem.filter (fun c => decide (a ≤ c.1) && decide (c.1 < a + n))).map (fun c => (c.1 - a, c.2))⟩, r.2)

/-- The 64-bit words of an object. -/
def Obj.words (o : Obj) : List Nat := (List.range (o.len / 8)).map (fun i => Memory.readNat o.cells (8 * i) 8)

/-- What a commit or a recheck has copied so far. -/
structure Copies where
  progs : List (Nat × Obj)
  hurt : Bool
  deriving DecidableEq, Repr

/-- The policy bits of the owner record (R363): 0 PROG, 1 SCRIPT. -/
def State.policy (s : State) (b : Nat) : Bool := (s.getF CTL_SEC.POLICY).testBit b

/-- Bytes of a program object: with PROG set, its signature is part of it (R364). -/
def State.progLen (s : State) (e : Nat) : Nat :=
  if s.policy 0 then cdiv (progBytes e) 64 * 64 + 3309 else progBytes e

/-- The signature of a program object verifies, or none is needed (R364). -/
def State.progSigned (s : State) (e : Nat) (o : Obj) : Bool :=
  !s.policy 0 ||
    Config.mlDsaVerify (Config.ownerKey s.ctl.jOwner) (sha3 (Memory.readBytes o.cells 0 (progBytes e)))
      (Memory.readBytes o.cells (cdiv (progBytes e) 64 * 64) 3309)

/-- Copy the program objects that a written PIT_PROG_TABLE names. A recheck uses the copies of the pending image. -/
def State.copyProgs (s : State) (unc : Bool) (old : Option Image) (recs : List (Nat × Nat)) : State × Copies :=
  match recs.find? (fun r => r.1 == Scr.PIT_PROG_TABLE.id) with
  | none => (s, ⟨[], false⟩)
  | some r =>
    (List.range 8).foldl (fun (q : State × Copies) i =>
      let e := bitsOf r.2 (64 * i) 64
      if progAddr e = 0 || q.1.capBytes < progAddr e + progBytes e then q
      else
        match old.filter (fun im => im.el Scr.PIT_PROG_TABLE i == e) with
        | some im => (q.1, { q.2 with progs := q.2.progs ++ [(i, im.progs.getD i ⟨0, []⟩)] })
        | none =>
          let c := q.1.copyObj unc (progAddr e) (q.1.progLen e)
          (c.1, ⟨q.2.progs ++ [(i, c.2.1)], q.2.hurt || c.2.2⟩)) (s, ⟨[], false⟩)

/-- The program objects of an image: written elements are copied anew, the others, and those whose signature fails, keep the base's copies
(R60, R364, R416). -/
def progObjs (base im : Image) (c : Copies) (bad : Nat → Bool) : List Obj :=
  (List.range 8).map (fun i =>
    let e := im.el Scr.PIT_PROG_TABLE i
    if progAddr e = 0 then ⟨0, []⟩
    else match c.progs.find? (fun p => p.1 == i) with
      | some p => if bad i then base.progs.getD i ⟨0, []⟩ else p.2
      | none => base.progs.getD i ⟨0, []⟩)

/-- A field was written and took effect. -/
def took (im : Image) (recs : List (Nat × Nat)) (f : SField) : Bool :=
  match recs.find? (fun r => r.1 == f.id) with | some r => im.val f == r.2 | none => false

/-- The weights object (R237). -/
def State.copyWeights (s : State) (unc : Bool) (old : Option Image) (base im : Image) (recs : List (Nat × Nat)) : State × Obj × Bool :=
  let v := im.val Scr.BEM_WEIGHTS
  if wtsAddr v = 0 then (s, ⟨0, []⟩, false)
  else if took im recs Scr.BEM_WEIGHTS then
    match old.filter (fun o => o.val Scr.BEM_WEIGHTS == v) with
    | some o => (s, o.weights, false)
    | none => s.copyObj unc (wtsAddr v) (wtsSets v * pageBytes)
  else (s, base.weights, false)

/-- Block width of mode 0 at a check (R340). -/
def State.widthFor (s : State) (im : Image) : Nat :=
  if im.val Scr.DUO_PLAN_WIDTH = 0 then s.width / 64 * 64 else im.val Scr.DUO_PLAN_WIDTH

/-- The plan of an image built so far (R19, R23): a new plan is copied and checked as a whole; one that is rejected leaves both
fields at their base values with a report for each; a plan that is kept and is invalid runs no passes. -/
def State.buildPlan (s : State) (unc : Bool) (old : Option Image) (base im : Image) (recs : List (Nat × Nat)) :
    State × Image × List Report × Bool :=
  let a := im.val Scr.STG_PLAN_ADDR
  let n := im.val Scr.STG_PLAN_COUNT
  let new := took im recs Scr.STG_PLAN_ADDR || took im recs Scr.STG_PLAN_COUNT
  let fits := im.within a (8 * n) (fun _ => true)
  let same := old.filter (fun o => o.val Scr.STG_PLAN_ADDR == a && o.val Scr.STG_PLAN_COUNT == n)
  let c : State × Obj × Bool :=
    if a = 0 then (s, ⟨0, []⟩, false)
    else if !new || !fits then (s, base.planObj, false)
    else match same with
      | some o => (s, o.planObj, false)
      | none => s.copyObj unc a (8 * n)
  let ok := a = 0 || ((fits || !new) && planOk im c.2.1.words)
  if new && !ok && !c.2.2 then
    let vals := Tbl.set im.vals Scr.STG_PLAN_ADDR.boot Scr.STG_PLAN_ADDR.id (base.val Scr.STG_PLAN_ADDR)
    let vals := Tbl.set vals Scr.STG_PLAN_COUNT.boot Scr.STG_PLAN_COUNT.id (base.val Scr.STG_PLAN_COUNT)
    let kept := { im with vals := vals }
    let good := planOk kept base.planObj.words
    let none_ := base.val Scr.STG_PLAN_ADDR = 0
    let run := if good && !none_ then base.planObj.words else []
    (c.1, { kept with planObj := base.planObj, plan := run, planInvalid := !good && !none_ },
     [(Scr.STG_PLAN_ADDR.id, 0, a, base.val Scr.STG_PLAN_ADDR), (Scr.STG_PLAN_COUNT.id, 0, n, base.val Scr.STG_PLAN_COUNT)], false)
  else
    let run := if ok && a != 0 then c.2.1.words else []
    (c.1, { im with planObj := c.2.1, plan := run, planInvalid := !ok }, [], c.2.2)

/-- Build the image of a commit to dwell `k` from a base and records (R53 step 5, R56): the image, its clamp reports, and whether
a copy met an uncorrectable error, `unc` being what the store gives. -/
def State.buildImage (s : State) (unc : Bool) (old : Option Image) (k : Int) (base : Image) (recs : List (Nat × Nat)) :
    State × Image × List Report × Bool :=
  let p := s.copyProgs unc old recs
  let s := p.1
  let bad (i : Nat) : Bool :=
    p.2.progs.any (fun e => e.1 == i &&
      !s.progSigned (match recs.find? (fun r => r.1 == Scr.PIT_PROG_TABLE.id) with | some r => bitsOf r.2 (64 * i) 64 | none => 0) e.2)
  let f := checkFields ⟨s, k, base, bad⟩ recs
  let im := { f.1 with blockW := s.widthFor f.1, progs := progObjs base f.1 p.2 bad, first := k, whole := false }
  let w := s.copyWeights unc old base im recs
  let im := { im with weights := w.2.1 }
  let pl := w.1.buildPlan unc old base im recs
  (pl.1, pl.2.1, f.2 ++ pl.2.2.1, p.2.hurt || w.2.2 || pl.2.2.2)

/-- The clamp reports of R57, in pairs. -/
def State.clampReports (s : State) (l : List Report) : State :=
  s.each l (fun s r =>
    let d1 := r.1 + 2 ^ 16 * r.2.1
    ((s.emitScript 0x1001 r.2.2.1 d1).emitScript 0x1002 r.2.2.2 d1).pulse 109)

/-! ## Pit programs (R151, R152, R158) -/

/-- The image changes the program of cluster `c` (R151; DEDUCED, log 30). -/
def State.cluChanges (s : State) (base im : Image) (c : Nat) : Bool :=
  let a := base.el Scr.PIT_CLU_PROG c
  let b := im.el Scr.PIT_CLU_PROG c
  if b % 16 = 15 then a % 16 != 15
  else a % 32 != b % 32 || base.progs.getD (a % 16) ⟨0, []⟩ != im.progs.getD (b % 16) ⟨0, []⟩ ||
    bitsOf (base.el Scr.PIT_PROG_TABLE (a % 16)) 52 12 != bitsOf (im.el Scr.PIT_PROG_TABLE (b % 16)) 52 12 ||
    (!s.flag (PIT_C_STATUS.RUN c) && (s.cluster c).swapDwell.isNone)

/-- The clusters a commit changes. -/
def State.cluChanged (s : State) (base im : Image) : List Nat := (List.range 128).filter (fun c => s.cluChanges base im c)

/-- Load the program of cluster `c` into its inactive bank, to run from dwell `k` on. -/
def State.loadBank (s : State) (im : Image) (k : Int) (c : Nat) : State :=
  let e := im.el Scr.PIT_CLU_PROG c
  let x := s.cluster c
  let bank := 1 - s.getF (PIT_C_STATUS.BANK c)
  let words := ((im.progs.getD (e % 16) ⟨0, []⟩).words).take (bitsOf (im.el Scr.PIT_PROG_TABLE (e % 16)) 52 12 + 1)
  let kept := x.prog.filter (fun p => p.1 / 4096 != bank)
  let prog := if e % 16 = 15 then x.prog
    else words.zipIdx.foldl (fun t w => Tbl.set t 0 (4096 * bank + w.2) (BitVec.ofNat 64 w.1)) kept
  (s.setCluster c { x with prog := prog, swapDwell := some k, swapIdle := e % 16 == 15 }).setF (PIT_C_STATUS.SWAP_PEND c) 1

/-- A dropped commit leaves no swap pending (R55). -/
def State.dropSwap (s : State) (c : Nat) : State :=
  (s.setCluster c { s.cluster c with swapDwell := none, swapIdle := false }).setF (PIT_C_STATUS.SWAP_PEND c) 0

/-! ## Applying an image (R54, R94) -/

/-- The images held: the boot image until the first commit. -/
def State.heldImages (s : State) : List Image := if s.scr.images.isEmpty then [Image.boot] else s.scr.images

/-- IDLE fields of the newest image take effect in units that are idle (R9). The ring engine is idle between commands (R39). -/
def State.idleFields (s : State) : State :=
  ({ s.idleHalves with scr.ctxPinned := s.newest.val Scr.HST_CTX_PINNED } : State).idleEgq

/-- An image becomes the newest: event 0x1004, producer COMMIT. -/
def State.applied (s : State) (im : Image) (k : Int) : State :=
  (((s.idleFields.attn 2).emitScript 0x1004 im.tag (dwell32 k)).pulse 51)

/-- Accept a commit while EPOCH is 0 (R94): its image governs every dwell from now on. -/
def State.applyNow (s : State) (im : Image) (k : Int) : State :=
  let old := s.newest
  let im := { im with whole := true }
  (({ s with scr.images := [im] } : State).cueRewire old im).applied im k

/-- House SIX of the lock point of dwell `k` under an image (R53). -/
def Image.lockSix (im : Image) (k : Int) : Nat :=
  ofSigned 64 ((im.startSix k : Int) - (im.val Scr.ING_EARLY_WINDOW : Int) -
    (cdiv (1000000 * im.val Scr.TIM_DT_DEN) (im.val Scr.TIM_DT_NUM) : Int))

/-- Step 1 of R53 fails. -/
def State.commitLate (s : State) (k : Int) : Bool :=
  let im := s.newest
  decide (k * (im.dlen : Int) - (im.val Scr.ING_EARLY_WINDOW : Int) -
    (cdiv (2000000 * im.val Scr.TIM_DT_DEN) (im.val Scr.TIM_DT_NUM) : Int) < sixDiff s.houseSix (im.val Scr.TIM_SIX0))

/-- Supersede the images first governing `k` or a later dwell (R54). -/
def State.supersede (s : State) (k : Int) : State :=
  let held := s.heldImages
  let gone := held.filter (fun im => !im.whole && decide (k ≤ im.first))
  let s := { s with scr.images := held.filter (fun im => im.whole || decide (im.first < k)) }
  s.each gone (fun s im => s.emitScript 0x1008 im.tag (dwell32 im.first))

/-- Swaps pending for a superseded image take place at dwell `k` (R54). -/
def State.retarget (s : State) (k : Int) : State :=
  s.each (List.range 128) (fun s c =>
    match (s.cluster c).swapDwell with
    | some j => if k < j then s.setCluster c { s.cluster c with swapDwell := some k } else s
    | none => s)

/-- The pending image becomes the newest. -/
def State.lockIn (s : State) (im : Image) (k : Int) : State :=
  let s := (s.supersede k).retarget k
  ({ s with scr.images := s.scr.images ++ [im], scr.pend := none } : State).applied im k

/-- The pending commit is dropped with an event (R55, R59). -/
def State.dropCommit (s : State) (p : Pending) (code : Nat) : State :=
  let s := s.each p.clusters State.dropSwap
  ({ s with scr.pend := none } : State).emitScript code p.image.tag (dwell32 p.image.first)

/-- The recheck at the lock point after a change of capabilities (R59): the image to apply, or none when it is dropped. -/
def State.recheck (s : State) (p : Pending) : State :=
  let k := p.image.first
  let b := s.buildImage false (some p.image) k p.base p.records
  let s := b.1.clampReports (b.2.2.1.filter (fun r => !p.reports.contains r))
  let im := b.2.1
  if p.checkResult && im.digest != p.image.digest then s.dropCommit p 0x1005
  else
    let s := s.each p.clusters State.dropSwap
    let s := s.each (s.cluChanged p.base im) (fun s c => if (s.cluster c).swapDwell.isNone then s.loadBank im k c else s)
    s.lockIn im k

/-- Pit stream `j` has still to announce its half of dwell `n` (R268). -/
def State.bufOwed (s : State) (j : Nat) (n : Int) : Bool :=
  let im := s.governing n
  let h := im.poolSlot (bufSlot j (n % 2).toNat)
  bitOf (im.val Scr.PRD_BUF_ANN) j && im.el Scr.PIT_OUT_ROUTE j == 1 && !(s.hdrType h == 3 && decide (n ≤ s.hdrDwell h))

/-- A cluster, or a mover's stream of it, holds data of a dwell of `l`. -/
def State.cluHolds (s : State) (l : Int → Bool) (c : Nat) (x : Cluster) : Bool :=
  x.inQ.any (fun v => l v.dwell) || x.outQ.any (fun v => l (s.dwellOf v.six)) ||
  (x.nullDone ++ (s.seq.markers.filter (fun m => m.2 == c)).map (fun m => m.1)).any (fun n =>
    l n && (List.range 4).any (fun k => s.bufOwed (4 * c + k) n))

/-- The fabric holds data of a dwell of `l`: packets to be sent, vectors received, ADDs and marks that wait. -/
def State.fabHolds (s : State) (l : Int → Bool) : Bool :=
  s.fab.txq.any (fun e => (hdr e.2.2.1 4 4 == 3 || hdr e.2.2.1 4 4 == 4) && l (s.packetDwell e.2.2.1)) ||
  s.fab.rxq.any (fun e => l (s.dwellOf e.2.six)) || s.fab.addWait.any (fun e => l (s.packetDwell e.2.1)) ||
  s.fab.waitMarks.any (fun m => l m.dwell)

/-- A unit holds data of a dwell of `l` (R54). -/
def State.holdsIn (s : State) (l : Int → Bool) : Bool :=
  (s.seq.ringWait ++ s.seq.replay.toList ++ s.seq.replayed).any l ||
  s.seq.pages.any (fun e => l e.1.1) ||
  s.seq.part.any (fun x => x.slots.any (fun sl => decide (sl.st ≠ .free) && l sl.dwell)) ||
  s.liveRecs.any (fun x => l (s.rec_ x).dwell) ||
  [0, 1].any (fun b => s.getF (bankStateF b) = 1 && (dwellRange (s.bank b).firstDwell (s.bankLast b)).any l) ||
  s.clu.any (fun e => e.2.any (fun x => s.cluHolds l e.1 x)) ||
  s.ing.port.any (fun e => e.2.any (fun x => x.queue.any (fun q => q.any (fun v => l v.2.dwell)))) ||
  s.mov.any (fun e => e.2.any (fun x => x.work && l x.dwell)) ||
  s.fabHolds l

/-- The image at place `i` governs no dwell that a unit holds data of, or that is still open. -/
def State.imageIdle (s : State) (i : Nat) : Bool :=
  match s.scr.images[i]?, s.scr.images[i + 1]? with
  | some im, some next =>
    let l (n : Int) : Bool := (im.whole || i = 0 || decide (im.first ≤ n)) && decide (n < next.first)
    next.whole || (decide (next.first - 1 ≤ s.seq.closed) && !s.holdsIn l)
  | _, _ => false

/-! ## Staging (R50, R51) -/

/-- Bytes a record takes. -/
def recSize (len : Nat) : Nat := 8 + 8 * cdiv len 8

/-- Bytes of the staging area in use. -/
def State.stagedBytes (s : State) : Nat :=
  s.scr.staging.foldl (fun a r => a + recSize ((Scr.ofId r.1).map SField.len |>.getD 0)) 0

/-- Stage a record: a later one replaces an earlier one of the same field. -/
def State.stage (s : State) (id v : Nat) : State :=
  { s with scr.staging := s.scr.staging.filter (fun r => r.1 != id) ++ [(id, v)] }

/-- Read records from offset `pos`: the state, the offset where the load stops, the records staged, and the reason code. A load that ends
at an END record stops at that record's own offset (DESIGN CHOICE, log 30). The first argument bounds the number of records. -/
def State.loadRecords : Nat → State → List Byte → Nat → Nat → Nat → State × Nat × Nat × Nat
  | 0, s, _, _, pos, n => (s, pos, n, 0)
  | fuel + 1, s, data, len, pos, n =>
    if len ≤ pos then (s, pos, n, 0)
    else if data.length < pos + 8 then (s, pos, n, 3)
    else
      let h := leNat ((data.drop pos).take 8)
      let id := bitsOf h 0 16
      let l := bitsOf h 16 16
      let next := pos + recSize l
      if id = 0 then (s, pos, n, 0)
      else if len < next then (s, pos, n, 1)
      else
        match Scr.ofId id with
        | none => State.loadRecords fuel (s.emitScript 0x1003 pos (id + 2 ^ 16)) data len next n
        | some f =>
          if f.len ≠ l then State.loadRecords fuel (s.emitScript 0x1003 pos (id + 2 ^ 17)) data len next n
          else if data.length < pos + 8 + l then (s, pos, n, 3)
          else
            let t := s.stage id (leNat ((data.drop (pos + 8)).take l) % 2 ^ f.width)
            if 262144 < t.stagedBytes then (s, pos, n, 2)
            else State.loadRecords fuel t data len next (n + 1)

/-! ## Roll call (R65 to R68) -/

/-- A word of the script digest, as SCP_DIGEST0 to SCP_DIGEST3 read (R69). -/
def State.digestWord (s : State) (w : Nat) : Nat := if s.scr.installed then bitsOf s.newest.digest (64 * w) 64 else 0

/-- A word of the local digest. -/
def State.ldigestWord (s : State) (w : Nat) : Nat :=
  if s.scr.installed then bitsOf s.newest.localDigest (64 * w) 64 else 0

/-- An IDLE field of the newest image has not taken effect (R56, R69). -/
def State.idlePend (s : State) : Bool :=
  s.newest.val Scr.STO_DRING_HALVES != s.scr.dringHalves || s.newest.val Scr.HST_CTX_PINNED != s.scr.ctxPinned ||
    s.newest.val Scr.FAB_EGQ != s.scr.egq

/-- The answer to a query code (R67): answer cycles, answers, and the cycles in which the chip abstains. -/
def State.rollAnswer (s : State) (code : Nat) : Nat × Nat × Nat :=
  let all := 2 ^ 64 - 1
  let pos := s.getF SCP_RC_CTRL.POS
  let one (b : Bool) : Nat × Nat × Nat := (1, b2n b, 0)
  if 0x10 ≤ code && code ≤ 0x13 then (64, s.digestWord (code - 0x10), 0)
  else if code = 0x19 then
    match s.scr.pend with | some p => (64, ofSigned 64 p.image.first, 0) | none => (64, 0, all)
  else if code = 0x1A then
    match s.scr.pend with | some p => (64, p.image.tag, 0) | none => (64, 0, all)
  else if code = 0x20 then one s.iron
  else if code = 0x21 then one (s.getF HCK_STATUS.STATE = 2)
  else if code = 0x22 then one (s.flag DUO_STATUS.REPLACE)
  else if code = 0x23 then one s.scr.pend.isSome
  else if code = 0x24 then one s.idlePend
  else if code = 0x30 then (64, 2 ^ pos, all - 2 ^ pos)
  else if code = 0x31 then
    if s.flag SCP_RC_CTRL.ATTN then (64, 2 ^ pos, all - 2 ^ pos) else (64, 0, all)
  else (0, 0, 0)

/-- ATTN clears and RC_ATTN is released (R68). -/
def State.clearAttn (s : State) : State := (s.setF SCP_RC_CTRL.ATTN 0).drive 103 false

/-- The master starts a frame (R65, R69): GO stays set while the frame runs. -/
def State.rollGo (s : State) (code : Nat) : State :=
  if s.flag SCP_RC_CTRL.MASTER && !s.flag SCP_RC_QUERY.BUSY then
    let s := ((s.setF SCP_RC_QUERY.CODE code).setF SCP_RC_QUERY.GO 1).setF SCP_RC_QUERY.BUSY 1
    ({ s with scr.rcCode := code } : State).send (.rollCall code)
  else s

end Sys2Proof.Machine
end

