-- ==== Sys2Proof/Machine/Script.lean ====
section
/-!
DEFINITION. Meanings of the script commands, the lock point, the release of an image and the roll call (R50 to R69, R94, R151,
R365, R416, R418).
-/

namespace Sys2Proof.Machine

/-- SCRIPT_LOAD (R51, R52). `data` is what the host read returned (log 5). -/
def execScriptLoad (ring : Fin 262144) (data : List Byte) (s : State) : Res :=
  let r := ring.val
  withCmd s r 0x10 (fun s e =>
    let len := e.arg 128 32
    if e.arg 64 64 % 8 ≠ 0 || len % 8 ≠ 0 then s.complete r e stBadArg (9 * 2 ^ 48) 9
    else
      let s := if e.arg 160 1 = 1 then { s with scr.staging := [] } else s
      let q := State.loadRecords (data.length / 8 + 1) s data len 0 0
      let why := q.2.2.2
      (q.1.deviceBytes q.2.1).complete r e (if why = 0 then stOk else if why = 3 then stDeviceError else stBadArg)
        (q.2.1 % 2 ^ 32 + 2 ^ 32 * min 65535 q.2.2.1 + 2 ^ 48 * why) why)

/-- The signature of R365 verifies, or none is needed. -/
def State.commitSigned (s : State) (im : Image) (sig : List Byte) : Bool :=
  !s.policy 1 ||
    (sig.length == 3309 &&
      Config.mlDsaVerify (Config.ownerKey s.ctl.jOwner) (sha3 (leBytes 32 im.digest ++ leBytes 32 im.localDigest)) sig)

/-- A commit is accepted (R53, R54, R94): the clusters whose program changes load their inactive bank. While EPOCH is 0 the
image applies at once. -/
def State.commitTake (s : State) (r : Nat) (e : Exec) (k : Int) (base im : Image) (reports : List (Nat × Nat × Nat × Nat))
    (cs : List Nat) : State :=
  let recs := s.scr.staging
  let s := s.each cs (fun s c => s.loadBank im (if s.epoch then k else swapAny) c)
  let s := { s with scr.staging := [] }
  if s.epoch then
    ({ s with scr.pend := some ⟨im, base, recs, reports, e.arg 129 1 = 1, s.getF CTL_CAP3.CAP_SEQ, cs⟩ } : State).complete
      r e stPending im.tag 0
  else (s.complete r e stPending im.tag 0).applyNow im k

/-- Steps 5 to 7 of R53 and the acceptance. The BUSY of R151, for a changed cluster that still has SWAP_PEND, is judged after step 7, with
the clamp reports written (DESIGN CHOICE, log 30). -/
def State.commitBuild (s : State) (r : Nat) (e : Exec) (k : Int) (sig : List Byte) (uncorrectable : Bool) : State :=
  let base := s.newest
  let recs := s.scr.staging
  let b := s.buildImage uncorrectable none k base recs
  let s := b.1
  let im := b.2.1
  if b.2.2.2 then s.complete r e stDeviceError 0 3
  else
    let s := s.clampReports b.2.2.1
    if !s.commitSigned im sig then s.complete r e stBadArg im.tag 8
    else if (e.arg 128 1 = 1 && e.arg 192 64 != base.tag) || (e.arg 129 1 = 1 && e.arg 256 64 != im.tag) then
      s.complete r e stBadArg im.tag 6
    else
      let cs := s.cluChanged base im
      if cs.any (fun c => (s.cluster c).swapDwell.isSome) then s.finish r e stBusy
      else
        s.commitTake r e k base im b.2.2.1 cs

/-- SCRIPT_COMMIT (R53, R94, R322). While six images are held the command waits (R54). -/
def execScriptCommit (ring : Fin 262144) (sig : List Byte) (uncorrectable : Bool) (s : State) : Res :=
  let r := ring.val
  withCmd s r 0x11 (fun s e =>
    let k := toSigned 64 (e.arg 64 64)
    if s.iron then s.finish r e stInIron
    else if s.epoch && s.commitLate k then s.complete r e stBadArg 0 4
    else if s.epoch && decide (2 ^ 24 < k - s.houseDwell) then s.complete r e stBadArg 0 5
    else if s.scr.pend.isSome then s.finish r e stBusy
    else if 6 ≤ s.heldImages.length then s
    else s.commitBuild r e k sig uncorrectable)

/-- SCRIPT_CANCEL (R55): at or after the lock point it drops nothing. -/
def execScriptCancel (ring : Fin 262144) (s : State) : Res :=
  let r := ring.val
  withCmd s r 0x12 (fun s e =>
    match s.scr.pend with
    | none => s.complete r e stOk 0 0
    | some p =>
      if s.epoch && decide (0 ≤ sixDiff s.houseSix (p.base.lockSix p.image.first)) then s.complete r e stOk 0 0
      else (s.dropCommit p 0x1007).complete r e stOk 1 0)

/-- SCRIPT_READ (R52). On viral nothing is written (R30). -/
def execScriptRead (ring : Fin 262144) (s : State) : Res :=
  let r := ring.val
  withCmd s r 0x13 (fun s e =>
    let im := if e.arg 160 1 = 0 then some s.newest else s.scr.pend.map (fun p => p.image)
    match im with
    | none => s.complete r e stBadArg 0 7
    | some im =>
      let data := (im.canonical false).take (e.arg 128 32)
      ((s.hostPut (e.arg 64 64) data).deviceBytes data.length).complete r e stOk data.length 0)

/-- LOCK_POINT (R54, R59): house SIX reaches the lock point of the pending commit. -/
def execLockPoint (s : State) : Res :=
  done (match s.scr.pend with
    | none => s
    | some p =>
      s.whenever (s.epoch && s.power != 3) (fun s =>
        let k := p.image.first
        let s := s.advanceTo (p.base.lockSix k)
        if s.getF CTL_CAP3.CAP_SEQ = p.capSeq then s.lockIn p.image k else s.recheck p))

/-- IMAGE_RELEASE (R54): the held image at place `index`, oldest first, is released once no unit holds data of a dwell it
governs. -/
def execImageRelease (index : Fin 6) (s : State) : Res :=
  done (s.whenever (s.imageIdle index.val) (fun s => { s with scr.images := s.scr.images.eraseIdx index.val }))

/-- ROLL_CALL_GO (R65, R69). -/
def execRollCallGo (code : BitVec 8) (s : State) : Res := done (s.whenever (s.power != 3) (fun s => s.rollGo code.toNat))

/-- ROLL_CALL_QUERY (R65, R67, R68): the answers are latched and given; an ATTN_WHO answered 1 clears ATTN. -/
def execRollCallQuery (code : BitVec 8) (s : State) : Res :=
  done (s.whenever (s.flag SCP_RC_CTRL.ENABLE && s.power != 3) (fun s =>
    let a := s.rollAnswer code.toNat
    let who := code = 0x31 && s.flag SCP_RC_CTRL.ATTN
    let s := ({ s with scr.rcSnap := a.2.1 } : State).send (.rollAnswer a.2.1 a.2.2)
    if who then s.clearAttn else s))

/-- ROLL_CALL_DONE (R65, R66, R69): `h` and `l` hold a 1 for each answer cycle in which the line was low. The frame's own code
says how many there are. -/
def execRollCallDone (h l : BitVec 64) (s : State) : Res :=
  done (s.whenever (s.flag SCP_RC_QUERY.BUSY && s.power != 3) (fun s =>
    let n := (s.rollAnswer s.scr.rcCode).1
    let s := (s.setF SCP_RC_H.LOW (h.toNat % 2 ^ n)).setF SCP_RC_L.LOW (l.toNat % 2 ^ n)
    ((s.setF SCP_RC_QUERY.GO 0).setF SCP_RC_QUERY.BUSY 0).setF SCP_RC_QUERY.DONE 1))

end Sys2Proof.Machine
end

