-- ==== Sys2Proof/Machine/Time.lean ====
section
/-!
DEFINITION. Meanings of the commands of the time unit (05_sample_index_and_time.md, R91 to R108). Times and offsets are in
2^-16 ns. The offset of a domain is its time less the TAI clock, as the example of R104 has it (log 17).
-/

namespace Sys2Proof.Machine

/-- Picoseconds in 2^-16 ns, rounded down. -/
def psTicks (ps : Int) : Int := fdiv (ps * 65536) 1000

/-- Nanoseconds in 2^-16 ns. -/
def nsTicks (ns : Nat) : Int := (ns : Int) * 65536

/-! ## Domains (R100, R102 to R104) -/

def domEnF (d : Nat) : Fld := if d = 0 then TIM_DOM0.EN else TIM_DOM1.EN
def domNumberF (d : Nat) : Fld := if d = 0 then TIM_DOM0.DOMAIN else TIM_DOM1.DOMAIN
def domSdoF (d : Nat) : Fld := if d = 0 then TIM_DOM0.MAJOR_SDO else TIM_DOM1.MAJOR_SDO
def transportF (p : Nat) : Fld := if p = 0 then TIM_PORT0_CFG.TRANSPORT else TIM_PORT1_CFG.TRANSPORT
def uniDreqF (p : Nat) : Fld := if p = 0 then TIM_PORT0_CFG.UNI_DREQ else TIM_PORT1_CFG.UNI_DREQ
def ipv4F (p : Nat) : Fld := if p = 0 then TIM_PORT0_CFG.IPV4 else TIM_PORT1_CFG.IPV4
def rxLatF (p : Nat) : Fld := if p = 0 then TIM_PORT0_CAL.RXLAT else TIM_PORT1_CAL.RXLAT
def txLatF (p : Nat) : Fld := if p = 0 then TIM_PORT0_CAL.TXLAT else TIM_PORT1_CAL.TXLAT
def asymF (p : Nat) : Fld := if p = 0 then TIM_PORT0_CAL.ASYM else TIM_PORT1_CAL.ASYM

/-- A domain instance. -/
def State.dom (s : State) (d : Nat) : Dom := s.tim.dom.getD d Dom.fresh

/-- Change a domain instance. -/
def State.setDom (s : State) (d : Nat) (x : Dom) : State := { s with tim.dom := s.tim.dom.set d x }

/-- The TAI clock at a port's timestamp point, with a resolution of 0.25 ns (R100). -/
def State.stampTai (s : State) : Int := ((s.taiNow / 16384 * 16384 : Nat) : Int)

/-- Ingress and egress timestamps (R100). -/
def State.rxStamp (s : State) (p : Nat) : Int := s.stampTai - psTicks (s.getF (rxLatF p))
def State.txStamp (s : State) (p : Nat) : Int := s.stampTai + psTicks (s.getF (txLatF p))

/-- delayAsymmetry of a port (R100). -/
def State.asym (s : State) (p : Nat) : Int := psTicks (s.getS (asymF p))

/-- A domain is usable (R103). -/
def State.usable (s : State) (d : Nat) : Bool :=
  s.flag (domEnF d) && (s.dom d).announced && (s.dom d).synced && !s.bit TIM_STATUS.FAULTY d

/-- The frequency term takes a value, which the mean of the last 60 s counts from now on (R97, R102). -/
def State.setFreq (s : State) (f : Int) : State :=
  let old (e : Nat × Int) : Bool := decide (e.1 + minuteCycles ≤ s.clk.cycles)
  let l := s.tim.freqs.takeWhile (fun e => !old e)
  { s with clk.freq := f, tim.freqs := (s.clk.cycles, f) :: (l ++ (s.tim.freqs.drop l.length).take 1) }

/-- The mean of the frequency term over the last 60 s: each value weighs as long as it stood. -/
def State.freqMean (s : State) : Int :=
  let r := s.tim.freqs.foldl (fun (q : Int × Nat × Nat) e =>
    let n := q.2.2 - max e.1 (s.clk.cycles - minuteCycles)
    (q.1 + e.2 * n, q.2.1 + n, min q.2.2 e.1)) (0, 0, s.clk.cycles)
  if r.2.1 = 0 then s.clk.freq else fdiv r.1 (r.2.1 : Int)

/-- The servo enters a state (R102): 0 FREE, 1 ACQUIRING, 2 LOCKED, 3 HOLDOVER. -/
def State.servoState (s : State) (new : Nat) : State :=
  let old := s.getF TIM_STATUS.SERVO
  if old = new then s else
  let s := s.setF TIM_STATUS.SERVO new
  let s := if new = 2 then s.setF TIM_STATUS.TAI_VALID 1 else s
  let s := { s with tim.servoRun := 0 }
  let s := if new = 3 then { (s.setF TIM_STATUS.SLEWING 0).setFreq s.freqMean with clk.slew := 0 } else s
  let s := (s.putBit TIM_EVT.BITS 1 true).emit timSrc 0x0202 (old + 256 * new) (s.getF TIM_STATUS.TAI_VALID) 0
  (s.drive 58 (new = 2)).hckLinks

/-- An offset is removed through the slew term (R104). -/
def State.slewAway (s : State) (o : Int) : State :=
  let lim : Int := (s.getF TIM_LIMITS.SLEW_PPB : Int) * 1000000
  { s.setF TIM_STATUS.SLEWING 1 with
    clk.slew := if o < 0 then -lim else if o = 0 then 0 else lim, tim.slewFrom := o, tim.slewAt := s.clk.cycles }

/-- Domain `d` becomes active by a switch (R104): cause 0 not usable, 1 revertive. Its offset is slewed away. -/
def State.domainSwitch (s : State) (d cause : Nat) : State :=
  let o := ((s.dom d).offset).getD 0
  let s := (s.setF TIM_STATUS.ACT_DOM d).slewAway o
  let s := ({ s with tim.servoRun := 0 } : State).setS TIM_OFS_ACT.VALUE o
  ((s.putBit TIM_EVT.BITS 0 true).emit timSrc 0x0201 (ofSigned 64 o) (d + 2 * cause) 0).pulse 56

/-- USABLE is shown, and the active domain and the servo follow it (R102, R104). -/
def State.refreshDomains (s : State) : State :=
  let u0 := s.usable 0
  let u1 := s.usable 1
  let s := s.each [(0, u0), (1, u1)] (fun s q =>
    if q.2 && !s.bit TIM_STATUS.USABLE q.1 then s.startTimer (.domUsable q.1) else s)
  let s := s.setF TIM_STATUS.USABLE (b2n u0 + 2 * b2n u1)
  let act := s.getF TIM_STATUS.ACT_DOM
  let st := s.getF TIM_STATUS.SERVO
  if !u0 && !u1 then (if st = 2 then s.servoState 3 else s)
  else if st = 0 then
    let pref := s.getF TIM_CTRL.PREF_DOM
    let d := if s.usable pref then pref else 1 - pref
    (s.setF TIM_STATUS.ACT_DOM d).servoState 1
  else
    let s := if s.usable act then s else s.domainSwitch (1 - act) 0
    if st = 3 then s.servoState 1 else s

/-- What a domain has measured against the TAI clock, after the clock has stepped by `d`. -/
def Dom.stepped (x : Dom) (d : Int) : Dom :=
  { x with twoStep := x.twoStep.map (fun q => (q.1, q.2.1 + d, q.2.2)), msDiff := x.msDiff.map (fun v => v + d),
           t3 := x.t3.map (fun v => v + d), offset := x.offset.map (fun o => o - d), offsets := x.offsets.map (fun o => o - d) }

/-- The TAI clock steps by `d` (R102). Compare units that the step passes fire late (R106). -/
def State.taiStep (s : State) (d : Int) : State :=
  let ds := s.tim.dom.map (fun x => x.stepped d)
  let c := ((s.clk.tai : Int) + d * 10 ^ 15).toNat
  { s.pulse 57 with clk.tai := c, tim.dom := ds }

/-! ## Compare units (R105, R106) -/

/-- House cycles until a unit's target (R105); one when it is past. -/
def State.cmpCycles (s : State) (u : Nat) : Nat :=
  let d := s.cmpDiff u
  if 0 ≤ d || s.cmpPast u then 1
  else if s.flag (TIM_CMP_CTRL.MODE u) then
    let rate := (262144 * (10 ^ 15 + s.clk.freq + s.clk.slew)).toNat
    if rate = 0 then 1 else cdiv (s.cmpTai u * 10 ^ 15 - s.clk.tai) rate
  else 0

/-- Add PERIOD to a unit's target; PERIOD below its minimum is raised to it (R106). -/
def State.cmpNext (s : State) (u : Nat) : State :=
  let p := s.getF (TIM_CMP_PERIOD.PERIOD u)
  if s.flag (TIM_CMP_CTRL.MODE u) then
    let t := s.cmpTai u + max p (64 * 65536)
    (s.setF (TIM_CMP_TARGET_HI.TARGET_HI u) (t / (1000000000 * 65536) % 2 ^ 48)).setF (TIM_CMP_TARGET_LO.TARGET_LO u)
      (t % (1000000000 * 65536))
  else s.setF (TIM_CMP_TARGET_HI.TARGET_HI u) (s.getF (TIM_CMP_TARGET_HI.TARGET_HI u) + max p 1)

/-- COMPARE_ARM (R106). -/
def execCompareArm (unit : Fin 8) (s : State) : Res := done (s.cmpArm unit.val)

/-- Time runs on to a unit's target, and the unit fires (R105, R106). -/
def State.cmpFire (s : State) (u : Nat) : State :=
  let s := if s.flag (TIM_CMP_CTRL.MODE u) || s.cmpPast u then s.runCycles (s.cmpCycles u)
    else s.advanceTo (s.getF (TIM_CMP_TARGET_HI.TARGET_HI u))
  let late := s.tim.cmpLate.getLsbD u
  let d := s.cmpDiff u
  let s := { s.setF (TIM_CMP_CTRL.FIRED u) 1 with tim.cmpLate := s.tim.cmpLate &&& ~~~(BitVec.ofNat 8 (2 ^ u)) }
  let s := if late then
      ((s.setF (TIM_CMP_CTRL.LATE u) 1).putBit TIM_EVT.BITS 4 true).emit timSrc 0x0206 (ofSigned 64 d) u 0
    else s
  let s := s.pulseWith (if s.flag (TIM_CMP_CTRL.MODE u) then some d else none) (8 + u)
  if s.flag (TIM_CMP_CTRL.PERIODIC u) then (s.cmpNext u).cmpNote u else s.setF (TIM_CMP_CTRL.ARM u) 0

/-- COMPARE_FIRE (R105, R106). -/
def execCompareFire (unit : Fin 8) (s : State) : Res := done (s.whenever (s.cmpLive unit.val) (fun s => s.cmpFire unit.val))

/-- A read of TIM_SNAP_SEC latches the snapshot (R108). -/
def State.snapshot (s : State) : State :=
  let t := s.taiNow
  let sec := t / (1000000000 * 65536)
  let s := ((s.setF TIM_SNAP_SEC.SEC sec).setF TIM_SNAP_LO.LO (t % (1000000000 * 65536))).setF TIM_SNAP_SIX.SIX s.houseSix
  { s with host.lastRead := sec % 2 ^ 48 }

/-- SNAPSHOT_READ (R108). -/
def execSnapshotRead (s : State) : Res := done s.snapshot

/-! ## The epoch (R94) -/

/-- The epoch starts: SIX and accumulator from the TAI clock and the newest image, which then governs every dwell up to the
next commit. -/
def State.epochLoad (s : State) : State :=
  let im := s.newest
  let den := im.val Scr.TIM_DT_DEN
  let num := im.val Scr.TIM_DT_NUM
  let x := fdiv (((s.taiNow : Int) - (taiTicks (im.val Scr.TIM_TAI0) : Int)) * den) 65536
  let q := fdiv x num
  let s := { s with clk.six := ofSigned 64 ((im.val Scr.TIM_SIX0 : Int) + q), clk.acc := (x - q * num).toNat }
  let ims := s.scr.images.dropLast ++ s.scr.images.getLast?.toList.map (fun i => { i with whole := true })
  let s := { s with scr.images := ims }
  let s := s.setF TIM_STATUS.EPOCH 1
  let n := s.houseDwell
  let s := { s with seq.started := n,
                    seq.closed := fdiv (sixDiff s.clk.six (im.val Scr.TIM_SIX0) - (im.val Scr.ING_LATE_WINDOW : Int)) im.dlen - 1,
                    prd.anchors := [(0, 0, max 1 (im.val Scr.PRD_INTEG))] }
  s.setS TIM_EPS.VALUE (s.epsNow 0)

/-- The epoch starts: event 0x0207 and producer EPOCH; the state of the house clock marks the dwells now open (R90). House SIX starts
anew, so no vector counts as taken past a flip (R153). -/
def State.epochBegin (s : State) : State :=
  let s := s.epochLoad
  let s := (s.putBit TIM_EVT.BITS 5 true).emit timSrc 0x0207 s.clk.six (1 + 2 * b2n (s.flag TIM_STATUS.TAI_VALID)) 0
  let s := { s with clu := s.clu.map (fun (e : Nat × Option Cluster) => (e.1, e.2.map (fun x : Cluster => { x with topSix := none }))) }
  (s.pulse 112).cmpNoteAll.hckMark

/-- EPOCH_START (R94). -/
def execEpochStart (s : State) : Res :=
  done (s.whenever (!s.epoch && (s.flag TIM_STATUS.TAI_VALID || s.flag TIM_CTRL.FREE_EPOCH)) State.epochBegin)

/-- EPOCH_CLR is written 1 (R94): acted on in HOLD or INTERMISSION, otherwise discarded with WERR. -/
def State.epochClear (s : State) : State :=
  if s.getF PWR_STATUS.STATE = 1 || s.getF PWR_STATUS.STATE = 2 then s.setF TIM_STATUS.EPOCH 0
  else s.putBit TIM_EVT.BITS 7 true

/-- EPOCH_CLR (R94). -/
def execEpochClr (s : State) : Res := done s.epochClear

/-- STEP_ARM (R102). -/
def execStepArm (s : State) : Res := done (s.setF TIM_CTRL.STEP_ARM 1)

/-- The mapping record, and the warning when the offset crosses its limit (R98). -/
def State.epsRecord (s : State) : State :=
  let e := s.getS TIM_EPS.VALUE
  let w := nsTicks (s.sv Scr.TIM_EPS_WARN)
  let s := if s.sv Scr.TIM_EPS_REC = 0 then s
    else s.emit timSrc 0x0204 s.clk.six (ofSigned 32 (max (-(2 ^ 31)) (min (2 ^ 31 - 1) e))) 0
  if !s.tim.epsAbove && decide (w < e.natAbs) then
    (({ s with tim.epsAbove := true } : State).putBit TIM_EVT.BITS 3 true).emit timSrc 0x0205 (ofSigned 64 e) 1 0
  else if s.tim.epsAbove && decide (2 * (e.natAbs : Int) < w) then
    (({ s with tim.epsAbove := false } : State).putBit TIM_EVT.BITS 3 true).emit timSrc 0x0205 (ofSigned 64 e) 0 0
  else s

/-- EPS_RECORD (R98): TIM_EPS_REC seconds have passed since the last one. -/
def execEpsRecord (s : State) : Res :=
  done (s.whenever s.epoch (fun s => ((s.lapse .epsRec (secCycles * s.sv Scr.TIM_EPS_REC)).startTimer .epsRec).epsRecord))

/-! ## Measurements (R100, R102) -/

/-- An armed step is applied (R102). -/
def State.armedStep (s : State) (d : Nat) (o : Int) : State :=
  let s := (s.taiStep o).setF TIM_CTRL.STEP_ARM 0
  ((s.putBit TIM_EVT.BITS 6 true).emit timSrc 0x0208 (ofSigned 64 o) d 3).raise timSrc 0x0005 3 true

/-- A domain becomes FAULTY (R102). -/
def State.faultyDomain (s : State) (d : Nat) (o : Int) : State :=
  ((s.putBit TIM_STATUS.FAULTY d true).putBit TIM_EVT.BITS 2 true).emit timSrc 0x0203 (ofSigned 64 o) d 1

/-- The step or the fault that an offset causes (R102). -/
def State.judgeOffset (s : State) (d : Nat) (o : Int) : State :=
  let valid := s.flag TIM_STATUS.TAI_VALID
  let act := s.getF TIM_STATUS.SERVO = 0 || s.getF TIM_STATUS.ACT_DOM = d
  if !valid && !s.tim.stepped then { s.taiStep o with tim.stepped := true }
  else if act && s.flag TIM_CTRL.STEP_ARM then s.armedStep d o
  else if valid && !s.flag TIM_CTRL.STEP_ARM && decide (nsTicks (s.getF TIM_LIMITS.STEP_LIM) < o.natAbs) && !s.bit TIM_STATUS.FAULTY d then
    s.faultyDomain d o
  else s

/-- TIM_DOM_OFS while both domains are usable (R103). -/
def State.showDomOfs (s : State) : State :=
  if s.usable 0 && s.usable 1 then s.setS TIM_DOM_OFS.VALUE (meanInt (s.dom 1).offsets - meanInt (s.dom 0).offsets) else s

/-- The servo uses an offset of the active domain (R97, R102): its own frequency estimate is not stated, a free value;
`sync` counts a Sync interval. -/
def State.steer (s : State) (o : Int) (sync : Bool) : State :=
  let f := toSigned 40 s.free
  let s := (s.drew.setS TIM_OFS_ACT.VALUE o).setFreq f
  let n := if !sync then s.tim.servoRun else if o.natAbs ≤ 100 * 65536 then s.tim.servoRun + 1 else 0
  let s := { s with tim.servoRun := n }
  if s.getF TIM_STATUS.SERVO = 1 && decide (16 ≤ n) then s.servoState 2 else s

/-- What slews follow an offset of the active domain (R104): that of a new grandmaster is slewed away, and one that is being removed is
what remains. -/
def State.followSlew (s : State) (d : Nat) (o : Int) : State :=
  if (s.dom d).newMaster then (s.setDom d { s.dom d with newMaster := false }).slewAway o
  else if s.flag TIM_STATUS.SLEWING then { s with tim.slewFrom := o, tim.slewAt := s.clk.cycles }
  else s

/-- How long the offset of a domain has stayed within STEP_LIM (R103). -/
def State.withinLimit (s : State) (d : Nat) (o : Int) : State :=
  if nsTicks (s.getF TIM_LIMITS.STEP_LIM) < o.natAbs then s.stopTimer (.domWithin d)
  else if (s.timerOf (.domWithin d)).isSome then s else s.startTimer (.domWithin d)

/-- An offset of domain `d` is measured; `sync` counts it as a Sync interval. -/
def State.measured (s : State) (d : Nat) (o : Int) (sync : Bool) : State :=
  let s := s.withinLimit d o
  let l := if sync then (o :: (s.dom d).offsets).take 16 else (s.dom d).offsets
  let s := s.setDom d { s.dom d with offset := some o, synced := true, offsets := l }
  let s := (s.judgeOffset d o).cmpNoteAll.refreshDomains.showDomOfs
  if s.usable d && s.getF TIM_STATUS.ACT_DOM = d then
    let o := (s.dom d).offset.getD 0
    (s.followSlew d o).steer o sync
  else s

/-- The offset of a domain (R100): the time of the master less that of the TAI clock, by the last Sync and the mean path delay. -/
def Dom.measure (x : Dom) : Option Int :=
  match x.msDiff, x.pathDelay with
  | some ms, some d => some (d - ms)
  | _, _ => none

/-- Use what a domain has measured. -/
def State.useMeasure (s : State) (d : Nat) (sync : Bool) : State :=
  match (s.dom d).measure with
  | some o => s.measured d o sync
  | none => s

/-- A frame leaves on the other time port: with the residence time added, the UDP checksum 0 and the FCS recomputed (R101). -/
def State.tcSend (s : State) (p : Nat) (frame : PortFrame) (added : Int) : State :=
  s.send (.ptpForward (1 - p) frame added (if frame.udp then some 0 else none))

/-- The residence time kept for the Follow_Up of a Sync (R101), and then dropped. -/
def State.residenceOf (s : State) (key : Nat × PtpHeader × Nat) : Int :=
  ((s.tim.residence.find? (fun e => e.1 == key)).map (fun e => e.2)).getD 0
def State.dropResidence (s : State) (key : Nat × PtpHeader × Nat) : State :=
  { s with tim.residence := s.tim.residence.filter (fun e => e.1 != key) }

/-- The transparent clock forwards a PTP frame to the other port (R101): not in DARK. The residence time is a free value below
1.5 µs; a two-step Sync's is added in its Follow_Up. -/
def State.tcForward (s : State) (p : Nat) (frame : PortFrame) : State :=
  if !s.flag TIM_CTRL.TC_EN || s.getF PWR_STATUS.STATE = 3 then s else
  let stay : Int := (s.free % 98304000 : Nat)
  match frame with
  | .notPtp => s
  | .sync h twoStep seq =>
    if twoStep then
      ({ s.drew.dropResidence (p, h, seq) with
        tim.residence := (s.dropResidence (p, h, seq)).tim.residence ++ [((p, h, seq), stay)] } : State).tcSend p frame 0
    else s.drew.tcSend p frame stay
  | .followUp h seq => (s.dropResidence (p, h, seq)).tcSend p frame (s.residenceOf (p, h, seq))
  | .delayReq _ => s.drew.tcSend p frame stay
  | .other _ => s.tcSend p frame 0

/-- A domain instance processes a message (R99): it is enabled, the message is of its domain, and travels as the port is set to. -/
def State.forDomain (s : State) (d p : Nat) (h : PtpHeader) : Bool :=
  s.flag (domEnF d) && h.domain == s.getF (domNumberF d) && h.majorSdo == s.getF (domSdoF d) && h.minorSdo == 0 &&
    h.udp == s.flag (transportF p)

/-- A message comes from the selected master of a domain, on the port on which that is heard. -/
def State.hears (s : State) (d p : Nat) (h : PtpHeader) : Bool :=
  s.forDomain d p h && (s.dom d).master.any (fun m => m.port == p && m.sender == h.sender)

/-- Carry out `f` for each domain instance for which `ok` holds. -/
def State.eachDom (s : State) (ok : State → Nat → Bool) (f : State → Nat → State) : State :=
  s.each [0, 1] (fun s d => if ok s d then f s d else s)

/-- A Sync's master-to-slave difference, corrected (R100). -/
def State.syncDone (s : State) (d p : Nat) (t1 t2 corr : Int) : State :=
  (s.setDom d { s.dom d with msDiff := some (t2 - t1 - corr - s.asym p), twoStep := none }).useMeasure d true

/-- SYNC (R100 to R102). -/
def execSync (port : Fin 2) (hdr : PtpHeader) (t1 corr : Int) (twoStep : Bool) (seq : Nat) (s : State) : Res :=
  let p := port.val
  done ((s.tcForward p (.sync hdr twoStep seq)).eachDom (fun s d => s.hears d p hdr) (fun s d =>
    let t2 := s.rxStamp p
    if twoStep then s.setDom d { s.dom d with twoStep := some (seq, t2, corr) } else s.syncDone d p t1 t2 corr))

/-- FOLLOW_UP (R100). -/
def execFollowUp (port : Fin 2) (hdr : PtpHeader) (t1 corr : Int) (seq : Nat) (s : State) : Res :=
  let p := port.val
  done ((s.tcForward p (.followUp hdr seq)).eachDom (fun s d => s.hears d p hdr) (fun s d =>
    match (s.dom d).twoStep with
    | some (q, t2, c) => if q = seq then s.syncDone d p t1 t2 (c + corr) else s
    | none => s))

/-- The mean path delay of a domain (R100), from its last Sync and the answer to its Delay_Req. -/
def State.delayDone (s : State) (d p : Nat) (t3 t4 corr : Int) : State :=
  let x := s.dom d
  let sm := t4 - t3 - corr + s.asym p
  let s := s.setDom d { x with t3 := none, pathDelay := (x.msDiff.map (fun ms => fdiv (ms + sm) 2)).orElse (fun _ => x.pathDelay) }
  if x.offset.isNone then s.useMeasure d true else s

/-- DELAY_RESP (R100). -/
def execDelayResp (port : Fin 2) (hdr : PtpHeader) (t4 corr : Int) (s : State) : Res :=
  let p := port.val
  done ((s.tcForward p (.other hdr)).eachDom (fun s d => s.hears d p hdr) (fun s d =>
    match (s.dom d).t3 with
    | some t3 => s.delayDone d p t3 t4 corr
    | none => s))

/-- DELAY_REQ (R99, R100): multicast, or with UNI_DREQ to the selected master. -/
def execDelayReq (dom : Fin 2) (s : State) : Res :=
  let d := dom.val
  done (match (s.dom d).master with
    | none => s
    | some m =>
      if !s.flag (domEnF d) then s else
      let t3 := s.txStamp m.port
      (s.setDom d { s.dom d with t3 := some t3 }).send (.delayReq m.port (s.getF (domNumberF d)) (s.getF (domSdoF d))
        (if s.flag (transportF m.port) then some (s.getF (ipv4F m.port)) else none)
        (if s.flag (uniDreqF m.port) then some m.sender else none) t3))

/-! ## Announce and domains (R99, R103, R104) -/

/-- A master is better than another by the default comparison of IEEE 1588-2019 (R99): the data sets, then the steps removed, the
sender and the receiving port. -/
def PtpMaster.better (a b : PtpMaster) : Bool :=
  let ka := [a.data.prio1, a.data.clockClass, a.data.accuracy, a.data.variance, a.data.prio2, a.data.grandmaster]
  let kb := [b.data.prio1, b.data.clockClass, b.data.accuracy, b.data.variance, b.data.prio2, b.data.grandmaster]
  let ta := [a.data.stepsRemoved, a.sender, a.port]
  let tb := [b.data.stepsRemoved, b.sender, b.port]
  let l := if a.data.grandmaster = b.data.grandmaster then ta.zip tb else ka.zip kb
  match l.find? (fun q => q.1 != q.2) with
  | some q => decide (q.1 < q.2)
  | none => false

/-- The best master of a list. -/
def bestMaster (l : List PtpMaster) : Option PtpMaster :=
  l.foldl (fun best m => match best with | none => some m | some b => if m.better b then some m else some b) none

/-- Two entries are of one master heard on one port. -/
def PtpMaster.same (a b : PtpMaster) : Bool := a.sender == b.sender && a.port == b.port

/-- A domain selects the best of the masters it hears (R99). What was measured against another one no longer counts; a change of
grandmaster is noted (R104). -/
def Dom.choose (x : Dom) (l : List PtpMaster) : Dom :=
  let new := bestMaster l
  let kept := match x.master, new with | some a, some b => a.same b | _, _ => false
  let gm := match x.master, new with | some a, some b => a.data.grandmaster != b.data.grandmaster | _, _ => false
  if kept then { x with foreign := l, master := new, announced := true, newMaster := x.newMaster || gm }
  else { x with foreign := l, master := new, announced := new.isSome, twoStep := none, msDiff := none, t3 := none, pathDelay := none,
                newMaster := x.newMaster || gm }

/-- ANNOUNCE (R99, R103): the domain's BMCA over both ports. -/
def execAnnounce (port : Fin 2) (hdr : PtpHeader) (data : AnnounceData) (s : State) : Res :=
  let p := port.val
  let m : PtpMaster := ⟨data, hdr.sender, p⟩
  done ((s.tcForward p (.other hdr)).eachDom (fun s d => s.forDomain d p hdr) (fun s d =>
    let x := s.dom d
    (s.setDom d (x.choose (x.foreign.filter (fun f => !f.same m) ++ [m]))).refreshDomains))

/-- The selected master of a domain is no longer heard (R103): the next best of the others is selected. -/
def Dom.forget (x : Dom) : Dom :=
  match x.master with
  | none => { x with announced := false }
  | some m => x.choose (x.foreign.filter (fun f => !f.same m))

/-- ANNOUNCE_TIMEOUT (R103). -/
def execAnnounceTimeout (dom : Fin 2) (s : State) : Res :=
  done ((s.setDom dom.val (s.dom dom.val).forget).refreshDomains)

/-- SYNC_TIMEOUT (R103). -/
def execSyncTimeout (dom : Fin 2) (s : State) : Res :=
  done ((s.setDom dom.val { s.dom dom.val with synced := false }).refreshDomains)

/-- DOM_WTR in house cycles. -/
def State.domWtr (s : State) : Nat := secCycles * s.getF TIM_CTRL.DOM_WTR

/-- DOMAIN_WTR_EXPIRY (R103): the offset has stayed within STEP_LIM for DOM_WTR seconds. -/
def execDomainWtrExpiry (dom : Fin 2) (s : State) : Res :=
  let within := match (s.dom dom.val).offset with
    | some o => decide ((o.natAbs : Int) ≤ nsTicks (s.getF TIM_LIMITS.STEP_LIM))
    | none => false
  done (s.whenever (s.bit TIM_STATUS.FAULTY dom.val && within) (fun s =>
    ((s.lapse (.domWithin dom.val) s.domWtr).putBit TIM_STATUS.FAULTY dom.val false).refreshDomains))

/-- DOMAIN_REVERT (R104): the preferred domain has been usable for DOM_WTR seconds. -/
def execDomainRevert (s : State) : Res :=
  let p := s.getF TIM_CTRL.PREF_DOM
  done (s.whenever (s.flag TIM_CTRL.REVERT && s.getF TIM_STATUS.ACT_DOM != p && s.usable p) (fun s =>
    (s.lapse (.domUsable p) s.domWtr).domainSwitch p 1))

/-- Less than 1 ns of the offset being removed remains (R104): what the slew term has not yet taken of it. -/
def State.slewOver (s : State) : Bool :=
  decide ((s.tim.slewFrom.natAbs : Int) * 10 ^ 15 - (s.clk.slew.natAbs * 262144 * (s.clk.cycles - s.tim.slewAt) : Nat) < 65536 * 10 ^ 15)

/-- SLEW_COMPLETE (R104). -/
def execSlewComplete (s : State) : Res :=
  done (s.whenever (s.flag TIM_STATUS.SLEWING && s.slewOver) (fun s => { s.setF TIM_STATUS.SLEWING 0 with clk.slew := 0 }))

/-- TIME_PORT_FRAME (R99, R101): a frame that no domain instance processes. -/
def execTimePortFrame (port : Fin 2) (frame : PortFrame) (s : State) : Res :=
  let p := port.val
  done (if frame = .notPtp then s.incF (if p = 0 then TIM_PORT_DROP.PORT0 else TIM_PORT_DROP.PORT1) 1 else s.tcForward p frame)

/-- SEQUENCE_ASSIGN (R15, R312): the earliest entry that waits gets the next sequence number, once 16 house cycles have passed since
its stamp. `bad`: rings whose context the store gives uncorrectable (R40, log 9). -/
def execSequenceAssign (bad : List (Fin 262144)) (s : State) : Res := done (s.assign (bad.map (fun r => r.val)))

end Sys2Proof.Machine
end

