-- ==== Sys2Proof/Machine/RegView.lean ====
section
/-!
DEFINITION. What a read of a BAR0 register returns (R6 to R8, R32): the register file, and the fields that show what another
part of the state holds.
-/

namespace Sys2Proof.Machine

/-- Bits `i` below `n` that satisfy `p`. -/
def maskOf (n : Nat) (p : Nat → Bool) : Nat := (List.range n).foldl (fun m i => if p i then m + 2 ^ i else m) 0

/-- How many of `n` satisfy `p`. -/
def countOf (n : Nat) (p : Nat → Bool) : Nat := ((List.range n).filter p).length

/-- STATE of port `p` (R117, R130): an enabled port that has found nothing hunts. -/
def State.portView (s : State) (p : Nat) : Nat :=
  let st := s.getF (portStateF p)
  if st = 0 && s.portLive p then 1 else st

/-- PIT_ fields (R158). -/
def State.viewPit (s : State) (f : Fld) : Nat :=
  let run (beam : Bool) (c : Nat) : Bool := s.flag (PIT_C_STATUS.RUN c) && s.flag (PIT_C_STATUS.SIDE c) == beam
  if f = PIT_STATUS.INGEST then countOf 128 (run false)
  else if f = PIT_STATUS.BEAM then countOf 128 (run true)
  else if f = PIT_STATUS.SWAP_PEND then countOf 128 (fun c => s.flag (PIT_C_STATUS.SWAP_PEND c))
  else if f = PIT_STATUS.FLIP_PEND then countOf 128 (fun c => s.flag (PIT_C_STATUS.FLIP_PEND c))
  else
    let c := (f.off - 0x410000) / 0x40
    if f = PIT_C_STATUS.QLVL c then (s.cluster c).inQ.length
    else if f = PIT_C_LANEF.LANES c then (s.cluster c).laneMap
    else s.getF f

/-- BEM_ fields (R252). -/
def State.viewBem (s : State) (f : Fld) : Nat :=
  let recs (p : RecState → Bool) : Nat :=
    (s.bem.recs.filter (fun e => match e.2 with | some r => p r.st | none => false)).length
  if f = BEM_STATUS.LOAD_WAIT then b2n (s.bem.wload.isNone && s.loadNext.isSome && s.freeBank.isNone)
  else if f = BEM_RECS.FILLING then recs (fun t => decide (t = .filling))
  else if f = BEM_RECS.FULL then recs (fun t => decide (t = .full) || decide (t = .releasing))
  else s.getF f

/-- FLT_ fields (R326). -/
def State.viewFlt (s : State) (f : Fld) : Nat :=
  if f = FLT_STATUS.REACT then b2n s.flt.react.isSome
  else if f = FLT_STATUS.RCLASS then (match s.flt.react with | some x => x.cls | none => 0)
  else if f = FLT_STATUS.RSRC then (match s.flt.react with | some x => x.src | none => 0)
  else if f = FLT_STATUS.PEND then s.flt.pendReact.length
  else
    let w := (f.off - 0xD00300) / 8
    if f = FLT_LIVE.MAP w then maskOf 64 (fun k => Tbl.get s.flt.pair 1 (64 * w + k) != 1)
    else s.getF f

/-- SCP_ fields (R69): Reset values until boot installs the boot image. SCP_COMMIT_DWELL reads 0 for an image that governs every dwell,
the boot image and one accepted while EPOCH was 0, whatever dwell its commit named (DESIGN CHOICE, log 30). -/
def State.viewScp (s : State) (f : Fld) : Nat :=
  if !s.scr.installed then f.rst
  else if f = SCP_STATUS.PENDING then b2n s.scr.pend.isSome
  else if f = SCP_STATUS.IDLE_PEND then b2n s.idlePend
  else if f = SCP_STATUS.STAGED then b2n (!s.scr.staging.isEmpty)
  else if f = SCP_STATUS.STAGED_RECORDS then min 0xFFFF s.scr.staging.length
  else if f = SCP_STATUS.IMAGES then s.heldImages.length
  else if f = SCP_PEND_DWELL.DWELL then (match s.scr.pend with | some p => ofSigned 64 p.image.first | none => 0)
  else if f = SCP_COMMIT_DWELL.DWELL then (if s.newest.whole then 0 else ofSigned 64 s.newest.first)
  else
    let w := (f.off % 0x20) / 8
    if f = SCP_DIGEST.WORD w then s.digestWord w
    else if f = SCP_LDIGEST.WORD w then s.ldigestWord w
    else s.getF f

/-- The port of an RXEQ register (R130, R293). -/
def rxEqPort (off : Nat) : Option Nat :=
  if off % 0x100 ≠ 8 || off % 0x1000 < 0x100 then none
  else if 0x310000 ≤ off && off < 0x328000 then some ((off - 0x310000) / 0x1000)
  else if 0xA10000 ≤ off && off < 0xA18000 then some (24 + (off - 0xA10000) / 0x1000)
  else none

/-- A read of a receiver's settings finds what it has adapted to by now (R112). -/
def State.rxNow (s : State) (base : Nat) : State :=
  match rxEqPort base with
  | some p => let l := (base % 0x1000 - 0x100) / 0x100; if l < 4 then s.adaptNow p l else s
  | none => s

/-- ING_ and FAB_ fields (R130, R293). -/
def State.viewPort (s : State) (f : Fld) : Nat :=
  if f = ING_STATUS.UP then maskOf 24 (fun p => s.getF (portStateF p) == 2)
  else if f = ING_STATUS.DEG then maskOf 24 (fun p => s.getF (portStateF p) == 3 || s.getF (portStateF p) == 4)
  else if f = FAB_STATUS.UP then maskOf 8 (fun p => s.getF (portStateF (24 + p)) == 2)
  else if f = FAB_STATUS.DEG then maskOf 8 (fun p => s.getF (portStateF (24 + p)) == 3 || s.getF (portStateF (24 + p)) == 4)
  else if f.off < 0xA00000 then
    let p := (f.off - 0x310000) / 0x1000
    if f = ING_P_STATUS.STATE p then s.portView p else s.getF f
  else
    let p := (f.off - 0xA10000) / 0x1000
    if f = FAB_P_STATUS.STATE p then s.portView (24 + p)
    else if f = FAB_P_STATUS.NEIGH_VALID p then
      b2n (s.flag f && decide (s.houseDwell - 1 ≤ Tbl.get s.fab.beaconDwell (-1) p))
    else s.getF f

/-- What a field reads as. -/
def State.view (s : State) (f : Fld) : Nat :=
  let b := f.off / 0x100000
  if f.acc = .wo then 0
  else if b = 0x3 || b = 0xA then s.viewPort f
  else if b = 0x4 then s.viewPit f
  else if b = 0x6 then
    if f = MOV_RUNNING.MAP then maskOf 64 (fun m => s.movState m == 1 || s.movState m == 2)
    else if f = MOV_HALTED.MAP then maskOf 64 (fun m => s.movState m == 3)
    else s.getF f
  else if b = 0x8 then s.viewBem f
  else if b = 0xC then (if f = CUE_LEVEL.LEVEL then s.cue.chLevel.toNat else s.getF f)
  else if b = 0xD then s.viewFlt f
  else if b = 0xE then (if f = DUO_STATUS.PAIRED then b2n s.newest.paired else s.getF f)
  else if b = 0x10 then s.viewScp f
  else s.getF f

/-- The 64-bit word of the register at `base`. -/
def State.regWord (s : State) (base : Nat) : Nat :=
  (fieldsAt base).foldl (fun v f => v + 2 ^ f.lo * (s.view f % 2 ^ f.w)) 0

/-! ## MSI-X table and PBA (R33, R47) -/

def msixBase : Nat := 0x1100000

/-- Offset of the MSI-X pending bits. -/
def msixPba : Nat := 0x1108000

/-- An offset lies in the MSI-X table. -/
def inMsixTable (off : Nat) : Bool := decide (msixBase ≤ off) && decide (off < msixBase + 0x8000)

/-- An offset lies in the PBA. -/
def inMsixPba (off : Nat) : Bool := decide (msixPba ≤ off) && decide (off < msixPba + 0x100)

/-- The eight bytes of the MSI-X table or the PBA at `base`. -/
def State.msixWord (s : State) (base : Nat) : Nat :=
  if inMsixTable base then
    bitsOf (Tbl.get s.host.msix msixMasked ((base - msixBase) / 16)).toNat (8 * (base % 16)) 64
  else maskOf 64 (fun i => Tbl.get s.host.msixPba false (8 * (base - msixPba) + i))

/-! ## Reads (R7, R8) -/

/-- A read of `size` bytes at `base + k` covers every bit of a field. -/
def covers (k size : Nat) (f : Fld) : Bool := decide (8 * k ≤ f.lo) && decide (f.lo + f.w ≤ 8 * (k + size))

/-- RC fields that hold a maximum and not a count: LOOP_MAX and QHW (R158), MAXW and DEBT_MAX (R182), HWM (R293). -/
def isMaximum (f : Fld) : Bool :=
  (decide (0x410000 ≤ f.off) && decide (f.off < 0x412000) && f.off % 0x40 == 0x30) ||
    (decide (0x500100 ≤ f.off) && decide (f.off < 0x500150) && f.lo == 32) ||
    (decide (0x510000 ≤ f.off) && decide (f.off < 0x512000) && f.off % 0x40 == 0) ||
    (decide (0xA10000 ≤ f.off) && decide (f.off < 0xA18000) && f.off % 0x1000 == 0x28)

/-- What an event adds to an RC field: a maximum keeps the larger value, a count grows. -/
def State.bump (s : State) (f : Fld) (v : Nat) : State := if isMaximum f then s.setF f (max (s.getF f) v) else s.incF f v

/-- A read clears the RC fields it covers whole; an event of the same cycle, given bit by bit in `same`, is kept. -/
def State.readClear (s : State) (base k size same : Nat) : State :=
  s.each (fieldsAt base) (fun s f =>
    if f.acc = .rc then (if covers k size f then s.setF f 0 else s).bump f (bitsOf same f.lo f.w) else s)

/-- A BAR0 read: what it returns goes to `lastRead`. -/
def State.readReg (s : State) (off size same : Nat) : State :=
  if !accessOk off size then { s.badAccess with host.lastRead := 0 }
  else
    let base := off / 8 * 8
    let k := off % 8
    if inMsixTable base || inMsixPba base then { s with host.lastRead := bitsOf (s.msixWord base) (8 * k) (8 * size) }
    else
      let s := if base = 0x200048 then s.snapshot else s
      let s := s.rxNow base
      let v := s.regWord base
      { s.readClear base k size same with host.lastRead := bitsOf v (8 * k) (8 * size) }

end Sys2Proof.Machine
end

