-- ==== Sys2Proof/Machine/Doe.lean ====
section
/-!
DEFINITION. Meanings of the commands of the DOE mailbox and of attestation (02_host_interface_and_rings.md, R49;
17_control_plane_and_security.md, R355, R366, R369 to R371).
-/

namespace Sys2Proof.Machine

/-! ## The mailbox (R49) -/

/-- The object handled first has its answer: it is no longer outstanding, and the mailbox is ready for another. -/
def State.doeAnswer (s : State) (a : DoeAnswer) : State :=
  ({ s with host.doeIn := s.host.doeIn.drop 1, host.doeBusy := false } : State).send (.doe a)

/-- Handle the first outstanding object, when it is one of protocol `p` (R49) and, for an attestation request, of code `code`. Requests
wait while no core runs (R355), and in DARK. -/
def State.doeHandle (s : State) (p : DoeProtocol) (code : Nat) (f : State → List Byte → State) : State :=
  match s.host.doeIn with
  | [] => s
  | o :: _ =>
    s.whenever (decide (o.protocol = p) && (decide (p ≠ .attestation) || leNat (o.body.take 1) == code) && s.coreRuns &&
      s.power != 3) (fun s => f s (o.body.drop 4))

/-- An object is one that the device supports (R49): an attestation request has a code of R369 and version 0x01. -/
def doeSupported (p : Option DoeProtocol) (body : List Byte) : Bool :=
  match p with
  | none => false
  | some .attestation =>
    decide (1 ≤ leNat (body.take 1)) && decide (leNat (body.take 1) ≤ 5) && leNat ((body.drop 1).take 1) == 1
  | some _ => true

/-- DOE_OBJECT (R49): an object of at most 64 KiB becomes outstanding; a third finds the mailbox busy. One that the device does not
support is discarded (PRESUMED, log 32: as the PCIe mailbox does). -/
def execDoeObject (protocol : Option DoeProtocol) (body : List Byte) (s : State) : Res :=
  done (s.whenever (s.power != 3) (fun s =>
    if 65536 < body.length then { s with host.doeError := true }
    else if 2 ≤ s.host.doeIn.length then { s with host.doeBusy := true }
    else match protocol with
      | some p => if doeSupported protocol body then { s with host.doeIn := s.host.doeIn ++ [⟨p, body⟩] } else s
      | none => s))

/-- DOE_ABORT (R49): the object in progress is discarded, and the mailbox returns to ready. Of two outstanding objects the newest is
the one in progress (DESIGN CHOICE, log 32). -/
def execDoeAbort (s : State) : Res :=
  done (s.whenever (s.power != 3) (fun s =>
    { s with host.doeIn := s.host.doeIn.dropLast, host.doeBusy := false, host.doeError := false }))

/-- DOE_DISCOVERY (R49). -/
def execDoeDiscovery (s : State) : Res :=
  done (s.doeHandle .discovery 0 (fun s _ => s.doeAnswer (.protocols [.discovery, .tableAccess, .ideKm, .attestation])))

/-- CDAT_READ (R28, R49): DSMAS for the HDM range of 256 GiB; DSLBIS 600 ns and 100 GB/s. -/
def execCdatRead (s : State) : Res := done (s.doeHandle .tableAccess 0 (fun s _ => s.doeAnswer (.table (256 * 2 ^ 30) 600 100)))

/-- IDE_KM (R49, R369): accepted only inside a session. What a message asks is of the CXL IDE specification: whether a link IDE
stream is then active is a free value. -/
def execIdeKm (s : State) : Res :=
  done (s.doeHandle .ideKm 0 (fun s _ =>
    if s.host.sessionKey.isNone then s.doeAnswer .ideError
    else
      let s := ({ s with host.ideKeys := true } : State).setF HST_STATUS.IDE_ON (s.free % 2)
      s.drew.doeAnswer .ideAccepted))

/-! ## Attestation (R369 to R371) -/

/-- The header of a Vangene message (R369). -/
def vangene (code : Nat) : List Byte := [BitVec.ofNat 8 code, 1, 0, 0]

/-- GET_ID (R366, R369). -/
def execGetId (s : State) : Res :=
  done (s.doeHandle .attestation 0x01 (fun s _ =>
    s.doeAnswer (.bytes (vangene 0x01 ++ leBytes 8 (s.getF CTL_ID.ID) ++ Config.identityKey ++ Config.certificateChain))))

/-- FW_VERSION of the core that runs the lowest (R370): during an update cores run either version. -/
def State.lowestVersion (s : State) : Nat :=
  let v := s.getF CTL_CAP3.FW_VERSION
  match s.ctl.update with
  | some u =>
    let runs (new : Bool) : Bool :=
      (List.range 4).any (fun k => s.coreState k == 2 && ((s.bit CTL_CORES.AREA k == (u.area == 1)) == new))
    if runs true then (if runs false then min v u.version else u.version) else v
  | none => v

/-- The registers of the house clock and of time that hold configuration (R89, R108, R370). -/
def configRegs : List Nat :=
  [0x100000, 0x100008, 0x100010, 0x100018, 0x100020, 0x100028, 0x100030, 0x100038, 0x100040,
   0x200000, 0x200010, 0x200018, 0x200020, 0x200028, 0x200030, 0x200038, 0x200040]

/-- The 16 measurements (R370). -/
def State.measurements (s : State) : List Nat :=
  let act := 1 - (if s.bit CTL_CORES.AREA 0 then 0 else 1)
  let progs := (List.range 8).map (fun i => sha3 (s.newest.progs.getD i ⟨0, []⟩).bytes)
  [Config.bootRomDigest, s.ctl.fwDigest.getD act 0, s.ctl.fwDigest.getD (1 - act) 0] ++ progs ++
    [s.newest.digest, s.newest.localDigest, s.ctl.jOwner, Config.rootKeyHash (s.getF CTL_SEC.ROOT_USED),
     sha3 (configRegs.flatMap (fun r => leBytes 8 (s.regWord r)))]

/-- The health field (R370). Only its first four bits and the last byte have their places; the places of the rest are not stated. -/
def State.health (s : State) : List Byte :=
  let rest := Config.healthBits [s.regWord 0xE00020, s.getF STO_STATUS.FENCES, s.getF FLT_IRON.COUNT, s.regWord 0xD00028,
    s.regWord 0xD00030, s.getF HCK_STATUS.STATE]
  leBytes 63 (s.getF DUO_REPLACE.BITS + 16 * (rest % 2 ^ 500)) ++ [BitVec.ofNat 8 (s.getF CTL_SEC.DEBUG)]

/-- Bytes 0 to 623 of a report (R370). -/
def State.report (s : State) (nonce : BitVec 256) : List Byte :=
  leBytes 32 nonce.toNat ++ leBytes 8 (s.getF CTL_ID.ID) ++ leBytes 4 s.lowestVersion ++ leBytes 2 (s.getF CTL_SEC.SVN) ++
    leBytes 2 (s.getF CTL_SEC.FLOOR) ++ s.measurements.flatMap (leBytes 32) ++ s.health

/-- GET_REPORT (R369, R370). -/
def execGetReport (s : State) : Res :=
  done (s.doeHandle .attestation 0x02 (fun s b =>
    let m := s.report (BitVec.ofNat 256 (leNat (b.take 32)))
    s.doeAnswer (.bytes (vangene 0x02 ++ m ++ Config.identitySign (sha3 m)))))

/-- A free value of 256 bits. -/
def State.free256 (s : State) : Nat :=
  (List.range 4).foldl (fun a i => a + 2 ^ (64 * i) * (Config.freeValue (s.freeCount + i)).toNat) 0

/-- Pass on to the free values after four. -/
def State.drew4 (s : State) : State := { s with freeCount := s.freeCount + 4 }

/-- A session opens (R369): the randomness of the encapsulation, the device's nonce and the layout of the transcript are not
stated: free values. -/
def State.openSession (s : State) (ek : List Byte) (nonce : BitVec 256) : State :=
  let rand := s.free256
  let own := s.drew4.free256
  let transcript := s.drew4.drew4.free256
  let secret := Config.mlKemSecret ek rand
  let key := sha3 (leBytes 32 secret ++ leBytes 32 nonce.toNat ++ leBytes 32 own)
  let s := { s.drew4.drew4.drew4 with host.sessionKey := some key }
  s.doeAnswer (.bytes (vangene 0x03 ++ Config.mlKemCiphertext ek rand ++ Config.identitySign transcript))

/-- Bytes of an ML-KEM-768 encapsulation key (FIPS 203). -/
def ekBytes : Nat := 1184

/-- SESSION (R369). -/
def execSession (s : State) : Res :=
  done (s.doeHandle .attestation 0x03 (fun s b =>
    s.openSession (b.take ekBytes) (BitVec.ofNat 256 (leNat ((b.drop ekBytes).take 32)))))

/-- A key may sign debug tokens (R363, R371): the owner key where DEBUG is set, else a root key. -/
def State.debugKey (s : State) (h : Nat) : Bool :=
  if (s.getF CTL_SEC.POLICY).testBit 2 then h == s.ctl.jOwner else s.rootKey h

/-- DEBUG_UNLOCK (R359, R371): a valid token opens the debug paths. -/
def execDebugUnlock (s : State) : Res :=
  done (s.doeHandle .attestation 0x04 (fun s image =>
    let code := s.verify 5 s.debugKey image
    let s := s.usedNonce code
    let s := if code = 0 then s.setF CTL_SEC.DEBUG 1 else s
    s.doeAnswer (.status 0x04 (code == 0))))

/-- END_SESSION (R369). The status without a session is not stated: a free value. -/
def execEndSession (s : State) : Res :=
  done (s.doeHandle .attestation 0x05 (fun s _ =>
    match s.host.sessionKey with
    | some _ => ({ s with host.sessionKey := none } : State).doeAnswer (.status 0x05 true)
    | none => s.drew.doeAnswer (.status 0x05 (s.free % 2 == 1))))

end Sys2Proof.Machine
end

