-- ==== Sys2Proof/Machine/Mover.lean ====
section
/-!
DEFINITION. Meanings of the commands of the movers (09_movers.md, R183 to R204).
-/

namespace Sys2Proof.Machine

/-! ## Request lines (R184 to R186) -/

/-- A block reset holds block `b`: 0 PIT, 1 MOV, 2 STG, 3 CUE, 4 HST (R389). -/
def State.inReset (s : State) (b : Nat) : Bool := s.bit PWR_BLKRST.BITS b

/-- Element of PIT_OUT_ROUTE for pit stream `j` in the image of a vector's dwell (R11, R157). -/
def State.outRoute (s : State) (j six : Nat) : Nat := (s.governing (s.dwellOf six)).el Scr.PIT_OUT_ROUTE j

/-- What a line offers: the first output vector of the stream, or the first received INPUT payload. -/
def State.lineOffer (s : State) (line : Nat) : Option OutVect :=
  if line < 512 then
    (s.cluster (line / 4)).outQ.find? (fun v => v.stream == line % 4 && s.outRoute line v.six != 2)
  else if line < 528 && line % 2 == 0 then
    (s.fab.rxq.find? (fun e => e.1 == (line - 512) / 2)).map (fun e => e.2)
  else none

/-- A line is bound to stream mover `m`. -/
def State.boundTo (s : State) (line m : Nat) : Bool :=
  bitOf (s.se Scr.MOV_BIND line) 7 && bitsOf (s.se Scr.MOV_BIND line) 0 5 == m

/-- The line that mover `m` serves next: round robin over its requesting lines. -/
def State.nextLine (s : State) (m : Nat) : Option Nat :=
  let ls := (List.range 528).filter (fun l => s.boundTo l m && (s.lineOffer l).isSome)
  (ls.find? (fun l => decide ((s.mover m).lastLine < l))).orElse (fun _ => ls.head?)

/-- Replace the vector a line offers, or remove it. A received packet that has been taken frees its receive buffer (R14, R279). -/
def State.linePut (s : State) (line : Nat) (v : OutVect) (w : Option OutVect) : State :=
  if line < 512 then
    let x := s.cluster (line / 4)
    s.setCluster (line / 4) { x with outQ := match w with
      | some u => x.outQ.map (fun o => if o = v then u else o)
      | none => x.outQ.erase v }
  else
    let e := ((line - 512) / 2, v)
    match w with
    | some u => { s with fab.rxq := s.fab.rxq.map (fun o => if o = e then ((line - 512) / 2, u) else o) }
    | none => ({ s with fab.rxq := s.fab.rxq.erase e } : State).freeUnits e.1 3 (1 + 2 * 2 ^ v.size)

/-- A burst of the vector has been taken. -/
def State.lineTaken (s : State) (line : Nat) (v : OutVect) : State :=
  s.linePut line v (if v.sentBursts + 1 < 2 ^ v.size then some { v with sentBursts := v.sentBursts + 1 } else none)

/-! ## Stream bursts (R186 to R191) -/

/-- Lanes that burst `b` of a vector carries. -/
def OutVect.lanes (v : OutVect) (b : Nat) : List Nat :=
  let n := 64 / 2 ^ v.size
  (List.range n).map (fun i => b * n + i)

/-- The byte a lane has on a line of the dwell ring (R187, R188): an invalid lane is the invalid code; a component −128 of a
valid 8+8 sample is −127. -/
def OutVect.ringByte (v : OutVect) (wide high : Bool) (lane : Nat) : Byte :=
  if v.pres.getLsbD lane && v.valid.getLsbD lane then
    let d := v.data.getD lane 0
    if wide then
      let re := if d % 256 = 128 then 129 else d % 256
      let im := if d / 256 % 256 = 128 then 129 else d / 256 % 256
      if high then BitVec.ofNat 8 (re / 16 + 16 * (im / 16)) else BitVec.ofNat 8 (re % 16 + 16 * (im % 16))
    else BitVec.ofNat 8 d
  else if wide && !high then 0 else 0x88

/-- Components of a burst that R188 replaces. -/
def OutVect.neg128 (v : OutVect) (b : Nat) : Nat :=
  (v.lanes b).foldl (fun n l =>
    if v.pres.getLsbD l && v.valid.getLsbD l then
      let d := v.data.getD l 0
      n + b2n (decide (d % 256 = 128)) + b2n (decide (d / 256 % 256 = 128))
    else n) 0

/-- Bits set in a byte mask. -/
def bytesIn (mask : Nat) : Nat := ((List.range 64).filter (fun i => mask.testBit i)).length

/-- A mover writes bytes of a store line. -/
def State.movLine (s : State) (m port a : Nat) (data : List Byte) (mask : Nat) : State :=
  (s.agentWrite port a data mask).addF (MOV_M_BYTES.COUNT m) (bytesIn mask)

/-- Write burst `b` of a vector to one dwell-ring line (R188): testing and setting the map bit and the write are one step. -/
def State.ringLine (s : State) (m port a : Nat) (v : OutVect) (b : Nat) (wide high : Bool) : State :=
  let own (l : Nat) : Bool := (v.lanes b).contains l && v.pres.getLsbD l
  let data := (List.range 64).map (fun l =>
    if own l then v.ringByte wide high l else if wide && !high then (0 : Byte) else 0x88)
  let mask := if s.lineSet a then ((List.range 64).filter own).foldl (fun x l => x + 2 ^ l) 0 else 2 ^ 64 - 1
  ({ s with seq.lineMap := Tbl.set s.seq.lineMap false (a / 64) true } : State).movLine m port a data mask

/-- A stream burst is dropped after its retries (R191). -/
def State.streamDrop (s : State) (m line dest : Nat) (lines : List Nat) : State :=
  let s := s.each lines (fun s a => { s with seq.lineMap := Tbl.set s.seq.lineMap false (a / 64) false })
  let s := (s.incF (MOV_M_DROP.COUNT m) 1).emit (movSrc m) 0x0604 dest (m + 64 * line) 3
  s.raise (movSrc m) 0x0007 3 true

/-- Retries spent on a burst that fails `n` times; true when it fails for good. -/
def State.streamRetry (s : State) (m n : Nat) : State × Bool :=
  (s.incF (MOV_M_RETRY.COUNT m) (min n (s.movRetry m)), decide (s.movRetry m < n))

/-- A vector's lines are written: blanking may still reach it while its dwell has not been replayed (R122). -/
def State.ringWritten (s : State) (v : OutVect) : State :=
  let held := s.seq.written.filter (fun w => !s.seq.gone.contains (s.dwellOf w.six))
  { s with seq.written := held ++ (if v.sub.isSome then [{ v with data := [], sentBursts := 0 }] else []) }

/-- A burst to the dwell ring (R187, R188). A burst of a dwell that has been replayed or abandoned is dropped. -/
def State.streamRing (s : State) (m line : Nat) (v : OutVect) (failures : Nat) : State :=
  let n := s.dwellOf v.six
  let im := s.governing n
  let b := v.sentBursts
  if v.size ≠ im.val Scr.MOV_DRING_FMT then (s.linePut line v none).incF (MOV_M_DROP.COUNT m) 1 else
  let s := s.lineTaken line v
  if s.seq.gone.contains n then s.incF (MOV_M_DROP.COUNT m) 1 else
  let wide := im.val Scr.MOV_DRING_FMT = 1
  let port := if line < 512 then 0 else 1
  let x := s.specIndex v.six >>> v.fine
  match s.takePage n v.ch (64 * v.group / im.wb) (x / im.pageSpectra) with
  | (s, none) => (s.incF (MOV_M_DROP.COUNT m) 1).raiseFor [] seqSrc 0x0001 3 false (ofSigned 31 n)
  | (s, some p) =>
    let lo := im.lineAddr p x v.group false
    let hi := im.lineAddr p x v.group true
    let lines := if wide then [lo, hi] else [lo]
    match s.streamRetry m failures with
    | (s, true) => s.streamDrop m line lo lines
    | (s, false) =>
      let s := if wide then s.incF (MOV_M_NEG128.COUNT m) (v.neg128 b) else s
      let s := s.ringLine m port lo v b wide false
      let s := if wide then s.ringLine m port hi v b wide true else s
      if b + 1 = 2 ^ v.size then s.ringWritten v else s

/-- Address of burst `b` of a vector in the window of pit stream `j` (R190). -/
def State.windowAddr (s : State) (j : Nat) (v : OutVect) (b : Nat) : Nat :=
  let n := s.dwellOf v.six
  let im := s.governing n
  let x := s.specIndex v.six >>> im.winShift j
  im.winBase j + (((n % 2).toNat * im.winRows j + v.tcr) * im.winSpectra j + x) * 64 * 2 ^ im.winSize j + 64 * b

/-- The first write of a dwell to a half of an announced window: OPEN is set in the header of the product it overwrites (R268). -/
def State.bufReopen (s : State) (j : Nat) (n : Int) : State :=
  let h := s.now.poolSlot (bufSlot j (n % 2).toNat)
  if bitOf (s.now.val Scr.PRD_BUF_ANN) j && s.hdrType h = 3 && decide (s.hdrDwell h < n) && !(s.hdrFlags h).testBit 4 then
    s.orHeader h fOpen
  else s

/-- A burst to a beam buffer or the statistics region (R190). A window that no region holds refuses the write (R163). -/
def State.streamWindow (s : State) (m line port : Nat) (v : OutVect) (failures : Nat) : State :=
  let im := s.governing (s.dwellOf v.six)
  if im.winRows line ≤ v.tcr || v.size != im.winSize line then (s.linePut line v none).incF (MOV_M_DROP.COUNT m) 1 else
  let b := v.sentBursts
  let a := s.windowAddr line v b
  let s := s.lineTaken line v
  let w := 2 ^ v.size
  let data := (v.lanes b).flatMap (fun l => leBytes w (if v.valid.getLsbD l then v.data.getD l 0 else 0))
  let mask := ((List.range 64).filter (fun i => v.pres.getLsbD ((64 * b + i) / w))).foldl (fun x i => x + 2 ^ i) 0
  let tries := if (s.regionAt a).isSome then failures else s.movRetry m + 1
  match s.streamRetry m tries with
  | (s, true) => s.streamDrop m line a []
  | (s, false) => (s.bufReopen line (s.dwellOf v.six)).movLine m port a data mask

/-- The address a burst is headed for; where no page holds it yet, a free value. -/
def State.burstAddr (s : State) (line : Nat) (v : OutVect) : Nat :=
  let n := s.dwellOf v.six
  let im := s.governing n
  let x := s.specIndex v.six >>> v.fine
  if 512 ≤ line || s.outRoute line v.six = 0 then
    match s.pageOf n v.ch (64 * v.group / im.wb) (x / im.pageSpectra) with
    | some p => im.lineAddr p x v.group false
    | none => s.free
  else s.windowAddr line v v.sentBursts

/-- A surplus burst counts, and writes event 0x0605 at most once per line and dwell (R185). -/
def State.surplusEvent (s : State) (m line a : Nat) : State :=
  let s := s.incF (MOV_M_SURPLUS.COUNT m) 1
  if s.seq.surplusSeen.contains (line, s.houseDwell) then s
  else ({ s with seq.surplusSeen := s.seq.surplusSeen ++ [(line, s.houseDwell)] } : State).emitFor (s.movSubs m) (movSrc m) 0x0605 a line 0

/-- A surplus burst (R185): it writes nothing. A fabric line that withdraws has lost its packet. -/
def State.streamSurplus (s : State) (m line : Nat) (v : OutVect) : State :=
  let a := s.burstAddr line v
  let s := s.drew.surplusEvent m line a
  if 512 ≤ line then s.linePut line v none else s

/-- Serve one request of a line. In iron the request is discarded (R322). -/
def State.streamServe (s : State) (m line : Nat) (withdrawn : Bool) (failures : Nat) : State :=
  match s.lineOffer line with
  | none => s
  | some v =>
    let s := s.setMover m { s.mover m with lastLine := line }
    if s.iron then s.linePut line v none
    else if withdrawn then s.streamSurplus m line v
    else if 512 ≤ line || s.outRoute line v.six = 0 then s.streamRing m line v failures
    else s.streamWindow m line (if s.outRoute line v.six = 1 then 5 else 7) v failures

/-- A pit stream whose vectors wait although no mover is bound to it any more: they are discarded and counted (R186). -/
def State.purgeLine (s : State) (line : Nat) : State :=
  let x := s.cluster (line / 4)
  let lost (v : OutVect) : Bool := v.stream == line % 4 && s.outRoute line v.six != 2 && s.outRoute line v.six != 15
  if bitOf (s.se Scr.MOV_BIND line) 7 then s
  else
    let n := (x.outQ.filter lost).length
    if n = 0 then s
    else (s.setCluster (line / 4) { x with outQ := x.outQ.filter (fun v => !lost v) }).incF MOV_UNBOUND.COUNT n

/-- Every such stream, at the start of a dwell that may bring other bindings. -/
def State.purgeUnbound (s : State) : State :=
  s.each (s.clu.map (fun e => e.1)) (fun s c => s.each (List.range 4) (fun s k => s.purgeLine (4 * c + k)))

/-- STREAM_BURST (R185, R186). `withdrawn`: the source withdrew the request after the burst had begun; `failures`: how many
times in a row the burst fails. -/
def execStreamBurst (mover : Fin 32) (withdrawn : Bool) (failures : Nat) (s : State) : Res :=
  done (s.purgeUnbound.whenever (!s.inReset 1) (fun s =>
    match s.nextLine mover.val with
    | some line => s.streamServe mover.val line withdrawn failures
    | none => s))

/-! ## Flush markers (R189) -/

/-- The owner of a flush marker passes it for a dwell. -/
def State.passMarker (s : State) (n : Int) (owner : Nat) : State :=
  if s.seq.markers.contains (n, owner) then s else { s with seq.markers := s.seq.markers ++ [(n, owner)] }

/-- Closed dwells that a fabric port has still to mark, oldest first. -/
def State.owedByPort (s : State) (p : Nat) : List Int :=
  (s.seq.ringWait ++ s.seq.replay.toList).filter (fun n => !s.seq.markers.contains (n, 128 + p))

/-- The oldest of some dwells. -/
def oldest (l : List Int) : Option Int :=
  l.foldl (fun best n => match best with | none => some n | some b => some (min b n)) none

/-- FLUSH_MARKER_PASS (R189): a cluster's marker, or a fabric port's, passes once every write before it has gone. -/
def execFlushMarkerPass (line : Fin 528) (s : State) : Res :=
  done (if line.val < 512 then
      let c := line.val / 4
      let x := s.cluster c
      match x.nullDone with
      | [] => s
      | n :: rest =>
        if x.outQ.any (fun v => decide (s.dwellOf v.six ≤ n) && s.outRoute (4 * c + v.stream) v.six != 2) then s
        else (s.setCluster c { x with nullDone := rest }).passMarker n c
    else if line.val % 2 = 1 then s
    else
      let p := (line.val - 512) / 2
      match oldest (s.owedByPort p) with
      | none => s
      | some n =>
        if s.fab.rxq.any (fun e => e.1 == p && decide (s.dwellOf e.2.six ≤ n)) then s
        else s.passMarker n (128 + p))

/-- A replay read of page `p` of dwell `n` has waited too long (R189): event 0x0606 names who owes the marker, and that read proceeds. -/
def State.readLate (s : State) (n : Int) (p : Nat) : State :=
  match s.markersOwed n with
  | [] => s
  | o :: _ =>
    let who := if o < 128 then o else 512 + 2 * (o - 128)
    ({ s with seq.lateReads := s.seq.lateReads ++ [p] } : State).emit seqSrc 0x0606 (p * pageBytes) who 1

/-- REPLAY_READ_TIMEOUT (R189): a replay read of a page has waited 1 ms. -/
def execReplayReadTimeout (page : Nat) (s : State) : Res :=
  done (match s.seq.pages.find? (fun e => e.2 == page) with
    | none => s
    | some ((n, _, _, _), p) => if s.seq.replay ≠ some n || s.seq.lateReads.contains p then s else s.readLate n p)

/-! ## Descriptors (R192 to R198) -/

/-- Fields of a descriptor. -/
def Mover.kind (x : Mover) : Nat := x.bits 0 4
def Mover.pace (x : Mover) : Bool := x.bits 5 1 == 1
def Mover.req (x : Mover) : Nat := x.bits 8 10
def Mover.count (x : Mover) : Nat := x.bits 32 32
def Mover.src (x : Mover) : Nat := x.bits 64 64
def Mover.dst (x : Mover) : Nat := x.bits 128 64
def Mover.nextAddr (x : Mover) : Nat := x.bits 192 64

/-- SPACE of an address. -/
def space (a : Nat) : Nat := a / 2 ^ 62

/-- A descriptor address a mover can fetch from. -/
def descAddrOk (a : Nat) : Bool := a % 64 = 0 && space a < 2

/-- A descriptor is BAD_DESC (R192, R193). -/
def State.descBad (s : State) (x : Mover) : Bool :=
  let k := x.kind
  let moves := k = 1 || k = 3 || k = 4
  decide (5 < k) || x.bits 18 3 == 7 || (x.nextAddr != 0 && !descAddrOk x.nextAddr) ||
  (x.pace && (decide (551 < x.req) || (decide (x.req < 528) && bitOf (s.se Scr.MOV_BIND x.req) 7))) ||
  ((k = 1 || k = 2) && (x.count = 0 || x.count % 64 != 0)) ||
  (moves && (x.src % 64 != 0 || space x.src = 2 || (space x.src = 3 && !x.pace))) ||
  ((moves || k = 2) && (x.dst % 64 != 0 || space x.dst = 3)) ||
  (k = 4 && space (x.bits 256 64) != 0)

/-- Fetch the descriptor at an address; one in host memory comes as an operand. -/
def State.movFetch (s : State) (addr : Nat) (host : BitVec 512) : State × Option (BitVec 512) :=
  if space addr = 1 then (s, some host)
  else
    let a := addr % 2 ^ 38
    if s.capBytes < a + 64 then (s, none) else
    let r := s.readSpan 7 a 64
    (r.1, if r.2.2 then none else some (BitVec.ofNat 512 (leNat r.2.1)))

/-- Work on the descriptor at an address begins: a fetch that meets a bus error or a bad descriptor halts the mover. -/
def State.movGo (s : State) (m addr : Nat) (host : BitVec 512) : State :=
  match s.movFetch addr host with
  | (s, none) => (s.movBegin m addr 0).movFail m 2
  | (s, some d) =>
    let s := s.movBegin m addr d
    if s.descBad (s.mover m) then s.movFail m 3 else s

/-- Mover `m` works on a descriptor of kind `k` whose data have still to be moved. -/
def State.movWorks (s : State) (m k : Nat) : Bool :=
  (s.movState m = 1 || s.movState m = 2) && (s.mover m).kind == k && !(s.mover m).work

/-- Bytes in order of a received vector's burst. -/
def OutVect.burst (v : OutVect) (b : Nat) : List Byte :=
  (v.lanes b).flatMap (fun l => leBytes (2 ^ v.size) (v.data.getD l 0))

/-- A line whose source holds data: not a fabric transmit line (R184). -/
def dataLine (line : Nat) : Bool := !(decide (512 ≤ line) && decide (line < 528) && line % 2 == 1)

/-- How many WRITEs of 64 bytes a fabric transmit line has room for (R184): what the credit of the port's WRITE pool still takes. -/
def State.writeRoom (s : State) (p : Nat) : Nat :=
  if !s.fabUp p then 0 else
  let queued := (s.fab.txq.filter (fun e => e.1 == p && e.2.1 % 8 == 5)).foldl (fun a e => a + 1 + e.2.2.2.length / 32) 0
  (Tbl.get s.fab.credit 0 (poolKey p 5) - queued) / 3

/-- How many requests a line makes at present (R184, R185). -/
def State.lineCount (s : State) (line : Nat) : Nat :=
  if !dataLine line then s.writeRoom ((line - 513) / 2)
  else if line < 512 then
    ((s.cluster (line / 4)).outQ.filter (fun v => v.stream == line % 4 && s.outRoute line v.six != 2)).foldl
      (fun a v => a + (2 ^ v.size - v.sentBursts)) 0
  else if line < 528 then
    (s.fab.rxq.filter (fun e => e.1 == (line - 512) / 2)).foldl (fun a e => a + (2 ^ e.2.size - e.2.sentBursts)) 0
  else (s.port (line - 528)).raw.length / 64

/-- Take a burst of 64 bytes from a data line. -/
def State.lineBurst (s : State) (line : Nat) : State × List Byte :=
  if line < 528 then
    match s.lineOffer line with
    | some v => (s.lineTaken line v, v.burst v.sentBursts)
    | none => (s, [])
  else
    let x := s.port (line - 528)
    (s.setPort (line - 528) { x with raw := x.raw.drop 64 }, x.raw.take 64)

/-! ## Bursts of a descriptor (R194, R198) -/

/-- What a burst takes: fixed bytes, bytes at SRC, or entries of TRI as (channel, entry). -/
inductive BurstSrc where
  | fixed (b : List Byte)
  | at_ (a n : Nat)
  | tri (es : List (Nat × Nat))
  deriving DecidableEq, Repr

/-- A burst of a descriptor: what it takes, where it goes (with NIB the two planes go to two places), and by how much DONE grows. -/
structure DescBurst where
  src : BurstSrc
  dst : Nat
  high : Option Nat
  units : Nat
  deriving DecidableEq, Repr

/-- `n` bytes of the store for a mover: none where a word is in error or lies beyond the cap (R193, R198). -/
def State.movReadStore (s : State) (b n : Nat) (data : List Byte) : State × Option (List Byte) × List Byte :=
  if s.capBytes < b + n then (s, none, data)
  else
    let r := s.readSpan 7 b n
    (r.1, if r.2.2 then none else some r.2.1, data)

/-- Read `n` bytes for mover `m` (R193, R198): none is a bus error. Host memory gives what `data` holds; a line its next burst. -/
def State.movRead (s : State) (line a n : Nat) (data : List Byte) : State × Option (List Byte) × List Byte :=
  if space a = 0 then s.movReadStore (a % 2 ^ 38) n data
  else if space a = 3 then
    let r := (List.range (cdiv n 64)).foldl (fun (q : State × List Byte) _ =>
      let t := q.1.lineBurst line
      (t.1, q.2 ++ t.2)) (s, [])
    (r.1, some (r.2.take n), data)
  else if data.length < n then (s, none, data) else (s, some (data.take n), data.drop n)

/-- Write at most 64 bytes that lie in one line for mover `m` (R193, R196). False is a bus error; the store counts a refused access
(R163). -/
def State.movPut (s : State) (m a : Nat) (bytes : List Byte) : State × Bool :=
  let n := bytes.length
  if space a = 0 then
    let b := a % 2 ^ 38
    if s.movMayWrite m b then
      (s.movLine m 7 (b / 64 * 64) (List.replicate (b % 64) 0 ++ bytes) ((2 ^ n - 1) * 2 ^ (b % 64)), true)
    else (s.deny 7 (b / 64 * 64), false)
  else if space a = 1 then
    ((s.hostPut (a % 2 ^ 57) bytes).addF (MOV_M_BYTES.COUNT m) n, true)
  else
    let chip := bitsOf a 38 11
    let p := s.route chip
    if p = 15 || !s.fabUp p then (s, false) else
    let q := s.nextFabSeq chip 5
    let x := s.mover m
    let w := 2 ^ 19 * (a % 2 ^ 38) + chip * 256 + q
    let s := (s.setMover m { x with peerWaits := x.peerWaits ++ [w] }).startTimer (.peer m w)
    ((s.sendFab chip (fabHeader 5 0 15 chip s.chip 2 (a % 2 ^ 38)) bytes).addF (MOV_M_BYTES.COUNT m) n, true)

/-- Words of the table of TRI: none is a bus error. -/
def State.triWord (s : State) (a : Nat) : State × Option Nat :=
  if s.capBytes < a + 4 then (s, none) else
  let r := s.readSpan 7 a 4
  (r.1, if r.2.2 then none else some (leNat r.2.1))

/-- Fetch the 16 bytes of one TRI entry; a table word out of range gives zeros and counts (R194). -/
def State.triFetch (s : State) (m : Nat) (x : Mover) (he : Nat × Nat) (data : List Byte) :
    State × Option (List Byte) × List Byte :=
  let sstr := x.bits 384 32
  let q := s.triWord (x.bits 256 38 + 4 * he.2)
  q.2.elim (q.1, none, data) (fun p =>
    if p = 0xFFFFFFFF || sstr ≤ p then (q.1.incF (MOV_M_DROP.COUNT m) 1, some (List.replicate 16 0), data)
    else q.1.movRead x.req (if space x.src = 3 then x.src else x.src + 16 * (he.1 * sstr + p)) 16 data)

/-- What a burst takes: none is a bus error. -/
def State.burstGet (s : State) (m : Nat) (src : BurstSrc) (data : List Byte) : State × Option (List Byte) × List Byte :=
  let x := s.mover m
  match src with
  | .fixed b => (s, some b, data)
  | .at_ a n => s.movRead x.req a n data
  | .tri es =>
    es.foldl (fun (q : State × Option (List Byte) × List Byte) he =>
      match q.2.1 with
      | none => q
      | some l =>
        let r := q.1.triFetch m x he q.2.2
        (r.1, r.2.1.map (fun b => l ++ b), r.2.2)) (s, some [], data)

/-- Split an element of 8+8 samples into its low plane and its high plane (R187). -/
def nibPlanes (b : List Byte) : List Byte × List Byte :=
  let smp := (List.range (b.length / 2)).map (fun i => ((b.getD (2 * i) 0).toNat, (b.getD (2 * i + 1) 0).toNat))
  (smp.map (fun q => BitVec.ofNat 8 (q.1 % 16 + 16 * (q.2 % 16))), smp.map (fun q => BitVec.ofNat 8 (q.1 / 16 + 16 * (q.2 / 16))))

/-- A line for a peer is whole: bytes of it that TRI does not give are free values, since a WRITE carries whole lines (R280). -/
def State.wholeLine (s : State) (a : Nat) (b : List Byte) : State × Nat × List Byte :=
  if space a != 2 || b.length = 64 then (s, a, b) else
  let lo := a % 64
  let fill := leBytes 8 s.free
  let pad (i : Nat) : Byte := fill.getD (i % 8) 0
  (s.drew, a - lo, (List.range lo).map pad ++ b ++ (List.range (64 - lo - b.length)).map pad)

/-- Where the bytes of a burst go, line by line. -/
def DescBurst.puts (g : DescBurst) (b : List Byte) : List (Nat × List Byte) :=
  match g.high with
  | none => [(g.dst, b)]
  | some h =>
    let q := nibPlanes b
    if h % 64 = 0 then [(g.dst, q.1), (h, q.2)] else [(g.dst, q.1 ++ q.2)]

/-- One attempt at a burst: false is a bus error. -/
def State.burstTry (s : State) (m : Nat) (g : DescBurst) (data : List Byte) : State × Bool × List Byte :=
  match s.burstGet m g.src data with
  | (s, none, d) => (s, false, d)
  | (s, some b, d) =>
    let r := (g.puts b).foldl (fun (q : State × Bool) ab =>
      if !q.2 then q else
      let w := q.1.wholeLine ab.1 ab.2
      w.1.movPut m w.2.1 w.2.2) (s, true)
    (r.1, r.2, d)

/-- Attempts at a burst until one succeeds, at most `n`: what the last came to, and how many were made. -/
def State.burstTries (m : Nat) (g : DescBurst) (data : List Byte) : Nat → State → State × Bool × List Byte × Nat
  | 0, s => (s, false, data, 0)
  | n + 1, s =>
    let r := s.burstTry m g data
    if r.2.1 then (r.1, true, r.2.2, 1)
    else
      let t := State.burstTries m g data n r.1
      (t.1, t.2.1, t.2.2.1, t.2.2.2 + 1)

/-- A descriptor's progress in one command: its state, the data left, the burst's number in the command, and 0 while it goes on, 1 when
it waits for a request, 2 when a burst has failed for good. -/
structure DescRun where
  s : State
  data : List Byte
  k : Nat
  stop : Nat

/-- A burst is done. -/
def State.burstDone (s : State) (m : Nat) (g : DescBurst) (retries : Nat) : State :=
  let x := s.mover m
  let s := if retries = 0 then s else s.incF (MOV_M_RETRY.COUNT m) retries
  s.setMover m { x with done := x.done + g.units, retries := if retries = 0 then x.retries else retries,
                        code := if retries = 0 then x.code else 1 }

/-- The request of a burst is withdrawn after the burst has begun (R185): it counts as a surplus burst. On a data line that is the source
it writes nothing; a fabric receive line loses the packet. Otherwise the burst moves its data as usual. True: it is over. -/
def State.descSurplus (s : State) (m : Nat) (g : DescBurst) : State × Bool :=
  let x := s.mover m
  let s := (s.setMover m { x with surplus := true }).surplusEvent m x.req g.dst
  if space x.src = 3 then
    let s := match s.lineOffer x.req with
      | some v => if 512 ≤ x.req then s.linePut x.req v none else s
      | none => s
    (s.burstDone m g 0, true)
  else (s, false)

/-- The outcome of a burst that fails `fails` times before its attempts are made in earnest (R198). -/
def DescRun.burst (q : DescRun) (m : Nat) (g : DescBurst) (fails : Nat) : DescRun :=
  let retry := q.s.movRetry m
  if retry < fails then { q with s := q.s.incF (MOV_M_RETRY.COUNT m) retry, k := q.k + 1, stop := 2 }
  else
    let r := State.burstTries m g q.data (retry + 1 - fails) q.s
    let n := fails + r.2.2.2 - 1
    if r.2.1 then { s := r.1.burstDone m g n, data := r.2.2.1, k := q.k + 1, stop := 0 }
    else { s := r.1.incF (MOV_M_RETRY.COUNT m) retry, data := r.2.2.1, k := q.k + 1, stop := 2 }

/-- The next burst of a descriptor. With PACE it takes a request of line REQ for every 64 bytes (R192). -/
def DescRun.step (m : Nat) (failures withdrawn : List Nat) (q : DescRun) (g : DescBurst) : DescRun :=
  if q.stop ≠ 0 then q else
  let x := q.s.mover m
  if x.pace && decide (q.s.lineCount x.req = 0) then { q with stop := 1 }
  else if x.pace && withdrawn.contains q.k then
    match q.s.descSurplus m g with
    | (s, true) => { q with s := s, k := q.k + 1 }
    | (s, false) => { q with s := s }.burst m g (failures.getD q.k 0)
  else q.burst m g (failures.getD q.k 0)

/-- The bursts that are still to be moved once `d` units are done. -/
def burstsLeft : Nat → List DescBurst → List DescBurst
  | _, [] => []
  | d, g :: r => if g.units ≤ d then burstsLeft (d - g.units) r else g :: r

/-- Move a descriptor's bursts in order, from where it stands: to the end, up to a request that is missing, or up to a burst that fails for
good (R192, R198, R199). LASTB says that it was the last. -/
def State.movRun (s : State) (m : Nat) (data : List Byte) (failures withdrawn : List Nat) (l : List DescBurst) : State :=
  let left := burstsLeft (s.mover m).done l
  let q := left.foldl (DescRun.step m failures withdrawn) ⟨s.setF (MOV_M_STATE.PACE_WAIT m) 0, data, 0, 0⟩
  let x := q.s.mover m
  if q.stop = 1 then (q.s.setF (MOV_M_STATE.PACE_WAIT m) 1).startTimer (.pace m)
  else if q.stop = 2 then
    (q.s.setMover m { x with retries := s.movRetry m, lastb := decide (q.k = left.length) }).movFail m 2
  else q.s.setMover m { x with work := true }

/-- DESC_NOP (R194): nothing. -/
def execDescNop (mover : Fin 64) (s : State) : Res :=
  let m := mover.val
  done (s.whenever (s.movWorks m 0) (fun s => s.movRun m [] [] [] []))

/-- The bursts of COPY (R194): COUNT bytes from SRC to DST, in ascending address order. -/
def Mover.copyBursts (x : Mover) : List DescBurst :=
  (List.range (x.count / 64)).map (fun i =>
    ⟨.at_ (x.src + (if space x.src = 3 then 0 else 64 * i)) 64, x.dst + 64 * i, none, 64⟩)

/-- COPY. `failures` and `withdrawn`: by the number of the burst in this command, how often in a row it fails, and which lose their request. -/
def execCopy (mover : Fin 64) (data : List Byte) (failures withdrawn : List Nat) (s : State) : Res :=
  let m := mover.val
  done (s.whenever (s.movWorks m 1) (fun s => s.movRun m data failures withdrawn (s.mover m).copyBursts))

/-- The bursts of FILL (R194): COUNT bytes at DST, each 8 bytes set to ARG0. -/
def Mover.fillBursts (x : Mover) : List DescBurst :=
  let pat := (List.range 8).flatMap (fun _ => leBytes 8 (x.bits 256 64))
  (List.range (x.count / 64)).map (fun i => ⟨.fixed pat, x.dst + 64 * i, none, 64⟩)

/-- FILL. -/
def execFill (mover : Fin 64) (failures withdrawn : List Nat) (s : State) : Res :=
  let m := mover.val
  done (s.whenever (s.movWorks m 2) (fun s => s.movRun m [] failures withdrawn (s.mover m).fillBursts))

/-- ROWS, COLS and the bytes of an element of ILV. -/
def Mover.rows (x : Mover) : Nat := x.bits 256 32
def Mover.cols (x : Mover) : Nat := x.bits 288 32
def Mover.elem (x : Mover) : Nat := 64 * 2 ^ x.bits 320 4

/-- The bursts of ILV (R194): ROWS × COLS elements, row-major, to column-major; with NIB each element goes as its planes, two lines at a
time where it has them. -/
def Mover.ilvBursts (x : Mover) : List DescBurst :=
  let e := x.elem
  let nib := x.bits 6 1 = 1
  let n := if nib then min e 128 else 64
  (List.range (x.rows * x.cols)).flatMap (fun i =>
    let src := if space x.src = 3 then x.src else x.src + i * e
    let dst := x.dst + (i % x.cols * x.rows + i / x.cols) * e
    (List.range (e / n)).map (fun j =>
      ⟨.at_ (if space x.src = 3 then src else src + n * j) n, if nib then dst + n / 2 * j else dst + n * j,
        if nib then some (dst + e / 2 + n / 2 * j) else none, n⟩))

/-- ILV. -/
def execIlv (mover : Fin 64) (data : List Byte) (failures withdrawn : List Nat) (s : State) : Res :=
  let m := mover.val
  done (s.whenever (s.movWorks m 3) (fun s => s.movRun m data failures withdrawn (s.mover m).ilvBursts))

/-- Address of entry (channel, entry) of TRI's destination. -/
def Mover.triDst (x : Mover) (he : Nat × Nat) : Nat := x.dst + 16 * (he.1 * x.bits 416 32 + he.2)

/-- Entries of a channel as bursts: those that lie in one line of the destination go together. -/
def Mover.triLine (x : Mover) : List (Nat × Nat) → List (List (Nat × Nat))
  | [] => []
  | he :: r =>
    match x.triLine r with
    | (f :: g) :: more => if x.triDst he / 64 = x.triDst f / 64 then (he :: f :: g) :: more else [he] :: (f :: g) :: more
    | more => [he] :: more

/-- The bursts of TRI (R194): for each channel and entry, the entry that the table names. -/
def Mover.triBursts (x : Mover) : List DescBurst :=
  (List.range (x.bits 352 32)).flatMap (fun h =>
    (x.triLine ((List.range (x.bits 320 32)).map (fun i => (h, i)))).map (fun es =>
      ⟨.tri es, x.triDst (es.headD (0, 0)), none, es.length⟩))

/-- TRI (R194): reorder 16-byte entries by a table. -/
def execTri (mover : Fin 64) (data : List Byte) (failures withdrawn : List Nat) (s : State) : Res :=
  let m := mover.val
  done (s.whenever (s.movWorks m 4) (fun s => s.movRun m data failures withdrawn (s.mover m).triBursts))

/-- FENCE (R197): it completes once every peer write has been acknowledged; host and store writes are visible at once. -/
def execFence (mover : Fin 64) (s : State) : Res :=
  let m := mover.val
  done (s.whenever (s.movWorks m 5 && (s.mover m).peerWaits.isEmpty) (fun s =>
    if (s.mover m).peerRefused then (s.setMover m { s.mover m with peerRefused := false }).movFail m 5
    else s.movRun m [] [] [] []))

/-- DESCRIPTOR_COMPLETE (R195, R200): STATUS is written back; then the chain ends, the mover stops, or NEXT is fetched. `next`
is the descriptor at NEXT when that lies in host memory. A STATUS that the store refuses halts the mover (R193). -/
def State.movComplete (s : State) (m : Nat) (next : BitVec 512) : State :=
  let a := s.movAddr m
  let nx := (s.mover m).nextAddr
  let stop := s.movState m = 2
  let r := s.movEnd m
  let s := r.1.setMover m { r.1.mover m with work := false }
  if !r.2 then s.movHalt m else
  let s := if nx = 0 then s.emitFor (s.movSubs m) (movSrc m) 0x0601 a m 0 else s
  if stop then (s.emitFor (s.movSubs m) (movSrc m) 0x0607 nx m 0).movIdle m nx
  else if nx = 0 then s.movIdle m 0
  else s.movGo m nx next

/-- DESCRIPTOR_COMPLETE (R195, R200). -/
def execDescriptorComplete (mover : Fin 64) (next : BitVec 512) (s : State) : Res :=
  let m := mover.val
  done (s.whenever ((s.movState m = 1 || s.movState m = 2) && (s.mover m).work) (fun s => s.movComplete m next))

/-- PACE_TIMEOUT (R199, R322): no request for MOV_PACE_TO, or at once in iron. -/
def execPaceTimeout (mover : Fin 64) (s : State) : Res :=
  let m := mover.val
  done (s.whenever (s.flag (MOV_M_STATE.PACE_WAIT m) && (s.iron || (s.movImage m).el Scr.MOV_PACE_TO (m - 32) % 2 ^ 32 != 0))
    (fun s => (if s.iron then s
      else s.lapse (.pace m) (usCycles * ((s.movImage m).el Scr.MOV_PACE_TO (m - 32) % 2 ^ 32))).movFail m 4))

/-- IRON_MOVER_CUT (R322): a command mover still working 100 ms after iron entry halts with IRON_CUT. -/
def execIronMoverCut (mover : Fin 64) (s : State) : Res :=
  let m := mover.val
  done (s.whenever (s.iron && (s.movState m = 1 || s.movState m = 2)) (fun s =>
    (s.runCycles (s.flt.ironAt.getD 0 + 100 * msCycles - s.clk.cycles)).movFail m 6))

/-- The number of a command mover. -/
def isCmdMover (m : Nat) : Bool := decide (32 ≤ m) && decide (m < 60)

/-- A page may command mover `m` (R201): the ADMIN page, or its owner's. A mover of another kind has no owner. -/
def State.movPageOk (s : State) (e : Exec) (m : Nat) : Bool := e.admin || (isCmdMover m && e.sub == s.movOwner m)

/-- MOV_RUN (R201): OK once the first descriptor is fetched. -/
def execMovRun (ring : Fin 262144) (desc : BitVec 512) (s : State) : Res :=
  let r := ring.val
  withCmd s r 0x20 (fun s e =>
    let m := e.arg 64 6
    let resume := e.arg 192 1 = 1
    let head := if resume then s.movAddr m else e.arg 128 64
    if !s.movPageOk e m then s.finish r e stDenied
    else if s.iron then s.finish r e stInIron
    else if isCmdMover m && (s.movState m = 1 || s.movState m = 2) then s.finish r e stBusy
    else if !isCmdMover m || (!resume && !descAddrOk head) then s.finish r e stBadArg
    else
      let s := s.setF (MOV_M_STATE.STATE m) 1
      (s.finish r e stOk).movGo m head desc)

/-- MOV_STOP (R200, R201): OK with the saved address once the mover is IDLE or HALTED. -/
def execMovStop (ring : Fin 262144) (s : State) : Res :=
  let r := ring.val
  withCmd s r 0x21 (fun s e =>
    let m := e.arg 64 6
    if !s.movPageOk e m then s.finish r e stDenied
    else if !isCmdMover m then s.finish r e stBadArg
    else if s.movState m = 0 || s.movState m = 3 then s.complete r e stOk (s.movAddr m) 0
    else
      let x := s.mover m
      if x.stopRings.contains r then s
      else (s.setMover m { x with stopRings := x.stopRings ++ [r] }).setF (MOV_M_STATE.STATE m) 2)

end Sys2Proof.Machine
end

