-- ==== Sys2Proof/Machine/Power.lean ====
section
/-!
DEFINITION. Meanings of the commands of power, test and block resets (18_power_reset_and_states.md, R377 to R395;
19_package_pins_and_electrical.md, R413).
-/

namespace Sys2Proof.Machine

/-- Event source of the power unit (R393). -/
def pwrSrc : Nat := 0x00B

/-! ## Voltage, clock and temperature (R380 to R382, R390) -/

/-- VDD_CORE code of a clock step at the present temperature. -/
def State.stepVolt (s : State) (step : Nat) : Nat := Config.avsTable step s.pwr.dieMax % 256

/-- Change the stage clock step, with event 0x0F02 (R382). -/
def State.clkStep (s : State) (new : Nat) : State :=
  let old := s.getF PWR_STATUS.CLK_STEP
  if old = new then s
  else (s.setF PWR_STATUS.CLK_STEP new).emit pwrSrc 0x0F02 (old + 256 * new) (ofSigned 32 (s.getS PWR_STATUS.THETA)) 0

/-- The fastest step from `lo` on that a voltage code supports; step 4 when none does. -/
def State.bestStep (s : State) (lo code : Nat) : Nat :=
  ((List.range 5).find? (fun k => decide (lo ≤ k) && decide (s.stepVolt k ≤ code))).getD 4

/-- AVS_REQ moves toward the table's value. -/
def State.avsMove (s : State) : State :=
  let old := s.getF PWR_STATUS.AVS_REQ
  let want := s.stepVolt (s.getF PWR_STATUS.CLK_STEP)
  let new := if old < want then min want (old + 5) else max want (old - 5)
  if new = old then s else ({ s.setF PWR_STATUS.AVS_REQ new with pwr.avsWait := true } : State).startTimer .avs

/-- AVS_UPDATE (R380): while a core runs, AVS_REQ moves toward the table's value by at most 25 mV, 5 codes. -/
def execAvsUpdate (s : State) : Res :=
  done (s.whenever (s.coreRuns && s.power != 3) State.avsMove)

/-- AVS_APPLIED (R379, R380): a voltage below that of the step in force drops the clock. -/
def execAvsApplied (code : BitVec 8) (s : State) : Res :=
  let s := { s.setF PWR_STATUS.AVS_APPLIED code.toNat with pwr.avsWait := false }
  let step := s.getF PWR_STATUS.CLK_STEP
  done (s.whenever (s.power != 3 && decide (code.toNat < s.stepVolt step)) (fun s => s.clkStep (s.bestStep step code.toNat)))

/-- AVS_TIMEOUT (R380): no acknowledgment within 10 ms; the clock stays at its step. -/
def execAvsTimeout (s : State) : Res :=
  done (s.whenever s.pwr.avsWait (fun s =>
    ({ s.lapse .avs (10 * msCycles) with pwr.avsWait := false } : State).raise pwrSrc 0x0032 2 false))

/-- RAIL_FAULT_REPORT (R381). -/
def execRailFaultReport (_rail : Fin 9) (s : State) : Res := done (s.raise pwrSrc 0x0031 4 false)

/-- The greatest of a list of temperatures. -/
def hottest (l : List Int) (d : Int) : Int := l.foldl max (l.headD d)

/-- What follows from θ (R390): the clock falls a step per 10 hot samples and rises one per 1,000 cool samples. -/
def State.thermal (s : State) (t : Int) : State :=
  let hot := decide ((s.sv Scr.PWR_THROTTLE : Int) ≤ t)
  let cool := decide (t < (s.sv Scr.PWR_THROTTLE : Int) - s.sv Scr.PWR_HYST)
  let h := if hot then s.pwr.hotFor + 1 else 0
  let c := if cool then s.pwr.coolFor + 1 else 0
  let s := { s with pwr.hotFor := h, pwr.coolFor := c }
  let s := s.drive 102 (decide (10 ≤ h))
  let step := s.getF PWR_STATUS.CLK_STEP
  let s := if h ≠ 0 && h % 10 = 0 && decide (step < s.sv Scr.PWR_CLK_FLOOR) then s.clkStep (step + 1) else s
  let s := if c ≠ 0 && c % 1000 = 0 && 1 ≤ step && !s.flag PWR_EMERG.CLK_MIN &&
      decide (s.stepVolt (step - 1) ≤ s.getF PWR_STATUS.AVS_APPLIED) then s.clkStep (step - 1) else s
  if 115 ≤ t && !s.iron then s.raise pwrSrc 0x0030 4 false else s

/-- A sample of every sensor: θ is the hottest die sensor, or a stack's and 5 °C. -/
def State.sample (s : State) (die hbm : List Int) : State :=
  let d := hottest die 0
  let t := hottest (d :: hbm.map (fun x => x + 5)) d
  let s := ({ s with pwr.dieMax := d } : State).setS PWR_STATUS.THETA t
  let s := s.setF STO_TEMP.STACKS ((hbm.take 8).foldr (fun x a => ofSigned 8 x + 256 * a) 0)
  let s := s.setFlag STO_STATUS.HOT (hbm.any (fun x => decide (85 < x)))
  s.thermal t

/-- THERMAL_SAMPLE (R379, R390): the die sensors and the stack sensors, in °C. -/
def execThermalSample (die hbm : List Int) (s : State) : Res :=
  done (s.whenever (s.power != 3) (fun s => s.sample die hbm))

/-- PWR_EMERG.CLK_MIN is written 1 (R382, R395). -/
def State.clkMin (s : State) : State := (s.setF PWR_EMERG.CLK_MIN 1).clkStep 4

/-- CLK_MIN (R382, R395): a write of 1 to PWR_EMERG.CLK_MIN. -/
def execClkMin (s : State) : Res := done s.clkMin

/-! ## The sideband (R379) -/

/-- The 7-bit address at which the I²C target answers: 0x58 and the straps. -/
def State.i2cAddress (s : State) : Nat := 0x58 + s.pwr.pinI2c

/-- What the board power controller reads of the I²C target, in every power state: the byte registers that are not write-only. -/
def State.i2cRead (s : State) (reg : Nat) : Option Nat :=
  if reg = 0 then some (s.power + 4 * b2n s.iron + 8 * b2n s.pwr.darkOk)
  else if reg = 1 then some (s.getF PWR_STATUS.AVS_REQ)
  else if reg = 3 then some (ofSigned 8 s.pwr.dieMax)
  else none

/-- Pin I2C_ALERT_N (chapter 19): low while AVS_REQ differs from the value last written to AVS_APPLIED. -/
def State.i2cAlertN (s : State) : Bool := s.getF PWR_STATUS.AVS_REQ == s.getF PWR_STATUS.AVS_APPLIED

/-! ## Power states (R383 to R387) -/

/-- A transition to `target` begins, naming dwell `k`. -/
def State.pwrBegin (s : State) (target : Nat) (k : Int) : State :=
  { (s.setF PWR_STATUS.TARGET target).setF PWR_STATUS.BUSY 1 with pwr.trans := some (target, k) }

/-- No transition is pending. -/
def State.pwrEnd (s : State) : State :=
  { (s.setF PWR_STATUS.BUSY 0).setF PWR_STATUS.TARGET (s.power) with pwr.trans := none }

/-- The device is in state `new` (R385): event 0x0F01 and producer PWR_STATE. -/
def State.pwrEnter (s : State) (new : Nat) : State :=
  let old := s.power
  let s := (s.setF PWR_STATUS.STATE new).setF PWR_EMERG.HOLD_NOW 0
  (s.emit pwrSrc 0x0F01 (old + 256 * new) (dwell32 s.houseDwell) 0).pulse 111

/-- A transition that R385 lists, from the state held. -/
def State.pwrAllowed (s : State) (target : Nat) : Bool :=
  let c := s.power
  (c == 0 && (target == 1 || target == 2)) || (c == 1 && target != 1) || (c == 2 && (target == 1 || target == 3))

/-- The first dwell a transition can name, where it names one. -/
def State.pwrFirst (s : State) : Int := if s.power = 0 then s.houseDwell + 1 else s.dwellAhead 1

/-- The transition to `target` names a dwell. -/
def State.pwrNamed (s : State) (target : Nat) : Bool := s.power == 0 || (s.power == 1 && target == 0)

/-- PWR_SET (R385, R387, R391). -/
def execPwrSet (ring : Fin 262144) (s : State) : Res :=
  let r := ring.val
  withCmd s r 0x50 (fun s e =>
    let target := e.arg 64 2
    let k0 := toSigned 64 (e.arg 128 64)
    let k := if s.pwrNamed target && k0 != 0 then k0 else s.pwrFirst
    if s.iron && target != 3 then s.finish r e stInIron
    else if !s.pwrAllowed target || (s.pwrNamed target && decide (k < s.pwrFirst)) then s.finish r e stBadArg
    else if s.pwr.trans.isSome then s.finish r e stBusy
    else (s.finish r e stPending).pwrBegin target k)

/-- Every dwell before `k` has replayed and drained and has had its records released. -/
def State.showOver (s : State) (k : Int) : Bool :=
  decide (k ≤ s.houseDwell) && decide (k ≤ s.seq.closed + 1) && s.seq.ringWait.isEmpty && s.seq.replay.isNone &&
    s.seq.replayed.isEmpty && s.liveRecs.isEmpty

/-- HOLD_REACHED (R385): SHOW → HOLD completes; a transition to INTERMISSION goes on. -/
def execHoldReached (s : State) : Res :=
  done (match s.pwr.trans with
    | some (t, k) =>
      if s.power = 0 && s.showOver k then
        let s := s.pwrEnter 1
        if t = 1 then s.pwrEnd else s
      else s
    | none => s)

/-- Power gating (R386). -/
def State.gate (s : State) : State :=
  let off (c : Cluster) : Cluster := { c with lm := [], cm := [] }
  let s := { s with clu := s.clu.map (fun (e : Nat × Option Cluster) => (e.1, e.2.map off)), bem.wbank := [none, none] }
  ((s.setF BEM_WDIG0.TAG 0).setF BEM_WDIG1.TAG 0).freeSlots

/-- INTERMISSION_REACHED (R385): HOLD → INTERMISSION and back. -/
def execIntermissionReached (s : State) : Res :=
  done (match s.pwr.trans with
    | some (t, _) =>
      if s.power = 1 && t = 2 then (s.gate.storeSleep.pwrEnter 2).pwrEnd
      else if s.power = 2 && t = 1 then (s.storeWake.pwrEnter 1).pwrEnd
      else s
    | none => s)

/-- The fields that DARK keeps: the always-on domain's (R383, R386). -/
def darkKeeps (k : Nat) : Bool :=
  let off := k / 64
  (0x100000 ≤ off && off < 0x300000) || (0xF00000 ≤ off && off < 0x1000000) || off == 0xD00028 || off == 0xD00030

/-- The script's epoch group as DARK keeps it for the counters that run on (DEDUCED, log 19). -/
def State.darkImage (s : State) : Image :=
  let f := [Scr.TIM_SIX0, Scr.TIM_TAI0, Scr.TIM_DT_NUM, Scr.TIM_DT_DEN, Scr.TIM_DWELL]
  { Image.boot with vals := f.foldl (fun t x => Tbl.set t x.boot x.id (s.sv x)) [] }

/-- What was written to the journal's manufacturing area, which is MRAM (R367, R388). -/
def State.mfgMem (s : State) : Tbl (Option Byte) :=
  s.matrix.mem.filter (fun e => decide (0x30000000 ≤ e.1) && decide (e.1 < 0x30040000))

/-- All but the always-on domain is lost (R386). Iron ends (R387). -/
def State.goDark (s : State) : State :=
  let r := State.reset
  let keep := s.cue.prodLevel.filter (fun e => e.1 == 55 || e.1 == 58 || decide (59 ≤ e.1 && e.1 < 91))
  let ports := (List.range 32).foldl (fun t k => Tbl.set t false (59 + k) true) keep
  { s with
    regs := s.regs.filter (fun e => darkKeeps e.1), mem := r.mem, clu := r.clu, mov := r.mov,
    host := { r.host with hostMem := s.host.hostMem, lastRead := s.host.lastRead },
    scr := { r.scr with images := [s.darkImage] }, ing := r.ing, sto := r.sto, seq := r.seq, bem := r.bem, prd := r.prd,
    fab := r.fab, cue := { r.cue with prodLevel := ports }, flt := r.flt, duo := r.duo,
    matrix := { r.matrix with mem := s.mfgMem },
    ctl := { s.ctl with push := [], update := none, bootTry := 0 } : State }.hckLinks

/-- DARK_REACHED (R385): DARK_OK is set. -/
def execDarkReached (s : State) : Res :=
  done (match s.pwr.trans with
    | some (3, _) =>
      if s.power = 1 || s.power = 2 then
        let s := (s.pwrEnter 3).pwrEnd.goDark
        { s with pwr.darkOk := true }
      else s
    | _ => s)

/-- DARK_REQUEST (R379, R385): by I²C, from HOLD or INTERMISSION. -/
def execDarkRequest (s : State) : Res :=
  done (s.whenever ((s.power = 1 || s.power = 2) && s.pwr.trans.isNone) (fun s => s.pwrBegin 3 s.houseDwell))

/-- Every enabled port starts to hunt (R117): each transition writes its event. -/
def State.startPorts (s : State) : State := s.each (List.range 32) State.portRefresh

/-- DARK → HOLD begins (R385): the ports hunt, boot runs from step 2. -/
def State.wake (s : State) : State :=
  s.whenever (s.power = 3) (fun s =>
    let s := { s.setF PWR_STATUS.STATE 1 with pwr.darkOk := false }
    ({ (s.setF PWR_STATUS.TARGET 1).setF PWR_STATUS.BUSY 1 with pwr.trans := some (1, s.houseDwell) } : State).startPorts.startBoot 2)

/-- WAKE (R379, R385). -/
def execWake (s : State) : Res := done s.wake

/-- HOLD_NOW (R395): SHOW → HOLD at the next house dwell, ahead of a transition that waits for a later one. The bit stays set
until the device is in HOLD or iron cancels the transition; outside SHOW and in iron the write is ignored (DESIGN CHOICE, log 31). -/
def State.holdNow (s : State) : State :=
  s.whenever (s.power = 0 && !s.iron) (fun s =>
    let s := s.setF PWR_EMERG.HOLD_NOW 1
    let k := s.houseDwell + 1
    match s.pwr.trans with
    | some (t, j) => if k < j then s.pwrBegin t k else s
    | none => s.pwrBegin 1 k)

/-- HOLD_NOW: a write of 1 to PWR_EMERG.HOLD_NOW. -/
def execHoldNow (s : State) : Res := done s.holdNow

/-! ## Block resets (R388, R389) -/

/-- A block reset, which DARK ignores, sets its bit of PWR_BLKRST. -/
def State.blockReset (s : State) (b : Nat) (f : State → State) : State :=
  s.whenever (s.power != 3) (fun s => f (s.putBit PWR_BLKRST.BITS b true))

/-- The pit command a ring executes. -/
def State.pitCommand (s : State) (r : Nat) : Option Exec :=
  [0x30, 0x31, 0x32].findSome? (fun op => s.running r op)

/-- A cluster after a pit block reset: idle, with its memories (R158). -/
def Cluster.blank (x : Cluster) : Cluster :=
  { Cluster.idle with prog := x.prog, lm := x.lm, cm := x.cm, faulty := x.faulty }

/-- The pit is reset (R158). A pit command that waits for a vector ends with DEVICE_ERROR (DESIGN CHOICE, log 20). -/
def State.resetPit (s : State) : State :=
  let rs := (s.clu.flatMap (fun (e : Nat × Option Cluster) =>
    match e.2 with | some c => c.coefRings.map (fun q => q.1) ++ c.flipRing.toList ++ c.readRings | none => [])).eraseDups
  let s := { s with clu := s.clu.map (fun (e : Nat × Option Cluster) => (e.1, e.2.map Cluster.blank)) }
  let s := s.resetRegs 0x400000 0x500000 (fun _ => false)
  s.each rs (fun s r => match s.pitCommand r with | some e => s.finish r e stDeviceError | none => s)

/-- PIT_BLOCK_RESET. -/
def execPitBlockReset (s : State) : Res := done (s.blockReset 0 State.resetPit)

/-- The movers are reset (R204): IDLE, the line map clear, MOV_Mn_BYTES kept. -/
def State.resetMov (s : State) : State :=
  let s := s.each (List.range 64) (fun s m => s.movStopped m)
  let s := s.resetRegs 0x600000 0x700000 (fun k =>
    (List.range 64).any (fun m => k / 64 == (MOV_M_BYTES.COUNT m).off))
  ({ s.matrixReset .moverDma with mov := [], seq.lineMap := [] } : State).ironSleep

/-- MOV_BLOCK_RESET. -/
def execMovBlockReset (s : State) : Res := done (s.blockReset 1 State.resetMov)

/-- The stage is reset (R226, R231, R252): the sequencer stops until the next dwell close. -/
def State.resetStg (s : State) : State :=
  let s := s.stopStage 2
  let s := match s.seq.replay with
    | some n =>
      let s := s.returnPages n (fun _ _ => false)
      { s with seq.gone := s.seq.gone ++ [n] }
    | none => s
  let s := { s with seq.replay := none, seq.replayed := [], seq.halted := true, bem.wbank := [none, none], bem.wload := none }
  (s.resetRegs 0x700000 0x900000 (fun k => k / 64 == 0x700000 || k / 64 == 0x700020 || k / 64 == 0x800040)).setF
    STG_STATUS.REPLAY 0

/-- STG_BLOCK_RESET. -/
def execStgBlockReset (s : State) : Res := done (s.blockReset 2 State.resetStg)

/-- The cue matrix is reset (R300, R303, R308): producers keep their levels, filters and cells start anew. -/
def State.resetCue (s : State) : State :=
  let s := s.each (List.range 8) (fun s k =>
    if Tbl.get s.cue.taskLevel false (8 + k) then s.blankStop k s.houseSix else s)
  let pins := (List.range 8).map (fun f => (f, (s.filt f).level))
  let keep := s.cue.prodLevel.filter (fun e => decide (48 ≤ e.1))
  let s := { s with cue := { CueU.fresh with prodLevel := keep } }
  let s := s.resetRegs 0xC00000 0xD00000 (fun _ => false)
  let t := s.clk.cycles
  let s := s.each pins (fun s q => if q.2 then s.setFilt q.1 { Filt.fresh with level := true } else s)
  let s := s.each (List.range 64) (fun s c => s.pushEdge c (s.levelOf c) t t 0 t)
  s.each (List.range 8) State.filtRestart

/-- CUE_BLOCK_RESET. -/
def execCueBlockReset (s : State) : Res := done (s.blockReset 3 State.resetCue)

/-- The host interface is reset (R389): as a function-level reset, and its registers. -/
def State.resetHst (s : State) : State :=
  (s.resetConfig.matrixReset .hostBridge).resetRegs 0xB00000 0xB00040 (fun k => k / 64 == 0xB00008)

/-- HST_BLOCK_RESET. -/
def execHstBlockReset (s : State) : Res := done (s.blockReset 4 State.resetHst)

/-- BLOCK_RESET_DONE (R389, R393): the bit clears, event 0x0F03. -/
def execBlockResetDone (block : Fin 5) (s : State) : Res :=
  done (s.whenever (s.bit PWR_BLKRST.BITS block.val) (fun s =>
    (s.putBit PWR_BLKRST.BITS block.val false).emit pwrSrc 0x0F03 (2 ^ block.val) 0 0))

/-! ## Test logic (R316, R413) -/

/-- JTAG_INSTRUCTION: an instruction or a self-test that holds a block under test takes the collector out of service; a release
lets software set SERVICE again. -/
def execJtagInstruction (op : JtagOp) (s : State) : Res :=
  let hold (s : State) : State := ({ s with ctl.jtagHeld := true } : State).leaveService 1
  done (match op with
    | .bypass => s
    | .idcode => s
    | .samplePreload => s
    | .extest => hold s
    | .extestPulse => hold s
    | .extestTrain => hold s
    | .highz => hold s
    | .clamp => hold s
    | .selfTest => hold s
    | .release => { s with ctl.jtagHeld := false })

/-! ## The link (R27) -/

/-- A link that the device negotiates: 4, 8 or 16 lanes; a rate; 68-byte flits at 32 GT/s and below only. -/
def linkOk (width rate : Nat) (flit256 : Bool) : Bool :=
  (width == 4 || width == 8 || width == 16) && rate != 0 && (flit256 || decide (rate ≤ 2))

/-- CXL_LINK_TRAINED: lanes, rate code (1, 2, 3 for 16, 32 and 64 GT/s), flit mode. CXL.mem needs 256-byte flits. -/
def execCxlLinkTrained (width : Nat) (rate : Fin 4) (flit256 : Bool) (s : State) : Res :=
  done (s.whenever (linkOk width rate.val flit256 && s.power != 3) (fun s =>
    let s := (s.setF HST_STATUS.LINK_WIDTH width).setF HST_STATUS.LINK_RATE rate.val
    let s := (s.setFlag HST_STATUS.FLIT256 flit256).setFlag HST_STATUS.MEM_ON flit256
    { s with pwr.trained := true }))

end Sys2Proof.Machine
end

