-- ==== Sys2Proof/Machine/Dwell.lean ====
section
/-!
DEFINITION. Meanings of the start and the close of a dwell (R11, R17, R93, R123, R189, R254 to R256, R297, R305, R336 to R338,
R384, R385).
-/

namespace Sys2Proof.Machine

/-- The integration anchor at dwell `n` (R254, R255): a new L at an integration boundary, or an integration that a change of
STG_INPUTS or STG_CHANNELS cuts short. -/
def State.anchorAt (s : State) (n : Int) : State :=
  let new := s.governing n
  let old := s.governing (n - 1)
  let l := max 1 (new.val Scr.PRD_INTEG)
  let a := s.anchorOf n
  let first := decide (s.firstDwell n = n)
  let cut := decide (new.val Scr.STG_INPUTS ≠ old.val Scr.STG_INPUTS) || decide (new.val Scr.STG_CHANNELS ≠ old.val Scr.STG_CHANNELS)
  if first then
    (if l = a.2.2 then s else { s with prd.anchors := s.prd.anchors ++ [(n, s.integ n, l)] })
  else if cut then { s with prd.anchors := s.prd.anchors ++ [(n, s.integ (n - 1) + 1, l)] }
  else s

/-- At a new integration a CLOSED bank is EMPTY when PRD_VIS has changed its address (R256). -/
def State.bankMoved (s : State) (n : Int) : State :=
  if s.firstDwell n ≠ n then s else
  s.each [0, 1] (fun s b =>
    if s.getF (bankStateF b) = 2 && decide ((s.bank b).addr ≠ (s.integImage n).visBase b) then s.setF (bankStateF b) 0 else s)

/-- Ports that are DEGRADED or DOWN at the start of a dwell mark its products (R123). -/
def State.portsMark (s : State) (n : Int) : State :=
  s.each (List.range 24) (fun s p =>
    let st := s.getF (ING_P_STATUS.STATE p)
    if st = 3 || st = 4 then s.condFor n fDegraded ((s.governing n).el Scr.ING_PORT_SUB p) else s)

/-- The power state at the start of dwell `n` (R384, R385). -/
def State.pwrAt (s : State) (n : Int) : State :=
  let s := match s.pwr.trans with
    | some (0, k) => if s.power = 1 && decide (k ≤ n) then (s.pwrEnter 0).pwrEnd else s
    | _ => s
  let holding := match s.pwr.trans with
    | some (t, k) => (t = 1 || t = 2) && decide (k ≤ n)
    | none => false
  if s.power != 0 || holding then { s with seq.skipped := s.seq.skipped ++ [n] } else s

/-- The changes a dwell boundary brings. -/
def State.dwellBegins (s : State) (n : Int) : State :=
  let s := { s with seq.started := n }
  let s := if s.scr.images.any (fun im => !im.whole && decide (im.first = n)) then s.cueRewire (s.governing (n - 1)) (s.governing n)
    else s
  let s := ((s.anchorAt n).bankMoved n).pwrAt n
  let s := s.pulse 48
  let s := if s.firstDwell n = n then s.pulse 50 else s
  let s := s.hckMark
  let s := if Tbl.get s.cue.taskLevel false 74 then s.condDwell n fDegraded else s
  ((((s.portsMark n).claimBoundary).swapApply n).joinAlone).purgeUnbound

/-- DWELL_START (R297): house SIX reaches SIX0 + n × D, for the dwell after the last started. -/
def execDwellStart (s : State) : Res :=
  done (s.whenever (s.epoch && s.power != 3) (fun s =>
    let n := s.seq.started + 1
    (s.advanceTo (s.startSix n)).dwellBegins n))

/-- A running ingest cluster that took no vector of dwell `n`, and has none waiting, passes its marker at the close (R135, R189;
DEDUCED, log 21). -/
def State.idleMarker (s : State) (n : Int) (c : Nat) : State :=
  let e := (s.governing n).el Scr.PIT_CLU_PROG c
  let x := s.cluster c
  if e % 16 = 15 || bitOf e 4 || x.nullDone.contains n || x.inQ.any (fun v => decide (v.dwell ≤ n)) then s
  else if x.lastTaken.any (fun v => decide (v.dwell = n)) && !s.cluRetired c then s
  else s.passMarker n c

/-- Dwell `n` closes: house SIX reaches SIX0 + (n + 1) × D + W_late. -/
def State.dwellCloses (s : State) (n : Int) : State :=
  let im := s.governing n
  let s := s.advanceTo ((im.startSix (n + 1) + im.val Scr.ING_LATE_WINDOW) % 2 ^ 64)
  let s := ({ s with seq.closed := n, seq.halted := false } : State).pulse 49
  let open_ := s.ing.accepted.filter (fun b => decide (n < s.dwellOf (b.six + (b.spectra - 1))))
  let s := { s with ing.accepted := open_ }
  let s := s.each (List.range 128) (fun s c => s.idleMarker n c)
  if s.seq.skipped.contains n || s.seq.gone.contains n then s
  else { s with seq.ringWait := s.seq.ringWait ++ [n] }

/-- DWELL_CLOSE (R17): the dwell after the last closed. -/
def execDwellClose (s : State) : Res :=
  done (s.whenever (s.epoch && s.power != 3 && decide (s.seq.closed < s.seq.started)) (fun s =>
    s.dwellCloses (s.seq.closed + 1)))

end Sys2Proof.Machine
end

