-- ==== Sys2Proof/Machine/HdmOps.lean ====
section
/-!
DEFINITION. The host's view of the store (R28 to R30, R271): HDM lines and the conversion window.
-/

namespace Sys2Proof.Machine

/-! ## The conversion window (R271) -/

/-- First byte of the window. -/
def windowBase : Nat := 192 * 2 ^ 30

/-- A line of the window: its bank, its store line, and whether it lies in the bank. -/
def State.windowLine (s : State) (addr : Nat) : Nat × Nat × Bool :=
  let h := (addr - windowBase) / (32 * 2 ^ 30)
  let o := (addr - windowBase) % (32 * 2 ^ 30)
  let empty := decide (s.getF (bankStateF h) = 0)
  let im := if empty then s.newest else s.integImage (s.bank h).firstDwell
  let base := if empty then im.visBase h else (s.bank h).addr
  (h, base + 64 + o, decide (o < 16 * im.entries))

/-- A read of a line of the window. -/
def State.windowRead (s : State) (addr : Nat) (errs : List Nat) : State :=
  let w := s.windowLine addr
  if !w.2.2 || !bitOf (s.sv Scr.PRD_CONV) 0 then s.answer 0 true
  else
    s.request (s.newReq 6 w.2.1 0 (.read errs (.window (bitOf (s.sv Scr.PRD_CONV) 1))))

/-! ## Accesses -/

/-- A host read of the line at `addr`, below 256 GiB (R28, R30). On viral it is poison; its data is not stated. -/
def State.hdmRead (s : State) (addr : Nat) (errs : List Nat) : State :=
  if s.host.viral then let f := s.freeLine; f.1.answer f.2 true
  else if windowBase ≤ addr then s.windowRead addr errs
  else s.request (s.newReq 6 addr 0 (.read errs .hdm))

/-- A host write of the enabled bytes of a line (R29). -/
def State.hdmWrite (s : State) (addr : Nat) (data : BitVec 512) (bytes : BitVec 64) (errs : List Nat) : State :=
  s.request (s.newReq 6 addr 0 (.write data bytes errs))

end Sys2Proof.Machine
end

