-- ==== Sys2Proof/Machine/Pit.lean ====
section
/-!
DEFINITION. Meanings of the pit's commands (07_conditioning_pit.md, R131 to R158): the program words, cue interrupts, null
vectors. A field whose code R139 does not define makes the word a NOP that sets ILL, as R140 has it for operation codes (DEDUCED,
log 23).
-/

namespace Sys2Proof.Machine

/-! ## Data operations (R140, R143, R145) -/

/-- An ALU result: Dd at distance 1. -/
def Ctx.alu (q : Ctx) (f : Nat → Int) : Eff := { Eff.nop with flights := [q.toD (rDst q.w) 1 (fun l => half (f l))] }

/-- An accumulator result at distance 3, with its overflows. -/
def Ctx.accu (q : Ctx) (i : Nat) (f : Nat → Int) : Eff :=
  let r := perLane (fun l => accFit (f l))
  { Eff.nop with flights := [q.toA i 3 (fun l => (r.getD l (0, false)).1)],
                 sticky := r.map (fun v => if v.2 then fOV i else 0) }

/-- A sign chosen by NEG. -/
def signed (neg : Bool) (v : Int) : Int := if neg then -v else v

/-- The shifted product of MUL and MAC. -/
def Ctx.prod (q : Ctx) (l : Nat) : Int := signed (rNeg q.w) (q.a l * q.b l) * (2 ^ rSh q.w : Nat)

/-- MUL. -/
def Ctx.mul (q : Ctx) : Eff := q.accu (rAcc q.w) q.prod

/-- MAC. -/
def Ctx.mac (q : Ctx) : Eff := q.accu (rAcc q.w) (fun l => q.x.accFwd q.bank l (rAcc q.w) + q.prod l)

/-- ALD. -/
def Ctx.ald (q : Ctx) : Eff :=
  q.accu (rAcc q.w) (fun l =>
    toSigned 32 (q.d l (rSa q.w) + 65536 * q.d l (rSa q.w + 1)) * (2 ^ rSh q.w : Nat))

/-- ACLR. -/
def Ctx.aclr (q : Ctx) : Eff := { Eff.nop with flights := [q.toA (rAcc q.w) 3 (fun _ => 0)] }

/-- MPXA: bits [SH + 15:SH] of the product. -/
def Ctx.mpxa (q : Ctx) : Eff :=
  { Eff.nop with flights := [q.toD (rDst q.w) 3 (fun l =>
    half ((q.d l (rSc q.w) : Int) + fdiv (q.a l * q.b l) ((2 ^ rSh q.w : Nat) : Int)))] }

/-- The addresses of a TAPM in a lane: Pn, the address after it, the stepped pointer. -/
def Ctx.tapP (q : Ctx) (l : Nat) : Nat := q.x.pFwd q.bank l (tPm q.w)
def Ctx.tapMove (q : Ctx) (l : Nat) : Nat × Bool :=
  circ (q.tapP l) (q.x.breg l (tPm q.w)) (q.x.lreg l (tPm q.w)) 1
def Ctx.tapStep (q : Ctx) (l : Nat) : Nat × Bool :=
  circ (q.tapP l) (q.x.breg l (tPm q.w)) (q.x.lreg l (tPm q.w)) (-1)

/-- TAPM. -/
def Ctx.tapm (q : Ctx) : Eff :=
  let k := q.x.kFwd q.bank (tKc q.w)
  let h := toSigned 16 (q.x.coef k)
  let acc := perLane (fun l => accFit (q.x.accFwd q.bank l (tAcc q.w) +
    signed (tNeg q.w) (form (tXa q.w) (q.x.local l (q.tapP l)) * h) * (2 ^ tSh q.w : Nat)))
  let step := perLane q.tapStep
  let stick (l : Nat) : Nat :=
    (if (acc.getD l (0, false)).2 then fOV (tAcc q.w) else 0) |||
      (if (step.getD l (0, false)).2 || (tMv q.w && (q.tapMove l).2) then fCBW else 0)
  { Eff.nop with
    flights := [q.toA (tAcc q.w) 3 (fun l => (acc.getD l (0, false)).1),
      ⟨2, q.bank, .p (tPm q.w), step.map (fun v => v.1), false, true⟩,
      ⟨2, q.bank, .k (tKc q.w), [(k + 1) % 16384], false, true⟩],
    sticky := perLane stick,
    lm := if tMv q.w then perLane (fun l => (l * 1024 + (q.tapMove l).1, q.x.local l (q.tapP l))) else [] }

/-- The sticky flags and the count of lanes that saturate. -/
def satEff (chg : List Bool) : Eff :=
  { Eff.nop with sticky := chg.map (fun b => if b then fSAT else 0), satN := (chg.filter (fun b => b)).length }

/-- EXT. -/
def Ctx.ext (q : Ctx) : Eff :=
  if 1 < rW q.w || rSat q.w = 3 then Eff.bad
  else
    let w := if rW q.w = 0 then 16 else 32
    let r := perLane (fun l => reduce w (rSat q.w) (biased (q.x.acc q.bank l (rAcc q.w)) (rBias q.w) q.x.bw (rSh q.w)))
    let v (l : Nat) : Nat := ofSigned 32 (r.getD l (0, false)).1
    let lo := q.toD (rDst q.w) 2 (fun l => v l % 65536)
    { satEff (r.map (fun x => x.2)) with
      flights := if rW q.w = 0 then [lo] else [lo, q.toD (rDst q.w + 1) 2 (fun l => v l / 65536)] }

/-- QPK. -/
def Ctx.qpk (q : Ctx) : Eff :=
  if rW q.w = 3 || rSat q.w = 3 then Eff.bad
  else
    let w := if rW q.w = 0 then 4 else if rW q.w = 1 then 8 else 16
    let src (l i : Nat) : Int := if rSrcr q.w then toSigned 16 (q.d l (rSa q.w + i)) else q.x.acc q.bank l i
    let r (i : Nat) : List (Int × Bool) :=
      perLane (fun l => reduce w (rSat q.w) (biased (src l i) (rBias q.w) q.x.bw (rSh q.w)))
    let re := r 0
    let im := r 1
    let part (t : List (Int × Bool)) (l : Nat) : Nat := ofSigned w (t.getD l (0, false)).1
    { satEff ((re.zip im).map (fun x => x.1.2 || x.2.2)) with
      flights := if rW q.w = 2 then [q.toD (rDst q.w) 2 (part re), q.toD (rDst q.w + 1) 2 (part im)]
        else [q.toD (rDst q.w) 2 (fun l => part re l + 2 ^ w * part im l)] }

/-- CIS (R146). -/
def Ctx.cis (q : Ctx) : Eff :=
  let k (l : Nat) : Nat := half (q.a l) / 64
  { Eff.nop with flights := [q.toD (rDst q.w) 3 (fun l => half (romCos (k l))),
                             q.toD (rDst q.w + 1) 3 (fun l => half (romSin (k l)))] }

/-- MAG. -/
def Ctx.mag (q : Ctx) : Eff :=
  q.alu (fun l => ((toSigned 8 (half (q.a l))).natAbs + (toSigned 8 (half (q.a l) / 256)).natAbs : Nat))

/-- SEL, CNT, CMP, PACK. -/
def Ctx.sel (q : Ctx) : Eff := q.alu (fun l => if q.flagOf l (rFlag q.w) then q.a l else q.b l)
def Ctx.cnt (q : Ctx) : Eff := q.alu (fun l => q.a l + (b2n (q.flagOf l (rFlag q.w)) : Int))
def Ctx.cmp (q : Ctx) : Eff := { Eff.nop with cmp := perLane (fun l => cmpFlags (q.a l - q.b l)) }
def Ctx.pack (q : Ctx) : Eff := q.alu (fun l => ((half (q.b l) % 256 * 256 + half (q.a l) % 256 : Nat) : Int))

/-! ## Immediate operations -/

/-- The immediate as a signed value. -/
def Ctx.simm (q : Ctx) : Int := toSigned 16 (iImm q.w)

/-- ADDI, ANDI, SHLI, SHRAI, MVI. -/
def Ctx.addi (q : Ctx) : Eff := q.alu (fun l => (q.ia l : Int) + iImm q.w)
def Ctx.andi (q : Ctx) : Eff := q.alu (fun l => ((q.ia l &&& iImm q.w : Nat) : Int))
def Ctx.shli (q : Ctx) : Eff := q.alu (fun l => (q.ia l * 2 ^ (iImm q.w % 16) : Nat))
def Ctx.shrai (q : Ctx) : Eff := q.alu (fun l => fdiv (toSigned 16 (q.ia l)) ((2 ^ (iImm q.w % 16) : Nat) : Int))
def Ctx.mvi (q : Ctx) : Eff := q.alu (fun _ => iImm q.w)

/-- CMPI: the immediate is signed (DEDUCED, log 23). -/
def Ctx.cmpi (q : Ctx) : Eff := { Eff.nop with cmp := perLane (fun l => cmpFlags (toSigned 16 (q.ia l) - q.simm)) }

/-- SETP: class 0 P, 1 B, 2 L. A length above 1,024 is a free value per lane (DESIGN CHOICE, log 23). -/
def Ctx.setp (q : Ctx) (free : Nat) : Eff :=
  let cls := bitsOf q.w 56 2
  let n := bitsOf q.w 54 2
  let v (l : Nat) : Nat := (q.ia l + iImm q.w) % 65536
  let land (d : Dest) (f : Nat → Nat) : Flight := ⟨2, q.bank, d, perLane f, false, false⟩
  if cls = 0 then { Eff.nop with flights := [land (.p n) (fun l => v l % 1024)] }
  else if cls = 1 then { Eff.nop with flights := [land (.b n) (fun l => v l % 1024)] }
  else if cls = 2 then
    let len (l : Nat) : Nat := if v l ≤ 1024 then v l else (Config.freeValue (free + l)).toNat % 1025
    let r := perLane (fun l => circWrite (q.x.preg q.bank l n) (q.x.breg l n) (len l))
    let moved := (List.range 64).any (fun l => (r.getD l (0, false)).1 != q.x.preg q.bank l n)
    { Eff.nop with
      flights := land (.l n) len :: (if moved then [land (.p n) (fun l => (r.getD l (0, false)).1)] else []),
      sticky := r.map (fun x => if x.2 then fCBW else 0) }
  else Eff.bad

/-- Some lane's length is above 1,024. -/
def Ctx.setpOpen (q : Ctx) : Bool :=
  bitsOf q.w 56 2 = 2 && (List.range 64).any (fun l => decide (1024 < (q.ia l + iImm q.w) % 65536))

/-- SETK, SETN, SETBW, FCLR. -/
def Ctx.setk (q : Ctx) : Eff :=
  { Eff.nop with flights :=
    [⟨2, q.bank, .k (rDst q.w % 4), [(iImm q.w + q.tms % 2 ^ iM q.w * 2 ^ iSh q.w) % 16384], false, false⟩] }
def Ctx.setn (q : Ctx) : Eff := { Eff.nop with setN := some (rDst q.w % 2, iImm q.w) }
def Ctx.setbw (q : Ctx) : Eff := { Eff.nop with setBw := some (iImm q.w * 2 ^ iSh q.w) }
def Ctx.fclr (q : Ctx) : Eff := { Eff.nop with clear := iImm q.w % 32 }

/-- MVT: to a data register, or to Pn. -/
def Ctx.mvt (q : Ctx) : Eff :=
  if xDcl q.w = 0 then { Eff.nop with flights := [q.toD (xReg q.w) 1 (fun l => q.tag l (xTag q.w))] }
  else if xDcl q.w = 1 then
    { Eff.nop with flights :=
      [⟨2, q.bank, .p (xReg q.w % 4), perLane (fun l => q.tag l (xTag q.w) % 1024), false, false⟩] }
  else Eff.bad

/-- VCLR: VALID of h[LAG] is cleared in the lanes whose flag is 1; FSEL 3 is all lanes. -/
def Ctx.vclr (q : Ctx) : Eff :=
  let m := (List.range 64).foldl (fun m l => if xFsel q.w = 3 || q.cmpFlag l (xFsel q.w) then m + 2 ^ l else m) 0
  let cut (v : Vect) : Vect := { v with valid := v.valid &&& ~~~(BitVec.ofNat 64 m) }
  { Eff.nop with hist := some (q.x.hist.zipIdx.map (fun e => if e.2 = xLag q.w then cut e.1 else e.1)) }

/-! ## Control flow (R141, R143, R150) -/

/-- A branch condition: none when its code is reserved. -/
def Ctx.cond (q : Ctx) : Option Bool :=
  let ones := decide (q.tms % 2 ^ (bKb q.w + 1) = 2 ^ (bKb q.w + 1) - 1)
  let null := match q.h0 with | some v => v.null | none => false
  let n := q.x.nreg q.bank (bNsel q.w)
  match bCond q.w with
  | 0 => some true
  | 1 => some ones
  | 2 => some (!ones)
  | 3 => some null
  | 4 => some (!null)
  | 5 => some (n != 0)
  | 6 => some (n == 0)
  | 7 => some (!q.x.inQ.isEmpty)
  | 8 => some q.x.inQ.isEmpty
  | 9 => some (q.page == 1)
  | 10 => some (q.page == 0)
  | _ => none

/-- BR. -/
def Ctx.br (q : Ctx) : Eff :=
  match q.cond with
  | some b => { Eff.nop with jump := if b then some (bTarget q.w) else none, delay := true }
  | none => Eff.bad

/-- LOOP. -/
def Ctx.loop (q : Ctx) : Eff :=
  let i := bNsel q.w
  let n := (q.x.nreg q.bank i + 65535) % 65536
  { Eff.nop with setN := some (i, n), jump := if n = 0 then none else some (bTarget q.w), delay := true }

/-- RTI; outside a handler a NOP that sets ILL (DEDUCED, log 23). -/
def Ctx.rti (q : Ctx) : Eff :=
  if q.bank = 1 && q.x.rtiLeft.isNone then { Eff.nop with rti := true, delay := true } else Eff.bad

/-- An operation code of the list of R140. -/
def opDefined (o : Nat) : Bool :=
  o ≤ 0x0A || (0x10 ≤ o && o ≤ 0x1A) || (0x20 ≤ o && o ≤ 0x2A) || (0x30 ≤ o && o ≤ 0x34) || (0x38 ≤ o && o ≤ 0x3A)

/-! ## Vectors in and out (R137, R138, R140) -/

/-- IN: ingest samples as they are, beam samples saturated to 16 bits. -/
def Ctx.takeD (q : Ctx) (v : Vect) : List Flight :=
  if q.beam then
    [q.toD (xReg q.w) 1 (fun l => half (reduce 16 1 (toSigned 32 (v.samples.getD l 0))).1),
     q.toD (xReg q.w + 1) 1 (fun l => half (reduce 16 1 (toSigned 32 (v.ims.getD l 0))).1)]
  else [q.toD (xReg q.w) 1 (fun l => v.samples.getD l 0)]

/-- INA. -/
def Ctx.takeA (q : Ctx) (v : Vect) : List Flight :=
  let re (l : Nat) : Int := if q.beam then toSigned 32 (v.samples.getD l 0) else toSigned 8 (v.samples.getD l 0)
  let im (l : Nat) : Int := if q.beam then toSigned 32 (v.ims.getD l 0) else toSigned 8 (v.samples.getD l 0 / 256)
  [q.toA 0 1 (fun l => ofSigned 40 (re l)), q.toA 1 1 (fun l => ofSigned 40 (im l))]

/-- A 1-byte output with its nibbles 0b1000 replaced, and how many there were (R138). -/
def fixNibbles (b : Nat) : Nat × Nat :=
  let f (n : Nat) : Nat := if n = 8 then 9 else n
  (f (b % 16) + 16 * f (b / 16), b2n (b % 16 == 8) + b2n (b / 16 == 8))

/-- The raw output of a lane. -/
def Ctx.outRaw (q : Ctx) (l : Nat) : Nat :=
  let d := q.d l (xReg q.w)
  if xDcl q.w = 0 then d % 256 else if xDcl q.w = 1 then d else d + 65536 * q.d l (xReg q.w + 1)

/-- The vector that OUT sends (R137), and the nibbles it replaces. -/
def Ctx.outVect (q : Ctx) (v : Vect) : OutVect × Nat :=
  let f := xFine q.w
  let ok (l : Nat) : Bool := v.pres.getLsbD l && v.valid.getLsbD l
  let one (l : Nat) : Nat × Nat :=
    if !ok l then (0, 0) else if xDcl q.w = 0 then fixNibbles (q.outRaw l) else (q.outRaw l, 0)
  let r := perLane one
  ({ sub := v.sub, stream := xStream q.w, size := xDcl q.w, fine := f, six := ofSigned 64 ((v.six : Int) - ((2 ^ f : Nat) - 1)),
     ch := v.ch * 2 ^ f + (if f = 0 then 0 else xKf q.w), tcr := v.tcr, group := v.group, pres := v.pres, valid := v.valid,
     data := r.map (fun x => x.1), sentBursts := 0 }, r.foldl (fun n x => n + x.2) 0)

/-- An output vector joins the output queue; one whose stream is discarded does not (R157), nor one of a stream that goes
through a mover and has no binding (R186). -/
def State.putOut (s : State) (c : Nat) (o : OutVect) : State :=
  let route := (s.governing (s.dwellOf o.six)).el Scr.PIT_OUT_ROUTE (4 * c + o.stream)
  if route = 15 then s
  else if route ≠ 2 && !bitOf (s.se Scr.MOV_BIND (4 * c + o.stream)) 7 then s.incF MOV_UNBOUND.COUNT 1
  else
    let x := s.cluster c
    let s := s.setCluster c { x with outQ := x.outQ ++ [o] }
    if route = 2 then s.outDrain c else s

/-- OUT (R137). -/
def State.pitOutOp (s : State) (c : Nat) : State :=
  let q := s.ctx c
  if q.bank = 1 || xDcl q.w = 3 || 4 < xFine q.w then s.issue c q Eff.bad
  else match q.x.hist[xLag q.w]? with
    | none => s.issue c q Eff.nop
    | some v =>
      if 8 ≤ q.x.outQ.length then s.stall c (PIT_C_STATUS.OUT_WAIT c)
      else
        let o := q.outVect v
        ((s.incF (PIT_C_NEG8.COUNT c) o.2).putOut c o.1).issue c q Eff.nop

/-! ## Commands that run no word -/

/-- NULL_VECTORS (R135). -/
def execNullVectors (cluster : Fin 128) (s : State) : Res :=
  done (s.whenever (s.pitReady cluster.val) (fun s => s.startNulls cluster.val))

/-- A pending input may enter the cluster: it is the lowest one, no handler runs, the next word is no delay position (R149). -/
def State.cueEnters (s : State) (c q : Nat) : Bool :=
  let x := s.cluster c
  s.pitReady c && !s.flag (PIT_C_STATUS.HANDLER c) && x.delay = 0 &&
    (List.range 8).find? (fun i => x.pitq.getLsbD i) == some q

/-- An interrupt enters (R149): the word does not issue; its address is saved and the bank switches. -/
def State.cueEnter (s : State) (c q : Nat) : State :=
  let x := s.cluster c
  let y := { x with savedPc := x.next, next := 0xF80 + 16 * q, pitq := x.pitq &&& ~~~(BitVec.ofNat 8 (2 ^ q)),
                    ecx := Tbl.get x.cueSix 0 q, atReturn := false, sinceIn := x.sinceIn + 1 }
  let s := ((s.setF (PIT_C_STATUS.HANDLER c) 1).setF (PIT_C_STATUS.HANDLER_Q c) q)
  let s := (s.setF (PIT_C_STATUS.IN_WAIT c) 0).setF (PIT_C_STATUS.OUT_WAIT c) 0
  s.cycleEnd c y 0

/-- CUE_INTERRUPT (R149). -/
def execCueInterrupt (cluster : Fin 128) (input : Fin 8) (s : State) : Res :=
  done (s.whenever (s.cueEnters cluster.val input.val) (fun s => s.cueEnter cluster.val input.val))

/-! ## Program words (R140) -/

/-- NOP. -/
def execPitNop (cluster : Fin 128) (s : State) : Res := done (s.pitOp cluster.val 0x00 (fun _ => Eff.nop))

/-- MUL. -/
def execMul (cluster : Fin 128) (s : State) : Res := done (s.pitOp cluster.val 0x01 Ctx.mul)

/-- MAC. -/
def execMac (cluster : Fin 128) (s : State) : Res := done (s.pitOp cluster.val 0x02 Ctx.mac)

/-- TAPM. -/
def execTapm (cluster : Fin 128) (s : State) : Res := done (s.pitOp cluster.val 0x03 Ctx.tapm)

/-- MPXA. -/
def execMpxa (cluster : Fin 128) (s : State) : Res := done (s.pitOp cluster.val 0x04 Ctx.mpxa)

/-- ALD. -/
def execAld (cluster : Fin 128) (s : State) : Res := done (s.pitOp cluster.val 0x05 Ctx.ald)

/-- ACLR. -/
def execAclr (cluster : Fin 128) (s : State) : Res := done (s.pitOp cluster.val 0x06 Ctx.aclr)

/-- EXT. -/
def execExt (cluster : Fin 128) (s : State) : Res := done (s.pitOp cluster.val 0x07 Ctx.ext)

/-- QPK. -/
def execQpk (cluster : Fin 128) (s : State) : Res := done (s.pitOp cluster.val 0x08 Ctx.qpk)

/-- CIS. -/
def execCis (cluster : Fin 128) (s : State) : Res := done (s.pitOp cluster.val 0x09 Ctx.cis)

/-- MAG. -/
def execMag (cluster : Fin 128) (s : State) : Res := done (s.pitOp cluster.val 0x0A Ctx.mag)

/-- ADD. -/
def execAdd (cluster : Fin 128) (s : State) : Res := done (s.pitOp cluster.val 0x10 (fun q => q.alu (fun l => q.a l + q.b l)))

/-- SUB. -/
def execSub (cluster : Fin 128) (s : State) : Res := done (s.pitOp cluster.val 0x11 (fun q => q.alu (fun l => q.a l - q.b l)))

/-- AND. -/
def execPitAnd (cluster : Fin 128) (s : State) : Res := done (s.pitOp cluster.val 0x12 (fun q => q.alu (fun l => ((half (q.a l) &&& half (q.b l) : Nat) : Int))))

/-- OR. -/
def execPitOr (cluster : Fin 128) (s : State) : Res := done (s.pitOp cluster.val 0x13 (fun q => q.alu (fun l => ((half (q.a l) ||| half (q.b l) : Nat) : Int))))

/-- XOR. -/
def execPitXor (cluster : Fin 128) (s : State) : Res := done (s.pitOp cluster.val 0x14 (fun q => q.alu (fun l => ((half (q.a l) ^^^ half (q.b l) : Nat) : Int))))

/-- MIN. -/
def execPitMin (cluster : Fin 128) (s : State) : Res := done (s.pitOp cluster.val 0x15 (fun q => q.alu (fun l => min (shalf (q.a l)) (shalf (q.b l)))))

/-- MAX. -/
def execPitMax (cluster : Fin 128) (s : State) : Res := done (s.pitOp cluster.val 0x16 (fun q => q.alu (fun l => max (shalf (q.a l)) (shalf (q.b l)))))

/-- SEL. -/
def execSel (cluster : Fin 128) (s : State) : Res := done (s.pitOp cluster.val 0x17 Ctx.sel)

/-- CNT. -/
def execCnt (cluster : Fin 128) (s : State) : Res := done (s.pitOp cluster.val 0x18 Ctx.cnt)

/-- CMP. -/
def execCmp (cluster : Fin 128) (s : State) : Res := done (s.pitOp cluster.val 0x19 Ctx.cmp)

/-- PACK. -/
def execPack (cluster : Fin 128) (s : State) : Res := done (s.pitOp cluster.val 0x1A Ctx.pack)

/-- ADDI. -/
def execAddi (cluster : Fin 128) (s : State) : Res := done (s.pitOp cluster.val 0x20 Ctx.addi)

/-- ANDI. -/
def execAndi (cluster : Fin 128) (s : State) : Res := done (s.pitOp cluster.val 0x21 Ctx.andi)

/-- SHLI. -/
def execShli (cluster : Fin 128) (s : State) : Res := done (s.pitOp cluster.val 0x22 Ctx.shli)

/-- SHRAI. -/
def execShrai (cluster : Fin 128) (s : State) : Res := done (s.pitOp cluster.val 0x23 Ctx.shrai)

/-- MVI. -/
def execMvi (cluster : Fin 128) (s : State) : Res := done (s.pitOp cluster.val 0x24 Ctx.mvi)

/-- CMPI. -/
def execCmpi (cluster : Fin 128) (s : State) : Res := done (s.pitOp cluster.val 0x25 Ctx.cmpi)

/-- SETK. -/
def execSetk (cluster : Fin 128) (s : State) : Res := done (s.pitOp cluster.val 0x27 Ctx.setk)

/-- SETN. -/
def execSetn (cluster : Fin 128) (s : State) : Res := done (s.pitOp cluster.val 0x28 Ctx.setn)

/-- SETBW. -/
def execSetbw (cluster : Fin 128) (s : State) : Res := done (s.pitOp cluster.val 0x29 Ctx.setbw)

/-- FCLR. -/
def execFclr (cluster : Fin 128) (s : State) : Res := done (s.pitOp cluster.val 0x2A Ctx.fclr)

/-- MVT. -/
def execMvt (cluster : Fin 128) (s : State) : Res := done (s.pitOp cluster.val 0x33 Ctx.mvt)

/-- VCLR. -/
def execVclr (cluster : Fin 128) (s : State) : Res := done (s.pitOp cluster.val 0x34 Ctx.vclr)

/-- BR. -/
def execBr (cluster : Fin 128) (s : State) : Res := done (s.pitOp cluster.val 0x38 Ctx.br)

/-- LOOP. -/
def execLoop (cluster : Fin 128) (s : State) : Res := done (s.pitOp cluster.val 0x39 Ctx.loop)

/-- RTI. -/
def execRti (cluster : Fin 128) (s : State) : Res := done (s.pitOp cluster.val 0x3A Ctx.rti)

/-- SETP (R140, R147). -/
def execSetp (cluster : Fin 128) (s : State) : Res :=
  let n := s.freeCount
  let open_ := s.pitIssues cluster.val 0x26 && (s.ctx cluster.val).setpOpen
  let s := if open_ then { s with freeCount := n + 64 } else s
  done (s.pitOp cluster.val 0x26 (fun q => q.setp n))

/-- IN. -/
def execPitIn (cluster : Fin 128) (s : State) : Res := done (s.pitTake cluster.val 0x30 Ctx.takeD)

/-- INA. -/
def execIna (cluster : Fin 128) (s : State) : Res := done (s.pitTake cluster.val 0x31 Ctx.takeA)

/-- OUT. -/
def execPitOut (cluster : Fin 128) (s : State) : Res :=
  done (s.whenever (s.pitIssues cluster.val 0x32) (fun s => s.pitOutOp cluster.val))

/-- ILLEGAL_OP (R140): a reserved operation code. -/
def execIllegalOp (cluster : Fin 128) (s : State) : Res :=
  done (s.whenever (s.pitIssues cluster.val (wOp (s.ctx cluster.val).w) && !opDefined (wOp (s.ctx cluster.val).w)) (fun s =>
    s.issue cluster.val (s.ctx cluster.val) Eff.bad))

end Sys2Proof.Machine
end

