-- ==== Sys2Proof/Machine/House.lean ====
section
/-!
DEFINITION. Meanings of the house-clock commands (04_house_clock.md, R70 to R90).
-/

namespace Sys2Proof.Machine

/-! ## The measurement tick (R75 to R78) -/

/-- A member of the vote set: its number (8 for the XO history) and its frequency in 10^-12. -/
abbrev Member := Nat × Int

/-- The vote set (R75). -/
def State.voteSet (s : State) (y : List (Option Int)) (xo : Int) : List Member :=
  ((List.range 8).filterMap (fun e => if s.entUsable e then (y.getD e none).map (fun v => (e, v)) else none)) ++
    (if s.flag HCK_STATUS.XO_HIST then [(8, xo)] else [])

/-- Twice the median of a sorted list. -/
def median2 (l : List Int) : Int :=
  if l.length % 2 = 1 then 2 * l.getD (l.length / 2) 0 else l.getD (l.length / 2 - 1) 0 + l.getD (l.length / 2) 0

/-- Twice the deviation of entry `e`, or none when no other member exists (R75). -/
def deviation2 (v : List Member) (y : List (Option Int)) (e : Nat) : Option Int :=
  match y.getD e none with
  | none => none
  | some x =>
    let o := ((v.filter (fun m => m.1 != e)).map (fun m => m.2)).mergeSort (fun a b => decide (a ≤ b))
    if o.isEmpty then none else some (2 * x - median2 o)

/-- Two frequencies disagree (R77). -/
def disagree (hard : Nat) (a b : Int) : Bool := decide (hard < (a - b).natAbs)

/-- Member `i` is outvoted (R77): more than half of all members agree pairwise and each disagrees with it. -/
def outvoted (hard : Nat) (v : List Member) (i : Member) : Bool :=
  let o := v.filter (fun m => m.1 != i.1 && disagree hard m.2 i.2)
  o.any (fun lo => decide (v.length < 2 * (o.filter (fun m => decide (lo.2 ≤ m.2) && !disagree hard m.2 lo.2)).length))

/-- Members of a disagreeing pair neither of which is outvoted (R78). -/
def disputed (hard : Nat) (v : List Member) : List Nat :=
  (v.filter (fun a => !outvoted hard v a && v.any (fun b => !outvoted hard v b && disagree hard a.2 b.2))).map (fun m => m.1)

/-- An entry's deviation, its state under the soft threshold, and its WTR count, at a tick (R74 to R76). -/
def State.tickEntry (s : State) (v : List Member) (y : List (Option Int)) (e : Nat) : State :=
  let d := deviation2 v y e
  let soft := 2 * s.hcfg HCK_THRESH.SOFT
  let s := match d with
    | some x => s.setS (HCK_ENT.DEV e) (fdiv x 2)
    | none => s.setF (HCK_ENT.DEV e) 0x80000000
  let good := match d with | some x => decide (x.natAbs ≤ soft) | none => true
  let st := s.entState e
  if st = 3 || st = 4 || st = 6 then
    match d with
    | none => s.setEntState e 6
    | some x =>
      if good then s.setEntState e 3
      else if st = 4 then s
      else ((s.setEntState e 4).putBit HCK_EVT.BITS 2 true).emit hckSrc 0x0103 (ofSigned 64 (fdiv x 2)) e 0
  else if st = 2 || st = 5 then
    let s := { s.setEntState e 2 with hck.wtrNew := s.hck.wtrNew.filter (fun k => k != e) }
    if good then s.setF (HCK_ENT.WTR_LEFT e) (s.getF (HCK_ENT.WTR_LEFT e) - 1)
    else s.setF (HCK_ENT.WTR_LEFT e) (s.hcfg HCK_CTRL.WTR)
  else s

/-- EXCESS of an entry (R77). -/
def State.tickExcess (s : State) (hard : Nat) (v : List Member) (e : Nat) : State :=
  match v.find? (fun m => m.1 == e) with
  | some m => if outvoted hard v m then s.incF (HCK_ENT.EXCESS e) 1 else s.setF (HCK_ENT.EXCESS e) 0
  | none => s.setF (HCK_ENT.EXCESS e) 0

/-- The XO history's excess; outvoted at VALID_WIN consecutive ticks, it becomes invalid (R77, R79). -/
def State.tickXo (s : State) (hard : Nat) (v : List Member) : State :=
  match v.find? (fun m => m.1 == 8) with
  | some m =>
    let n := if outvoted hard v m then s.hck.xoExcess + 1 else 0
    let s := { s with hck.xoExcess := n }
    if s.hcfg HCK_TIMING.VALID_WIN ≤ n then { s.setF HCK_STATUS.XO_HIST 0 with hck.xoExcess := 0, hck.lockedFor := 0 } else s
  | none => { s with hck.xoExcess := 0 }

/-- DISPUTE and its event (R78). -/
def State.tickDispute (s : State) (hard : Nat) (v : List Member) : State :=
  let m := (disputed hard v).foldl (fun a e => a + 2 ^ e) 0
  if (m != 0) = s.flag HCK_STATUS.DISPUTE then s
  else ((s.setFlag HCK_STATUS.DISPUTE (m != 0)).putBit HCK_EVT.BITS 4 true).emit hckSrc 0x0106 m (b2n (m != 0)) 0

/-- A loop steers the DCO to the active entry (R81). -/
def State.steers (s : State) : Bool :=
  s.getF HCK_STATUS.STATE = 1 || (s.getF HCK_STATUS.STATE = 2 && !s.flag HCK_STATUS.SWLOOP)

/-- The DCO offset at a tick, within the limit on its change (R84). The loop's own value is not stated while it steers: a free
value, which a pull-in keeps near the pre-switch frequency (R83). Otherwise it goes to its goal (R81, R85, R86). -/
def State.tickDco (s : State) : State :=
  let old := s.getS HCK_DCO.OFFSET
  let lim := s.pslStep
  let s := if s.steers then
      let v := within lim old (toSigned 40 s.free)
      let v := if s.clk.cycles ≤ s.hck.pullUntil then within lim s.hck.pullFrom v else v
      (s.setS HCK_DCO.OFFSET v).drew
    else { s.setS HCK_DCO.OFFSET (within lim old s.hck.goal) with hck.goal := s.hck.goal - s.hck.aging }
  if s.hck.everLocked then { s with hck.history := (s.getS HCK_DCO.OFFSET :: s.hck.history).take 16384 } else s

/-- The model of the XO is fitted (R79). How it is fitted is not stated: free values. -/
def State.fitXo (s : State) : State :=
  let a := s.drew
  { a.drew with hck.xoOffset := toSigned 64 s.free, hck.xoAging := toSigned 64 a.free, hck.xoFitAt := s.hck.ticks }

/-- What the model of the XO predicts for a tick, in 10^-12 (R79). -/
def State.xoPredicted (s : State) : Int :=
  fdiv (s.hck.xoOffset + s.hck.xoAging * ((s.hck.ticks : Int) - s.hck.xoFitAt)) 1000

/-- The XO history at a tick (R79): LOCKED time in a row with the loop closed; a valid model is fitted anew while a loop
steers, and only predicts otherwise. -/
def State.tickModel (s : State) : State :=
  let n := if s.getF HCK_STATUS.STATE = 2 && !s.flag HCK_CTRL.OPEN then s.hck.lockedFor + 1 else 0
  let s := { s with hck.lockedFor := n }
  if s.flag HCK_STATUS.XO_HIST && s.steers then s.fitXo else s

/-- PPSx_EN and PPSx_OK. -/
def ppsEnF (i : Nat) : Fld := if i = 0 then HCK_CTRL.PPSA_EN else HCK_CTRL.PPSB_EN
def ppsOkF (i : Nat) : Fld := if i = 0 then HCK_STATUS.PPSA_OK else HCK_STATUS.PPSB_OK

/-- What a configuration that comes into force takes away: a PPS input that is not enabled has no edges, and a REF input whose
frequency code is 0b11 is never present (R71). -/
def State.unusedInputs (s : State) : State :=
  let s := s.each [0, 1] (fun s i =>
    if s.hcfg (ppsEnF i) = 0 then { s.setF (ppsOkF i) 0 with hck.ppsLast := s.hck.ppsLast.set i none } else s)
  let off := b2n (s.hcfg HCK_CTRL.REFA_FREQ = 3) + 2 * b2n (s.hcfg HCK_CTRL.REFB_FREQ = 3)
  { s with hck.present := s.hck.present &&& ~~~(BitVec.ofNat 2 off) }

/-- The configuration written comes into force after the selection; a change of the active entry acts as its loss (R89). -/
def State.tickConfig (s : State) (ps : Int) : State :=
  let a := s.getF HCK_STATUS.ACTIVE
  let w := s.entWord a
  let s := s.hckApply.unusedInputs.entSignals.takeBw
  if s.flag HCK_STATUS.ACT_VALID && decide (s.entWord a ≠ w) then (s.setEntState a (if s.entOff a then 0 else 1)).hckSelect true false ps
  else s

/-- A measurement tick: the entries, the history and the dispute are judged, then the selection and the configuration. -/
def State.measure (s : State) (y : List (Option Int)) (phasePs : Int) : State :=
  let s := ({ s with hck.ticks := s.hck.ticks + 1 } : State).showHckSt.entSignals
  let v := s.voteSet y s.xoPredicted
  let hard := max (2 * s.hcfg HCK_THRESH.SOFT) (s.hcfg HCK_THRESH.HARD)
  let s := s.tickDco.tickModel
  let s := s.each (List.range 8) (fun s e => s.tickEntry v y e)
  let s := s.each (List.range 8) (fun s e => s.tickExcess hard v e)
  let s := (s.tickXo hard v).tickDispute hard v
  let s := s.hckSelect (!s.activeGood) false phasePs
  s.tickConfig phasePs

/-- MEASUREMENT_TICK (R73 to R79, R83 to R86, R89): `y` the frequency measured per entry in 10^-12, `phasePs` the phase a
switch would measure. -/
def execMeasurementTick (y : List (Option Int)) (phasePs : Int) (s : State) : Res :=
  done (((s.lapse .second secCycles).startTimer .second).measure y phasePs)

/-- An entry is disqualified (R77) and with that in WTR (R74): it shows DISQUALIFIED until the next tick (DESIGN CHOICE, log 33),
while its count already runs. -/
def State.disqualify (s : State) (e : Nat) (phasePs : Int) : State :=
  let s := (s.setEntState e 5).setF (HCK_ENT.WTR_LEFT e) (s.hcfg HCK_CTRL.WTR)
  let s := (s.putBit HCK_EVT.BITS 3 true).emit hckSrc 0x0104 (ofSigned 64 (s.getS (HCK_ENT.DEV e))) e 1
  if s.activeGood then s else s.hckSelect false true phasePs

/-- ENTRY_DISQUALIFIED (R77): outvoted at VALID_WIN consecutive ticks, and no DISPUTE. -/
def execEntryDisqualified (entry : Fin 8) (phasePs : Int) (s : State) : Res :=
  let e := entry.val
  done (s.whenever (s.entUsable e && !s.flag HCK_STATUS.DISPUTE && decide (s.hcfg HCK_TIMING.VALID_WIN ≤ s.getF (HCK_ENT.EXCESS e)))
    (fun s => s.disqualify e phasePs))

/-- The wait of an entry in WTR has run out, and a tick has passed since it entered (R74). -/
def State.wtrOver (s : State) (e : Nat) : Bool :=
  s.entState e = 2 && s.getF (HCK_ENT.WTR_LEFT e) = 0 && !s.hck.wtrNew.contains e

/-- WTR_EXPIRY (R74). -/
def execWtrExpiry (entry : Fin 8) (s : State) : Res :=
  done (s.whenever (s.wtrOver entry.val) (fun s =>
    ((s.setEntState entry.val (if s.getF (HCK_ENT.DEV entry.val) = 0x80000000 then 6 else 3)).setF
      (HCK_ENT.WTR_LEFT entry.val) 0).emit hckSrc 0x0105 0 entry.val 0))

/-- The XO history may become valid: 3,600 s of continuous LOCKED operation with the loop closed (R79). -/
def State.xoDue (s : State) : Bool :=
  s.getF HCK_STATUS.STATE = 2 && !s.flag HCK_CTRL.OPEN && decide (3600 ≤ s.hck.lockedFor)

/-- XO_HISTORY_VALID (R79). -/
def execXoHistoryValid (s : State) : Res :=
  done (s.whenever s.xoDue (fun s => { (s.setF HCK_STATUS.XO_HIST 1).fitXo with hck.xoExcess := 0 }))

/-- REF_ABSENT (R71): loss of signal of the input's entries. -/
def execRefAbsent (input : Fin 2) (phasePs : Int) (s : State) : Res :=
  done (({ s with hck.present := s.hck.present &&& ~~~(BitVec.ofNat 2 (2 ^ input.val)) } : State).hckSignals phasePs)

/-- REF_PRESENT (R71): the input's entries enter WTR. An input whose frequency code is 0b11 is never present. -/
def execRefPresent (input : Fin 2) (s : State) : Res :=
  let code := if input.val = 0 then s.hcfg HCK_CTRL.REFA_FREQ else s.hcfg HCK_CTRL.REFB_FREQ
  done (s.whenever (code != 3) (fun s =>
    ({ s with hck.present := s.hck.present ||| BitVec.ofNat 2 (2 ^ input.val) } : State).entSignals))

/-- The lock criterion of R80, for the greatest phase error of the last 10 time constants at the set bandwidth. -/
def State.lockCriterion (s : State) (maxPs : Nat) : Bool :=
  s.getF HCK_STATUS.STATE = 1 && decide (maxPs ≤ s.hcfg HCK_TIMING.LOCK_PS) &&
    decide (s.hck.closedAt + tenTimeConstants s.activeBw.1 ≤ s.clk.cycles)

/-- LOCK_ACQUIRED (R80): `maxPs` the greatest phase error, in ps, of the last 10 time constants. -/
def execLockAcquired (maxPs : Nat) (s : State) : Res := done (s.whenever (s.lockCriterion maxPs) (fun s => s.hckState 2))

/-- HOLDOVER_TO_LOST (R81). -/
def execHoldoverToLost (s : State) : Res :=
  done (s.whenever (s.getF HCK_STATUS.STATE = 3 && s.hcfg HCK_HOLD.HOLD_MAX != 0) (fun s =>
    (s.lapse .holdover (secCycles * s.hcfg HCK_HOLD.HOLD_MAX)).hckState 4))

/-- PPS_OFS of an input. -/
def ppsOfsF (i : Nat) : Fld := if i = 0 then TIM_PPS_OFS.PPSA else TIM_PPS_OFS.PPSB

/-- A TAI clock value less the nearest TAI second, in 0.25 ns (R108). -/
def nearSecond (t : Nat) : Int :=
  let r := t % (65536 * 1000000000)
  let d : Int := if 65536 * 1000000000 ≤ 2 * r then (r : Int) - 65536 * 1000000000 else r
  fdiv d 16384

/-- The edges of a PPS input lie one second apart, within 1 µs. -/
def State.ppsGood (s : State) (i : Nat) : Bool :=
  match s.hck.ppsLast.getD i none with
  | some c => decide (c + 250000000 ≤ s.clk.cycles + 250) && decide (s.clk.cycles ≤ c + 250000250)
  | none => false

/-- An edge of a PPS input. -/
def State.ppsEdge (s : State) (i : Nat) : State :=
  let ok := s.ppsGood i
  let s := (s.setFlag (ppsOkF i) ok).setS (ppsOfsF i) (nearSecond s.taiNow)
  ({ s with hck.ppsLast := s.hck.ppsLast.set i (some s.clk.cycles) } : State).pulse (52 + i)

/-- PPS_EDGE (R71). -/
def execPpsEdge (input : Fin 2) (s : State) : Res :=
  done (s.whenever (s.hcfg (ppsEnF input.val) = 1) (fun s => s.ppsEdge input.val))

/-- PPS_MISSING (R71): no effect on the paired REF input. -/
def execPpsMissing (input : Fin 2) (s : State) : Res :=
  done (s.whenever (s.hcfg (ppsEnF input.val) = 1) (fun s =>
    let s := { s.setF (ppsOkF input.val) 0 with hck.ppsLast := s.hck.ppsLast.set input.val none }
    (s.putBit HCK_EVT.BITS 6 true).emit hckSrc 0x0108 input.val 0 0))

/-- The loop is opened (R86). -/
def State.loopOpen (s : State) : State :=
  (s.whenever (!s.flag HCK_CTRL.OPEN) (fun s =>
    let s := ((s.setF HCK_CTRL.OPEN 1).setF HCK_FOW.FOW (s.getF HCK_DCO.OFFSET)).setF HCK_STATUS.SWLOOP 1
    let s := (s.setF HCK_STATUS.XO_HIST 0).setF HCK_STATUS.ACT_VALID 0
    ({ s with hck.xoExcess := 0, hck.goal := s.getS HCK_DCO.OFFSET, hck.aging := 0 } : State).hckState 2))

/-- SOFTWARE_LOOP_OPEN (R86): a write of 1 to HCK_CTRL.OPEN. -/
def execSoftwareLoopOpen (s : State) : Res := done s.loopOpen

/-- The loop is closed at a phase of the entry selected (R86). -/
def State.loopClose (s : State) (phasePs : Int) : State :=
  (s.whenever (s.flag HCK_CTRL.OPEN) (fun s =>
    let s := (s.setF HCK_CTRL.OPEN 0).setF HCK_STATUS.SWLOOP 0
    match s.bestEntry with
    | some e => (s.hckSwitch e 3 phasePs).hckState 1
    | none => s.hckState 3))

/-- SOFTWARE_LOOP_CLOSE (R86): a write of 0 to HCK_CTRL.OPEN. -/
def execSoftwareLoopClose (phasePs : Int) (s : State) : Res := done (s.loopClose phasePs)

/-- HCK_FOW is written (R86, R89): the value is limited to ±100,000,000,000. -/
def State.fowSet (s : State) (fow : Nat) : State :=
  let v := max (-100000000000) (min 100000000000 (toSigned 40 fow))
  let s := s.setS HCK_FOW.FOW v
  (s.whenever (s.flag HCK_CTRL.OPEN) (fun s => (({ s with hck.goal := v } : State).startTimer .fow).goAtOnce.hckState 2))

/-- FOW_WRITE (R86, R89). -/
def execFowWrite (fow : BitVec 40) (s : State) : Res := done (s.fowSet fow.toNat)

/-- SWDOG_EXPIRY (R86): the DCO stays at the last written value. -/
def execSwdogExpiry (s : State) : Res :=
  done (s.whenever (s.flag HCK_CTRL.OPEN && s.getF HCK_STATUS.STATE = 2) (fun s =>
    (s.lapse .fow (secCycles * s.hcfg HCK_HOLD.SWDOG)).hckState 3))

end Sys2Proof.Machine
end

