-- ==== Sys2Proof/Machine/Reset.lean ====
section
/-!
DEFINITION. Meanings of the resets and of the link events that act as one (18_power_reset_and_states.md, R387, R388;
02_host_interface_and_rings.md, R27, R30, R40).
-/

namespace Sys2Proof.Machine

/-- What PORST_N leaves (R388): everything is cleared; fuses, journal and flash stay, and what lies outside the block. The store's
contents are undefined (log 8). The straps are read on release. -/
def State.powerOn (s : State) (bootSel i2cAddr : Nat) : State :=
  let r := State.reset
  { r with
    pending := s.pending, freeCount := s.freeCount, sent := s.sent,
    host := { r.host with hostMem := s.host.hostMem, lastRead := s.host.lastRead },
    matrix := { r.matrix with mem := s.mfgMem },
    ctl := { s.ctl with push := [], fwDigest := [0, 0], update := none, jpend := [], jtagHeld := false },
    pwr := { r.pwr with pinBoot := bootSel, pinI2c := i2cAddr } }

/-- PORST_N (R82, R117, R357, R388): on release the house DPLL runs, the ports hunt and boot starts. -/
def execPorstN (bootSel i2cAddr : Fin 4) (s : State) : Res :=
  done ((s.powerOn bootSel.val i2cAddr.val).showHckSt.startPorts.startBoot 0)

/-- Fields that WRST_N keeps: RWS fields, CTL_BOOT, CTL_SEC, CTL_ID, the capabilities but FW_VERSION, the state of the link,
HST_CTX_MISS, and every block but CTL, HST and FLT (R376, R388). -/
def wrstKeeps (k : Nat) : Bool :=
  let off := k / 64
  if off < 0x100000 then
    off == 0x0 || off == 0x18 || off == 0x20 || off == 0x28 || (off == 0x100 || off == 0x108 || off == 0x110) ||
      (off == 0x118 && k != CTL_CAP3.FW_VERSION.key)
  else if 0xB00000 ≤ off && off < 0xC00000 then
    off == 0xB00040 || k == HST_STATUS.LINK_WIDTH.key || k == HST_STATUS.LINK_RATE.key || k == HST_STATUS.FLIT256.key ||
      k == HST_STATUS.IDE_ON.key || k == HST_STATUS.MEM_ON.key
  else if 0xD00000 ≤ off && off < 0xE00000 then
    off == 0xD00028 || off == 0xD00030 || k == FLT_CTRL.FFL_MIN.key
  else true

/-- The warm reset (R388). Iron ends as steps 2 to 4 of R323. Software cue levels are cleared (R303). -/
def State.warmReset (s : State) : State :=
  let s := if s.iron then s.ironOver else s
  let levels := (List.range 64).filter (fun c => s.cue.swLevel.toNat.testBit c)
  let s := { s with cue.swLevel := 0 }
  let t := s.clk.cycles
  let s := s.each levels (fun s c => s.pushEdge c (s.levelOf c) t t 0 t)
  let s := s.disable.each (.bootEngine :: .hostBridge :: .moverDma :: (List.range 4).map (fun k => .core (Fin.ofNat 4 k)))
    State.matrixReset
  let s := { s with
    regs := s.regs.filter (fun e => wrstKeeps e.1),
    flt.c4 := [], flt.pendReact := [], flt.react := none, flt.preempted := [],
    host.sessionKey := none, ctl.fwDigest := [0, 0] }
  s.startBoot 1

/-- WRST_N (R14, R387, R388): low for at least 64 samples; ignored in DARK. -/
def execWrstN (lowSamples : Nat) (s : State) : Res :=
  done (s.whenever (decide (64 ≤ lowSamples) && s.power != 3) State.warmReset)

/-- A conventional reset (R388): the configuration, the snoop filter, viral and the link. -/
def State.conventionalReset (s : State) : State :=
  let s := s.resetConfig
  let s := { s with host.snoop := [], host.viral := false, host.ideKeys := false, pwr.trained := false }
  let s := ((s.setF HST_STATUS.LINK_WIDTH 0).setF HST_STATUS.LINK_RATE 0).setF HST_STATUS.FLIT256 0
  (s.setF HST_STATUS.IDE_ON 0).setF HST_STATUS.MEM_ON 0

/-- CXL_CONVENTIONAL_RESET (R385, R388): PERST#. In DARK its release wakes the device. -/
def execCxlConventionalReset (s : State) : Res := done (if s.power = 3 then s.wake else s.conventionalReset)

/-- CXL_HOT_RESET (R388). -/
def execCxlHotReset (s : State) : Res :=
  done (({ s.resetConfig with host.ideKeys := false } : State).setF HST_STATUS.IDE_ON 0)

/-- FUNCTION_LEVEL_RESET (R388). -/
def execFunctionLevelReset (s : State) : Res := done s.resetConfig

/-- SURPRISE_REMOVAL (R27): as after ENABLE is cleared. -/
def execSurpriseRemoval (s : State) : Res := done s.disable

/-- VIRAL (R30): no writes to host memory, poison on every HDM read, until the next conventional reset. -/
def execViral (s : State) : Res := done { s with host.viral := true }

end Sys2Proof.Machine
end

