-- ==== Sys2Proof/Machine/RegWrite.lean ====
section
/-!
DEFINITION. A write of a BAR0 register (R6 to R8, R32): what it stores, and what the registers that act do
(04_house_clock.md R86, R89; 05_sample_index_and_time.md R94, R106; 06_ingest_ports.md R111, R117; 14_cue_matrix.md R301 to
R304; 15_faults_and_iron.md R316 to R323; 17_control_plane_and_security.md R352, R360; 18_power_reset_and_states.md R389, R395;
02_host_interface_and_rings.md R40; 03_scripts_and_consistency.md R69).
-/

namespace Sys2Proof.Machine

/-- A register write, by bits of the 64-bit register: the bits it covers, the bits it brings (0 where it covers none), and the
bits that an event of the same cycle sets. -/
structure RegWr where
  cover : Nat
  bits : Nat
  same : Nat
  deriving DecidableEq, Repr

/-- The part of a write that a field gets. -/
def RegWr.of (w : RegWr) (f : Fld) : Nat := bitsOf w.bits f.lo f.w

/-- The write covers some bit of a field. -/
def RegWr.hits (w : RegWr) (f : Fld) : Bool := bitsOf w.cover f.lo f.w != 0

/-- Clear in `v` the bits of `m`. -/
def clearBits (v m : Nat) : Nat := v - (v &&& m)

/-- A field that its register's own rule stores: it acts when it is written, or a write that the rule ignores does not set it
(CTL_PUSH.GO, SCP_RC_QUERY.GO, PWR_EMERG.HOLD_NOW and PWR_BLKRST set their bit where they are taken). -/
def actsItself (f : Fld) : Bool :=
  f = CTL_PUSH.GO || f = SCP_RC_QUERY.GO || f = PWR_EMERG.HOLD_NOW || f = PWR_BLKRST.BITS || f = HCK_CTRL.OPEN ||
    f = FLT_CTRL.SERVICE || f = HST_CTRL.ENABLE || f = CUE_CHDIS.MAP || f = CUE_FDIS.MAP || f = SCP_RC_CTRL.ATTN

/-- Bits [14:11] of each of the four entries of a HCK_PRIO register are reserved (R7, R89). -/
def prioReserved (f : Fld) (v : Nat) : Nat :=
  if f.off = 0x100008 || f.off = 0x100010 then v % 2 ^ 11 + 2 ^ 15 * (v / 2 ^ 15 % 2) else v

/-- Store a write in one field per its access code (R6, R8). -/
def State.storeField (s : State) (w : RegWr) (f : Fld) : State :=
  let old := s.getF f
  let c := bitsOf w.cover f.lo f.w
  if actsItself f then s
  else match f.acc with
    | .rw | .rws => if c = 0 then s else s.setF f (prioReserved f (clearBits old c ||| w.of f))
    | .w1c => s.setF f (clearBits old (w.of f) ||| bitsOf w.same f.lo f.w)
    | .w1s => s.setF f (old ||| w.of f)
    | .ro | .wo | .rc => s

/-- Replace an out-of-range value by the nearer end of its range. -/
def State.clampF (s : State) (f : Fld) (lo hi : Nat) : State := s.setF f (max lo (min hi (s.getF f)))

/-- The ranges of HCK_ (R80, R89). -/
def State.hckClamp (s : State) (base : Nat) : State :=
  if base = 0x100018 then (s.clampF HCK_BW0.BW_REF 1000 100000000).clampF HCK_BW0.BW_LINK 100000 1000000000
  else if base = 0x100020 then (s.clampF HCK_BW1.BW_FAB 10000 100000000).clampF HCK_BW1.BW_PTP 100 1000000
  else if base = 0x100028 then
    let s := s.clampF HCK_THRESH.SOFT 1 10000000
    s.clampF HCK_THRESH.HARD (2 * s.getF HCK_THRESH.SOFT) 20000000
  else if base = 0x100030 then
    ((s.clampF HCK_TIMING.VALID_WIN 1 3600).clampF HCK_TIMING.HOLD_AVG 10 10000).clampF HCK_TIMING.LOCK_PS 10 50000
  else if base = 0x100038 then s.clampF HCK_HOLD.SWDOG 1 65535
  else s

/-- HCK_ registers that act (R86). How far the loop's phase lies from the entry it goes to is outside the block's state: a free
value. -/
def State.writeHck (s : State) (base : Nat) (w : RegWr) : State :=
  if base = 0x100000 then
    if !w.hits HCK_CTRL.OPEN then s
    else if w.of HCK_CTRL.OPEN = 1 then s.loopOpen
    else if s.flag HCK_CTRL.OPEN then s.drew.loopClose (toSigned 32 s.free)
    else s
  else if base = 0x100040 then s.fowSet (s.getF HCK_FOW.FOW)
  else s.hckClamp base

/-- Replace an out-of-range signed value by the nearer end of its range. -/
def State.clampS (s : State) (f : Fld) (lo hi : Int) : State := s.setS f (max lo (min hi (s.getS f)))

/-- The ranges of TIM_ (R108). -/
def State.timClamp (s : State) (base : Nat) : State :=
  let dom (s : State) (num wait rate : Fld) : State := ((s.clampF num 0 127).clampF wait 2 7).clampS rate (-7) 6
  if base = 0x200000 then s.clampF TIM_CTRL.SERVO_BW 1 10000
  else if base = 0x200010 then dom s TIM_DOM0.DOMAIN TIM_DOM0.ANN_TO TIM_DOM0.LOG_DREQ
  else if base = 0x200018 then dom s TIM_DOM1.DOMAIN TIM_DOM1.ANN_TO TIM_DOM1.LOG_DREQ
  else if base = 0x200030 then s.clampS TIM_PORT0_CAL.ASYM (-2000000000) 2000000000
  else if base = 0x200038 then s.clampS TIM_PORT1_CAL.ASYM (-2000000000) 2000000000
  else if base = 0x200040 then (s.clampF TIM_LIMITS.SLEW_PPB 1 1000).clampF TIM_LIMITS.STEP_LIM 100 1000000000
  else s

/-- TIM_ registers that act (R94, R103, R106). `old` is the state before the write. EPOCH_CLR has been acted on or discarded when
the command ends, and reads 0 again (log 31). -/
def State.writeTim (s old : State) (base : Nat) (w : RegWr) : State :=
  let s := s.timClamp base
  if base = 0x200000 then (if w.of TIM_CTRL.EPOCH_CLR = 1 then s.epochClear else s).refreshDomains.setF TIM_CTRL.EPOCH_CLR 0
  else if base = 0x200010 || base = 0x200018 then s.refreshDomains
  else
    let u := (base - 0x200100) / 0x20
    if base = (TIM_CMP_CTRL.ARM u).off && !old.flag (TIM_CMP_CTRL.ARM u) && s.flag (TIM_CMP_CTRL.ARM u) then s.cmpArm u else s

/-- A compare unit that is armed takes no new target or period (R106). -/
def State.cmpHolds (s : State) (base : Nat) : Bool :=
  let u := (base - 0x200100) / 0x20
  decide (0x200100 ≤ base) && decide (base < 0x200200) && s.flag (TIM_CMP_CTRL.ARM u) && base != (TIM_CMP_CTRL.ARM u).off

/-- Transmit taps (R111). -/
def State.txClamp (s : State) (pre post amp : Fld) : State :=
  let s := (s.clampF pre 0 10).clampF amp 0 10
  s.clampF post 0 (20 - s.getF pre)

/-- New taps wait for the next comma word the lane sends (R111). How far it is, within a comma period of 13,108 house cycles, is not
stated: a free value. -/
def State.tapsWait (s : State) (p l : Nat) : State :=
  let due := s.clk.cycles + 1 + s.free % 13108
  { s.drew with ing.tapsDue := s.ing.tapsDue.filter (fun e => e.1 != 4 * p + l) ++ [(4 * p + l, due)] }

/-- ADAPT_FREEZE of a port has been written: what the receivers have come to holds from then on (R112). -/
def State.freezeRx (s old : State) (p : Nat) : State :=
  if s.flag (portFreezeF p) && !old.flag (portFreezeF p) then s.each (List.range 4) (fun s l => s.adapt p l) else s

/-- ING_ registers that act (R111, R112, R117). -/
def State.writeIng (s old : State) (base : Nat) : State :=
  let p := (base - 0x310000) / 0x1000
  let l := (base % 0x1000 - 0x100) / 0x100
  if base = (ING_P_CTRL.EN p).off then
    ((if s.getF (ING_P_CTRL.MODE p) = old.getF (ING_P_CTRL.MODE p) then s else s.portModeChanged p).portRefresh p).freezeRx old p
  else if base = (ING_P_L_TXEQ.PRE p l).off then
    (s.txClamp (ING_P_L_TXEQ.PRE p l) (ING_P_L_TXEQ.POST p l) (ING_P_L_TXEQ.AMP p l)).tapsWait p l
  else s

/-- FAB_ registers that act (R111, R112, R117, R276). -/
def State.writeFab (s old : State) (base : Nat) : State :=
  let p := (base - 0xA10000) / 0x1000
  let l := (base % 0x1000 - 0x100) / 0x100
  if base = (FAB_P_CTRL.EN p).off then (s.portRefresh (24 + p)).freezeRx old (24 + p)
  else if base = (FAB_P_L_TXEQ.PRE p l).off then
    (s.txClamp (FAB_P_L_TXEQ.PRE p l) (FAB_P_L_TXEQ.POST p l) (FAB_P_L_TXEQ.AMP p l)).tapsWait (24 + p) l
  else s

/-- A bit of PIT_Cn_FLAGS written 1 clears its flag in every lane of both banks (R158). -/
def State.writePit (s : State) (base : Nat) (w : RegWr) : State :=
  let c := (base - 0x410000) / 0x40
  let f := PIT_C_FLAGS.BITS c
  if base = f.off then
    let x := s.cluster c
    let m := clearBits 31 (w.of f)
    let keep (e : Nat × BitVec 5) : Nat × BitVec 5 := (e.1, e.2 &&& BitVec.ofNat 5 m)
    s.setCluster c { x with
      sticky := (x.sticky.map keep).filter (fun e => e.2 != 0), ill := x.ill && !(w.of f).testBit 5 }
  else s

/-- CUE_ registers that act (R301, R302, R304). -/
def State.writeCue (s : State) (base : Nat) (w : RegWr) : State :=
  if base = 0xC00018 then
    if !w.hits CUE_FIRE.CHANNEL then s
    else
      let c := w.of CUE_FIRE.CHANNEL
      let k := w.of CUE_FIRE.KIND
      if k = 0 then s.cueFire c (fun s => s.pulseOn none c)
      else if k = 1 then s.cueFire c (fun s => s.softLevel c true)
      else if k = 2 then s.cueFire c (fun s => s.softLevel c false)
      else s
  else if base = 0xC00008 then
    let s := s.each ((List.range 64).filter (fun c => w.bits.testBit c && s.bit CUE_CHDIS.MAP c)) (fun s c => s.chanEnable c)
    s.setF CUE_CHDIS.MAP (s.getF CUE_CHDIS.MAP ||| bitsOf w.same 0 64)
  else if base = 0xC00030 then
    let s := s.each ((List.range 40).filter (fun k => w.bits.testBit k)) State.filtEnable
    s.setF CUE_FDIS.MAP (s.getF CUE_FDIS.MAP ||| bitsOf w.same 0 40)
  else s

/-- FLT_ registers that act (R313, R316 to R319, R323). IRON_REQ and EXIT have been acted on when the command ends, and read 0 again
(log 31). The self-test of an iron exit is outside the block: its outcome is a
free value. -/
def State.writeFlt (s : State) (base : Nat) (w : RegWr) : State :=
  if base = 0xD00000 then
    let s := if !w.hits FLT_CTRL.SERVICE then s
      else if w.of FLT_CTRL.SERVICE = 1 then
        s.whenever (!s.inService && !s.ctl.jtagHeld) (fun s => s.enterService 0 (s.flt.pair.filter (fun q => q.2 != 1)))
      else s.leaveService 0
    let s := if w.of FLT_CTRL.IRON_REQ = 1 then s.raise 0x000 0x000A 4 false else s
    let s := if w.of FLT_CTRL.EXIT = 1 then s.drew.ironExit (s.free % 2 == 1) else s
    (s.setF FLT_CTRL.IRON_REQ 0).setF FLT_CTRL.EXIT 0
  else if base = 0xD00020 && w.hits FLT_ACK.SRC then s.ackReact (w.of FLT_ACK.SRC)
  else s

/-- PWR_ registers that act (R388, R389, R395). -/
def State.writePwr (s old : State) (base : Nat) (w : RegWr) : State :=
  if base = 0xF00008 then
    let b := w.of PWR_BLKRST.BITS
    let go (s : State) (i : Nat) (f : State → State) : State := if b.testBit i then s.blockReset i f else s
    go (go (go (go (go s 0 State.resetPit) 1 State.resetMov) 2 State.resetStg) 3 State.resetCue) 4 State.resetHst
  else if base = 0xF00010 then
    let s := if w.of PWR_EMERG.HOLD_NOW = 1 then s.holdNow else s
    if s.flag PWR_EMERG.CLK_MIN && !old.flag PWR_EMERG.CLK_MIN then s.clkMin else s
  else s

/-- SCP_ registers that act (R68, R69). -/
def State.writeScp (s : State) (base : Nat) (w : RegWr) : State :=
  if base = 0x1000060 then
    if w.same.testBit 12 then s.setAttn else if w.of SCP_RC_CTRL.ATTN = 1 then s.clearAttn else s
  else if base = 0x1000068 && w.of SCP_RC_QUERY.GO = 1 then s.rollGo (s.getF SCP_RC_QUERY.CODE)
  else s

/-- HST_ registers that act (R40). -/
def State.writeHst (s : State) (base : Nat) (w : RegWr) : State :=
  if base = 0xB00000 && w.hits HST_CTRL.ENABLE then
    if w.of HST_CTRL.ENABLE = 1 then s.enable
    else if s.flag HST_CTRL.ENABLE then s.disable else s
  else s

/-- What a written register does. `old` is the state before the write. -/
def State.actOn (s old : State) (base : Nat) (w : RegWr) : State :=
  let b := base / 0x100000
  if base = 0x50 then (if w.of CTL_PUSH.GO = 1 then s.pushGo else s)
  else if b = 0x1 then s.writeHck base w
  else if b = 0x2 then s.writeTim old base w
  else if b = 0x3 then s.writeIng old base
  else if b = 0x4 then s.writePit base w
  else if b = 0xA then s.writeFab old base
  else if b = 0xB then s.writeHst base w
  else if b = 0xC then s.writeCue base w
  else if b = 0xD then s.writeFlt base w
  else if b = 0xF then s.writePwr old base w
  else if b = 0x10 then s.writeScp base w
  else s

/-- A write of CTL_PUSH_WIN: discarded while BUSY, or after READY (R360, R376). -/
def State.writeWindow (s : State) (base : Nat) (w : RegWr) : State :=
  if s.flag CTL_PUSH.BUSY || s.flag HST_STATUS.READY then s
  else
    let f := CTL_PUSH_WIN.DATA ((base - 0x80000) / 8)
    s.setF f (clearBits (s.getF f) w.cover ||| w.bits)

/-- Replace the covered bits of an MSI-X table entry. Unmasking a vector whose bit is pending sends its message (R47; PRESUMED, log 15:
as PCIe lays down). -/
def State.writeMsix (s : State) (base : Nat) (w : RegWr) : State :=
  let v := (base - msixBase) / 16
  let old := (Tbl.get s.host.msix msixMasked v).toNat
  let sh := 2 ^ (8 * (base % 16))
  let new := (clearBits old (w.cover * sh) ||| w.bits * sh) % 2 ^ 97
  let s := { s with host.msix := Tbl.set s.host.msix msixMasked v (BitVec.ofNat 128 new) }
  if !new.testBit 96 && Tbl.get s.host.msixPba false v then
    ({ s with host.msixPba := Tbl.set s.host.msixPba false v false } : State).raiseVector v
  else s

/-- A BAR0 write (R6 to R8, R32, R40, R352). A host write to HST_ before READY is not taken. -/
def State.writeReg (s : State) (off size val same : Nat) : State :=
  if !accessOk off size then s.badAccess
  else
    let base := off / 8 * 8
    let k := 8 * (off % 8)
    let w : RegWr := ⟨(2 ^ (8 * size) - 1) * 2 ^ k, val % 2 ^ (8 * size) * 2 ^ k, same⟩
    if inMsixTable base then s.writeMsix base w
    else if base = 0x8 then s.badAccess
    else if base / 0x100000 = 0xB && !s.flag HST_STATUS.READY then s
    else if decide (0xB00010 ≤ base) && decide (base ≤ 0xB00020) && s.flag HST_CTRL.ENABLE then s.badAccess
    else if decide (0x80000 ≤ base) && decide (base < 0x100000) then s.writeWindow base w
    else if s.cmpHolds base then s.setF (TIM_CMP_CTRL.WERR ((base - 0x200100) / 0x20)) 1
    else (s.each (fieldsAt base) (fun s f => s.storeField w f)).actOn s base w

end Sys2Proof.Machine
end

