-- ==== Sys2Proof/Machine/Ring.lean ====
section
/-!
DEFINITION. Meanings of the commands of the doorbells, rings and MSI-X vectors (02_host_interface_and_rings.md, R34 to R48).
-/

namespace Sys2Proof.Machine

/-- HOST_ENABLE (R40): a write of 1 to HST_CTRL.ENABLE. -/
def execHostEnable (s : State) : Res := done (s.whenever (s.flag HST_STATUS.READY && s.power != 3) State.enable)

/-- HOST_DISABLE (R40): a write of 0 to HST_CTRL.ENABLE. -/
def execHostDisable (s : State) : Res :=
  done (s.whenever (s.flag HST_STATUS.READY && s.flag HST_CTRL.ENABLE && s.power != 3) State.disable)

/-! ## Doorbells (R34, R35) -/

/-- A doorbell is discarded: its HST_ERR bit, the count and an event. -/
def State.dbDrop (s : State) (f : Fld) (r code v d1 : Nat) : State :=
  ((s.setF f 1).incF HST_DB_DROP.COUNT 1).hstEvent r code v d1

/-- The index of an accepted doorbell is taken; for a device-produced ring space may have returned. -/
def State.dbAccept (s : State) (r : Nat) (x : Ring) (pidx : Nat) : State :=
  if x.kind = 0 then s.setRing r (some { x with prod := pidx })
  else (s.setRing r (some { x with cons := pidx })).spaceBack r

/-- A doorbell of value `v` written at a BAR2 offset (R35). An uncorrectable context shows once the page is known to be valid, before
the index is compared with it (DESIGN CHOICE, log 9). -/
def State.doorbell (s : State) (off v : Nat) (ctxBad : Bool) : State :=
  let r := bitsOf v 0 18
  let pidx := bitsOf v 18 32
  let p := off / 4096
  if pageOfRing r ≠ p then s.dbDrop HST_ERR.DB_MISROUTE r 0x0B01 v off
  else match s.ring r with
    | none => s.dbDrop HST_ERR.DB_NORING r 0x0B02 v off
    | some x =>
      if !s.pageValid p then s.dbDrop HST_ERR.DB_MISROUTE r 0x0B01 v off
      else if s.ctxLost r ctxBad then (s.touchCtx r).ctxError r x
      else
        let s := s.touchCtx r
        let prev := if x.kind = 0 then x.prod else x.cons
        let dev := if x.kind = 0 then x.cons else x.prod
        let ahead := if x.kind = 0 then ofSigned 32 ((pidx : Int) - x.cons) else ofSigned 32 ((x.prod : Int) - pidx)
        if toSigned 32 (pidx + (2 ^ 32 - prev % 2 ^ 32)) < 0 then s.incF HST_DB_STALE.COUNT 1
        else if x.size < ahead then
          (s.setRing r (some { x with error := true })).dbDrop HST_ERR.DB_OVERRUN r 0x0B03 v dev
        else s.dbAccept r x pidx

/-- A write to BAR2 (R34, R35). -/
def State.ringDoorbell (s : State) (off size val : Nat) (ctxBad : Bool) : State :=
  if size != 8 || off % 8 != 0 then s.badAccess else s.doorbell off (val % 2 ^ 64) ctxBad

/-- DOORBELL (R34, R35): a write to BAR2. -/
def execDoorbell (off size val : Nat) (ctxBad : Bool) (s : State) : Res :=
  done (s.whenever (s.power != 3) (fun s => s.ringDoorbell off size val ctxBad))

/-! ## Fetch (R37, R38, R42, R418) -/

/-- The line of the next descriptor of a ring. -/
def Ring.descLine (x : Ring) : Nat := x.base + 64 * (x.cons % x.size)

/-- A ring's descriptors go through the device cache (R27, R40). -/
def State.cached (s : State) (x : Ring) : Bool := x.cache && s.flag HST_CTRL.CACHE_EN

/-- The set of a line in the device cache of 1 MiB, 64-byte lines and 16 ways (R27; which bits select it: DESIGN CHOICE, log 32). -/
def cacheSet (a : Nat) : Nat := a / 64 % 1024

/-- A descriptor read with RdShared enters the device cache; of 17 lines in a set the one used longest ago leaves (R27). -/
def State.cacheDesc (s : State) (x : Ring) (d : BitVec 512) : State :=
  if !s.cached x then s
  else
    let a := x.descLine
    let l : List CacheLine := s.host.devCache.filter (fun q => q.addr != a) ++ [⟨a, d, false⟩]
    let mine (q : CacheLine) : Bool := cacheSet q.addr == cacheSet a
    let l := if (l.filter mine).length ≤ 16 then l
      else match l.find? mine with | some q => l.erase q | none => l
    { s with host.devCache := l }

/-- The descriptor the device reads: from its cache where that holds the line, else what host memory gives (R27). -/
def State.descRead (s : State) (x : Ring) (d : BitVec 512) : BitVec 512 :=
  if s.cached x then ((s.host.devCache.find? (fun q => q.addr == x.descLine)).map (fun q => q.data)).getD d else d

/-- The completion ring of a command ring takes an entry (R46). One in ERROR holds nothing back: its entries vanish, and the
command ring goes on (DESIGN CHOICE, log 32). -/
def State.cplSpace (s : State) (x : Ring) : Bool :=
  match s.ring x.cplRing with
  | some c => !c.stuck && c.held.isEmpty
  | none => false

/-- A command ring starts its next descriptor. -/
def State.mayFetch (s : State) (r : Nat) (x : Ring) : Bool :=
  x.kind == 0 && x.exec.isNone && !x.error && x.prod != x.cons && s.cplSpace x && !s.dying r

/-- The next descriptor of ring `r`, whose context is `x`, is fetched and judged. -/
def State.fetch (s : State) (r : Nat) (x : Ring) (desc : BitVec 512) : State :=
  let p := pageOfRing r
  let d := s.descRead x desc
  let e : Exec := ⟨d, x.cons, s.pageAdmin p, s.pageSub p⟩
  let s := (s.touchCtx r).cacheDesc x d
  let s := s.setRing r (some { x with cons := (x.cons + 1) % 2 ^ 32, exec := some e })
  if !opcodes.contains e.op then s.finish r e stBadOpcode
  else if e.denied then s.finish r e stDenied
  else s

/-- COMMAND_FETCH (R37, R38, R42, R418). -/
def execCommandFetch (ring : Fin 262144) (desc : BitVec 512) (ctxBad : Bool) (s : State) : Res :=
  let r := ring.val
  done (match s.ring r with
    | none => s
    | some x =>
      s.whenever (s.mayFetch r x && s.power != 3) (fun s =>
        if s.ctxLost r ctxBad then (s.touchCtx r).ctxError r x else s.fetch r x desc))

/-! ## Ring commands (R41, R43, R44, R48) -/

/-- NOP (R41). -/
def execNop (ring : Fin 262144) (s : State) : Res :=
  withCmd s ring.val 0x00 (fun s e => s.finish ring.val e stOk)

/-- Rings that are pinned. -/
def State.pinnedRings (s : State) : Nat :=
  (s.host.rings.filter (fun p => match p.2 with | some x => x.pinned | none => false)).length

/-- The context RING_CREATE asks for. -/
def Exec.newRing (e : Exec) (pin : Bool) : Ring :=
  { Ring.fresh (e.arg 82 2) (e.arg 84 5) (e.arg 128 64) with
    cplRing := e.arg 192 18, vector := e.arg 224 11, irqEn := e.arg 235 1 == 1, modCount := e.arg 240 16,
    modTime := e.arg 256 16, subSel := e.arg 272 6, subAll := e.arg 278 1 == 1, minClass := e.arg 279 3,
    cache := e.arg 89 1 == 1, pinned := pin }

/-- An argument of RING_CREATE is out of range (R43). -/
def State.createBad (s : State) (e : Exec) : Bool :=
  let log2 := e.arg 84 5
  decide (log2 < 4) || decide (24 < log2) || e.arg 128 12 != 0 ||
    (e.arg 82 2 == 0 && (s.condemned (e.arg 192 18) ||
      !(match s.ring (e.arg 192 18) with | some c => c.kind == 1 | none => false))) ||
    (e.arg 89 1 == 1 && !s.flag HST_CTRL.CACHE_EN) || decide (4 < e.arg 279 3)

/-- RING_CREATE (R37, R39, R43, R418). SUB_ALL = 1 is allowed to a command of an ADMIN page; from another page it ends DENIED (DESIGN
CHOICE, log 32: R43 says neither whose page counts nor which status). -/
def execRingCreate (ring : Fin 262144) (s : State) : Res :=
  let r := ring.val
  withCmd s r 0x01 (fun s e =>
    let t := e.target
    let s := { s with scr.ctxPinned := s.newest.val Scr.HST_CTX_PINNED }
    if !e.mayName r t || (e.arg 278 1 == 1 && !e.admin) then s.finish r e stDenied
    else if (s.ring t).isSome then s.finish r e stExists
    else if s.createBad e then s.finish r e stBadArg
    else
      let want := e.arg 90 1 == 1
      let pin := want && decide (s.pinnedRings < s.scr.ctxPinned)
      let s := (s.setRing t (some (e.newRing pin))).cacheCtx t
      s.finish r e (if want && !pin then stUnpinned else stOk))

/-- A live command ring names completion ring `t` (R44). -/
def State.named (s : State) (t : Nat) : Bool :=
  (match s.ring t with | some y => y.kind == 1 | none => false) &&
    s.host.rings.any (fun p => match p.2 with | some x => x.kind == 0 && x.cplRing == t | none => false)

/-- RING_DESTROY (R37, R40, R44, R48): it waits while the ring it names executes another command or has a completion that is not
yet written, and takes effect when its own completion is written. -/
def execRingDestroy (ring : Fin 262144) (s : State) : Res :=
  let r := ring.val
  withCmd s r 0x02 (fun s e =>
    let t := e.target
    if t < 3 || !e.mayName r t then s.finish r e stDenied
    else match s.ring t with
      | none => s.finish r e stNoRing
      | some y =>
        if s.named t then s.finish r e stBusy
        else if t ≠ r && (y.exec.isSome || (y.kind = 0 && s.owesCompletion t y.cplRing)) then s
        else (s.dropResize t y).completeGone r e stOk 0 0 (some t))

/-- RING_RESIZE (R37, R40, R48). The order NO_RING before BAD_ARG, BAD_ARG for a bad size or base, that a resize that applies at once
writes no event 0x0B07, and that the count toward MOD_COUNT starts anew are DESIGN CHOICE (log 32). -/
def execRingResize (ring : Fin 262144) (s : State) : Res :=
  let r := ring.val
  withCmd s r 0x03 (fun s e =>
    let t := e.target
    let log2 := e.arg 84 5
    let base := e.arg 128 64
    if t < 3 || !e.mayName r t then s.finish r e stDenied
    else match s.ring t with
      | none => s.finish r e stNoRing
      | some y =>
        if log2 < 4 || 24 < log2 || base % 4096 ≠ 0 then s.finish r e stBadArg
        else
          let s := s.dropResize t y
          if y.empty then ((s.setRing t (some (y.moved log2 base))).spaceBack t).finish r e stOk
          else
            let s := s.setRing t (some { y with resize := some (log2, base) })
            (s.hstEvent t 0x0B06 base (log2 + t * 2 ^ 14)).finish r e stPending)

/-- What RING_QUERY returns (R44). -/
def Ring.query (x : Ring) : Nat :=
  (if x.kind = 0 then x.cons else x.prod) % 2 ^ 32 + 2 ^ 32 * (if x.error then 2 else if x.resize.isSome then 1 else 0) +
    2 ^ 36 * x.log2 + 2 ^ 41 * b2n x.pinned

/-- RING_QUERY (R44). -/
def execRingQuery (ring : Fin 262144) (s : State) : Res :=
  let r := ring.val
  withCmd s r 0x04 (fun s e =>
    match s.ring e.target with
    | none => s.finish r e stNoRing
    | some x => s.complete r e stOk x.query 0)

/-- RESIZE_APPLY (R48): a ring whose resize is pending has become empty. What it holds follows event 0x0B07. -/
def execResizeApply (ring : Fin 262144) (s : State) : Res :=
  let r := ring.val
  done (match s.ring r with
    | none => s
    | some x =>
      match x.resize with
      | none => s
      | some (log2, base) =>
        s.whenever (x.empty && s.power != 3) (fun s =>
          let s := s.setRing r (some { x.moved log2 base with settling := true })
          s.hstEvent r 0x0B07 base (log2 + r * 2 ^ 14)))

/-! ## Interrupts (R47) -/

/-- MSIX_MOD_TIMER (R47): MOD_TIME has passed since the first entry after the last message, and one of them is not yet
consumed. -/
def execMsixModTimer (ring : Fin 262144) (s : State) : Res :=
  let r := ring.val
  done (match s.ring r with
    | none => s
    | some x =>
      s.whenever (x.kind != 0 && x.irqEn && x.modTime != 0 && x.sinceMsg != 0 && x.used != 0) (fun s =>
        (s.lapse (.modTime r) (usCycles * x.modTime)).announceRing r x))

/-- MSIX_HOLDOFF_EXPIRY (R47): HST_MSIX_HOLDOFF has passed since the vector's last message, and the merged message is sent. -/
def execMsixHoldoffExpiry (vector : Fin 2048) (s : State) : Res :=
  let v := vector.val
  done (s.whenever (s.host.msixHeld.contains v) (fun s =>
    let s := s.runCycles (Tbl.get s.host.msixLast 0 v - 1 + cdiv (s.sv Scr.HST_MSIX_HOLDOFF) 4 - s.clk.cycles)
    ({ s with host.msixHeld := s.host.msixHeld.filter (fun q => q != v) } : State).sendMsix v))

end Sys2Proof.Machine
end

