-- ==== Sys2Proof/Machine/Host.lean ====
section
/-!
DEFINITION. Meanings of the host's register accesses, of its accesses to the store and of its snoops
(00_scope.md, R6 to R8; 02_host_interface_and_rings.md, R27 to R32).
-/

namespace Sys2Proof.Machine

/-- REGISTER_WRITE (R6, R7, R31, R32, R352): a write of a BAR. The registers of BAR4 are those of the CXL specification: what a write
of one changes is nothing that this spec names (log 34). -/
def execRegisterWrite (bar : Bar) (off size val same : Nat) (s : State) : Res :=
  done (s.whenever (s.power != 3) (fun s =>
    match bar with
    | .registers => s.writeReg off size val same
    | .doorbells => s.ringDoorbell off size val false
    | .component => s))

/-- REGISTER_READ_CLEAR (R6 to R8, R31, R32, R35): a read of a BAR. BAR2 is not for reading; what BAR4 holds is not stated: a free
value (log 34). -/
def execRegisterReadClear (bar : Bar) (off size same : Nat) (s : State) : Res :=
  done (s.whenever (s.power != 3) (fun s =>
    match bar with
    | .registers => s.readReg off size same
    | .doorbells => { s.badAccess with host.lastRead := 0 }
    | .component => { s.drew with host.lastRead := bitsOf s.free 0 (8 * size) }))

/-- Bytes of the HDM range (R28). -/
def hdmSize : Nat := 256 * 2 ^ 30

/-- The host can reach the store: CXL.mem is enabled, outside DARK (R27, R385). -/
def State.memOn (s : State) : Bool := s.flag HST_STATUS.MEM_ON && s.power != 3

/-- HDM_READ (R28, R30, R271). -/
def execHdmRead (addr : Nat) (errs : List Nat) (s : State) : Res :=
  if hdmSize ≤ addr then .fault (.noSuchAddress addr)
  else done (s.whenever s.memOn (fun s => s.hdmRead addr errs))

/-- HDM_WRITE (R29). -/
def execHdmWrite (addr : Nat) (data : BitVec 512) (bytes : BitVec 64) (errs : List Nat) (s : State) : Res :=
  if hdmSize ≤ addr then .fault (.noSuchAddress addr)
  else done (s.whenever s.memOn (fun s => s.hdmWrite addr data bytes errs))

/-- A line of the device cache is answered to a snoop and leaves; a modified one is written back first (R27). -/
def State.snooped (s : State) (q : CacheLine) : State :=
  let s := if q.modified then s.hostPut q.addr (leBytes 64 q.data.toNat) else s
  ({ s with host.devCache := s.host.devCache.erase q } : State).send (.snoopData q.addr q.data)

/-- HOST_SNOOP (R27). -/
def execHostSnoop (line : Nat) (s : State) : Res :=
  done (s.whenever (s.power != 3) (fun s =>
    match s.host.devCache.find? (fun q => q.addr == line) with
    | some q => s.snooped q
    | none => s.send (.snoopMiss line)))

end Sys2Proof.Machine
end

