-- ==== Sys2Proof/Machine/Ingest.lean ====
section
/-!
DEFINITION. Meanings of the packets of the ingest ports (06_ingest_ports.md, R119 to R122, R126, R127) and the vectors they form
(07_conditioning_pit.md, R132, R133).
-/

namespace Sys2Proof.Machine

/-- What the checks need of a packet, in either format. `b8` is FMT 8+8; `len` the payload's length. -/
structure Packet where
  sub : Nat
  fmt : Nat
  input : Nat
  inputs : Nat
  chan : Nat
  chans : Nat
  six : Nat
  spectra : Nat
  valid : Nat
  null : Bool
  payload : List Byte
  deriving DecidableEq, Repr

/-- Bytes of a sample. -/
def Packet.b (k : Packet) : Nat := if k.fmt = 1 then 2 else 1

/-- Bytes the payload must hold. -/
def Packet.len (k : Packet) : Nat := k.spectra * k.chans * k.inputs * k.b

/-- The header of R119. -/
def Packet.ofHeader (h : BitVec 256) (payload : List Byte) : Packet where
  sub := hdr h 8 6
  fmt := hdr h 14 2
  input := hdr h 16 14
  inputs := hdr h 32 7
  chan := hdr h 40 12
  chans := hdr h 52 12
  six := hdr h 64 64
  spectra := hdr h 192 8
  valid := hdr h 128 64
  null := hdr h 4 4 == 2
  payload := payload

/-! ## Samples and vectors (R121, R122, R132) -/


/-- A sample as it reaches the lane: a 4+4 sample as two sign-extended bytes. -/
def Packet.sample (k : Packet) (x c i : Nat) : Nat :=
  let a := ((x * k.chans + c) * k.inputs + i) * k.b
  if k.b = 1 then
    let v := (k.payload.getD a 0).toNat
    ofSigned 8 (toSigned 4 (v % 16)) + 256 * ofSigned 8 (toSigned 4 (v / 16))
  else (k.payload.getD a 0).toNat + 256 * (k.payload.getD (a + 1) 0).toNat

/-- The input of a lane of a group, within the packet. -/
def Packet.lane (k : Packet) (g l : Nat) : Option Nat :=
  let i := 64 * g + l
  if k.input ≤ i && i < k.input + k.inputs then some (i - k.input) else none

/-- The vector of spectrum `x`, row `c` and input group `g`; `unit` and `base` are its route's. -/
def State.rowVect (s : State) (k : Packet) (n : Int) (x c g unit base : Nat) : Vect :=
  let six := (k.six + x) % 2 ^ 64
  let dark := k.null || s.blanked six k.sub
  let ok (l : Nat) : Bool := match k.lane g l with | some i => !dark && k.valid.testBit i | none => false
  let mask (f : Nat → Bool) : BitVec 64 := BitVec.ofNat 64 (((List.range 64).filter f).foldl (fun m l => m + 2 ^ l) 0)
  { sub := some k.sub, six := six, dwell := n, ch := k.chan + c, tcr := k.chan + c - base, tun := unit, group := g,
    pres := mask (fun l => (k.lane g l).isSome), valid := mask ok, null := false,
    samples := (List.range 64).map (fun l => if ok l then k.sample x c ((k.lane g l).getD 0) else 0),
    ims := List.replicate 64 0 }

/-- A route of PIT_IN_ROUTE: group, channel base, count, cluster, unit (R157). -/
structure InRoute where
  group : Nat
  base : Nat
  count : Nat
  cluster : Nat
  unit : Nat
  deriving DecidableEq, Repr

/-- The routes of a port, in table order. -/
def Image.inRoutes (im : Image) (p : Nat) : List InRoute :=
  (List.range 1024).filterMap (fun i =>
    let e := im.el Scr.PIT_IN_ROUTE i
    if bitOf e 5 && bitsOf e 0 5 == p then
      some ⟨bitsOf e 6 7, bitsOf e 13 12, bitsOf e 25 12, bitsOf e 37 7, bitsOf e 44 4⟩
    else none)

/-- The vectors of spectra `x0` to `x0 + cnt - 1`, with their clusters; none for a vector without a route. -/
def State.partVects (s : State) (p : Nat) (k : Packet) (n : Int) (x0 cnt : Nat) : List (Option Nat × Vect) :=
  let rs := (s.governing n).inRoutes p
  let g0 := k.input / 64
  let groups := (k.input + k.inputs - 1) / 64 - g0 + 1
  (List.range cnt).flatMap (fun x => (List.range k.chans).flatMap (fun c => (List.range groups).map (fun g =>
    let ch := k.chan + c
    match rs.find? (fun r => r.group == g0 + g && decide (r.base ≤ ch) && decide (ch < r.base + r.count)) with
    | some r => (some r.cluster, s.rowVect k n (x0 + x) c (g0 + g) r.unit r.base)
    | none => (none, s.rowVect k n (x0 + x) c (g0 + g) 0 0))))

/-! ## Checks (R120) -/

/-- A part: its first spectrum, its number of spectra, its dwell. -/
structure Part120 where
  x0 : Nat
  cnt : Nat
  dwell : Int
  deriving DecidableEq, Repr

/-- The parts of a packet: two when its spectra lie in two dwells. -/
def State.packetParts (s : State) (k : Packet) : List Part120 :=
  let last := (k.six + (k.spectra - 1)) % 2 ^ 64
  let a := s.dwellOf k.six
  let b := s.dwellOf last
  if a = b then [⟨0, k.spectra, a⟩]
  else
    let m := (sixDiff (s.startSix b) k.six).toNat
    [⟨0, m, a⟩, ⟨m, k.spectra - m, b⟩]

/-- The positions of a part. -/
def Packet.box (k : Packet) (q : Part120) : Box := ⟨(k.six + q.x0) % 2 ^ 64, q.cnt, k.input, k.inputs, k.chan, k.chans⟩

/-- Two boxes share a position. -/
def Box.meets (a b : Box) : Bool :=
  let d := sixDiff a.six b.six
  decide (d < (b.spectra : Int)) && decide (-(a.spectra : Int) < d) &&
    decide (a.input < b.input + b.inputs) && decide (b.input < a.input + a.inputs) &&
    decide (a.chan < b.chan + b.chans) && decide (b.chan < a.chan + a.chans)

/-- Check 11, which also holds in iron, outside SHOW and while a transition stops ingest (R322, R383, R385). -/
def State.portDown (s : State) (p : Nat) (n : Int) : Bool :=
  !carries (s.getF (portStateF p)) || s.iron || s.getF PWR_STATUS.STATE != 0 ||
    (match s.pwr.trans with | some (t, k) => t != 0 && decide (k ≤ n) | none => false) ||
    (match s.flt.ironLast with | some l => decide (n ≤ l) | none => false)


/-- The first check a part fails, in the order of R120. -/
def State.failing (s : State) (p : Nat) (k : Packet) (lenBad : Bool) (q : Part120) : Option Nat :=
  let im := s.governing q.dwell
  let six := (k.six + q.x0) % 2 ^ 64
  let win := im.el Scr.ING_PORT_WIN p
  let fmt := im.el Scr.ING_PORT_FMT p
  if 1 < k.fmt || (fmt != 2 && fmt != k.fmt) then some 3
  else if lenBad then some 4
  else if !(im.el Scr.ING_PORT_SUB p).testBit k.sub then some 5
  else if k.input < bitsOf win 0 14 || bitsOf win 0 14 + bitsOf win 16 14 < k.input + k.inputs ||
      im.val Scr.STG_CHANNELS < k.chan + k.chans then some 6
  else if !s.epoch || s.isEarly six then some 7
  else if s.isLate six then some 8
  else if s.ing.accepted.any (fun b => b.meets (k.box q)) then some 9
  else if s.laneFull p then some 10
  else if s.portDown p q.dwell then some 11
  else none

/-- The range of SIX discarded since a lane loss grows by `first` to `last` (R123). -/
def Port.widen (x : Port) (first last : Nat) : Port :=
  if !x.lossOpen then x
  else match x.lossFirst with
    | none => { x with lossFirst := some first, lossLast := last }
    | some a => { x with lossFirst := some (if sixDiff first a < 0 then first else a),
                         lossLast := if sixDiff x.lossLast last < 0 then last else x.lossLast }

/-- A discarded packet or part: counted, and in the range since a lane loss (R118, R120, R123). -/
def State.discard (s : State) (p reason first last : Nat) : State :=
  let s := s.incF (ING_P_DISC.COUNT p reason) 1
  let x := s.port p
  s.setPort p ({ x with discSinceUp := x.discSinceUp + 1 }.widen first last)

/-- A packet whose header cannot be trusted is discarded under HCRC. In Shasto mode the parser skips to the next unit that a PKT_OFS
names (R120). -/
def State.discardCrc (s : State) (p : Nat) : State :=
  let x := s.port p
  (s.incF (ING_P_DISC.COUNT p 1) 1).setPort p { x with discSinceUp := x.discSinceUp + 1, seeking := !s.forerunner p }

/-- The first packet accepted after a lane loss reports the range discarded (R123). Where nothing was discarded, the first SIX is
not stated: a free value. -/
def State.lossEnds (s : State) (p : Nat) : State :=
  let x := s.port p
  if !x.lossOpen then s else
  let t := s.setPort p { x with lossOpen := false, lossFirst := none }
  match x.lossFirst with
  | some a =>
    t.emitFor (s.ingSubs p) (0x020 + p) 0x0304 a ((sixDiff x.lossLast a + 1).toNat % 2 ^ 24 + 2 ^ 24 * p) 0
  | none => t.drew.emitFor (s.ingSubs p) (0x020 + p) 0x0304 t.free (2 ^ 24 * p) 0


/-- An accepted part: its positions are noted and its vectors go to the lane-to-pit queue. -/
def State.acceptPart (s : State) (p : Nat) (k : Packet) (q : Part120) : State :=
  let vs := s.partVects p k q.dwell q.x0 q.cnt
  let s := { s with ing.accepted := s.ing.accepted ++ [k.box q] }
  let s := s.each (vs.filterMap (fun v => if v.1.isNone then some v.2 else none)) (fun s v => s.lostVect p none v)
  let upTo := vs.filterMap (fun v => v.1.map (fun c => (c, v.2)))
  let x := s.port p
  s.setPort p { x with queue := x.queue ++ [upTo] }

/-- Judge one part. -/
def State.judgePart (s : State) (p : Nat) (k : Packet) (q : Part120) : State × Bool :=
  let six := (k.six + q.x0) % 2 ^ 64
  match s.failing p k false q with
  | some r =>
    let s := s.discard p r six ((six + (q.cnt - 1)) % 2 ^ 64)
    ((if r = 7 || r = 8 then s.windowPulse six else s), false)
  | none => ((s.lossEnds p).acceptPart p k q, true)

/-- Checks 3 to 11 (R120). A packet that check 4 or 11 discards is discarded whole, and counted once under the first check that it
fails. -/
def State.judge (s : State) (p : Nat) (k : Packet) (lenBad : Bool) : State :=
  let last := (k.six + (k.spectra - 1)) % 2 ^ 64
  let parts := s.packetParts k
  let fails := parts.map (fun q => s.failing p k lenBad q)
  if lenBad || parts.any (fun q => s.portDown p q.dwell) then
    let r := (fails.filterMap (fun f => f)).foldl min 11
    let s := s.discard p r k.six last
    if r = 7 || r = 8 then s.windowPulse k.six else s
  else
    let r := parts.foldl (fun (a : State × Bool) q => let t := a.1.judgePart p k q; (t.1, a.2 || t.2)) (s, false)
    let s := if r.2 then r.1.addF (ING_P_PKT.COUNT p) 1 else r.1
    (s.pumpPort p).showFlow p (fails.any (fun f => f == some 10))

/-- SEQ gaps per sender (R119), over packets that pass checks 0 to 2 (DEDUCED, log 26). -/
def State.followSeq (s : State) (p src seq : Nat) : State :=
  let x := s.port p
  let old := Tbl.get x.seqs 256 src
  let s := s.setPort p { x with seqs := Tbl.set x.seqs 256 src seq }
  if old = 256 || (old + 1) % 256 = seq then s else s.incF (ING_P_SEQGAP.COUNT p) 1

/-- An accepted packet is offered on the parser's request line, padded to 32 bytes, while a descriptor is paced by that line; otherwise
its raw bytes are not kept (R184; DESIGN CHOICE, log 26). `old` is the state before the packet. -/
def State.keepRaw (s old : State) (p : Nat) (bytes : List Byte) : State :=
  if s.ing.accepted.length ≤ old.ing.accepted.length || !s.lineWanted (528 + p) then s
  else
    let x := s.port p
    s.setPort p { x with raw := x.raw ++ bytes ++ List.replicate ((32 - bytes.length % 32) % 32) 0 }

/-- INGEST_PACKET (R116, R119, R120): a packet that the parser finds in the port stream. -/
def execIngestPacket (port : Fin 24) (fecBad : Bool) (header : BitVec 256) (payload : List Byte) (s : State) : Res :=
  let p := port.val
  let k := Packet.ofHeader header payload
  let last := (k.six + (k.spectra - 1)) % 2 ^ 64
  done (s.whenever (s.portLive p && !s.forerunner p && !(s.port p).seeking) (fun s =>
    let s := s.portRefresh p
    if fecBad then s.discard p 0 k.six last
    else if hcrcOf (header.toNat % 2 ^ 240) ≠ hdr header 240 16 then s.discardCrc p
    else if hdr header 0 4 ≠ 1 || !(hdr header 4 4 == 1 || hdr header 4 4 == 2) then s.discard p 2 k.six last
    else
      let s := s.followSeq p (hdr header 200 16) (hdr header 216 8)
      let bad := k.inputs = 0 || k.chans = 0 || k.spectra = 0 || (!k.null && 8192 < k.len)
      (s.judge p k bad).keepRaw s p (leBytes 32 header.toNat ++ payload)))

/-! ## GK4 packets (R126, R127) -/

/-- CRC-32 of IEEE 802.3: reflected, initial value and final XOR of all ones. -/
def crc32 (m : List Byte) : Nat :=
  (m.foldl (fun r b => (List.range 8).foldl (fun r i =>
    let top := xor (r.testBit 0) (b.toNat.testBit i)
    if top then (r / 2) ^^^ 0xEDB88320 else r / 2) r) 0xFFFFFFFF) ^^^ 0xFFFFFFFF

/-- SIX48 expanded to the nearest house SIX. -/
def State.expand48 (s : State) (v : Nat) : Nat :=
  let h : Int := toSigned 64 s.houseSix
  ofSigned 64 (h + toSigned 48 (ofSigned 48 ((v : Int) - h)))

/-- The fields of a GK4 packet; SUBARRAY comes from ING_GK4_SUB. -/
def State.gk4 (s : State) (p : Nat) (m : List Byte) : Packet :=
  let f (a n : Nat) : Nat := leNat ((m.drop a).take n)
  let six := s.expand48 (f 0 6)
  let fmt := f 9 1 % 2
  let inputs := f 8 1
  let pay := (m.drop 16).take (m.length - 20)
  { sub := (s.governing (s.dwellOf six)).el Scr.ING_GK4_SUB p, fmt := fmt, input := f 6 2 % 8192, inputs := inputs,
    chan := f 10 2 % 4096, chans := if inputs = 0 then 0 else pay.length / (inputs * (1 + fmt)), six := six, spectra := 1,
    valid := f 12 4, null := false, payload := pay }

/-- GK4_PACKET (R126, R127). -/
def execGk4Packet (port : Fin 24) (bytes : List Byte) (s : State) : Res :=
  let p := port.val
  done (s.whenever (s.portLive p && s.forerunner p) (fun s =>
    let s := s.portRefresh p
    let k := s.gk4 p bytes
    let crc := leNat (bytes.drop (bytes.length - 4))
    if bytes.length < 20 || crc32 (bytes.take (bytes.length - 4)) ≠ crc || (k.inputs != 0 && k.len != k.payload.length) then
      s.discardCrc p
    else (s.judge p k (k.inputs = 0 || k.chans = 0 || 4095 < k.chans || 8192 < k.len)).keepRaw s p bytes))

/-- BLANK_RELEASE (R122): intervals whose end house SIX exceeds by more than W_late. -/
def execBlankRelease (s : State) : Res :=
  let old (b : Blank) : Bool :=
    match b.stop with
    | some e => decide (e + (s.sv Scr.ING_LATE_WINDOW : Int) < toSigned 64 s.houseSix)
    | none => false
  done { s with ing.blanks := s.ing.blanks.filter (fun b => !old b) }

end Sys2Proof.Machine
end

