-- ==== Sys2Proof/Machine/Lane.lean ====
section
/-!
DEFINITION. Meanings of the commands of the lanes (06_ingest_ports.md, R109 to R126; 13_fabric.md, R276) and of the
serdes-reference loop (R87).
-/

namespace Sys2Proof.Machine

/-- SERDES_REF_UNLOCK (R87). -/
def execSerdesRefUnlock (s : State) : Res :=
  done (s.whenever (s.flag HCK_STATUS.SER_LOCK) (fun s =>
    (((s.setF HCK_STATUS.SER_LOCK 0).putBit HCK_EVT.BITS 5 true).emit 0x001 0x0107 0 0 3).raise 0x001 0x0004 3 true))

/-- SERDES_REF_LOCK (R87). -/
def execSerdesRefLock (s : State) : Res := done (s.setF HCK_STATUS.SER_LOCK 1)

/-- CODEWORD (R113, R116): `corrected` symbols, none when the codeword is uncorrectable. A lane without lock decodes none. -/
def execCodeword (port : Fin 32) (lane : Fin 4) (corrected : Option Nat) (msg : BitVec 5140) (s : State) : Res :=
  let p := port.val
  done (s.whenever (s.portLive p && !s.forerunner p) (fun s =>
    let s := s.portRefresh p
    if !s.bit (portLockF p) lane.val then s
    else match corrected with
      | some k => s.fecGood p lane.val k msg
      | none => s.fecBad p lane.val))

/-- POL of a port: one bit a lane (R130, R293). -/
def portPolF (p : Nat) : Fld := if p < 24 then ING_P_CTRL.POL p else FAB_P_CTRL.POL (p - 24)

/-- A word as the receiver takes it from the pair: POL inverts its polarity (R130). -/
def State.received (s : State) (p l : Nat) (w : BitVec 64) : Nat := (if s.bit (portPolF p) l then ~~~w else w).toNat

/-- COMMA_WORD (R114 to R116, R124): a word at an expected comma position, as it stands on the pair. -/
def execCommaWord (port : Fin 32) (lane : Fin 4) (word : BitVec 64) (s : State) : Res :=
  let p := port.val
  let w := s.received p lane.val word
  done (s.whenever (s.portLive p && !s.forerunner p) (fun s =>
    let s := s.portRefresh p
    if commaGood w then s.commaTaken p lane.val w else s.commaBad p lane.val))

/-- COMMA_LOSS (R116). -/
def execCommaLoss (port : Fin 32) (lane : Fin 4) (s : State) : Res :=
  let p := port.val
  done (s.whenever (s.portLive p && !s.forerunner p) (fun s => (s.portRefresh p).laneLost p lane.val 0))

/-- LANE_RESTORE (R124): a dropped lane has held lock, with no uncorrectable codeword, for ING_RESTORE ms. -/
def execLaneRestore (port : Fin 32) (lane : Fin 4) (s : State) : Res :=
  let p := port.val
  done (s.whenever (s.bit (portDropF p) lane.val && s.bit (portLockF p) lane.val) (fun s =>
    (s.lapse (.restore p lane.val) (msCycles * s.sv Scr.ING_RESTORE)).putBit (portDropF p) lane.val false))

/-- House cycles of 4 comma periods: 22,282,496 bits at 106.25 Gb/s (R114). -/
def fourCommas : Nat := cdiv (4 * 5570624 * 250) 106250

/-- DROP_REQ_IGNORED (R124): 4 comma periods have passed since the lane was asked to be dropped. -/
def execDropReqIgnored (port : Fin 32) (s : State) : Res :=
  let p := port.val
  done (s.whenever (s.getF (portDropF p) != 0 && s.getF (portStateF p) = 2) (fun s =>
    (s.lapse (.drop p) fourCommas).setPortState p 4))

/-- BLOCK_LOCK_GAIN (R117, R126). -/
def execBlockLockGain (port : Fin 24) (lane : Fin 4) (s : State) : Res :=
  let p := port.val
  done (s.whenever (s.portLive p && s.forerunner p) (fun s =>
    let s := (s.portRefresh p).laneLocked p lane.val 2
    if s.getF (portLockF p) = 15 then s.setPortState p 2 else s))

/-- A forerunner lane loses block lock: a port in UP goes DOWN. -/
def State.blockLost (s : State) (p l : Nat) : State :=
  let s := ((s.putBit (portLockF p) l false).lockEvent p l false (if s.flag HCK_STATUS.SER_LOCK then 2 else 3))
  (if s.getF (portStateF p) = 2 then s.setPortState p 4 else s).hckLinks

/-- BLOCK_LOCK_LOSS (R125, R126). -/
def execBlockLockLoss (port : Fin 24) (lane : Fin 4) (s : State) : Res :=
  let p := port.val
  done (s.whenever (s.portLive p && s.forerunner p && s.bit (portLockF p) lane.val) (fun s => s.blockLost p lane.val))

/-- The port status word (R118). -/
def State.psw (s : State) (p : Nat) : Nat :=
  let x := s.port p
  1 + 2 ^ 4 * 0xF + 2 ^ 8 * p + 2 ^ 13 * s.chip + 2 ^ 32 * s.getF (ING_P_STATUS.LOCK p) +
    2 ^ 36 * s.getF (ING_P_STATUS.DROP_REQ p) + 2 ^ 40 * s.getF (ING_P_STATUS.FLOW p) +
    2 ^ 42 * s.getF (ING_P_STATUS.STATE p) + 2 ^ 64 * s.houseSix + 2 ^ 128 * (x.discSinceUp % 2 ^ 32) +
    2 ^ 160 * (x.uncorrSinceUp % 2 ^ 32)

/-- PSW_SEND (R118). -/
def execPswSend (port : Fin 24) (s : State) : Res :=
  let p := port.val
  done (s.whenever (s.portLive p) (fun s =>
    let s := s.portRefresh p
    s.send (.psw p (sealed (s.psw p)))))

end Sys2Proof.Machine
end

