-- ==== Sys2Proof/Machine/Matrix.lean ====
section
/-!
DEFINITION. The bus matrix (17_control_plane_and_security.md, R349 to R354): its address map and paths, bursts and arbiters, and the
meanings of its commands. Firmware and the boot engine are outside the block, so what they put on the matrix comes as operands.
-/

namespace Sys2Proof.Machine

/-- The targets of the matrix (R349). -/
inductive CtlTarget where
  | bootRom | controlSram | mram | fuse | ringSetup | registers
  deriving DecidableEq, Repr

def ctlTargets : List CtlTarget := [.bootRom, .controlSram, .mram, .fuse, .ringSetup, .registers]

/-- Number of a target. -/
def CtlTarget.no : CtlTarget → Nat
  | .bootRom => 0
  | .controlSram => 1
  | .mram => 2
  | .fuse => 3
  | .ringSetup => 4
  | .registers => 5

/-- Where a target begins, and its size (R349). -/
def CtlTarget.base : CtlTarget → Nat
  | .bootRom => 0x10000000
  | .controlSram => 0x20000000
  | .mram => 0x30000000
  | .fuse => 0x40000000
  | .ringSetup => 0x50000000
  | .registers => 0x80000000
def CtlTarget.size : CtlTarget → Nat
  | .bootRom => 0x40000
  | .controlSram => 0x800000
  | .mram => 0x800000
  | .fuse => 0x4000
  | .ringSetup => 0x10000
  | .registers => 0x4000000

/-- The control address map (R349): the target of an address and the place in it; none is a decode error. -/
def ctlMap (remap : Bool) (a : Nat) : Option (CtlTarget × Nat) :=
  if a < 0x800000 then
    if remap then some (.controlSram, a) else if a < 0x40000 then some (.bootRom, a) else none
  else (ctlTargets.find? (fun t => decide (t.base ≤ a) && decide (a < t.base + t.size))).map (fun t => (t, a - t.base))

/-- What a path carries (R350). -/
inductive CtlPath where
  | none | read | all
  deriving DecidableEq, Repr

/-- The paths that exist (R350). Debug has its own once CTL_SEC.DEBUG is set (R371). -/
def ctlPath (debugOpen : Bool) : Master → CtlTarget → CtlPath
  | .bootEngine, _ => .all
  | .core _, _ => .all
  | .hostBridge, t => if t = .registers then .all else .none
  | .debug, t => if !debugOpen then .none else if t = .mram then .read else .all
  | .moverDma, t => if t = .controlSram || t = .ringSetup then .all else .none

/-- Where a burst goes: none is a decode error, for want of a target or of a path. -/
def State.ctlRoute (s : State) (b : Burst) : Option (CtlTarget × Nat) :=
  (ctlMap (s.flag CTL_MATRIX.REMAP) b.addr).filter (fun q =>
    match ctlPath (s.flag CTL_SEC.DEBUG) b.master q.1 with
    | .none => false
    | .read => b.data.isNone
    | .all => true)

/-! ## Beats -/

/-- The manufacturing area of the journal (R367). -/
def inMfg (off : Nat) : Bool := decide (off < 0x40000)

/-- Write eight bytes at a control address. -/
def State.ctlPut (s : State) (a : Nat) (v : BitVec 64) : State :=
  { s with matrix.mem := ((leBytes 8 v.toNat).zipIdx).foldl (fun t q => Tbl.set t none (a + q.2) (some q.1)) s.matrix.mem }

/-- Eight bytes at a control address: those written, else as they came (a free constant, log 18). -/
def State.ctlBytes (s : State) (a : Nat) : Nat :=
  leNat ((List.range 8).map (fun i => (Tbl.get s.matrix.mem none (a + i)).getD (Config.controlByte (a + i))))

/-- A write of a register by a master other than the host: CTL_MATRIX takes REMAP from the boot engine and the cores alone (R352). -/
def State.ctlWriteReg (s : State) (m : Master) (off val : Nat) : State :=
  if m = .hostBridge then s.writeReg off 8 val 0
  else if off = 0x8 then (if m = .debug then s else s.setF CTL_MATRIX.REMAP (val % 2))
  else s.whenever (accessOk off 8) (fun s => s.writeReg off 8 val 0)

/-- A write beat. Boot ROM and fuses take no write (R349). In the journal the manufacturing area takes one until MFG_LOCK is blown; a
write elsewhere goes to the journal writer, whose records come by the commands that make them (R350, R368). -/
def State.writeBeat (s : State) (m : Master) (t : CtlTarget) (off : Nat) (v : BitVec 64) : State :=
  match t with
  | .bootRom => s
  | .controlSram => s.ctlPut (t.base + off) v
  | .mram => if inMfg off && !s.flag CTL_SEC.MFG_LOCK then s.ctlPut (t.base + off) v else s
  | .fuse => s
  | .ringSetup => s.ctlPut (t.base + off) v
  | .registers => s.ctlWriteReg m off v.toNat

/-- A read beat: the state after it, and the data; none for a fuse row of the identity seed, which no path reads (R350). -/
def State.readBeat (s : State) (t : CtlTarget) (off : Nat) : State × Option (BitVec 64) :=
  match t with
  | .bootRom => (s, some (BitVec.ofNat 64 (s.ctlBytes (t.base + off))))
  | .controlSram => (s, some (BitVec.ofNat 64 (s.ctlBytes (t.base + off))))
  | .mram => (s, some (BitVec.ofNat 64 (s.ctlBytes (t.base + off))))
  | .fuse => (s, if Config.seedRow off then none else some (BitVec.ofNat 64 (s.ctlBytes (t.base + off))))
  | .ringSetup => (s, some (BitVec.ofNat 64 (s.ctlBytes (t.base + off))))
  | .registers =>
    let q := if accessOk off 8 then s.readReg off 8 0 else { s with host.lastRead := 0 }
    ({ q with host.lastRead := s.host.lastRead }, some (BitVec.ofNat 64 q.host.lastRead))

/-- The next beat of a burst is issued (R351, R353): a null beat does nothing. -/
def State.issueBeat (s : State) (t : CtlTarget) (h : HeldBurst) : State :=
  let off := h.off + 8 * h.issued
  if h.nulls.isSome then s
  else match h.burst.data with
    | some l => s.writeBeat h.burst.master t off (l.getD h.issued 0)
    | none => let r := s.readBeat t off; r.1.send (.matrixData h.burst.master r.2)

/-! ## Bursts and arbiters (R351) -/

/-- Put a request on the matrix. One without a target or a path gets a decode error, and its write does nothing (R349, R350). -/
def State.ctlRequest (s : State) (b : Burst) : State :=
  if !b.ok then s
  else match s.ctlRoute b with
    | some _ => { s with matrix.wait := s.matrix.wait ++ [b] }
    | none => s.send (.matrixError b.master)

/-- How far behind the master served last a master stands in the round robin. -/
def turnOf (last : Nat) (m : Master) : Nat := (masterNo m + 7 - last) % 8

/-- The request a target's arbiter grants: the boot engine's first while boot is in progress, else the next master's in turn. -/
def State.ctlNext (s : State) (t : CtlTarget) : Option Burst :=
  let l := s.matrix.wait.filter (fun b => (s.ctlRoute b).map (fun q => q.1) == some t)
  let boot := l.find? (fun b => s.booting && b.master == .bootEngine)
  let last := Tbl.get s.matrix.last 7 t.no
  boot.orElse (fun _ => (List.range 8).findSome? (fun k => l.find? (fun b => turnOf last b.master == k)))

/-- A free target grants a burst, which holds its path from then on. -/
def State.ctlGrant (s : State) (t : CtlTarget) : State :=
  match Tbl.get s.matrix.held none t.no, s.ctlNext t with
  | none, some b =>
    let off := ((s.ctlRoute b).map (fun q => q.2)).getD 0
    { s with matrix.wait := s.matrix.wait.erase b, matrix.last := Tbl.set s.matrix.last 7 t.no (masterNo b.master),
             matrix.held := Tbl.set s.matrix.held none t.no (some ⟨b, off, 0, none⟩) }
  | _, _ => s

/-- A burst has issued its last beat: the path is free. One that ended in null beats is counted and reported (R353). -/
def State.ctlFree (s : State) (t : CtlTarget) (h : HeldBurst) : State :=
  let s := { s with matrix.held := Tbl.set s.matrix.held none t.no none }
  match h.nulls with
  | some n => (s.incF CTL_MATRIX.NULLS 1).emit 0x005 0x0007 h.burst.addr (masterNo h.burst.master + 8 * n) 0
  | none => s

/-- One cycle of a target: a grant where the path is free, then a beat (log 12: a target takes one beat a cycle and answers at once). -/
def State.ctlBeat (s : State) (t : CtlTarget) : State :=
  let s := s.ctlGrant t
  match Tbl.get s.matrix.held none t.no with
  | none => s
  | some h =>
    let s := s.issueBeat t h
    let h := { h with issued := h.issued + 1 }
    if h.burst.beats ≤ h.issued then s.ctlFree t h
    else { s with matrix.held := Tbl.set s.matrix.held none t.no (some h) }

/-- One cycle of the matrix. -/
def State.matrixCycle (s : State) : State :=
  if s.matrix.wait.isEmpty && s.matrix.held.isEmpty then s else s.each ctlTargets State.ctlBeat

/-- An empty queue (log 1): a house cycle passes, and the matrix goes on. A class 4 fault that this brings is answered (R320). -/
def State.idle (s : State) : State := (tick s).matrixCycle.settle

/-- Bursts are put on the matrix, and `cycles` of its cycles pass. -/
def State.matrixRun (s : State) (bursts : List Burst) (cycles : Nat) : State :=
  (s.each bursts State.ctlRequest).each (List.range cycles) (fun s _ => s.matrixCycle)

/-! ## Commands -/

/-- MASTER_RESET (R353): `cycles` after `bursts` were put on the matrix. -/
def execMasterReset (master : Master) (bursts : List Burst) (cycles : Nat) (s : State) : Res :=
  done ((s.matrixRun bursts cycles).matrixReset master)

/-- The target whose path a master holds. -/
def State.ctlHolds (s : State) (m : Master) : Bool :=
  s.matrix.held.any (fun e => e.2.any (fun h => h.burst.master == m && h.nulls.isNone))

/-- A target has been silent for 4,096 cycles (R354): the master gets an error response, the rest of its burst is null beats. -/
def State.matrixLate (s : State) (m : Master) : State :=
  let wait := s.matrix.wait
  let s := ((s.send (.matrixError m)).incF CTL_MATRIX.TIMEOUTS 1).matrixReset m
  ({ s with matrix.wait := wait } : State).raise 0x005 0x0022 3 false

/-- MATRIX_TIMEOUT (R354). -/
def execMatrixTimeout (master : Master) (bursts : List Burst) (cycles : Nat) (s : State) : Res :=
  done ((s.matrixRun bursts cycles).whenever ((s.matrixRun bursts cycles).ctlHolds master) (fun s => s.matrixLate master))

/-- REMAP_WRITE (R352): only the boot engine and the control cores can write REMAP; a host write sets HST_ERR.BADACC. -/
def execRemapWrite (master : Master) (remap : Bool) (s : State) : Res :=
  done (match master with
    | .bootEngine => s.setFlag CTL_MATRIX.REMAP remap
    | .core _ => s.setFlag CTL_MATRIX.REMAP remap
    | .hostBridge => s.setF HST_ERR.BADACC 1
    | .debug => s
    | .moverDma => s)

end Sys2Proof.Machine
end

