-- ==== Sys2Proof/Machine/PitCmd.lean ====
section
/-!
DEFINITION. Meanings of the pit's ring commands (07_conditioning_pit.md, R153, R155). Host memory that the device reads comes with
the command; a list too short is a read that failed (log 5).
-/

namespace Sys2Proof.Machine

/-- Side of a logical cluster: as it runs, or as the image in force assigns it. -/
def State.cluSide (s : State) (c : Nat) : Bool :=
  if s.flag (PIT_C_STATUS.RUN c) then s.flag (PIT_C_STATUS.SIDE c) else bitOf (s.cluElem c) 4

/-- The clusters a command names: one, or with ALL every cluster on its side (R155). -/
def State.pitNamed (s : State) (c : Nat) (all : Bool) : List Nat :=
  if all then (List.range 128).filter (fun k => s.cluSide k == s.cluSide c) else [c]

/-- A page may command clusters: the ADMIN page, or the owner of each (R155). -/
def State.pitPageOk (s : State) (e : Exec) (cs : List Nat) : Bool :=
  e.admin || cs.all (fun c => bitsOf (s.cluElem c) 6 6 == e.sub)

/-- Halfwords of a byte list. -/
def halfwords (data : List Byte) (n : Nat) : List Nat := (List.range n).map (fun i => leNat ((data.drop (2 * i)).take 2))

/-- Local memory of every lane is written, lane-major. -/
def Cluster.localWrite (x : Cluster) (first count : Nat) (hs : List Nat) : Cluster :=
  { x with lm := hs.zipIdx.foldl (fun t m =>
      Tbl.set t 0 (m.2 / count * 1024 + first + m.2 % count) (BitVec.ofNat 16 m.1)) x.lm }

/-- A flip is asked of a cluster (R153): late when a vector at or after its SIX has been taken. -/
def State.askFlip (s : State) (c r six : Nat) : State :=
  let x := s.cluster c
  let late := match x.topSix with | some t => decide (0 ≤ sixDiff t six) | none => false
  (s.setCluster c { x with flipSix := some six, flipLate := late, flipRing := some r, flipDone := none }).setF
    (PIT_C_STATUS.FLIP_PEND c) 1

/-- PIT_LOCAL_WRITE (R153, R155). With FLIP it completes with the flip (DEDUCED, log 24). -/
def execPitLocalWrite (ring : Fin 262144) (data : List Byte) (s : State) : Res :=
  let r := ring.val
  withCmd s r 0x30 (fun s e =>
    let cs := s.pitNamed (e.arg 64 7) (e.arg 71 1 = 1)
    let first := e.arg 72 10
    let count := e.arg 82 11
    if (List.range 128).any (fun c => (s.cluster c).flipRing == some r) then s
    else if !s.pitPageOk e cs then s.finish r e stDenied
    else if cs.any (fun c => s.flag (PIT_C_STATUS.FLIP_PEND c)) then s.finish r e stBusy
    else if count = 0 || 1024 < first + count || e.arg 128 64 % 64 != 0 then s.finish r e stBadArg
    else if data.length < 128 * count then s.finish r e stDeviceError
    else
      let hs := halfwords data (64 * count)
      let s := s.each cs (fun s c => s.setCluster c ((s.cluster c).localWrite first count hs))
      if e.arg 192 1 = 1 then (s.each cs (fun s c => s.askFlip c r (e.arg 256 64))).flipsDone r
      else s.finish r e stOk)

/-- A cluster is between two vectors: it waits for one, or does not run. -/
def State.betweenNow (s : State) (c : Nat) : Bool := !s.pitReady c || s.flag (PIT_C_STATUS.IN_WAIT c)

/-- PIT_LOCAL_READ (R153, R155). -/
def execPitLocalRead (ring : Fin 262144) (s : State) : Res :=
  let r := ring.val
  withCmd s r 0x31 (fun s e =>
    let c := e.arg 64 7
    let x := s.cluster c
    if x.readRings.contains r then s
    else if !s.pitPageOk e [c] then s.finish r e stDenied
    else if e.arg 82 11 = 0 || 1024 < e.arg 72 10 + e.arg 82 11 then s.finish r e stBadArg
    else if s.betweenNow c then s.localRead c r
    else s.setCluster c { x with readRings := x.readRings ++ [r] })

/-- PIT_COEF_WRITE (R153, R155). On a cluster that does not run no vector follows, and RESULT is a free value. -/
def execPitCoefWrite (ring : Fin 262144) (data : List Byte) (s : State) : Res :=
  let r := ring.val
  withCmd s r 0x32 (fun s e =>
    let cs := s.pitNamed (e.arg 64 7) (e.arg 71 1 = 1)
    let first := e.arg 72 14
    let count := e.arg 86 15
    if (List.range 128).any (fun c => ((s.cluster c).coefFor r).isSome) then s
    else if !s.pitPageOk e cs then s.finish r e stDenied
    else if count = 0 || 16384 < first + count then s.finish r e stBadArg
    else if data.length < 2 * count then s.finish r e stDeviceError
    else
      let hs := halfwords data count
      let s := s.each cs (fun s c =>
        let x := s.cluster c
        let y := if s.betweenNow c then x.coefWrite first hs else { x with coefPend := x.coefPend ++ [(first, hs)] }
        s.setCluster c (if s.flag (PIT_C_STATUS.RUN c) then { y with coefRings := y.coefRings ++ [(r, none)] } else y))
      if cs.any (fun c => s.flag (PIT_C_STATUS.RUN c)) then s else s.drew.complete r e stOk s.free 0)

end Sys2Proof.Machine
end

