-- ==== Sys2Proof/Machine/Prod.lean ====
section
/-!
DEFINITION. Meanings of the commands of the products unit (R260, R262, R267, R268, R272).
-/

namespace Sys2Proof.Machine

/-- INTEGRATION_TIMEOUT (R260): PRD_CLOSE_TO has passed since the close of the integration's last dwell. In iron no bank
closes. -/
def execIntegrationTimeout (bank : Fin 2) (s : State) : Res :=
  let b := bank.val
  done (s.whenever (s.getF (bankStateF b) = 1 && decide (s.bankLast b ≤ s.seq.closed) && !s.iron) (fun s =>
    (s.afterClose (s.bankLast b) ((s.governing (s.bankLast b)).val Scr.PRD_CLOSE_TO)).startClose b 1))

/-- SWEEP_COMPLETE (R262): the close ends; contributions that waited for it come in. -/
def execSweepComplete (bank : Fin 2) (s : State) : Res :=
  let b := bank.val
  done (s.whenever (s.bank b).closing (fun s => (s.sweep b).retryAdds))

/-- The beam frame in record `x` is held by the host (R267). -/
def State.frameHeld (s : State) (x : Nat) : Bool :=
  let im := s.governing (s.rec_ x).dwell
  decide ((s.rec_ x).st = .releasing) && im.dest (im.recGroup x) == 2

/-- A frame the host has not freed in time is freed (R267, R273). -/
def State.holdOver (s : State) (x : Nat) : State :=
  let im := s.governing (s.rec_ x).dwell
  let s := (s.putBit PRD_EVT.BITS 3 true).emitFor [im.poolSub] prdSrc 0x0904 (im.poolSlot x) x 0
  (s.freeFrame x).retryAdds

/-- BEAM_HOLD_TIMEOUT (R267, R273). -/
def execBeamHoldTimeout (record : Fin 65536) (s : State) : Res :=
  let x := record.val
  done (s.whenever (s.frameHeld x) (fun s => (s.lapse (.frame x) (msCycles * s.sv Scr.PRD_BEAM_HOLD)).holdOver x))

/-! ## Beam buffers (R268) -/

/-- Pit stream `j` announces dwell `n`: the route, the script bit, the null vectors taken, every write accepted, and no header of
the half yet for it. -/
def State.bufReady (s : State) (j : Nat) (n : Int) : Bool :=
  let im := s.governing n
  let h := im.poolSlot (bufSlot j (n % 2).toNat)
  bitOf (im.val Scr.PRD_BUF_ANN) j && im.el Scr.PIT_OUT_ROUTE j == 1 &&
    !(s.cluster (j / 4)).outQ.any (fun v => v.stream == j % 4 && decide (s.dwellOf v.six ≤ n)) &&
    !(s.hdrType h == 3 && decide (n ≤ s.hdrDwell h))

/-- Dwells whose null vectors a cluster has taken. -/
def State.nullsTaken (s : State) (c : Nat) : List Int :=
  (s.seq.markers.filter (fun m => m.2 == c)).map (fun m => m.1) ++ (s.cluster c).nullDone

/-- The header of the BUF product of pit stream `j` and dwell `n`. -/
def State.bufHeader (s : State) (j : Nat) (n : Int) : Header :=
  let im := s.governing n
  let c := j / 4
  let sub := bitsOf (im.el Scr.PIT_CLU_PROG c) 6 6
  let route := im.el Scr.PIT_BEAM_ROUTE c
  { typ := 3, sub := sub, flags := Tbl.get s.prd.bufFlags 0 (2 * j + (n % 2).toNat) ||| s.flagsOver n n sub,
    layout := im.winSize j + 4 * im.winShift j, dwells := 1, inputs := 0, dwell := n, integ := s.integ n,
    sixStart := im.startSix n, sixEnd := im.startSix (n + 1) + (2 ^ 64 - 1),
    chanBase := (s.integImage n).val Scr.PRD_CHAN_BASE + bitsOf route 16 12, chanCount := bitsOf route 28 12,
    pass := bitsOf route 0 8 + 2 ^ 8 * bitsOf route 8 8, epoch := s.getF DUO_STATUS.EPOCH, rank := s.getF DUO_STATUS.RANK,
    chip := s.chip, data64 := (im.winBase j + (n % 2).toNat * im.winHalf j) / 64, tag := im.tag }

/-- A half of a beam buffer is announced: its header and its product entry. -/
def State.bufNotice (s : State) (j : Nat) (n : Int) : State :=
  let im := s.governing n
  let q := 2 * j + (n % 2).toNat
  let hd := s.bufHeader j n
  let h := im.poolSlot (bufSlot j (n % 2).toNat)
  let s := s.writeHeader h hd
  let s := { s with prd.bufFlags := Tbl.set s.prd.bufFlags 0 q 0 }
  let s := s.addF PRD_CLOSED.COUNT 1
  let s := s.productNotice h 3 hd.sub (im.winHalf j / 64) (ofSigned 32 hd.integ)
  if hd.flags.testBit 1 then s.pulse 117 else s

/-- BUF_ANNOUNCE (R268, R270): the oldest dwell that is ready. -/
def execBufAnnounce (stream : Fin 512) (s : State) : Res :=
  let j := stream.val
  done (match oldest ((s.nullsTaken (j / 4)).filter (fun n => s.bufReady j n)) with
    | none => s
    | some n => s.bufNotice j n)

/-! ## Commands (R272) -/

/-- The subarray of the bank. -/
def State.bankOwner (s : State) (b : Nat) : Nat :=
  if s.getF (bankStateF b) = 0 then s.now.visSub else (s.integImage (s.bank b).firstDwell).visSub

/-- PRD_QUERY. -/
def execPrdQuery (ring : Fin 262144) (s : State) : Res :=
  let r := ring.val
  withCmd s r 0x70 (fun s e =>
    let b := e.arg 64 1
    if !e.admin && e.sub != s.bankOwner b then s.finish r e stDenied
    else s.complete r e stOk
      (s.getF (bankStateF b) + 4 * s.getF (bankGenF b) + 8 * b2n (s.bank b).closing + 2 ^ 16 * s.getF (bankDwellsF b) +
        2 ^ 32 * (s.getF (bankIntegF b) % 2 ^ 32)) 0)

/-- The image under which `a` is the pool slot of a Q8 record, and the record: that of a frame the host holds, or the current
one. -/
def State.frameAt (s : State) (a : Nat) : Option (Image × Nat) :=
  match s.liveRecs.find? (fun x => s.frameHeld x && (s.governing (s.rec_ x).dwell).poolSlot x == a) with
  | some x => some (s.governing (s.rec_ x).dwell, x)
  | none =>
    let im := s.now
    let x := (a - im.poolSlot 0) / 64
    if im.poolSlot 0 = 0 || a < im.poolSlot 0 || a % 64 ≠ 0 then none
    else if x < im.val Scr.BEM_GROUPS * im.val Scr.STG_CHANNELS && im.dest (im.recGroup x) = 2 then some (im, x)
    else none

/-- PRD_FREE. An address that is no pool slot belongs to no subarray: only an ADMIN page hears that it is bad (R272, R418). -/
def execPrdFree (ring : Fin 262144) (s : State) : Res :=
  let r := ring.val
  withCmd s r 0x71 (fun s e =>
    match s.frameAt (e.arg 64 64) with
    | none => s.finish r e (if e.admin then stBadArg else stDenied)
    | some (im, x) =>
      if !e.admin && e.sub != im.poolSub then s.finish r e stDenied
      else if s.frameHeld x then ((s.freeFrame x).retryAdds).complete r e stOk 0 0
      else s.complete r e stOk 1 0)

end Sys2Proof.Machine
end

