-- ==== Sys2Proof/Machine/StoreCmd.lean ====
section
/-!
DEFINITION. The store's own commands (R165, R166, R171 to R180): requests at its ports, scrub, refresh, training, fences,
self-refresh. A request waits while its pseudo-channel relocates granules, and DARK serves none.
-/

namespace Sys2Proof.Machine

/-- The store has power. -/
def State.storeOn (s : State) : Bool := s.getF PWR_STATUS.STATE != 3

/-! ## Requests -/

/-- A read at a port, whose data the port keeps as the last line delivered (R165). -/
def State.storeRead (s : State) (port a : Nat) (errs : List Nat) (wait : Nat) : State :=
  s.request (s.newReq port a wait (.read errs .port))

/-- A write at a port (R163, R165). -/
def State.storeWrite (s : State) (port a : Nat) (data : BitVec 512) (bytes : BitVec 64) (errs : List Nat) (wait : Nat) : State :=
  s.request (s.newReq port a wait (.write data bytes errs))

/-- An atomic add at a port (R163, R178, R179). -/
def State.storeAdd (s : State) (port a : Nat) (fmt : Fin 3) (mask : BitVec 16) (data : BitVec 512) (errs : List Nat) : State :=
  s.request (s.newReq port a 0 (.add fmt.val mask data errs))

/-- House cycles from one scrub read of a pseudo-channel to the next: all its lines in STO_SCRUB_HOURS (R166). -/
def State.scrubPace (s : State) : Nat := s.sv Scr.STO_SCRUB_HOURS * (60 * minuteCycles) / pcLines

/-- Patrol scrub of the line that is next in a pseudo-channel (R166). In self-refresh it reads nothing and stays where it stopped; at the
usable capacity it begins again. -/
def State.scrub (s : State) (n : Nat) (errs : List Nat) : State :=
  let p := s.pch n
  let due := match p.scrubAt with | none => true | some c => decide (c + s.scrubPace ≤ s.clk.cycles)
  if !due || s.bit (STO_SR.MAP (n / 64)) (n % 64) then s
  else
    let k := if lineOf n p.scrubNext < s.capBytes then p.scrubNext else 0
    let t := s.setPch n { p with scrubNext := (k + 1) % pcLines, scrubAt := some s.clk.cycles }
    t.request (t.newReq 9 (lineOf n k) 0 (.scrub errs))

/-- STORE_READ (R165). -/
def execStoreRead (port : Fin 10) (addr : Nat) (errs : List Nat) (wait : Nat) (s : State) : Res :=
  if storeBytes ≤ addr then .fault (.noSuchAddress addr)
  else done (s.whenever s.storeOn (fun s => s.storeRead port.val addr errs wait))

/-- STORE_WRITE (R165). -/
def execStoreWrite (port : Fin 10) (addr : Nat) (data : BitVec 512) (bytes : BitVec 64) (errs : List Nat) (wait : Nat)
    (s : State) : Res :=
  if storeBytes ≤ addr then .fault (.noSuchAddress addr)
  else done (s.whenever s.storeOn (fun s => s.storeWrite port.val addr data bytes errs wait))

/-- ATOMIC_ADD (R178). -/
def execAtomicAdd (port : Fin 10) (addr : Nat) (fmt : Fin 3) (mask : BitVec 16) (data : BitVec 512) (errs : List Nat)
    (s : State) : Res :=
  if storeBytes ≤ addr then .fault (.noSuchAddress addr)
  else done (s.whenever s.storeOn (fun s => s.storeAdd port.val addr fmt mask data errs))

/-- PATROL_SCRUB (R166). -/
def execPatrolScrub (pc : Fin 256) (errs : List Nat) (s : State) : Res :=
  done (s.whenever (s.storeOn && s.flag STO_STATUS.READY) (fun s => s.scrub pc.val errs))

/-! ## Refresh (R171) -/

/-- A request for a bank is queued. -/
def State.bankQueued (s : State) (n b : Nat) : Bool := (s.pch n).queue.any (fun r => bankOf r.a == b)

/-- A bank's refresh interval has passed. With requests queued, as the command says or as the queue holds them, the refresh is
postponed; at a debt of 8 it is forced, which closes the bank's row. In an idle bank the due refresh is issued, what is owed with
it, and up to 4 ahead of schedule: how many of those is a free value (log 26). -/
def State.refreshDue (s : State) (n b : Nat) (queued : Bool) : State :=
  let p := s.pch n
  let d := Tbl.get p.debt 0 b + 1
  if queued || s.bankQueued n b then
    let forced := decide (8 ≤ d)
    let s := s.setF (STO_PC_STAT.DEBT_MAX n) (max (s.getF (STO_PC_STAT.DEBT_MAX n)) d.toNat)
    s.setPch n { p with
      debt := Tbl.set p.debt 0 b (if forced then d - 1 else d),
      rows := if forced then Tbl.set p.rows 0 b 0 else p.rows }
  else s.drew.setPch n { p with debt := Tbl.set p.debt 0 b (-((s.free % 5 : Nat) : Int)), rows := Tbl.set p.rows 0 b 0 }

/-- REFRESH_DUE: not in self-refresh, where the stack refreshes itself. -/
def execRefreshDue (pc : Fin 256) (bank : Fin 48) (queued : Bool) (s : State) : Res :=
  done (s.whenever (s.storeOn && s.getF (STO_PC_STAT.STATE pc.val) = 1) (fun s => s.refreshDue pc.val bank.val queued))

/-! ## Training (R172 to R174) -/

/-- A pseudo-channel that fails its first training is fenced before first use: no data is lost, and STO_ registers alone report
it (R172). At most 16 are fenced. -/
def State.startFence (s : State) (n : Nat) : State :=
  if s.fenced n || decide (16 ≤ s.getF STO_STATUS.FENCES) then s
  else
    let s := (s.putBit (STO_FENCE.MAP (n / 64)) (n % 64) true).setF (STO_PC_STAT.STATE n) 3
    ((s.addF STO_STATUS.FENCES 1).fenceCap.journal (.fence n)).setReplace 2

/-- A pseudo-channel has passed its first training (R172). The margins and the reference voltage it found are free values. -/
def State.trained (s : State) (n : Nat) : State :=
  let v := s.free
  let s := s.drew.setPch n { s.pch n with trainedAt := s.clk.cycles }
  let s := (s.setF (STO_PC_STAT.STATE n) 1).setF (STO_PC_STAT.TEMP_TRAIN n) (s.stackTemp n)
  ((s.setF (STO_PC_MARGIN.READ n) (bitsOf v 0 8)).setF (STO_PC_MARGIN.WRITE n) (bitsOf v 8 8)).setF (STO_PC_MARGIN.VREF n) (bitsOf v 16 8)

/-- The first training ends: pseudo-channels that fail it are fenced, the others are active. -/
def State.firstTraining (s : State) (bad : List Nat) : State :=
  let s := s.each bad State.startFence
  let s := s.each ((List.range 256).filter (fun n => !s.fenced n && !bad.contains n)) State.trained
  s.setF STO_STATUS.READY 1

/-- STORE_TRAINING_DONE (R172). -/
def execStoreTrainingDone (failed : List (Fin 256)) (s : State) : Res :=
  done (s.whenever (s.storeOn && !s.flag STO_STATUS.READY) (fun s => s.firstTraining (failed.map (fun n => n.val))))

/-- Corrected errors of the last minute. -/
def State.ceMinute (s : State) (n : Nat) : Nat :=
  ((s.pch n).ceRecent.filter (fun e => decide (s.clk.cycles < e.2 + minuteCycles))).foldl (fun t e => t + e.1) 0

/-- One of the three reasons to retrain holds (R173). -/
def State.retrainDue (s : State) (n : Nat) : Bool :=
  let period := s.sv Scr.STO_RETRAIN_PERIOD
  s.tempMoved n || (period != 0 && decide ((s.pch n).trainedAt + period * minuteCycles ≤ s.clk.cycles)) ||
    decide (s.sv Scr.STO_CE_RETRAIN ≤ s.ceMinute n)

/-- RETRAIN_START (R173): of an active pseudo-channel. -/
def execRetrainStart (pc : Fin 256) (s : State) : Res :=
  let n := pc.val
  done (s.whenever (s.storeOn && s.flag STO_STATUS.READY && s.getF (STO_PC_STAT.STATE n) = 1 && s.retrainDue n) (fun s => s.retrain n))

/-- A setting passes with these eye margins (R412). -/
def marginOk (readPs writePs : Nat) : Bool := decide (12 ≤ readPs) && decide (12 ≤ writePs)

/-- The end of a retraining (R174). -/
def State.retrained (s : State) (n readPs writePs vref : Nat) (newOk lastOk : Bool) : State :=
  let out := if newOk && marginOk readPs writePs then 0 else if lastOk then 1 else 2
  let s := (s.retrainOver n).setPch n { s.pch n with trainedAt := s.clk.cycles }
  let s := (s.incF (STO_PC_STAT.TRAINS n) 1).setF (STO_PC_STAT.TEMP_TRAIN n) (s.stackTemp n)
  let s := (s.setF (STO_PC_MARGIN.READ n) readPs).setF (STO_PC_MARGIN.WRITE n) writePs
  let s := s.setFlag (STO_PC_STAT.LKG n) (out = 1)
  let s := s.emit (pcSrc n) 0x0503 (readPs % 256 + 256 * (writePs % 256)) (n + 256 * out) (if out = 1 then 1 else 0)
  if out = 0 then s.setF (STO_PC_MARGIN.VREF n) vref
  else if out = 1 then s
  else (s.setPch n { s.pch n with outcome2 := true }).fence n

/-- RETRAIN_COMPLETE (R174). -/
def execRetrainComplete (pc : Fin 256) (readPs writePs vref : Nat) (newOk lastGoodOk : Bool) (s : State) : Res :=
  done (s.whenever (s.storeOn && s.flag (STO_PC_STAT.TRAINING pc.val)) (fun s =>
    s.retrained pc.val readPs writePs vref newOk lastGoodOk))

/-! ## Fences, self-refresh, error windows -/

/-- FENCE_RELOCATION_DONE (R175). -/
def execFenceRelocationDone (pc : Fin 256) (s : State) : Res :=
  done (s.whenever (s.pch pc.val).relocating (fun s => s.relocated pc.val))

/-- A pseudo-channel has been idle for STO_SR_IDLE µs (R176). -/
def State.srIdle (s : State) (n : Nat) : Bool :=
  (s.pch n).queue.isEmpty && decide ((s.pch n).usedAt + 250 * s.sv Scr.STO_SR_IDLE ≤ s.clk.cycles)

/-- SELF_REFRESH_REENTRY (R176): in INTERMISSION and in iron. -/
def execSelfRefreshReentry (pc : Fin 256) (s : State) : Res :=
  done (s.whenever ((s.getF PWR_STATUS.STATE = 2 || s.iron) && s.srIdle pc.val) (fun s => (s.enterSr pc.val).refreshAllSr))

/-- CE_WINDOW_END (R180). -/
def execCeWindowEnd (pc : Fin 256) (s : State) : Res :=
  let n := pc.val
  done (match (s.pch n).ceWindow with
    | some k => (s.setPch n { s.pch n with ceWindow := none }).emit (pcSrc n) 0x0501 k n 1
    | none => s)

end Sys2Proof.Machine
end

