-- ==== Sys2Proof/Machine/Dispatch.lean ====
section
/-!
DEFINITION. One arm per command: a direct call of its meaning.
-/

namespace Sys2Proof.Machine

/-- The effect of a command on everything but the queue. -/
def exec (i : Instr) (s : State) : Host.Outcome State Fault Refusal :=
  match i with
  | .porstN bootSel i2cAddr => Sys2Proof.Machine.execPorstN bootSel i2cAddr s
  | .wrstN lowSamples => Sys2Proof.Machine.execWrstN lowSamples s
  | .cxlConventionalReset => Sys2Proof.Machine.execCxlConventionalReset s
  | .cxlHotReset => Sys2Proof.Machine.execCxlHotReset s
  | .functionLevelReset => Sys2Proof.Machine.execFunctionLevelReset s
  | .surpriseRemoval => Sys2Proof.Machine.execSurpriseRemoval s
  | .viral => Sys2Proof.Machine.execViral s
  | .registerWrite bar off size val same => Sys2Proof.Machine.execRegisterWrite bar off size val same s
  | .registerReadClear bar off size same => Sys2Proof.Machine.execRegisterReadClear bar off size same s
  | .hostEnable => Sys2Proof.Machine.execHostEnable s
  | .hostDisable => Sys2Proof.Machine.execHostDisable s
  | .doorbell off size val ctxBad => Sys2Proof.Machine.execDoorbell off size val ctxBad s
  | .commandFetch ring desc ctxBad => Sys2Proof.Machine.execCommandFetch ring desc ctxBad s
  | .nop ring => Sys2Proof.Machine.execNop ring s
  | .ringCreate ring => Sys2Proof.Machine.execRingCreate ring s
  | .ringDestroy ring => Sys2Proof.Machine.execRingDestroy ring s
  | .ringResize ring => Sys2Proof.Machine.execRingResize ring s
  | .ringQuery ring => Sys2Proof.Machine.execRingQuery ring s
  | .resizeApply ring => Sys2Proof.Machine.execResizeApply ring s
  | .msixModTimer ring => Sys2Proof.Machine.execMsixModTimer ring s
  | .msixHoldoffExpiry vector => Sys2Proof.Machine.execMsixHoldoffExpiry vector s
  | .hdmRead addr errs => Sys2Proof.Machine.execHdmRead addr errs s
  | .hdmWrite addr data bytes errs => Sys2Proof.Machine.execHdmWrite addr data bytes errs s
  | .hostSnoop line => Sys2Proof.Machine.execHostSnoop line s
  | .doeObject protocol body => Sys2Proof.Machine.execDoeObject protocol body s
  | .doeAbort => Sys2Proof.Machine.execDoeAbort s
  | .doeDiscovery => Sys2Proof.Machine.execDoeDiscovery s
  | .cdatRead => Sys2Proof.Machine.execCdatRead s
  | .ideKm => Sys2Proof.Machine.execIdeKm s
  | .getId => Sys2Proof.Machine.execGetId s
  | .getReport => Sys2Proof.Machine.execGetReport s
  | .session => Sys2Proof.Machine.execSession s
  | .debugUnlock => Sys2Proof.Machine.execDebugUnlock s
  | .endSession => Sys2Proof.Machine.execEndSession s
  | .scriptLoad ring data => Sys2Proof.Machine.execScriptLoad ring data s
  | .scriptCommit ring sig uncorrectable => Sys2Proof.Machine.execScriptCommit ring sig uncorrectable s
  | .scriptCancel ring => Sys2Proof.Machine.execScriptCancel ring s
  | .scriptRead ring => Sys2Proof.Machine.execScriptRead ring s
  | .lockPoint => Sys2Proof.Machine.execLockPoint s
  | .imageRelease index => Sys2Proof.Machine.execImageRelease index s
  | .rollCallGo code => Sys2Proof.Machine.execRollCallGo code s
  | .rollCallQuery code => Sys2Proof.Machine.execRollCallQuery code s
  | .rollCallDone h l => Sys2Proof.Machine.execRollCallDone h l s
  | .measurementTick y phasePs => Sys2Proof.Machine.execMeasurementTick y phasePs s
  | .entryDisqualified entry phasePs => Sys2Proof.Machine.execEntryDisqualified entry phasePs s
  | .wtrExpiry entry => Sys2Proof.Machine.execWtrExpiry entry s
  | .xoHistoryValid => Sys2Proof.Machine.execXoHistoryValid s
  | .refAbsent input phasePs => Sys2Proof.Machine.execRefAbsent input phasePs s
  | .refPresent input => Sys2Proof.Machine.execRefPresent input s
  | .lockAcquired maxPs => Sys2Proof.Machine.execLockAcquired maxPs s
  | .holdoverToLost => Sys2Proof.Machine.execHoldoverToLost s
  | .ppsEdge input => Sys2Proof.Machine.execPpsEdge input s
  | .ppsMissing input => Sys2Proof.Machine.execPpsMissing input s
  | .softwareLoopOpen => Sys2Proof.Machine.execSoftwareLoopOpen s
  | .softwareLoopClose phasePs => Sys2Proof.Machine.execSoftwareLoopClose phasePs s
  | .fowWrite fow => Sys2Proof.Machine.execFowWrite fow s
  | .swdogExpiry => Sys2Proof.Machine.execSwdogExpiry s
  | .serdesRefUnlock => Sys2Proof.Machine.execSerdesRefUnlock s
  | .epochStart => Sys2Proof.Machine.execEpochStart s
  | .epochClr => Sys2Proof.Machine.execEpochClr s
  | .stepArm => Sys2Proof.Machine.execStepArm s
  | .dwellStart => Sys2Proof.Machine.execDwellStart s
  | .dwellClose => Sys2Proof.Machine.execDwellClose s
  | .epsRecord => Sys2Proof.Machine.execEpsRecord s
  | .sync port hdr t1 corr twoStep seq => Sys2Proof.Machine.execSync port hdr t1 corr twoStep seq s
  | .followUp port hdr t1 corr seq => Sys2Proof.Machine.execFollowUp port hdr t1 corr seq s
  | .delayResp port hdr t4 corr => Sys2Proof.Machine.execDelayResp port hdr t4 corr s
  | .announce port hdr data => Sys2Proof.Machine.execAnnounce port hdr data s
  | .delayReq dom => Sys2Proof.Machine.execDelayReq dom s
  | .announceTimeout dom => Sys2Proof.Machine.execAnnounceTimeout dom s
  | .domainWtrExpiry dom => Sys2Proof.Machine.execDomainWtrExpiry dom s
  | .domainRevert => Sys2Proof.Machine.execDomainRevert s
  | .slewComplete => Sys2Proof.Machine.execSlewComplete s
  | .compareArm unit => Sys2Proof.Machine.execCompareArm unit s
  | .compareFire unit => Sys2Proof.Machine.execCompareFire unit s
  | .snapshotRead => Sys2Proof.Machine.execSnapshotRead s
  | .sequenceAssign bad => Sys2Proof.Machine.execSequenceAssign bad s
  | .codeword port lane corrected msg => Sys2Proof.Machine.execCodeword port lane corrected msg s
  | .commaWord port lane word => Sys2Proof.Machine.execCommaWord port lane word s
  | .commaLoss port lane => Sys2Proof.Machine.execCommaLoss port lane s
  | .laneRestore port lane => Sys2Proof.Machine.execLaneRestore port lane s
  | .dropReqIgnored port => Sys2Proof.Machine.execDropReqIgnored port s
  | .blockLockGain port lane => Sys2Proof.Machine.execBlockLockGain port lane s
  | .blockLockLoss port lane => Sys2Proof.Machine.execBlockLockLoss port lane s
  | .pswSend port => Sys2Proof.Machine.execPswSend port s
  | .ingestPacket port fecBad header payload => Sys2Proof.Machine.execIngestPacket port fecBad header payload s
  | .gk4Packet port bytes => Sys2Proof.Machine.execGk4Packet port bytes s
  | .blankRelease => Sys2Proof.Machine.execBlankRelease s
  | .nullVectors cluster => Sys2Proof.Machine.execNullVectors cluster s
  | .cueInterrupt cluster input => Sys2Proof.Machine.execCueInterrupt cluster input s
  | .pitNop cluster => Sys2Proof.Machine.execPitNop cluster s
  | .mul cluster => Sys2Proof.Machine.execMul cluster s
  | .mac cluster => Sys2Proof.Machine.execMac cluster s
  | .tapm cluster => Sys2Proof.Machine.execTapm cluster s
  | .mpxa cluster => Sys2Proof.Machine.execMpxa cluster s
  | .ald cluster => Sys2Proof.Machine.execAld cluster s
  | .aclr cluster => Sys2Proof.Machine.execAclr cluster s
  | .ext cluster => Sys2Proof.Machine.execExt cluster s
  | .qpk cluster => Sys2Proof.Machine.execQpk cluster s
  | .cis cluster => Sys2Proof.Machine.execCis cluster s
  | .mag cluster => Sys2Proof.Machine.execMag cluster s
  | .add cluster => Sys2Proof.Machine.execAdd cluster s
  | .sub cluster => Sys2Proof.Machine.execSub cluster s
  | .pitAnd cluster => Sys2Proof.Machine.execPitAnd cluster s
  | .pitOr cluster => Sys2Proof.Machine.execPitOr cluster s
  | .pitXor cluster => Sys2Proof.Machine.execPitXor cluster s
  | .pitMin cluster => Sys2Proof.Machine.execPitMin cluster s
  | .pitMax cluster => Sys2Proof.Machine.execPitMax cluster s
  | .sel cluster => Sys2Proof.Machine.execSel cluster s
  | .cnt cluster => Sys2Proof.Machine.execCnt cluster s
  | .cmp cluster => Sys2Proof.Machine.execCmp cluster s
  | .pack cluster => Sys2Proof.Machine.execPack cluster s
  | .addi cluster => Sys2Proof.Machine.execAddi cluster s
  | .andi cluster => Sys2Proof.Machine.execAndi cluster s
  | .shli cluster => Sys2Proof.Machine.execShli cluster s
  | .shrai cluster => Sys2Proof.Machine.execShrai cluster s
  | .mvi cluster => Sys2Proof.Machine.execMvi cluster s
  | .cmpi cluster => Sys2Proof.Machine.execCmpi cluster s
  | .setp cluster => Sys2Proof.Machine.execSetp cluster s
  | .setk cluster => Sys2Proof.Machine.execSetk cluster s
  | .setn cluster => Sys2Proof.Machine.execSetn cluster s
  | .setbw cluster => Sys2Proof.Machine.execSetbw cluster s
  | .fclr cluster => Sys2Proof.Machine.execFclr cluster s
  | .pitIn cluster => Sys2Proof.Machine.execPitIn cluster s
  | .ina cluster => Sys2Proof.Machine.execIna cluster s
  | .pitOut cluster => Sys2Proof.Machine.execPitOut cluster s
  | .mvt cluster => Sys2Proof.Machine.execMvt cluster s
  | .vclr cluster => Sys2Proof.Machine.execVclr cluster s
  | .br cluster => Sys2Proof.Machine.execBr cluster s
  | .loop cluster => Sys2Proof.Machine.execLoop cluster s
  | .rti cluster => Sys2Proof.Machine.execRti cluster s
  | .illegalOp cluster => Sys2Proof.Machine.execIllegalOp cluster s
  | .pitLocalWrite ring data => Sys2Proof.Machine.execPitLocalWrite ring data s
  | .pitLocalRead ring => Sys2Proof.Machine.execPitLocalRead ring s
  | .pitCoefWrite ring data => Sys2Proof.Machine.execPitCoefWrite ring data s
  | .storeRead port addr errs wait => Sys2Proof.Machine.execStoreRead port addr errs wait s
  | .storeWrite port addr data bytes errs wait => Sys2Proof.Machine.execStoreWrite port addr data bytes errs wait s
  | .atomicAdd port addr fmt mask data errs => Sys2Proof.Machine.execAtomicAdd port addr fmt mask data errs s
  | .patrolScrub pc errs => Sys2Proof.Machine.execPatrolScrub pc errs s
  | .refreshDue pc bank queued => Sys2Proof.Machine.execRefreshDue pc bank queued s
  | .storeTrainingDone failed => Sys2Proof.Machine.execStoreTrainingDone failed s
  | .retrainStart pc => Sys2Proof.Machine.execRetrainStart pc s
  | .retrainComplete pc readPs writePs vref newOk lastGoodOk => Sys2Proof.Machine.execRetrainComplete pc readPs writePs vref newOk lastGoodOk s
  | .fenceRelocationDone pc => Sys2Proof.Machine.execFenceRelocationDone pc s
  | .selfRefreshReentry pc => Sys2Proof.Machine.execSelfRefreshReentry pc s
  | .ceWindowEnd pc => Sys2Proof.Machine.execCeWindowEnd pc s
  | .streamBurst mover withdrawn failures => Sys2Proof.Machine.execStreamBurst mover withdrawn failures s
  | .flushMarkerPass line => Sys2Proof.Machine.execFlushMarkerPass line s
  | .replayReadTimeout page => Sys2Proof.Machine.execReplayReadTimeout page s
  | .descNop mover => Sys2Proof.Machine.execDescNop mover s
  | .copy mover data failures withdrawn => Sys2Proof.Machine.execCopy mover data failures withdrawn s
  | .fill mover failures withdrawn => Sys2Proof.Machine.execFill mover failures withdrawn s
  | .ilv mover data failures withdrawn => Sys2Proof.Machine.execIlv mover data failures withdrawn s
  | .tri mover data failures withdrawn => Sys2Proof.Machine.execTri mover data failures withdrawn s
  | .fence mover => Sys2Proof.Machine.execFence mover s
  | .descriptorComplete mover next => Sys2Proof.Machine.execDescriptorComplete mover next s
  | .paceTimeout mover => Sys2Proof.Machine.execPaceTimeout mover s
  | .movRun ring desc => Sys2Proof.Machine.execMovRun ring desc s
  | .movStop ring => Sys2Proof.Machine.execMovStop ring s
  | .replayStart => Sys2Proof.Machine.execReplayStart s
  | .corrPassStart part => Sys2Proof.Machine.execCorrPassStart part s
  | .corrPassEnd part => Sys2Proof.Machine.execCorrPassEnd part s
  | .gap part => Sys2Proof.Machine.execGap part s
  | .drainComplete part => Sys2Proof.Machine.execDrainComplete part s
  | .dwellDrained => Sys2Proof.Machine.execDwellDrained s
  | .beamPassStart part => Sys2Proof.Machine.execBeamPassStart part s
  | .beamPassComplete part => Sys2Proof.Machine.execBeamPassComplete part s
  | .weightLoadStart => Sys2Proof.Machine.execWeightLoadStart s
  | .weightLoadComplete => Sys2Proof.Machine.execWeightLoadComplete s
  | .weightLoadEscalate => Sys2Proof.Machine.execWeightLoadEscalate s
  | .recordReleaseTimeout record => Sys2Proof.Machine.execRecordReleaseTimeout record s
  | .recordRelease record => Sys2Proof.Machine.execRecordRelease record s
  | .integrationTimeout bank => Sys2Proof.Machine.execIntegrationTimeout bank s
  | .sweepComplete bank => Sys2Proof.Machine.execSweepComplete bank s
  | .beamHoldTimeout record => Sys2Proof.Machine.execBeamHoldTimeout record s
  | .bufAnnounce stream => Sys2Proof.Machine.execBufAnnounce stream s
  | .prdQuery ring => Sys2Proof.Machine.execPrdQuery ring s
  | .prdFree ring => Sys2Proof.Machine.execPrdFree ring s
  | .fabricInput port fecBad header payload => Sys2Proof.Machine.execFabricInput port fecBad header payload s
  | .fabricAdd port fecBad header payload => Sys2Proof.Machine.execFabricAdd port fecBad header payload s
  | .endMark port fecBad header => Sys2Proof.Machine.execEndMark port fecBad header s
  | .fabricWrite port fecBad header payload => Sys2Proof.Machine.execFabricWrite port fecBad header payload s
  | .writeAck port fecBad header => Sys2Proof.Machine.execWriteAck port fecBad header s
  | .beacon port fecBad header payload => Sys2Proof.Machine.execBeacon port fecBad header payload s
  | .creditUnit port fecBad header => Sys2Proof.Machine.execCreditUnit port fecBad header s
  | .fabricTransmit port => Sys2Proof.Machine.execFabricTransmit port s
  | .creditSend port => Sys2Proof.Machine.execCreditSend port s
  | .beaconSend port => Sys2Proof.Machine.execBeaconSend port s
  | .writeAckTimeout mover seq => Sys2Proof.Machine.execWriteAckTimeout mover seq s
  | .claimForget chip => Sys2Proof.Machine.execClaimForget chip s
  | .cueInEdge pin level nearEdge => Sys2Proof.Machine.execCueInEdge pin level nearEdge s
  | .channelEdge channel => Sys2Proof.Machine.execChannelEdge channel s
  | .filterMinwPass filter => Sys2Proof.Machine.execFilterMinwPass filter s
  | .filterRateRelease filter => Sys2Proof.Machine.execFilterRateRelease filter s
  | .filterStuck filter => Sys2Proof.Machine.execFilterStuck filter s
  | .cueFirePulse channel => Sys2Proof.Machine.execCueFirePulse channel s
  | .cueFireSet channel => Sys2Proof.Machine.execCueFireSet channel s
  | .cueFireClear channel => Sys2Proof.Machine.execCueFireClear channel s
  | .channelReenable channel => Sys2Proof.Machine.execChannelReenable channel s
  | .filterReenable filter => Sys2Proof.Machine.execFilterReenable filter s
  | .railFault source code => Sys2Proof.Machine.execRailFault source code s
  | .reactionStart => Sys2Proof.Machine.execReactionStart s
  | .fltAck source => Sys2Proof.Machine.execFltAck source s
  | .ackTimeout source => Sys2Proof.Machine.execAckTimeout source s
  | .ironMoverCut mover => Sys2Proof.Machine.execIronMoverCut mover s
  | .curtainFrame port => Sys2Proof.Machine.execCurtainFrame port s
  | .ironReq => Sys2Proof.Machine.execIronReq s
  | .ironExit selfTestOk => Sys2Proof.Machine.execIronExit selfTestOk s
  | .serviceEntry rails => Sys2Proof.Machine.execServiceEntry rails s
  | .fflRearm => Sys2Proof.Machine.execFflRearm s
  | .paritySweep error => Sys2Proof.Machine.execParitySweep error s
  | .heartbeatSend => Sys2Proof.Machine.execHeartbeatSend s
  | .heartbeat fecBad header payload => Sys2Proof.Machine.execHeartbeat fecBad header payload s
  | .partnerLost => Sys2Proof.Machine.execPartnerLost s
  | .swapPropose => Sys2Proof.Machine.execSwapPropose s
  | .joinTimeout => Sys2Proof.Machine.execJoinTimeout s
  | .digestSend dwell => Sys2Proof.Machine.execDigestSend dwell s
  | .digest fecBad header payload => Sys2Proof.Machine.execDigest fecBad header payload s
  | .digestSkip dwell => Sys2Proof.Machine.execDigestSkip dwell s
  | .engineFault row col => Sys2Proof.Machine.execEngineFault row col s
  | .clusterFault phys => Sys2Proof.Machine.execClusterFault phys s
  | .laneGraceExpiry port => Sys2Proof.Machine.execLaneGraceExpiry port s
  | .duoSwap ring => Sys2Proof.Machine.execDuoSwap ring s
  | .duoWithdraw ring => Sys2Proof.Machine.execDuoWithdraw ring s
  | .duoRejoin ring => Sys2Proof.Machine.execDuoRejoin ring s
  | .spareRetire ring => Sys2Proof.Machine.execSpareRetire ring s
  | .journalWriteDone copies => Sys2Proof.Machine.execJournalWriteDone copies s
  | .masterReset master bursts cycles => Sys2Proof.Machine.execMasterReset master bursts cycles s
  | .matrixTimeout master bursts cycles => Sys2Proof.Machine.execMatrixTimeout master bursts cycles s
  | .remapWrite master remap => Sys2Proof.Machine.execRemapWrite master remap s
  | .coreHeartbeat core => Sys2Proof.Machine.execCoreHeartbeat core s
  | .coreWatchdogExpiry core => Sys2Proof.Machine.execCoreWatchdogExpiry core s
  | .fwAbsent => Sys2Proof.Machine.execFwAbsent s
  | .bootImageFetched source image => Sys2Proof.Machine.execBootImageFetched source image s
  | .pushChunk => Sys2Proof.Machine.execPushChunk s
  | .pushChunkDone => Sys2Proof.Machine.execPushChunkDone s
  | .fwUpdate ring image => Sys2Proof.Machine.execFwUpdate ring image s
  | .coreReady core => Sys2Proof.Machine.execCoreReady core s
  | .updateCoreTimeout core => Sys2Proof.Machine.execUpdateCoreTimeout core s
  | .keyRevoke ring image => Sys2Proof.Machine.execKeyRevoke ring image s
  | .rollbackAnchor ring => Sys2Proof.Machine.execRollbackAnchor ring s
  | .ownerSet ring image => Sys2Proof.Machine.execOwnerSet ring image s
  | .nonceRead ring => Sys2Proof.Machine.execNonceRead ring s
  | .avsUpdate => Sys2Proof.Machine.execAvsUpdate s
  | .avsApplied code => Sys2Proof.Machine.execAvsApplied code s
  | .avsTimeout => Sys2Proof.Machine.execAvsTimeout s
  | .wake => Sys2Proof.Machine.execWake s
  | .darkRequest => Sys2Proof.Machine.execDarkRequest s
  | .railFaultReport rail => Sys2Proof.Machine.execRailFaultReport rail s
  | .thermalSample die hbm => Sys2Proof.Machine.execThermalSample die hbm s
  | .pwrSet ring => Sys2Proof.Machine.execPwrSet ring s
  | .holdReached => Sys2Proof.Machine.execHoldReached s
  | .intermissionReached => Sys2Proof.Machine.execIntermissionReached s
  | .darkReached => Sys2Proof.Machine.execDarkReached s
  | .holdNow => Sys2Proof.Machine.execHoldNow s
  | .clkMin => Sys2Proof.Machine.execClkMin s
  | .pitBlockReset => Sys2Proof.Machine.execPitBlockReset s
  | .movBlockReset => Sys2Proof.Machine.execMovBlockReset s
  | .stgBlockReset => Sys2Proof.Machine.execStgBlockReset s
  | .cueBlockReset => Sys2Proof.Machine.execCueBlockReset s
  | .hstBlockReset => Sys2Proof.Machine.execHstBlockReset s
  | .blockResetDone block => Sys2Proof.Machine.execBlockResetDone block s
  | .timePortFrame port frame => Sys2Proof.Machine.execTimePortFrame port frame s
  | .syncTimeout dom => Sys2Proof.Machine.execSyncTimeout dom s
  | .serdesRefLock => Sys2Proof.Machine.execSerdesRefLock s
  | .jtagInstruction op => Sys2Proof.Machine.execJtagInstruction op s
  | .cxlLinkTrained width rate flit256 => Sys2Proof.Machine.execCxlLinkTrained width rate flit256 s

end Sys2Proof.Machine
end

