-- ==== Sys2Proof/Safety.lean ====
section
/-!
DEFINITION. What counts as a safe run, and the words the statements use: the invariant, frames over store, host memory and register
fields, and when a ring command is served.
-/

namespace Sys2Proof.Machine

/-- The invariant of the block. The store and host memory are in their canonical form, so that equal contents are equal data; no
class 4 fault stands without its answer (R320); the next sequence number is at least 1 (R15). -/
def State.Inv (s : State) : Prop :=
  Memory.wf s.mem ∧ Memory.wf s.host.hostMem ∧ s.flt.c4 = [] ∧ 1 ≤ s.nextSeq

/-- Every store byte reads as before. -/
def sameStore (s t : State) : Prop := ∀ a, Memory.read t.mem a = Memory.read s.mem a

/-- Every store byte outside the line at `a` reads as before. -/
def sameStoreBut (a : Nat) (s t : State) : Prop := ∀ x, x < a ∨ a + 64 ≤ x → Memory.read t.mem x = Memory.read s.mem x

/-- Every register field but those listed reads as before. -/
def sameFields (l : List Fld) (s t : State) : Prop := ∀ f : Fld, f.key ∉ l.map Fld.key → t.getF f = s.getF f

/-- Only register fields of the list have changed: every other field, and every other part of the state, is as before. -/
def onlyFields (l : List Fld) (s t : State) : Prop := sameFields l s t ∧ t = { s with regs := t.regs }

/-- Ring `r` executes descriptor `e` with opcode `op`, and no missing core holds it up (R42, R355). -/
def State.serves (s : State) (r op : Nat) (e : Exec) : Prop := s.running r op = some e ∧ (4 < op → s.coreRuns = true)

/-- The address a command accesses, with the first address beyond its space (R28, R159). -/
def accessOf : Instr → Option (Nat × Nat)
  | .hdmRead a _ => some (a, hdmSize)
  | .hdmWrite a _ _ _ => some (a, hdmSize)
  | .storeRead _ a _ _ => some (a, storeBytes)
  | .storeWrite _ a _ _ _ _ => some (a, storeBytes)
  | .atomicAdd _ a _ _ _ _ => some (a, storeBytes)
  | _ => none

/-- The event entry of class C0 that a unit reports at this house cycle (R12, R310, R419). -/
def State.event (s : State) (subs : List Nat) (src code d0 d1 : Nat) : Ev :=
  ⟨s.clk.cycles, s.houseSix, src, code, d0 % 2 ^ 64, d1 % 2 ^ 32, 0, 0, subs, false⟩

/-- From `s` to `t` a doorbell was discarded: its HST_ERR bit, the count and its event, and nothing else (R35). -/
def dropped (f : Fld) (e : Ev) (s t : State) : Prop :=
  t.getF f = 1 ∧ t.getF HST_DB_DROP.COUNT = min (2 ^ 32 - 1) (s.getF HST_DB_DROP.COUNT + 1) ∧
    sameFields [f, HST_DB_DROP.COUNT] s t ∧ t = { s with regs := t.regs, outbox := s.outbox ++ [e] }

/-- A run of the block is safe while it stops nowhere: every command's address exists. -/
def State.safe (s : State) : Prop :=
  match s.pending with
  | [] => True
  | c :: _ => ∀ a n, accessOf c = some (a, n) → a < n

end Sys2Proof.Machine
end

