-- ==== Sys2Proof/Certificates/Slice0/Obligations.lean ====
section
/-!
DEFINITION. The statements about the block, for the provers. Those with "Complete" in their name say where a command completes
with its own effect; `settle` is the answer every command gives to class 4 faults that have arrived (R320).
-/

open Sys2Proof Sys2Proof.Machine

/-- PORST_N, WRST_N (low for 64 samples, not in DARK), the three CXL resets, surprise removal, viral and link training at a width, rate and flit mode that R27 lists answer a next state: the one the rules give. PERST# released in DARK wakes the device. (R27, R30, R385, R387, R388) -/
def Obligations.ResetsAndLinkComplete : Prop :=
  ∀ s : State,
  (∀ b i, exec (.porstN b i) s = .next ((s.powerOn b.val i.val).showHckSt.startPorts.startBoot 0).settle) ∧
  (∀ n, 64 ≤ n → s.power ≠ 3 → exec (.wrstN n) s = .next s.warmReset.settle) ∧
  (s.power ≠ 3 → exec .cxlConventionalReset s = .next s.conventionalReset.settle) ∧
  (s.power = 3 → exec .cxlConventionalReset s = .next s.wake.settle) ∧
  exec .cxlHotReset s = .next (({ s.resetConfig with host.ideKeys := false } : State).setF HST_STATUS.IDE_ON 0).settle ∧
  exec .functionLevelReset s = .next s.resetConfig.settle ∧
  exec .surpriseRemoval s = .next s.disable.settle ∧
  exec .viral s = .next ({ s with host.viral := true } : State).settle ∧
  (∀ w (r : Fin 4) f, linkOk w r.val f = true → s.power ≠ 3 → exec (.cxlLinkTrained w r f) s =
    .next ({ (((s.setF HST_STATUS.LINK_WIDTH w).setF HST_STATUS.LINK_RATE r.val).setFlag HST_STATUS.FLIT256 f).setFlag
      HST_STATUS.MEM_ON f with pwr.trained := true } : State).settle)

/-- Outside DARK every access to a BAR, ENABLE after READY, an accepted doorbell and a snoop answer the next state of the access; so does every HDM read at an address that exists, and every HDM write at one that the host may write, while memory is on. (R6, R8, R27, R28, R29, R31, R32, R35, R40) -/
def Obligations.HostAccessesComplete : Prop :=
  ∀ s : State,
  (s.power ≠ 3 →
    (∀ o n v m, exec (.registerWrite .registers o n v m) s = .next (s.writeReg o n v m).settle ∧
      exec (.registerWrite .doorbells o n v m) s = .next (s.ringDoorbell o n v false).settle ∧
      exec (.registerWrite .component o n v m) s = .next s.settle) ∧
    (∀ o n m, exec (.registerReadClear .registers o n m) s = .next (s.readReg o n m).settle ∧
      exec (.registerReadClear .doorbells o n m) s = .next ({ s.badAccess with host.lastRead := 0 } : State).settle ∧
      exec (.registerReadClear .component o n m) s =
        .next ({ s.drew with host.lastRead := bitsOf s.free 0 (8 * n) } : State).settle)) ∧
  (s.flag HST_STATUS.READY = true → s.power ≠ 3 → exec .hostEnable s = .next s.enable.settle) ∧
  (s.flag HST_STATUS.READY = true → s.flag HST_CTRL.ENABLE = true → s.power ≠ 3 →
    exec .hostDisable s = .next s.disable.settle) ∧
  (∀ o v x, s.power ≠ 3 → o % 8 = 0 → pageOfRing (bitsOf (v % 2 ^ 64) 0 18) = o / 4096 →
    s.ring (bitsOf (v % 2 ^ 64) 0 18) = some x → s.pageValid (o / 4096) = true →
    (if x.kind = 0 then ofSigned 32 ((bitsOf (v % 2 ^ 64) 18 32 : Int) - x.cons)
      else ofSigned 32 ((x.prod : Int) - bitsOf (v % 2 ^ 64) 18 32)) ≤ x.size →
    0 ≤ toSigned 32 (bitsOf (v % 2 ^ 64) 18 32 + (2 ^ 32 - (if x.kind = 0 then x.prod else x.cons) % 2 ^ 32)) →
    exec (.doorbell o 8 v false) s = .next ((s.touchCtx (bitsOf (v % 2 ^ 64) 0 18)).dbAccept (bitsOf (v % 2 ^ 64) 0 18) x
      (bitsOf (v % 2 ^ 64) 18 32)).settle) ∧
  (∀ a errs, a < hdmSize → s.memOn = true → exec (.hdmRead a errs) s = .next (s.hdmRead a errs).settle) ∧
  (∀ a d b errs, a < hdmSize → s.memOn = true → s.hostMayWrite a = true →
    exec (.hdmWrite a d b errs) s = .next (s.hdmWrite a d b errs).settle) ∧
  (∀ l q, s.power ≠ 3 → s.host.devCache.find? (fun e => e.addr == l) = some q →
    exec (.hostSnoop l) s = .next (s.snooped q).settle) ∧
  (∀ l, s.power ≠ 3 → s.host.devCache.find? (fun e => e.addr == l) = none →
    exec (.hostSnoop l) s = .next (s.send (.snoopMiss l)).settle)

/-- COMMAND_FETCH of an assigned opcode the page may issue, the ring commands a ring executes with arguments in range, a pending resize of an empty ring, the modulation timer and the holdoff answer the next state of their own effect. (R37, R39, R41, R42, R43, R44, R47, R48, R355, R418) -/
def Obligations.RingCommandsComplete : Prop :=
  ∀ s : State,
  (∀ (r : Fin 262144) x desc d, s.ring r.val = some x → s.mayFetch r.val x = true → s.power ≠ 3 → d = s.descRead x desc →
    opcodes.contains (bitsOf d.toNat 0 8) = true →
    (⟨d, x.cons, s.pageAdmin (pageOfRing r.val), s.pageSub (pageOfRing r.val)⟩ : Exec).denied = false →
    exec (.commandFetch r desc false) s = .next (((s.touchCtx r.val).cacheDesc x d).setRing r.val (some { x with
      cons := (x.cons + 1) % 2 ^ 32,
      exec := some ⟨d, x.cons, s.pageAdmin (pageOfRing r.val), s.pageSub (pageOfRing r.val)⟩ })).settle) ∧
  (∀ (r : Fin 262144) e, s.serves r.val 0x00 e → exec (.nop r) s = .next (s.finish r.val e stOk).settle) ∧
  (∀ (r : Fin 262144) e u pin, s.serves r.val 0x01 e → u = { s with scr.ctxPinned := s.newest.val Scr.HST_CTX_PINNED } →
    e.mayName r.val e.target = true → (e.arg 278 1 = 1 → e.admin = true) → s.ring e.target = none →
    u.createBad e = false → pin = (e.arg 90 1 == 1 && decide (u.pinnedRings < u.scr.ctxPinned)) →
    exec (.ringCreate r) s = .next (((u.setRing e.target (some (e.newRing pin))).cacheCtx e.target).finish r.val e
      (if e.arg 90 1 == 1 && !pin then stUnpinned else stOk)).settle) ∧
  (∀ (r : Fin 262144) e y, s.serves r.val 0x02 e → 3 ≤ e.target → e.mayName r.val e.target = true →
    s.ring e.target = some y → s.named e.target = false →
    (e.target = r.val ∨ (y.exec = none ∧ (y.kind = 0 → s.owesCompletion e.target y.cplRing = false))) →
    exec (.ringDestroy r) s = .next ((s.dropResize e.target y).completeGone r.val e stOk 0 0 (some e.target)).settle) ∧
  (∀ (r : Fin 262144) e y, s.serves r.val 0x03 e → 3 ≤ e.target → e.mayName r.val e.target = true →
    s.ring e.target = some y → 4 ≤ e.arg 84 5 → e.arg 84 5 ≤ 24 → e.arg 128 64 % 4096 = 0 →
    exec (.ringResize r) s = .next (if y.empty then
        ((((s.dropResize e.target y).setRing e.target (some (y.moved (e.arg 84 5) (e.arg 128 64)))).spaceBack
          e.target).finish r.val e stOk).settle
      else ((((s.dropResize e.target y).setRing e.target (some { y with resize := some (e.arg 84 5, e.arg 128 64) })).hstEvent
        e.target 0x0B06 (e.arg 128 64) (e.arg 84 5 + e.target * 2 ^ 14)).finish r.val e stPending).settle)) ∧
  (∀ (r : Fin 262144) e x, s.serves r.val 0x04 e → s.ring e.target = some x →
    exec (.ringQuery r) s = .next (s.complete r.val e stOk x.query 0).settle) ∧
  (∀ (r : Fin 262144) x l b, s.ring r.val = some x → x.resize = some (l, b) → x.empty = true → s.power ≠ 3 →
    exec (.resizeApply r) s = .next ((s.setRing r.val (some { x.moved l b with settling := true })).hstEvent r.val 0x0B07 b
      (l + r.val * 2 ^ 14)).settle) ∧
  (∀ (r : Fin 262144) x, s.ring r.val = some x → x.kind ≠ 0 → x.irqEn = true → x.modTime ≠ 0 → x.sinceMsg ≠ 0 → x.used ≠ 0 →
    exec (.msixModTimer r) s = .next ((s.lapse (.modTime r.val) (usCycles * x.modTime)).announceRing r.val x).settle) ∧
  (∀ v : Fin 2048, s.host.msixHeld.contains v.val = true → ∀ u, u = s.runCycles (Tbl.get s.host.msixLast 0 v.val - 1 +
      cdiv (s.sv Scr.HST_MSIX_HOLDOFF) 4 - s.clk.cycles) → exec (.msixHoldoffExpiry v) s =
    .next (({ u with host.msixHeld := u.host.msixHeld.filter (fun q => q != v.val) } : State).sendMsix v.val).settle)

/-- Outside DARK, DOE_OBJECT of a supported object while fewer than two are outstanding and DOE_ABORT answer a next state. While a core runs, the handler of the protocol and request code of the first outstanding object answers it: IDE_KM is accepted inside a session, END_SESSION ends one. (R49, R355, R366, R369, R370, R371) -/
def Obligations.MailboxComplete : Prop :=
  ∀ s : State, s.power ≠ 3 →
  (∀ p b, b.length ≤ 65536 → s.host.doeIn.length < 2 → doeSupported (some p) b = true →
    exec (.doeObject (some p) b) s = .next ({ s with host.doeIn := s.host.doeIn ++ [⟨p, b⟩] } : State).settle) ∧
  exec .doeAbort s = .next ({ s with
    host.doeIn := s.host.doeIn.dropLast, host.doeBusy := false, host.doeError := false } : State).settle ∧
  ∀ o rest, s.host.doeIn = o :: rest → s.coreRuns = true →
    (o.protocol = .discovery → exec .doeDiscovery s =
      .next (s.doeAnswer (.protocols [.discovery, .tableAccess, .ideKm, .attestation])).settle) ∧
    (o.protocol = .tableAccess → exec .cdatRead s = .next (s.doeAnswer (.table (256 * 2 ^ 30) 600 100)).settle) ∧
    (∀ k, o.protocol = .ideKm → s.host.sessionKey = some k → exec .ideKm s =
      .next ((({ s with host.ideKeys := true } : State).setF HST_STATUS.IDE_ON (s.free % 2)).drew.doeAnswer
        .ideAccepted).settle) ∧
    (o.protocol = .attestation →
      (leNat (o.body.take 1) = 1 → exec .getId s = .next (s.doeAnswer (.bytes (vangene 0x01 ++ leBytes 8 (s.getF CTL_ID.ID) ++
        Config.identityKey ++ Config.certificateChain))).settle) ∧
      (∀ m, m = s.report (BitVec.ofNat 256 (leNat ((o.body.drop 4).take 32))) → leNat (o.body.take 1) = 2 →
        exec .getReport s = .next (s.doeAnswer (.bytes (vangene 0x02 ++ m ++ Config.identitySign (sha3 m)))).settle) ∧
      (leNat (o.body.take 1) = 3 → exec .session s = .next (s.openSession ((o.body.drop 4).take ekBytes)
        (BitVec.ofNat 256 (leNat (((o.body.drop 4).drop ekBytes).take 32)))).settle) ∧
      (leNat (o.body.take 1) = 4 → s.verify 5 s.debugKey (o.body.drop 4) = 0 → exec .debugUnlock s =
        .next (((s.usedNonce 0).setF CTL_SEC.DEBUG 1).doeAnswer (.status 0x04 true)).settle) ∧
      (∀ k, leNat (o.body.take 1) = 5 → s.host.sessionKey = some k → exec .endSession s =
        .next (({ s with host.sessionKey := none } : State).doeAnswer (.status 0x05 true)).settle))

/-- Loads, commits that pass every step of R53, cancels and reads, the lock point of a pending commit, the release of an idle image and the roll-call frames answer the next state of their own effect. (R51, R52, R53, R54, R55, R65, R69, R94, R365) -/
def Obligations.ScriptCommandsComplete : Prop :=
  ∀ s : State,
  (∀ (r : Fin 262144) d e, s.serves r.val 0x10 e → e.arg 64 64 % 8 = 0 → e.arg 128 32 % 8 = 0 →
    ∀ u, u = (if e.arg 160 1 = 1 then { s with scr.staging := [] } else s) →
    ∀ q, q = State.loadRecords (d.length / 8 + 1) u d (e.arg 128 32) 0 0 → q.2.2.2 = 0 →
    exec (.scriptLoad r d) s = .next ((q.1.deviceBytes q.2.1).complete r.val e stOk
      (q.2.1 % 2 ^ 32 + 2 ^ 32 * min 65535 q.2.2.1) 0).settle) ∧
  (∀ (r : Fin 262144) sig e k, s.serves r.val 0x11 e → k = toSigned 64 (e.arg 64 64) → s.iron = false →
    (s.epoch = true → s.commitLate k = false ∧ k - s.houseDwell ≤ 2 ^ 24) → s.scr.pend = none →
    s.heldImages.length < 6 → ∀ b, b = s.buildImage false none k s.newest s.scr.staging → b.2.2.2 = false →
    ∀ u, u = b.1.clampReports b.2.2.1 → u.commitSigned b.2.1 sig = true →
    (e.arg 128 1 = 1 → e.arg 192 64 = s.newest.tag) → (e.arg 129 1 = 1 → e.arg 256 64 = b.2.1.tag) →
    (u.cluChanged s.newest b.2.1).all (fun c => (u.cluster c).swapDwell.isNone) = true →
    exec (.scriptCommit r sig false) s =
      .next (u.commitTake r.val e k s.newest b.2.1 b.2.2.1 (u.cluChanged s.newest b.2.1)).settle) ∧
  (∀ (r : Fin 262144) e, s.serves r.val 0x12 e →
    (s.scr.pend = none → exec (.scriptCancel r) s = .next (s.complete r.val e stOk 0 0).settle) ∧
    (∀ p, s.scr.pend = some p → (s.epoch = true → sixDiff s.houseSix (p.base.lockSix p.image.first) < 0) →
      exec (.scriptCancel r) s = .next ((s.dropCommit p 0x1007).complete r.val e stOk 1 0).settle)) ∧
  (∀ (r : Fin 262144) e im data, s.serves r.val 0x13 e →
    ((e.arg 160 1 = 0 ∧ im = s.newest) ∨ (e.arg 160 1 ≠ 0 ∧ ∃ p, s.scr.pend = some p ∧ im = p.image)) →
    data = (im.canonical false).take (e.arg 128 32) → exec (.scriptRead r) s =
      .next (((s.hostPut (e.arg 64 64) data).deviceBytes data.length).complete r.val e stOk data.length 0).settle) ∧
  (∀ p u, s.scr.pend = some p → s.epoch = true → s.power ≠ 3 → u = s.advanceTo (p.base.lockSix p.image.first) →
    u.getF CTL_CAP3.CAP_SEQ = p.capSeq → exec .lockPoint s = .next (u.lockIn p.image p.image.first).settle) ∧
  (∀ i : Fin 6, s.imageIdle i.val = true → exec (.imageRelease i) s =
    .next ({ s with scr.images := s.scr.images.eraseIdx i.val } : State).settle) ∧
  (∀ c, s.power ≠ 3 → exec (.rollCallGo c) s = .next (s.rollGo c.toNat).settle) ∧
  (∀ c u, s.flag SCP_RC_CTRL.ENABLE = true → s.power ≠ 3 → u = ({ s with scr.rcSnap := (s.rollAnswer c.toNat).2.1 } :
      State).send (.rollAnswer (s.rollAnswer c.toNat).2.1 (s.rollAnswer c.toNat).2.2) → exec (.rollCallQuery c) s =
    .next (if c = 0x31 ∧ s.flag SCP_RC_CTRL.ATTN = true then u.clearAttn else u).settle) ∧
  (∀ h l n, s.flag SCP_RC_QUERY.BUSY = true → s.power ≠ 3 → n = (s.rollAnswer s.scr.rcCode).1 →
    exec (.rollCallDone h l) s = .next (((((s.setF SCP_RC_H.LOW (h.toNat % 2 ^ n)).setF SCP_RC_L.LOW (l.toNat % 2 ^ n)).setF
      SCP_RC_QUERY.GO 0).setF SCP_RC_QUERY.BUSY 0).setF SCP_RC_QUERY.DONE 1).settle)

/-- Measurement ticks, disqualification, WTR expiry, reference and PPS events, lock, holdover, the software loop and the serdes-reference loop answer the next state of their own effect in the states the rules name. (R71, R73, R74, R75, R77, R79, R80, R81, R86, R87, R89) -/
def Obligations.HouseClockComplete : Prop :=
  ∀ s : State,
  (∀ y ps, exec (.measurementTick y ps) s = .next (((s.lapse .second secCycles).startTimer .second).measure y ps).settle) ∧
  (∀ (e : Fin 8) ps, s.entUsable e.val = true → s.flag HCK_STATUS.DISPUTE = false →
    s.hcfg HCK_TIMING.VALID_WIN ≤ s.getF (HCK_ENT.EXCESS e.val) →
    exec (.entryDisqualified e ps) s = .next (s.disqualify e.val ps).settle) ∧
  (∀ e : Fin 8, s.wtrOver e.val = true → exec (.wtrExpiry e) s = .next (((s.setEntState e.val
    (if s.getF (HCK_ENT.DEV e.val) = 0x80000000 then 6 else 3)).setF (HCK_ENT.WTR_LEFT e.val) 0).emit hckSrc 0x0105 0 e.val
      0).settle) ∧
  (s.getF HCK_STATUS.STATE = 2 → s.flag HCK_CTRL.OPEN = false → 3600 ≤ s.hck.lockedFor → exec .xoHistoryValid s =
    .next ({ (s.setF HCK_STATUS.XO_HIST 1).fitXo with hck.xoExcess := 0 } : State).settle) ∧
  (∀ (i : Fin 2) ps, exec (.refAbsent i ps) s = .next (({ s with
    hck.present := s.hck.present &&& ~~~(BitVec.ofNat 2 (2 ^ i.val)) } : State).hckSignals ps).settle) ∧
  (∀ i : Fin 2, (if i.val = 0 then s.hcfg HCK_CTRL.REFA_FREQ else s.hcfg HCK_CTRL.REFB_FREQ) ≠ 3 →
    exec (.refPresent i) s = .next (({ s with hck.present := s.hck.present ||| BitVec.ofNat 2 (2 ^ i.val) } :
      State).entSignals).settle) ∧
  (∀ m, s.getF HCK_STATUS.STATE = 1 → m ≤ s.hcfg HCK_TIMING.LOCK_PS →
    s.hck.closedAt + tenTimeConstants s.activeBw.1 ≤ s.clk.cycles → exec (.lockAcquired m) s = .next (s.hckState 2).settle) ∧
  (s.getF HCK_STATUS.STATE = 3 → s.hcfg HCK_HOLD.HOLD_MAX ≠ 0 → exec .holdoverToLost s =
    .next ((s.lapse .holdover (secCycles * s.hcfg HCK_HOLD.HOLD_MAX)).hckState 4).settle) ∧
  (∀ i : Fin 2, s.hcfg (ppsEnF i.val) = 1 → exec (.ppsEdge i) s = .next (s.ppsEdge i.val).settle) ∧
  (∀ i : Fin 2, s.hcfg (ppsEnF i.val) = 1 → exec (.ppsMissing i) s = .next (((({ s.setF (ppsOkF i.val) 0 with
    hck.ppsLast := s.hck.ppsLast.set i.val none } : State).putBit HCK_EVT.BITS 6 true).emit hckSrc 0x0108 i.val 0
      0)).settle) ∧
  exec .softwareLoopOpen s = .next s.loopOpen.settle ∧
  (∀ ps, exec (.softwareLoopClose ps) s = .next (s.loopClose ps).settle) ∧
  (∀ v, exec (.fowWrite v) s = .next (s.fowSet v.toNat).settle) ∧
  (s.flag HCK_CTRL.OPEN = true → s.getF HCK_STATUS.STATE = 2 → exec .swdogExpiry s =
    .next ((s.lapse .fow (secCycles * s.hcfg HCK_HOLD.SWDOG)).hckState 3).settle) ∧
  (s.flag HCK_STATUS.SER_LOCK = true → exec .serdesRefUnlock s = .next ((((s.setF HCK_STATUS.SER_LOCK 0).putBit HCK_EVT.BITS 5
    true).emit 0x001 0x0107 0 0 3).raise 0x001 0x0004 3 true).settle) ∧
  exec .serdesRefLock s = .next (s.setF HCK_STATUS.SER_LOCK 1).settle

/-- EPOCH_START with a valid TAI clock, EPOCH_CLR, STEP_ARM, the start and close of a dwell, the mapping record, compare units, the snapshot and the assignment of a sequence number answer the next state of their own effect. (R15, R17, R93, R94, R98, R102, R106, R108) -/
def Obligations.EpochAndDwellsComplete : Prop :=
  ∀ s : State,
  (s.epoch = false → (s.flag TIM_STATUS.TAI_VALID = true ∨ s.flag TIM_CTRL.FREE_EPOCH = true) →
    exec .epochStart s = .next s.epochBegin.settle) ∧
  exec .epochClr s = .next s.epochClear.settle ∧
  exec .stepArm s = .next (s.setF TIM_CTRL.STEP_ARM 1).settle ∧
  (s.epoch = true → s.power ≠ 3 → exec .dwellStart s =
    .next ((s.advanceTo (s.startSix (s.seq.started + 1))).dwellBegins (s.seq.started + 1)).settle) ∧
  (s.epoch = true → s.power ≠ 3 → s.seq.closed < s.seq.started → exec .dwellClose s =
    .next (s.dwellCloses (s.seq.closed + 1)).settle) ∧
  (s.epoch = true → exec .epsRecord s =
    .next ((s.lapse .epsRec (secCycles * s.sv Scr.TIM_EPS_REC)).startTimer .epsRec).epsRecord.settle) ∧
  (∀ u : Fin 8, exec (.compareArm u) s = .next (s.cmpArm u.val).settle) ∧
  (∀ u : Fin 8, s.cmpLive u.val = true → exec (.compareFire u) s = .next (s.cmpFire u.val).settle) ∧
  exec .snapshotRead s = .next s.snapshot.settle ∧
  ∀ bad, exec (.sequenceAssign bad) s = .next (s.assign (bad.map (fun r => r.val))).settle

/-- A Sync is taken by the domain instances that hear it, a Follow_Up or Delay_Resp that one hears completes what it answers, an announcement is taken by those that process it; timeouts, the domain timers, the end of a slew and the frames of a transparent clock answer the next state of their own effect. (R99, R100, R101, R102, R103, R104) -/
def Obligations.TimePortsComplete : Prop :=
  ∀ s : State,
  (∀ (p : Fin 2) h t1 c q, exec (.sync p h t1 c true q) s =
    .next ((s.tcForward p.val (.sync h true q)).eachDom (fun s d => s.hears d p.val h) (fun s d =>
      s.setDom d { s.dom d with twoStep := some (q, s.rxStamp p.val, c) })).settle) ∧
  (∀ (p : Fin 2) h t1 c q, exec (.sync p h t1 c false q) s =
    .next ((s.tcForward p.val (.sync h false q)).eachDom (fun s d => s.hears d p.val h) (fun s d =>
      s.syncDone d p.val t1 (s.rxStamp p.val) c)).settle) ∧
  (∀ (p : Fin 2) h t1 c q u t2 c2, u = s.tcForward p.val (.followUp h q) → u.hears 0 p.val h = false → u.hears 1 p.val h = true →
    (u.dom 1).twoStep = some (q, t2, c2) → exec (.followUp p h t1 c q) s = .next (u.syncDone 1 p.val t1 t2 (c2 + c)).settle) ∧
  (∀ (p : Fin 2) h t1 c q u t2 c2 v, u = s.tcForward p.val (.followUp h q) → u.hears 0 p.val h = true →
    (u.dom 0).twoStep = some (q, t2, c2) → v = u.syncDone 0 p.val t1 t2 (c2 + c) → v.hears 1 p.val h = false →
    exec (.followUp p h t1 c q) s = .next v.settle) ∧
  (∀ (p : Fin 2) h t4 c u t3, u = s.tcForward p.val (.other h) → u.hears 0 p.val h = false → u.hears 1 p.val h = true →
    (u.dom 1).t3 = some t3 → exec (.delayResp p h t4 c) s = .next (u.delayDone 1 p.val t3 t4 c).settle) ∧
  (∀ (p : Fin 2) h t4 c u t3 v, u = s.tcForward p.val (.other h) → u.hears 0 p.val h = true → (u.dom 0).t3 = some t3 →
    v = u.delayDone 0 p.val t3 t4 c → v.hears 1 p.val h = false → exec (.delayResp p h t4 c) s = .next v.settle) ∧
  (∀ (p : Fin 2) h a m, m = (⟨a, h.sender, p.val⟩ : PtpMaster) → exec (.announce p h a) s =
    .next ((s.tcForward p.val (.other h)).eachDom (fun s d => s.forDomain d p.val h) (fun s d =>
      (s.setDom d ((s.dom d).choose ((s.dom d).foreign.filter (fun f => !f.same m) ++ [m]))).refreshDomains)).settle) ∧
  (∀ (d : Fin 2) m, s.flag (domEnF d.val) = true → (s.dom d.val).master = some m → exec (.delayReq d) s =
    .next ((s.setDom d.val { s.dom d.val with t3 := some (s.txStamp m.port) }).send
      (.delayReq m.port (s.getF (domNumberF d.val)) (s.getF (domSdoF d.val))
        (if s.flag (transportF m.port) then some (s.getF (ipv4F m.port)) else none)
        (if s.flag (uniDreqF m.port) then some m.sender else none) (s.txStamp m.port))).settle) ∧
  (∀ d : Fin 2, exec (.announceTimeout d) s = .next (s.setDom d.val (s.dom d.val).forget).refreshDomains.settle) ∧
  (∀ d : Fin 2, exec (.syncTimeout d) s = .next (s.setDom d.val { s.dom d.val with synced := false }).refreshDomains.settle) ∧
  (∀ (d : Fin 2) o, s.bit TIM_STATUS.FAULTY d.val = true → (s.dom d.val).offset = some o →
    (o.natAbs : Int) ≤ nsTicks (s.getF TIM_LIMITS.STEP_LIM) → exec (.domainWtrExpiry d) s =
      .next ((s.lapse (.domWithin d.val) s.domWtr).putBit TIM_STATUS.FAULTY d.val false).refreshDomains.settle) ∧
  (s.flag TIM_CTRL.REVERT = true → s.getF TIM_STATUS.ACT_DOM ≠ s.getF TIM_CTRL.PREF_DOM →
    s.usable (s.getF TIM_CTRL.PREF_DOM) = true → exec .domainRevert s =
      .next ((s.lapse (.domUsable (s.getF TIM_CTRL.PREF_DOM)) s.domWtr).domainSwitch (s.getF TIM_CTRL.PREF_DOM) 1).settle) ∧
  (s.flag TIM_STATUS.SLEWING = true → s.slewOver = true → exec .slewComplete s =
    .next ({ s.setF TIM_STATUS.SLEWING 0 with clk.slew := 0 } : State).settle) ∧
  ∀ p : Fin 2, exec (.timePortFrame p .notPtp) s =
      .next (s.incF (if p.val = 0 then TIM_PORT_DROP.PORT0 else TIM_PORT_DROP.PORT1) 1).settle ∧
    ∀ f, f ≠ PortFrame.notPtp → exec (.timePortFrame p f) s = .next (s.tcForward p.val f).settle

/-- On a live Shasto port a locked lane decodes a codeword, a comma word is taken, a comma is lost; lanes are restored and a refused drop acts; forerunner lanes gain and lose block lock; the port status word goes out. (R113, R114, R116, R117, R118, R124, R125, R126, R130) -/
def Obligations.LanesComplete : Prop :=
  ∀ s : State,
  (∀ (p : Fin 32) (l : Fin 4) u, s.portLive p.val = true → s.forerunner p.val = false → u = s.portRefresh p.val →
    u.bit (portLockF p.val) l.val = true →
    (∀ k m, exec (.codeword p l (some k) m) s = .next (u.fecGood p.val l.val k m).settle) ∧
    (∀ m, exec (.codeword p l none m) s = .next (u.fecBad p.val l.val).settle)) ∧
  (∀ (p : Fin 32) (l : Fin 4) w v, s.portLive p.val = true → s.forerunner p.val = false → v = s.received p.val l.val w →
    exec (.commaWord p l w) s = .next (if commaGood v then (s.portRefresh p.val).commaTaken p.val l.val v
      else (s.portRefresh p.val).commaBad p.val l.val).settle) ∧
  (∀ (p : Fin 32) (l : Fin 4), s.portLive p.val = true → s.forerunner p.val = false →
    exec (.commaLoss p l) s = .next ((s.portRefresh p.val).laneLost p.val l.val 0).settle) ∧
  (∀ (p : Fin 32) (l : Fin 4), s.bit (portDropF p.val) l.val = true → s.bit (portLockF p.val) l.val = true →
    exec (.laneRestore p l) s = .next ((s.lapse (.restore p.val l.val) (msCycles * s.sv Scr.ING_RESTORE)).putBit
      (portDropF p.val) l.val false).settle) ∧
  (∀ p : Fin 32, s.getF (portDropF p.val) ≠ 0 → s.getF (portStateF p.val) = 2 →
    exec (.dropReqIgnored p) s = .next ((s.lapse (.drop p.val) fourCommas).setPortState p.val 4).settle) ∧
  (∀ (p : Fin 24) (l : Fin 4) u, s.portLive p.val = true → s.forerunner p.val = true →
    u = (s.portRefresh p.val).laneLocked p.val l.val 2 →
    exec (.blockLockGain p l) s = .next (if u.getF (portLockF p.val) = 15 then u.setPortState p.val 2 else u).settle) ∧
  (∀ (p : Fin 24) (l : Fin 4), s.portLive p.val = true → s.forerunner p.val = true → s.bit (portLockF p.val) l.val = true →
    exec (.blockLockLoss p l) s = .next (s.blockLost p.val l.val).settle) ∧
  (∀ p : Fin 24, s.portLive p.val = true → exec (.pswSend p) s =
    .next ((s.portRefresh p.val).send (.psw p.val (sealed ((s.portRefresh p.val).psw p.val)))).settle)

/-- An ingest packet or GK4 packet every part of which passes the checks of R120 is accepted whole, and a blanking interval long past is released. (R119, R120, R122, R126, R127, R184) -/
def Obligations.PacketsComplete : Prop :=
  ∀ s : State,
  (∀ (p : Fin 24) h pay k u, s.portLive p.val = true → s.forerunner p.val = false → (s.port p.val).seeking = false →
    k = Packet.ofHeader h pay → u = (s.portRefresh p.val).followSeq p.val (hdr h 200 16) (hdr h 216 8) →
    hcrcOf (h.toNat % 2 ^ 240) = hdr h 240 16 → hdr h 0 4 = 1 → (hdr h 4 4 = 1 ∨ hdr h 4 4 = 2) →
    k.inputs ≠ 0 → k.chans ≠ 0 → k.spectra ≠ 0 → (k.null = true ∨ k.len ≤ 8192) →
    (∀ q ∈ u.packetParts k, u.failing p.val k false q = none) →
    exec (.ingestPacket p false h pay) s = .next ((u.judge p.val k false).keepRaw u p.val (leBytes 32 h.toNat ++ pay)).settle) ∧
  (∀ (p : Fin 24) m k u, s.portLive p.val = true → s.forerunner p.val = true → u = s.portRefresh p.val → k = u.gk4 p.val m →
    20 ≤ m.length → crc32 (m.take (m.length - 4)) = leNat (m.drop (m.length - 4)) → k.len = k.payload.length →
    k.inputs ≠ 0 → k.chans ≠ 0 → k.chans ≤ 4095 → k.len ≤ 8192 →
    (∀ q ∈ u.packetParts k, u.failing p.val k false q = none) →
    exec (.gk4Packet p m) s = .next ((u.judge p.val k false).keepRaw u p.val m).settle) ∧
  exec .blankRelease s = .next ({ s with ing.blanks := s.ing.blanks.filter (fun b => match b.stop with
    | some e => decide (toSigned 64 s.houseSix ≤ e + (s.sv Scr.ING_LATE_WINDOW : Int))
    | none => true) } : State).settle

/-- A cluster that runs, clocked and not stopped, issues the word at its program counter: each data operation with the effect of its own on the registers, flags and memories. (R131, R138, R139, R140, R143, R145, R146) -/
def Obligations.PitDataWordsComplete : Prop :=
  ∀ (s : State) (c : Fin 128) (q : Ctx), q = s.ctx c.val →
  (s.pitIssues c.val 0x00 = true → exec (.pitNop c) s = .next (s.issue c.val q Eff.nop).settle) ∧
  (s.pitIssues c.val 0x01 = true → exec (.mul c) s = .next (s.issue c.val q q.mul).settle) ∧
  (s.pitIssues c.val 0x02 = true → exec (.mac c) s = .next (s.issue c.val q q.mac).settle) ∧
  (s.pitIssues c.val 0x03 = true → exec (.tapm c) s = .next (s.issue c.val q q.tapm).settle) ∧
  (s.pitIssues c.val 0x04 = true → exec (.mpxa c) s = .next (s.issue c.val q q.mpxa).settle) ∧
  (s.pitIssues c.val 0x05 = true → exec (.ald c) s = .next (s.issue c.val q q.ald).settle) ∧
  (s.pitIssues c.val 0x06 = true → exec (.aclr c) s = .next (s.issue c.val q q.aclr).settle) ∧
  (s.pitIssues c.val 0x07 = true → exec (.ext c) s = .next (s.issue c.val q q.ext).settle) ∧
  (s.pitIssues c.val 0x08 = true → exec (.qpk c) s = .next (s.issue c.val q q.qpk).settle) ∧
  (s.pitIssues c.val 0x09 = true → exec (.cis c) s = .next (s.issue c.val q q.cis).settle) ∧
  (s.pitIssues c.val 0x0A = true → exec (.mag c) s = .next (s.issue c.val q q.mag).settle) ∧
  (s.pitIssues c.val 0x10 = true → exec (.add c) s = .next (s.issue c.val q (q.alu (fun l => q.a l + q.b l))).settle) ∧
  (s.pitIssues c.val 0x11 = true → exec (.sub c) s = .next (s.issue c.val q (q.alu (fun l => q.a l - q.b l))).settle) ∧
  (s.pitIssues c.val 0x12 = true →
    exec (.pitAnd c) s = .next (s.issue c.val q (q.alu (fun l => ((half (q.a l) &&& half (q.b l) : Nat) : Int)))).settle) ∧
  (s.pitIssues c.val 0x13 = true →
    exec (.pitOr c) s = .next (s.issue c.val q (q.alu (fun l => ((half (q.a l) ||| half (q.b l) : Nat) : Int)))).settle) ∧
  (s.pitIssues c.val 0x14 = true →
    exec (.pitXor c) s = .next (s.issue c.val q (q.alu (fun l => ((half (q.a l) ^^^ half (q.b l) : Nat) : Int)))).settle) ∧
  (s.pitIssues c.val 0x15 = true →
    exec (.pitMin c) s = .next (s.issue c.val q (q.alu (fun l => min (shalf (q.a l)) (shalf (q.b l))))).settle) ∧
  (s.pitIssues c.val 0x16 = true →
    exec (.pitMax c) s = .next (s.issue c.val q (q.alu (fun l => max (shalf (q.a l)) (shalf (q.b l))))).settle) ∧
  (s.pitIssues c.val 0x17 = true → exec (.sel c) s = .next (s.issue c.val q q.sel).settle) ∧
  (s.pitIssues c.val 0x18 = true → exec (.cnt c) s = .next (s.issue c.val q q.cnt).settle) ∧
  (s.pitIssues c.val 0x19 = true → exec (.cmp c) s = .next (s.issue c.val q q.cmp).settle) ∧
  (s.pitIssues c.val 0x1A = true → exec (.pack c) s = .next (s.issue c.val q q.pack).settle)

/-- A cluster that runs, clocked and not stopped, issues the word at its program counter: immediate operations, the setting of K, N and BW, tags, sticky flags, history, branches, loops and returns, each with its own effect; SETP with a length within 1,024. (R138, R139, R140, R141, R143, R147, R150) -/
def Obligations.PitControlWordsComplete : Prop :=
  ∀ (s : State) (c : Fin 128) (q : Ctx), q = s.ctx c.val →
  (s.pitIssues c.val 0x20 = true → exec (.addi c) s = .next (s.issue c.val q q.addi).settle) ∧
  (s.pitIssues c.val 0x21 = true → exec (.andi c) s = .next (s.issue c.val q q.andi).settle) ∧
  (s.pitIssues c.val 0x22 = true → exec (.shli c) s = .next (s.issue c.val q q.shli).settle) ∧
  (s.pitIssues c.val 0x23 = true → exec (.shrai c) s = .next (s.issue c.val q q.shrai).settle) ∧
  (s.pitIssues c.val 0x24 = true → exec (.mvi c) s = .next (s.issue c.val q q.mvi).settle) ∧
  (s.pitIssues c.val 0x25 = true → exec (.cmpi c) s = .next (s.issue c.val q q.cmpi).settle) ∧
  (s.pitIssues c.val 0x27 = true → exec (.setk c) s = .next (s.issue c.val q q.setk).settle) ∧
  (s.pitIssues c.val 0x28 = true → exec (.setn c) s = .next (s.issue c.val q q.setn).settle) ∧
  (s.pitIssues c.val 0x29 = true → exec (.setbw c) s = .next (s.issue c.val q q.setbw).settle) ∧
  (s.pitIssues c.val 0x2A = true → exec (.fclr c) s = .next (s.issue c.val q q.fclr).settle) ∧
  (s.pitIssues c.val 0x33 = true → exec (.mvt c) s = .next (s.issue c.val q q.mvt).settle) ∧
  (s.pitIssues c.val 0x34 = true → exec (.vclr c) s = .next (s.issue c.val q q.vclr).settle) ∧
  (s.pitIssues c.val 0x38 = true → exec (.br c) s = .next (s.issue c.val q q.br).settle) ∧
  (s.pitIssues c.val 0x39 = true → exec (.loop c) s = .next (s.issue c.val q q.loop).settle) ∧
  (s.pitIssues c.val 0x3A = true → exec (.rti c) s = .next (s.issue c.val q q.rti).settle) ∧
  (s.pitIssues c.val 0x26 = true → q.setpOpen = false → exec (.setp c) s = .next (s.issue c.val q (q.setp s.freeCount)).settle) ∧
  (s.pitIssues c.val (wOp q.w) = true → opDefined (wOp q.w) = false →
    exec (.illegalOp c) s = .next (s.issue c.val q Eff.bad).settle)

/-- IN and INA take the vector that waits, OUT sends, null vectors start, an interrupt enters its handler; PIT_LOCAL_WRITE, PIT_LOCAL_READ and PIT_COEF_WRITE with arguments in range act. (R135, R137, R149, R153, R155) -/
def Obligations.PitVectorsComplete : Prop :=
  ∀ s : State,
  (∀ (c : Fin 128) q u v q', q = s.ctx c.val → q.bank ≠ 1 → q.x.stopLeft = none → s.nextVect c.val = (u, some v) →
    q' = { q with x := { q.x with cm := (u.cluster c.val).cm } } →
    (s.pitIssues c.val 0x30 = true →
      exec (.pitIn c) s = .next (u.issue c.val q' { Eff.nop with flights := q.takeD v }).settle) ∧
    (s.pitIssues c.val 0x31 = true →
      exec (.ina c) s = .next (u.issue c.val q' { Eff.nop with flights := q.takeA v }).settle)) ∧
  (∀ (c : Fin 128) q v, s.pitIssues c.val 0x32 = true → q = s.ctx c.val → q.bank ≠ 1 → xDcl q.w ≠ 3 →
    xFine q.w ≤ 4 → q.x.hist[xLag q.w]? = some v → q.x.outQ.length < 8 → exec (.pitOut c) s =
      .next (((s.incF (PIT_C_NEG8.COUNT c.val) (q.outVect v).2).putOut c.val (q.outVect v).1).issue c.val q Eff.nop).settle) ∧
  (∀ c : Fin 128, s.pitReady c.val = true → exec (.nullVectors c) s = .next (s.startNulls c.val).settle) ∧
  (∀ (c : Fin 128) (i : Fin 8), s.cueEnters c.val i.val = true →
    exec (.cueInterrupt c i) s = .next (s.cueEnter c.val i.val).settle) ∧
  (∀ (r : Fin 262144) d e cs, s.serves r.val 0x30 e → cs = s.pitNamed (e.arg 64 7) (e.arg 71 1 = 1) →
    (List.range 128).any (fun c => (s.cluster c).flipRing == some r.val) = false → s.pitPageOk e cs = true →
    cs.any (fun c => s.flag (PIT_C_STATUS.FLIP_PEND c)) = false → 1 ≤ e.arg 82 11 → e.arg 72 10 + e.arg 82 11 ≤ 1024 →
    e.arg 128 64 % 64 = 0 → 128 * e.arg 82 11 ≤ d.length → ∀ u,
    u = s.each cs (fun s c => s.setCluster c ((s.cluster c).localWrite (e.arg 72 10) (e.arg 82 11)
      (halfwords d (64 * e.arg 82 11)))) → exec (.pitLocalWrite r d) s = .next (if e.arg 192 1 = 1 then
        (u.each cs (fun s c => s.askFlip c r.val (e.arg 256 64))).flipsDone r.val else u.finish r.val e stOk).settle) ∧
  (∀ (r : Fin 262144) e c, s.serves r.val 0x31 e → c = e.arg 64 7 → (s.cluster c).readRings.contains r.val = false →
    s.pitPageOk e [c] = true → 1 ≤ e.arg 82 11 → e.arg 72 10 + e.arg 82 11 ≤ 1024 →
    exec (.pitLocalRead r) s = .next (if s.betweenNow c then s.localRead c r.val
      else s.setCluster c { s.cluster c with readRings := (s.cluster c).readRings ++ [r.val] }).settle) ∧
  (∀ (r : Fin 262144) d e cs, s.serves r.val 0x32 e → cs = s.pitNamed (e.arg 64 7) (e.arg 71 1 = 1) →
    (List.range 128).any (fun c => ((s.cluster c).coefFor r.val).isSome) = false → s.pitPageOk e cs = true →
    1 ≤ e.arg 86 15 → e.arg 72 14 + e.arg 86 15 ≤ 16384 → 2 * e.arg 86 15 ≤ d.length → ∀ hs u,
    hs = halfwords d (e.arg 86 15) →
    u = s.each cs (fun s c =>
      let x := s.cluster c
      let y := if s.betweenNow c then x.coefWrite (e.arg 72 14) hs else { x with coefPend := x.coefPend ++ [(e.arg 72 14, hs)] }
      s.setCluster c (if s.flag (PIT_C_STATUS.RUN c) then { y with coefRings := y.coefRings ++ [(r.val, none)] } else y)) →
    exec (.pitCoefWrite r d) s = .next (if cs.any (fun c => u.flag (PIT_C_STATUS.RUN c)) then u
      else u.drew.complete r.val e stOk u.free 0).settle)

/-- Requests at an existing address that are not refused, while the store has power, answer the next state of the access; scrub, refreshes, training, retraining for a reason of R173, relocation, self-refresh of an idle pseudo-channel and the end of an error window act where the rules say. (R163, R165, R166, R171, R172, R173, R174, R175, R176, R178, R180) -/
def Obligations.StoreCommandsComplete : Prop :=
  ∀ s : State,
  (∀ (p : Fin 10) a es w, a < storeBytes → s.storeOn = true →
    exec (.storeRead p a es w) s = .next (s.storeRead p.val a es w).settle) ∧
  (∀ (p : Fin 10) a d b es w, a < storeBytes → s.storeOn = true → s.refusal p.val a (.write d b es) = none →
    exec (.storeWrite p a d b es w) s = .next (s.storeWrite p.val a d b es w).settle) ∧
  (∀ (p : Fin 10) a f m d es, a < storeBytes → s.storeOn = true → s.refusal p.val a (.add f.val m d es) = none →
    exec (.atomicAdd p a f m d es) s = .next (s.storeAdd p.val a f m d es).settle) ∧
  (∀ (n : Fin 256) es, s.storeOn = true → s.flag STO_STATUS.READY = true →
    exec (.patrolScrub n es) s = .next (s.scrub n.val es).settle) ∧
  (∀ (n : Fin 256) (b : Fin 48) q, s.storeOn = true → s.getF (STO_PC_STAT.STATE n.val) = 1 →
    exec (.refreshDue n b q) s = .next (s.refreshDue n.val b.val q).settle) ∧
  (∀ l : List (Fin 256), s.storeOn = true → s.flag STO_STATUS.READY = false →
    exec (.storeTrainingDone l) s = .next (s.firstTraining (l.map (fun n => n.val))).settle) ∧
  (∀ n : Fin 256, s.storeOn = true → s.flag STO_STATUS.READY = true → s.getF (STO_PC_STAT.STATE n.val) = 1 →
    s.retrainDue n.val = true → exec (.retrainStart n) s = .next (s.retrain n.val).settle) ∧
  (∀ (n : Fin 256) r w v a b, s.storeOn = true → s.flag (STO_PC_STAT.TRAINING n.val) = true →
    exec (.retrainComplete n r w v a b) s = .next (s.retrained n.val r w v a b).settle) ∧
  (∀ n : Fin 256, (s.pch n.val).relocating = true → exec (.fenceRelocationDone n) s = .next (s.relocated n.val).settle) ∧
  (∀ n : Fin 256, (s.getF PWR_STATUS.STATE = 2 ∨ s.iron = true) → s.srIdle n.val = true →
    exec (.selfRefreshReentry n) s = .next ((s.enterSr n.val).refreshAllSr).settle) ∧
  (∀ (n : Fin 256) k, (s.pch n.val).ceWindow = some k → exec (.ceWindowEnd n) s =
    .next ((s.setPch n.val { s.pch n.val with ceWindow := none }).emit (pcSrc n.val) 0x0501 k n.val 1).settle)

/-- A requesting line is served, a flush marker passes once its writes have gone, a replay read that waited too long goes on; NOP, COPY, FILL, ILV and TRI, whose bursts all succeed, and FENCE with every write acknowledged have done their work; descriptors complete, time out, start and stop. (R186, R189, R192, R194, R195, R197, R198, R199, R200, R201, R322) -/
def Obligations.MoversComplete : Prop :=
  ∀ s : State,
  (∀ (m : Fin 32) w f u l, u = s.purgeUnbound → s.inReset 1 = false → u.nextLine m.val = some l →
    exec (.streamBurst m w f) s = .next (u.streamServe m.val l w f).settle) ∧
  (∀ (l : Fin 528) c n rest, l.val < 512 → c = l.val / 4 → (s.cluster c).nullDone = n :: rest →
    (s.cluster c).outQ.any (fun v => decide (s.dwellOf v.six ≤ n) && s.outRoute (4 * c + v.stream) v.six != 2) = false →
    exec (.flushMarkerPass l) s = .next ((s.setCluster c { s.cluster c with nullDone := rest }).passMarker n c).settle) ∧
  (∀ (l : Fin 528) p n, 512 ≤ l.val → l.val % 2 = 0 → p = (l.val - 512) / 2 → oldest (s.owedByPort p) = some n →
    s.fab.rxq.any (fun e => e.1 == p && decide (s.dwellOf e.2.six ≤ n)) = false →
    exec (.flushMarkerPass l) s = .next (s.passMarker n (128 + p)).settle) ∧
  (∀ g n a b c p, s.seq.pages.find? (fun e => e.2 == g) = some ((n, a, b, c), p) → s.seq.replay = some n →
    s.seq.lateReads.contains p = false → exec (.replayReadTimeout g) s = .next (s.readLate n p).settle) ∧
  (∀ (m : Fin 64) d f w i l q, (s.movWorks m.val 0 = true ∧ i = .descNop m ∧ d = [] ∧ f = [] ∧ w = [] ∧ l = [] ∨
      s.movWorks m.val 1 = true ∧ i = .copy m d f w ∧ l = (s.mover m.val).copyBursts ∨
      s.movWorks m.val 2 = true ∧ i = .fill m f w ∧ d = [] ∧ l = (s.mover m.val).fillBursts ∨
      s.movWorks m.val 3 = true ∧ i = .ilv m d f w ∧ l = (s.mover m.val).ilvBursts ∨
      s.movWorks m.val 4 = true ∧ i = .tri m d f w ∧ l = (s.mover m.val).triBursts ∨
      s.movWorks m.val 5 = true ∧ i = .fence m ∧ (s.mover m.val).peerWaits = [] ∧ (s.mover m.val).peerRefused = false ∧
        d = [] ∧ f = [] ∧ w = [] ∧ l = []) →
    q = (burstsLeft (s.mover m.val).done l).foldl (DescRun.step m.val f w) ⟨s.setF (MOV_M_STATE.PACE_WAIT m.val) 0, d, 0, 0⟩ →
    q.stop = 0 → exec i s = .next (q.s.setMover m.val { q.s.mover m.val with work := true }).settle) ∧
  (∀ (m : Fin 64) d, (s.movState m.val = 1 ∨ s.movState m.val = 2) → (s.mover m.val).work = true →
    exec (.descriptorComplete m d) s = .next (s.movComplete m.val d).settle) ∧
  (∀ (m : Fin 64) k, s.flag (MOV_M_STATE.PACE_WAIT m.val) = true → s.iron = false →
    k = (s.movImage m.val).el Scr.MOV_PACE_TO (m.val - 32) % 2 ^ 32 → k ≠ 0 →
    exec (.paceTimeout m) s = .next ((s.lapse (.pace m.val) (usCycles * k)).movFail m.val 4).settle) ∧
  (∀ m : Fin 64, s.flag (MOV_M_STATE.PACE_WAIT m.val) = true → s.iron = true →
    exec (.paceTimeout m) s = .next (s.movFail m.val 4).settle) ∧
  (∀ m : Fin 64, s.iron = true → (s.movState m.val = 1 ∨ s.movState m.val = 2) → exec (.ironMoverCut m) s =
    .next ((s.runCycles (s.flt.ironAt.getD 0 + 100 * msCycles - s.clk.cycles)).movFail m.val 6).settle) ∧
  (∀ (r : Fin 262144) d e m h, s.serves r.val 0x20 e → m = e.arg 64 6 → 32 ≤ m → m < 60 → s.movPageOk e m = true →
    s.iron = false → s.movState m ≠ 1 → s.movState m ≠ 2 →
    (e.arg 192 1 = 1 ∧ h = s.movAddr m ∨ e.arg 192 1 ≠ 1 ∧ h = e.arg 128 64 ∧ descAddrOk h = true) →
    exec (.movRun r d) s = .next (((s.setF (MOV_M_STATE.STATE m) 1).finish r.val e stOk).movGo m h d).settle) ∧
  (∀ (r : Fin 262144) e m, s.serves r.val 0x21 e → m = e.arg 64 6 → 32 ≤ m → m < 60 → s.movPageOk e m = true →
    (s.movState m = 0 ∨ s.movState m = 3) → exec (.movStop r) s = .next (s.complete r.val e stOk (s.movAddr m) 0).settle) ∧
  (∀ (r : Fin 262144) e m, s.serves r.val 0x21 e → m = e.arg 64 6 → 32 ≤ m → m < 60 → s.movPageOk e m = true →
    s.movState m = 1 → (s.mover m).stopRings.contains r.val = false → exec (.movStop r) s =
      .next ((s.setMover m { s.mover m with stopRings := (s.mover m).stopRings ++ [r.val] }).setF
        (MOV_M_STATE.STATE m) 2).settle)

/-- The oldest waiting dwell is replayed, CORR and BEAM passes start and end, gaps pass, slots drain, drained dwells mark, weights load and records are released, each where the plan and the stage allow it. (R17, R21, R219, R220, R221, R224, R238, R239, R241, R246, R247) -/
def Obligations.StageCommandsComplete : Prop :=
  ∀ s : State,
  (∀ n rest, s.seq.ringWait = n :: rest → s.stageOn = true → s.seq.replay = none →
    (s.fmtChange (s.governing n) = true → s.draining = false) → exec .replayStart s = .next (s.replay n).settle) ∧
  (∀ (p : Fin 16) n i e k, s.entryNow p.val 0 = some (n, i, e) → s.freeSlot (s.governing n) p.val = some k →
    s.unflushed n (s.streams (s.governing n) p.val e) = false →
    exec (.corrPassStart p) s = .next (s.corrBegin p.val n i e k).settle) ∧
  (∀ (p : Fin 16) n i e, s.passNow p.val 0 = some (n, i, e) → exec (.corrPassEnd p) s =
    .next ((((s.closeSlot (s.governing n) n p.val e (s.governing n).dlen).passOver p.val n i e).feedOver p.val).afterEntry
      p.val).settle) ∧
  (∀ (p : Fin 16) n i e, s.entryNow p.val 2 = some (n, i, e) → exec (.gap p) s =
    .next (((s.setPart p.val { s.part p.val with nextEntry := i + 1 }).setF (STG_PART.ENTRY p.val) i).afterEntry p.val).settle) ∧
  (∀ (p : Fin 16) i rest sl w u, (s.part p.val).order = i :: rest → s.iron = false →
    sl = (s.part p.val).slots.getD i Slot.fresh → w = fmtWidth ((s.governing sl.dwell).fmt p.val) →
    s.drainTo sl.dwell (drainAdds w (s.drainEntries sl)) = (u, true) →
    exec (.drainComplete p) s = .next (u.drainOver p.val sl w (s.drainEntries sl)).settle) ∧
  (∀ n, s.seq.replayed.find? (fun n => !s.holdsDwell n) = some n → s.iron = false →
    exec .dwellDrained s = .next (s.dwellOut n).settle) ∧
  (∀ (p : Fin 16) n i e b, s.entryNow p.val 1 = some (n, i, e) → s.weightBank (s.governing n) = some b → s.bem.wload ≠ some b →
    ((s.governing n).beamRecs e).any (fun x => decide (s.recAccept x n = .wait)) = false →
    s.unflushed n (s.streams (s.governing n) p.val e) = false →
    ((s.governing n).beamChips e).any (s.addHeld n) = false →
    exec (.beamPassStart p) s = .next (s.beamBegin p.val n i e).settle) ∧
  (∀ (p : Fin 16) n i e, s.passNow p.val 1 = some (n, i, e) → exec (.beamPassComplete p) s =
    .next (((((s.beamDone ⟨s.governing n, n, p.val, e⟩ (s.governing n).dlen false).passOver p.val n i e).feedOver
      p.val).finisherOver p.val).afterEntry p.val).settle) ∧
  (∀ im b, s.bem.wload = none → s.iron = false → s.loadNext = some im → s.freeBank = some b →
    exec .weightLoadStart s = .next (({ s with
      bem.wbank := s.bem.wbank.set b (some im), bem.wload := some b } : State).setF BEM_STATUS.LOAD_BUSY 1).settle) ∧
  (∀ b im, s.bem.wload = some b → im = (s.bem.wbank.getD b none).getD Image.boot → exec .weightLoadComplete s =
    .next ((((({ s with bem.wload := none } : State).setF BEM_STATUS.LOAD_BUSY 0).setF
      (if b = 0 then BEM_WDIG0.TAG else BEM_WDIG1.TAG) im.weightTag).putBit BEM_EVT.BITS 0 true).emit stgSrc 0x0801 im.weightTag
        (b + 2 * (bitsOf (im.val Scr.BEM_WEIGHTS) 52 4 - 1)) 0).settle) ∧
  exec .weightLoadEscalate s = .next s.settle ∧
  (∀ x : Fin 65536, (s.rec_ x.val).st = .filling → (s.rec_ x.val).dwell ≤ s.seq.closed →
    exec (.recordReleaseTimeout x) s = .next ((s.afterClose (s.rec_ x.val).dwell
      ((s.governing (s.rec_ x.val).dwell).val Scr.BEM_REL_TO)).recTimeout x.val).settle) ∧
  (∀ (x : Fin 65536) c r, s.recCluster x.val = some (c, r) → s.iron = false → s.recTurn c = some x.val →
    exec (.recordRelease x) s = .next (s.recRelease x.val c r).settle) ∧
  (∀ x : Fin 65536, s.recCluster x.val = none → s.iron = false → s.toPit x.val = true → exec (.recordRelease x) s =
    .next (((s.setRec x.val { s.rec_ x.val with st := .releasing }).discardRec x.val).releaseEnd x.val).settle)

/-- The close timer of an open bank, the end of a sweep, the hold of a frame and the announcement of a beam-buffer half act; PRD_QUERY and PRD_FREE answer a page that owns the product. (R260, R262, R267, R268, R269, R270, R273) -/
def Obligations.ProductCommandsComplete : Prop :=
  ∀ s : State,
  (∀ b : Fin 2, s.getF (bankStateF b.val) = 1 → s.bankLast b.val ≤ s.seq.closed → s.iron = false →
    exec (.integrationTimeout b) s = .next ((s.afterClose (s.bankLast b.val)
      ((s.governing (s.bankLast b.val)).val Scr.PRD_CLOSE_TO)).startClose b.val 1).settle) ∧
  (∀ b : Fin 2, (s.bank b.val).closing = true → exec (.sweepComplete b) s = .next (s.sweep b.val).retryAdds.settle) ∧
  (∀ x : Fin 65536, s.frameHeld x.val = true → exec (.beamHoldTimeout x) s =
    .next ((s.lapse (.frame x.val) (msCycles * s.sv Scr.PRD_BEAM_HOLD)).holdOver x.val).settle) ∧
  (∀ (j : Fin 512) n, oldest ((s.nullsTaken (j.val / 4)).filter (fun n => s.bufReady j.val n)) = some n →
    exec (.bufAnnounce j) s = .next (s.bufNotice j.val n).settle) ∧
  (∀ (r : Fin 262144) e b, s.serves r.val 0x70 e → b = e.arg 64 1 → (e.admin = true ∨ e.sub = s.bankOwner b) →
    exec (.prdQuery r) s = .next (s.complete r.val e stOk (s.getF (bankStateF b) + 4 * s.getF (bankGenF b) +
      8 * b2n (s.bank b).closing + 2 ^ 16 * s.getF (bankDwellsF b) + 2 ^ 32 * (s.getF (bankIntegF b) % 2 ^ 32)) 0).settle) ∧
  (∀ (r : Fin 262144) e im x, s.serves r.val 0x71 e → s.frameAt (e.arg 64 64) = some (im, x) →
    (e.admin = true ∨ e.sub = im.poolSub) → s.frameHeld x = true →
    exec (.prdFree r) s = .next (((s.freeFrame x).retryAdds).complete r.val e stOk 0 0).settle)

/-- A packet that arrives whole for this chip and passes the claim check is delivered: INPUT within the window, ADD, end mark, WRITE, acknowledgment; beacons, credit units, transmission and forgotten claims act. (R278, R279, R284, R285, R286, R287, R288, R329) -/
def Obligations.FabricCommandsComplete : Prop :=
  ∀ s : State,
  (∀ (p : Fin 8) h pay u v six n g win, hdr h 8 4 = 0 → s.fabArrive p.val false h pay 3 0 = (u, true) →
    six = u.packetSix h → n = u.dwellOf six → g = hdr h 140 7 → u.claimCheck p.val (hdr h 32 11) n (4 * g) = (v, true) →
    win = (v.governing n).el Scr.FAB_IN_WIN p.val → bitsOf win 0 7 ≤ g → g < bitsOf win 0 7 + bitsOf win 7 8 →
    v.isLate six = false → v.isEarly six = false → exec (.fabricInput p false h pay) s =
      .next ({ v with fab.rxq := v.fab.rxq ++ [(p.val, inputVect h six pay)] } : State).settle) ∧
  (∀ (p : Fin 8) h pay u v, s.fabArrive p.val false h pay 4 0 = (u, true) →
    u.claimCheck p.val (hdr h 32 11) (u.addDwell h) (4 * addTarget h + 1) = (v, true) →
    exec (.fabricAdd p false h pay) s = .next (v.deliverAdd p.val h pay).settle) ∧
  (∀ (p : Fin 8) h u v, s.fabArrive p.val false h [] 4 1 = (u, true) →
    u.claimCheck p.val (hdr h 32 11) (u.addDwell h) (4 * addTarget h + 1) = (v, true) →
    exec (.endMark p false h) s = .next (v.deliverMark p.val h).settle) ∧
  (∀ (p : Fin 8) h pay u v, s.fabArrive p.val false h pay 5 0 = (u, true) →
    u.claimCheck p.val (hdr h 32 11) u.houseDwell 2 = (v, true) →
    v.peerMayWrite (hdr h 96 38 / 64 * 64) = true →
    exec (.fabricWrite p false h pay) s = .next ((v.peerWrite h pay).release p.val h).settle) ∧
  (∀ (p : Fin 8) h u m w, s.fabArrive p.val false h [] 5 1 = (u, true) →
    (u.release p.val h).peerWait (hdr h 32 11 * 256 + hdr h 142 8) = some (m, w) → hdr h 136 6 = 0 →
    exec (.writeAck p false h) s = .next ((u.release p.val h).peerDone m w).settle) ∧
  (∀ (m : Fin 64) (q : BitVec 8) w, (s.mover m.val).peerWaits.find? (fun w => w % 256 == q.toNat) = some w →
    exec (.writeAckTimeout m q) s = .next (((s.lapse (.peer m.val w) (usCycles * s.sv Scr.FAB_ACK_TO)).peerDone m.val
      w).peerFailed m.val w 2).settle) ∧
  (∀ (p : Fin 8) h pay u, s.fabTake p.val false h 6 0 = (u, true) →
    exec (.beacon p false h pay) s = .next ((u.release p.val h).beaconTaken p.val h).settle) ∧
  (∀ p : Fin 8, s.fabUp p.val = true → s.iron = false → s.getF PWR_STATUS.STATE ≠ 3 →
    exec (.beaconSend p) s = .next (s.sendBeacon p.val).settle) ∧
  (∀ (k : Fin 2048) e r n, Tbl.get s.fab.claims none k.val = some (e, r, n) → n + 2 ≤ s.houseDwell →
    exec (.claimForget k) s = .next ({ s with fab.claims := Tbl.set s.fab.claims none k.val none } : State).settle) ∧
  (∀ (p : Fin 8) q e, s.fabUp p.val = true → s.flag (FAB_P_STATUS.CRED_OK p.val) = true → s.nextPool p.val = some q →
    s.queued p.val q = some e → exec (.fabricTransmit p) s = .next (s.packetOut p.val q e).settle) ∧
  (∀ p : Fin 8, s.fabUp p.val = true → exec (.creditSend p) s = .next (s.creditOut p.val).settle) ∧
  (∀ (p : Fin 8) h, s.fabUp p.val = true → hcrcOf (h.toNat % 2 ^ 240) = hdr h 240 16 → hdr h 4 4 = 0xE →
    exec (.creditUnit p false h) s = .next (s.creditIn p.val h).settle)

/-- An edge at a cue pin, an edge that reaches its channel, the filter timers, software pulses and levels on an enabled channel, and the re-enabling of channels and filters act. (R295, R296, R301, R302, R304, R409) -/
def Obligations.CueCommandsComplete : Prop :=
  ∀ s : State,
  (∀ (p : Fin 8) l, exec (.cueInEdge p l false) s = .next (s.filtInput p.val l s.clk.cycles s.clk.cycles 0 s.clk.cycles).settle) ∧
  (∀ (p : Fin 8) l, exec (.cueInEdge p l true) s = .next (s.drew.filtInput p.val l (s.clk.cycles + s.free % 2)
    (s.clk.cycles + s.free % 2) 0 (s.clk.cycles + s.free % 2)).settle) ∧
  (∀ (c : Fin 64) e, s.cue.edges.find? (fun e => e.ch == c.val) = some e →
    exec (.channelEdge c) s = .next (({ s with cue.edges := s.cue.edges.erase e } : State).edgeArrives e).settle) ∧
  (∀ (f : Fin 40) u, u = s.runCycles ((s.filt f.val).since + s.fMinw f.val - s.clk.cycles) →
    exec (.filterMinwPass f) s = .next (u.filtPass f.val u.clk.cycles).settle) ∧
  (∀ f : Fin 40, (s.filt f.val).held = true → s.bit CUE_FDIS.MAP f.val = false → exec (.filterRateRelease f) s =
    .next ((s.runCycles ((s.filt f.val).lastRise.getD 0 + s.fRate f.val - s.clk.cycles)).filtRelease f.val).settle) ∧
  (∀ f : Fin 40, (s.filt f.val).out = true → s.fStuck f.val ≠ 0 → exec (.filterStuck f) s =
    .next ((s.runCycles ((s.filt f.val).outSince + 250 * s.fStuck f.val - s.clk.cycles)).filtStuck f.val).settle) ∧
  (∀ c : Fin 64, s.bit CUE_CHDIS.MAP c.val = false →
    exec (.cueFirePulse c) s = .next (s.pulseOn none c.val).settle ∧
    exec (.cueFireSet c) s = .next (s.softLevel c.val true).settle ∧
    exec (.cueFireClear c) s = .next (s.softLevel c.val false).settle) ∧
  (∀ c : Fin 64, s.bit CUE_CHDIS.MAP c.val = true → exec (.channelReenable c) s = .next (s.chanEnable c.val).settle) ∧
  (∀ f : Fin 40, s.bit CUE_FDIS.MAP f.val = true → exec (.filterReenable f) s = .next (((s.putBit CUE_FDIS.MAP f.val
    false).setFilt f.val { s.filt f.val with count := 0 }).filtPass f.val s.clk.cycles).settle)

/-- A rail that reads an illegal code in service, the start and the acknowledgment of a reaction, its timeout, curtain frames, the software iron, the exit, service entry, the rearming of the first-fault latch and the parity sweep act. (R311, R315, R317, R318, R319, R320, R321, R323) -/
def Obligations.FaultCommandsComplete : Prop :=
  ∀ s : State,
  (∀ (k : Fin 1024) (c : Fin 4), (c.val = 0 ∨ c.val = 3) → s.inService = true → s.railBad k.val = false → hiClass k.val ≠ 0 →
    exec (.railFault k c) s = .next (({ s with flt.pair := Tbl.set s.flt.pair 1 k.val c.val } : State).railFault k.val c.val
      false).settle) ∧
  (∀ (k : Fin 1024) (c : Fin 4), (c.val = 1 ∨ c.val = 2) →
    exec (.railFault k c) s = .next ({ s with flt.pair := Tbl.set s.flt.pair 1 k.val c.val } : State).settle) ∧
  exec .reactionStart s = .next s.nextReaction.settle ∧
  (∀ k : Fin 1024, exec (.fltAck k) s = .next (s.ackReact k.val).settle) ∧
  (∀ (k : Fin 1024) x, s.flt.react = some x → x.src = k.val → x.cls = 2 → x.acked = false →
    ∀ u, u = s.lapse (.ack k.val) (msCycles * s.sv Scr.FLT_ACK_TO) →
    u.flt.react.any (fun y => y.src == k.val && y.cls == 2 && !y.acked) = true →
    exec (.ackTimeout k) s = .next ((({ u with flt.react := none } : State).ackLate k.val).resume).settle) ∧
  (∀ p : Fin 8, s.iron = true → s.fabUp p.val = true → exec (.curtainFrame p) s = .next (((s.lapse (.curtain p.val)
    (usCycles * s.sv Scr.FLT_CURTAIN)).sendBeacon p.val).startTimer (.curtain p.val)).settle) ∧
  exec .ironReq s = .next (s.raise 0x000 0x000A 4 false).settle ∧
  (∀ b, s.iron = true → s.exitWhy b = 0 → exec (.ironExit b) s = .next ((((s.leaveService 2).ironOver.enterService 2
    (s.flt.pair.filter (fun q => q.2 != 1))).emit 0x000 0x0D04 ((s.clk.cycles - s.flt.ironAt.getD s.clk.cycles) / 250)
      (dwell32 ((s.leaveService 2).ironOver.enterService 2 (s.flt.pair.filter (fun q => q.2 != 1))).houseDwell) 0)).settle) ∧
  (∀ l : List (Fin 1024 × Fin 4), s.inService = false → s.ctl.jtagHeld = false →
    exec (.serviceEntry l) s = .next (s.enterService 0 (l.map (fun q => (q.1.val, q.2.val)))).settle) ∧
  exec .fflRearm s = .next (s.setF FLT_FFL0.VALID 0).settle ∧
  exec (.paritySweep false) s = .next s.settle ∧
  exec (.paritySweep true) s = .next (s.raise 0x000 0x000B 4 false).settle

/-- A paired chip sends and takes heartbeats and digests, loses its partner, swaps, joins, withdraws and rejoins; engine and cluster faults and retirements take their spares; a journal write that verified applies. (R332, R333, R335, R337, R338, R339, R341, R342, R344, R368) -/
def Obligations.DuetCommandsComplete : Prop :=
  ∀ s : State,
  (s.paired = true → s.power ≠ 3 → exec .heartbeatSend s =
    .next (s.lapse .heartbeat (usCycles * s.sv Scr.DUO_HB_PERIOD)).hbSend.settle) ∧
  (∀ h pay u, s.takePair false h 0 = (u, true) → exec (.heartbeat false h pay) s = .next (u.hbTaken h pay).settle) ∧
  (s.flag DUO_STATUS.PARTNER_OK = true → exec .partnerLost s = .next (s.lapse .partner s.hbTimeout).partnerGone.settle) ∧
  ((s.sv Scr.DUO_SWAP_PERIOD ≠ 0 ∨ s.flag DUO_STATUS.REPLACE = true ∨ (s.timerOf .swapAgain).isSome = true) →
    exec .swapPropose s = .next s.swapDue.proposeEarliest.settle) ∧
  (s.duo.joinAt ≠ none → s.paired = true → s.iron = false → s.flag DUO_STATUS.WITHDRAWN = false →
    (s.flag DUO_STATUS.PARTNER_OK = false ∨ s.partnerClaim.2 = 0) → exec .joinTimeout s =
      .next (s.lapse .join s.hbTimeout).joinEnds.settle) ∧
  (∀ n, s.paired = true → s.seq.gone.contains n = true → s.seq.replayed.contains n = false →
    s.duo.sentDigests.contains n = false → exec (.digestSend n) s = .next (s.digestOut n).settle) ∧
  (∀ h pay u, s.takePair false h 1 = (u, true) → exec (.digest false h pay) s = .next (u.digestTaken h pay).settle) ∧
  (∀ n u, s.duo.sentDigests.contains n = true → u = (s.lapse (.digest n) s.hbTimeout).stopTimer (.digest n) →
    exec (.digestSkip n) s = .next ({ u.incF DUO_MISM.SKIP 1 with
      duo.sentDigests := u.duo.sentDigests.filter (fun d => d != n),
      duo.sums := u.duo.sums.filter (fun e => e.1 != n) } : State).settle) ∧
  (∀ r c : Fin 33, exec (.engineFault r c) s = .next ((s.raiseFor [] stgSrc 0x0010 3 false
    (ofSigned 31 (s.seq.replay.getD s.houseDwell))).engineBad r.val c.val).settle) ∧
  (∀ (k : Fin 132) n, n = (match s.logicalOf k.val with
      | some c => match (s.cluster c).lastTaken with | some v => v.dwell | none => s.houseDwell
      | none => s.houseDwell) →
    exec (.clusterFault k) s = .next ((s.raiseFor (s.srcSubs (0x0C0 + k.val)) (0x0C0 + k.val) 0x0011 3 false
      (ofSigned 31 n)).clusterBad k.val).settle) ∧
  (∀ p : Fin 32, s.getF (portStateF p.val) = 3 → s.sv Scr.DUO_LANE_GRACE ≠ 0 →
    exec (.laneGraceExpiry p) s =
      .next ((s.lapse (.lane p.val) (60 * secCycles * s.sv Scr.DUO_LANE_GRACE)).setReplace 3).settle) ∧
  (∀ (r : Fin 262144) e k, s.serves r.val 0x60 e → s.iron = false → s.flag DUO_STATUS.SWAP_PEND = false → s.active = true →
    k = (if toSigned 64 (e.arg 64 64) = 0 then s.dwellAhead (s.sv Scr.DUO_SWAP_LEAD) else toSigned 64 (e.arg 64 64)) →
    s.dwellAhead (s.sv Scr.DUO_SWAP_LEAD) ≤ k → (e.arg 128 1 = 1 ∨ s.swapAllowed = true) →
    exec (.duoSwap r) s = .next ((s.finish r.val e stPending).propose k).settle) ∧
  (∀ (r : Fin 262144) e, s.serves r.val 0x61 e → exec (.duoWithdraw r) s = .next (s.withdraw.finish r.val e stOk).settle) ∧
  (∀ (r : Fin 262144) e, s.serves r.val 0x62 e → s.iron = false → exec (.duoRejoin r) s =
    .next ((((s.setF DUO_STATUS.WITHDRAWN 0).join).setClaim 0 0 5).finish r.val e stOk).settle) ∧
  (∀ (r : Fin 262144) e, s.serves r.val 0x63 e →
    (e.arg 64 1 = 0 → e.arg 65 6 ≤ 32 → e.arg 71 6 ≤ 32 → exec (.spareRetire r) s =
      .next ((s.finish r.val e stPending).engineBad (e.arg 65 6) (e.arg 71 6)).settle) ∧
    (e.arg 64 1 ≠ 0 → e.arg 65 8 ≤ 131 → exec (.spareRetire r) s =
      .next ((s.finish r.val e stPending).clusterBad (e.arg 65 8)).settle)) ∧
  (∀ w rest, s.ctl.jpend = w :: rest →
    exec (.journalWriteDone 2) s = .next (({ s with ctl.jpend := rest } : State).jApply w).settle ∧
    exec (.journalWriteDone 1) s = .next ((({ s with ctl.jpend := rest } : State).jApply w).raise 0x00A 0x0023 3 false).settle)

/-- Master resets and silent targets, REMAP, heartbeats and watchdogs, boot images and pushed chunks, verified updates, revocations, anchors, owner changes and nonce reads answer the next state of their own effect. (R352, R353, R354, R356, R357, R360, R361, R362, R363, R372, R373, R376) -/
def Obligations.ControlPlaneComplete : Prop :=
  ∀ s : State,
  (∀ m l n, exec (.masterReset m l n) s = .next ((s.matrixRun l n).matrixReset m).settle) ∧
  (∀ m l n, (s.matrixRun l n).ctlHolds m = true →
    exec (.matrixTimeout m l n) s = .next ((s.matrixRun l n).matrixLate m).settle) ∧
  (∀ b, exec (.remapWrite .bootEngine b) s = .next (s.setFlag CTL_MATRIX.REMAP b).settle ∧
    (∀ k, exec (.remapWrite (.core k) b) s = .next (s.setFlag CTL_MATRIX.REMAP b).settle)) ∧
  (∀ k : Fin 4, s.coreState k.val ≠ 0 → exec (.coreHeartbeat k) s =
    .next ((s.putBit CTL_CORES.HB k.val true).startTimer (.core k.val)).settle) ∧
  (∀ k : Fin 4, s.coreState k.val = 2 →
    exec (.coreWatchdogExpiry k) s = .next (((s.lapse (.core k.val) (msCycles * max 2 (s.getF CTL_WDOG.CORE_TO))).resetCore
      k.val).raise ctlSrc 0x0021 2 false).settle) ∧
  exec .fwAbsent s = .next ((s.each ((List.range 4).map Timer.core) (fun s k =>
    s.lapse k (secCycles * s.absentTo))).raise ctlSrc 0x0020 4 false).settle ∧
  (∀ (k : Fin 2) m, s.booting = true → s.bootSource = k.val →
    exec (.bootImageFetched k m) s = .next (s.bootImage m).settle) ∧
  (s.pushOpen = true → 1 ≤ s.getF CTL_PUSH.LEN → s.getF CTL_PUSH.LEN ≤ 524288 →
    exec .pushChunk s = .next ((s.setF CTL_PUSH.GO 1).setF CTL_PUSH.BUSY 1).settle) ∧
  (s.booting = true → s.flag CTL_PUSH.BUSY = true → exec .pushChunkDone s = .next s.pushDone.settle) ∧
  (∀ (r : Fin 262144) b e u m, s.serves r.val 0x40 e → s.imageAt (e.arg 64 64) (e.arg 128 32) b = (u, m) →
    u.verify 1 u.rootKey m = 0 → manMinPeer m ≤ u.getF CTL_CAP3.FW_VERSION → u.ctl.update = none →
    exec (.fwUpdate r b) s = .next ((({ u with ctl.fwDigest := u.ctl.fwDigest.set u.otherArea (sha3 (manPayload m)) } :
      State).finish r.val e stPending).updateBegin m u.otherArea).settle) ∧
  (∀ k : Fin 4, s.coreState k.val = 3 → s.ctl.update = none →
    exec (.coreReady k) s = .next ((s.setCore k.val 2).startTimer (.core k.val)).settle) ∧
  (∀ (k : Fin 4) u, s.coreState k.val = 3 → s.ctl.update = some u → u.todo.head? = some k.val →
    exec (.coreReady k) s = .next (((s.setCore k.val 2).startTimer (.core k.val)).updateStep k.val u).settle) ∧
  (∀ (k : Fin 4) u, s.ctl.update = some u → u.todo.head? = some k.val → s.coreState k.val = 3 → u.back = false →
    exec (.updateCoreTimeout k) s = .next ((s.lapse (.update k.val) (100 * msCycles)).updateBack k.val u).settle) ∧
  (∀ (r : Fin 262144) b e u m slot, s.serves r.val 0x41 e → s.recordAt (e.arg 64 64) b = (u, m) → u.verify 4 u.rootKey m = 0 →
    manPayload m ≠ [] → slot = leNat ((manPayload m).take 1) → slot < 4 →
    slot ≠ ((u.usedNonce 0).rootSlot (manKeyHash m)).getD 0 → ((u.usedNonce 0).ctl.fuseRevoked ||| 2 ^ slot) % 16 ≠ 15 →
    exec (.keyRevoke r b) s = .next (((u.usedNonce 0).revoke slot).finish r.val e stOk).settle) ∧
  (∀ (r : Fin 262144) e, s.serves r.val 0x42 e → s.ctl.fuseCount < e.arg 64 6 → 1024 * e.arg 64 6 ≤ s.ctl.jFloor →
    exec (.rollbackAnchor r) s = .next ((s.anchor (e.arg 64 6)).finish r.val e stOk).settle) ∧
  (∀ (r : Fin 262144) b e u m hash, s.serves r.val 0x43 e → (s.ctl.jOwner = 0 → s.power = 1) →
    s.ctl.jpend.any (fun w => match w with | .owner _ _ q => q == r.val | _ => false) = false →
    s.recordAt (e.arg 64 64) b = (u, m) → hash = leNat ((manPayload m).take 32) →
    u.verify 3 (fun h => if s.ctl.jOwner = 0 then h == hash else h == u.ctl.jOwner) m = 0 → 33 ≤ (manPayload m).length →
    exec (.ownerSet r b) s = .next ((u.usedNonce 0).journal (.owner hash
      (leNat (((manPayload m).drop 32).take 1) % 8) r.val)).settle) ∧
  (∀ (r : Fin 262144) e, s.serves r.val 0x44 e →
    exec (.nonceRead r) s = .next (s.complete r.val e stOk (s.getF (CTL_NONCE.WORD 0)) 0).settle)

/-- AVS moves and its answers, samples, PWR_SET to a state the rules allow, each transition once its condition is reached, the emergency writes, DARK and wake, block resets outside DARK and JTAG instructions act. (R316, R379, R380, R381, R382, R385, R386, R389, R390, R393, R395, R413) -/
def Obligations.PowerCommandsComplete : Prop :=
  ∀ s : State,
  (s.coreRuns = true → s.power ≠ 3 → exec .avsUpdate s = .next s.avsMove.settle) ∧
  (∀ c u, u = { s.setF PWR_STATUS.AVS_APPLIED c.toNat with pwr.avsWait := false } →
    exec (.avsApplied c) s = .next (if u.power ≠ 3 ∧ c.toNat < u.stepVolt (u.getF PWR_STATUS.CLK_STEP) then
      u.clkStep (u.bestStep (u.getF PWR_STATUS.CLK_STEP) c.toNat) else u).settle) ∧
  (s.pwr.avsWait = true →
    exec .avsTimeout s = .next (({ s.lapse .avs (10 * msCycles) with pwr.avsWait := false } : State).raise pwrSrc 0x0032 2
      false).settle) ∧
  (∀ r, exec (.railFaultReport r) s = .next (s.raise pwrSrc 0x0031 4 false).settle) ∧
  (∀ d h, s.power ≠ 3 → exec (.thermalSample d h) s = .next (s.sample d h).settle) ∧
  (∀ (r : Fin 262144) e g k, s.serves r.val 0x50 e → g = e.arg 64 2 → (s.iron = true → g = 3) → s.pwrAllowed g = true →
    k = (if s.pwrNamed g && toSigned 64 (e.arg 128 64) != 0 then toSigned 64 (e.arg 128 64) else s.pwrFirst) →
    (s.pwrNamed g = true → s.pwrFirst ≤ k) → s.pwr.trans = none →
    exec (.pwrSet r) s = .next ((s.finish r.val e stPending).pwrBegin g k).settle) ∧
  (∀ g k, s.pwr.trans = some (g, k) → s.power = 0 → s.showOver k = true →
    exec .holdReached s = .next (if g = 1 then (s.pwrEnter 1).pwrEnd else s.pwrEnter 1).settle) ∧
  (∀ k, s.pwr.trans = some (2, k) → s.power = 1 →
    exec .intermissionReached s = .next (s.gate.storeSleep.pwrEnter 2).pwrEnd.settle) ∧
  (∀ k, s.pwr.trans = some (1, k) → s.power = 2 →
    exec .intermissionReached s = .next (s.storeWake.pwrEnter 1).pwrEnd.settle) ∧
  (∀ k, s.pwr.trans = some (3, k) → (s.power = 1 ∨ s.power = 2) →
    exec .darkReached s = .next ({ (s.pwrEnter 3).pwrEnd.goDark with pwr.darkOk := true } : State).settle) ∧
  ((s.power = 1 ∨ s.power = 2) → s.pwr.trans = none → exec .darkRequest s = .next (s.pwrBegin 3 s.houseDwell).settle) ∧
  (s.power = 3 → exec .wake s = .next s.wake.settle) ∧
  (∀ u, u = s.setF PWR_EMERG.HOLD_NOW 1 → s.power = 0 → s.iron = false →
    (∀ t j, u.pwr.trans = some (t, j) → s.houseDwell + 1 < j) →
    exec .holdNow s = .next (match u.pwr.trans with
      | some q => u.pwrBegin q.1 (u.houseDwell + 1)
      | none => u.pwrBegin 1 (u.houseDwell + 1)).settle) ∧
  exec .clkMin s = .next s.clkMin.settle ∧
  (s.power ≠ 3 →
    exec .pitBlockReset s = .next (s.putBit PWR_BLKRST.BITS 0 true).resetPit.settle ∧
    exec .movBlockReset s = .next (s.putBit PWR_BLKRST.BITS 1 true).resetMov.settle ∧
    exec .stgBlockReset s = .next (s.putBit PWR_BLKRST.BITS 2 true).resetStg.settle ∧
    exec .cueBlockReset s = .next (s.putBit PWR_BLKRST.BITS 3 true).resetCue.settle ∧
    exec .hstBlockReset s = .next (s.putBit PWR_BLKRST.BITS 4 true).resetHst.settle) ∧
  (∀ b : Fin 5, s.bit PWR_BLKRST.BITS b.val = true → exec (.blockResetDone b) s =
    .next ((s.putBit PWR_BLKRST.BITS b.val false).emit pwrSrc 0x0F03 (2 ^ b.val) 0 0).settle) ∧
  exec (.jtagInstruction .bypass) s = .next s.settle ∧ exec (.jtagInstruction .idcode) s = .next s.settle ∧
  exec (.jtagInstruction .samplePreload) s = .next s.settle ∧
  exec (.jtagInstruction .release) s = .next ({ s with ctl.jtagHeld := false } : State).settle ∧
  (∀ op ∈ [JtagOp.extest, .extestPulse, .extestTrain, .highz, .clamp, .selfTest], exec (.jtagInstruction op) s =
    .next (({ s with ctl.jtagHeld := true } : State).leaveService 1).settle)

/-- A step with command c at the front of its queue is exec of c on the state with the queue's rest; with an empty queue a house cycle passes and the bus matrix goes on (the model's choice, log 1). (R95) -/
def Obligations.StepRunsFront : Prop :=
  (∀ (s : State) c rest, s.pending = c :: rest → step s = exec c { s with pending := rest }) ∧
  ∀ s : State, s.pending = [] → step s = .next s.idle

/-- The state after reset satisfies the invariant of the block. (R15, R320, R388) -/
def Obligations.ResetKeepsInvariant : Prop :=
  State.reset.Inv

/-- From any state PORST_N answers a state in which every field that boot does not write reads its Reset value, but for the STATE of the 32 ports, which are enabled and hunt, each with its event; the next sequence number is 1, EPOCH is 0, the collector is out of service, the power state is HOLD, the HCK_ST pins show FREE RUN, no ring, no waiting entry, no store byte and no image is held, and the command queue, the output, host memory, the burnt fuses and the manufacturing area are as before. (R15, R82, R94, R117, R316, R385, R388) -/
def Obligations.ResetValues : Prop :=
  ∀ (s : State) b i, ∃ t, exec (.porstN b i) s = .next t ∧ t.nextSeq = 1 ∧ t.epoch = false ∧ t.inService = false ∧
  t.power = 1 ∧ t.host.rings = [] ∧ t.host.notices = [] ∧ t.mem = [] ∧ t.scr = ScrU.fresh ∧ t.hck.hckSt = 0 ∧
  t.outbox.map (fun e => (e.code, e.d0)) =
    (List.range 32).map (fun p => if p < 24 then (0x0302, p + 2 ^ 12) else (0x0A01, p - 24 + 2 ^ 12)) ∧
  t.pending = s.pending ∧ t.sent = s.sent ∧ t.host.hostMem = s.host.hostMem ∧ t.matrix = { MatrixU.fresh with mem := s.mfgMem } ∧
  t.ctl.fuseRevoked = s.ctl.fuseRevoked ∧ t.ctl.fuseCount = s.ctl.fuseCount ∧ t.ctl.jFloor = s.ctl.jFloor ∧
  (∀ p, p < 32 → t.getF (portStateF p) = 1) ∧
  ∀ f : Fld, 1048576 ≤ f.off → f.rst < 2 ^ 64 → f.key ∉ (List.range 32).map (fun p => (portStateF p).key) → t.getF f = f.rst

/-- From every state that satisfies the invariant, every command and every idle cycle leads to a state that satisfies it: the store and host memory stay in canonical form, no class 4 fault stands unanswered, and the next sequence number stays at least 1. (R15, R320) -/
def Obligations.StepKeepsInvariant : Prop :=
  ∀ s t : State, s.Inv → step s = .next t → t.Inv

/-- A command stops only when the address it accesses lies beyond its space, and then it stops so; every other command answers a next state, from every state. (R28, R159) -/
def Obligations.EveryCommandAnswers : Prop :=
  ∀ (c : Instr) (s : State),
  (∀ a n, accessOf c = some (a, n) → n ≤ a → exec c s = .fault (.noSuchAddress a)) ∧
  ((∀ a n, accessOf c = some (a, n) → a < n) → ∃ t, exec c s = .next t)

/-- The effect of a command is on everything but the queue of waiting commands. (R42) -/
def Obligations.QueueUntouched : Prop :=
  ∀ (c : Instr) (s t : State), exec c s = .next t → t.pending = s.pending

/-- No command takes back or reorders what the block has sent; it only appends to it. (R12, R45) -/
def Obligations.OutputOnlyGrows : Prop :=
  ∀ (c : Instr) (s t : State), exec c s = .next t → s.sent <+: t.sent

/-- No command but PORST_N lowers the next sequence number, so that a number never repeats between two PORST_N; after PORST_N it is 1. (R15) -/
def Obligations.SequenceNumbersNeverRepeat : Prop :=
  (∀ (c : Instr) (s t : State), (∀ b i, c ≠ .porstN b i) → exec c s = .next t → s.nextSeq ≤ t.nextSeq) ∧
  ∀ b i (s t : State), exec (.porstN b i) s = .next t → t.nextSeq = 1

/-- While viral stands no command changes a byte of host memory, and viral ends only at a reset that clears it: PORST_N, a conventional reset, or the loss of state in DARK, from which a conventional reset or a wake leads. Every HDM read then answers poison. (R30, R388) -/
def Obligations.ViralStopsHostWrites : Prop :=
  (∀ (c : Instr) (s t : State), s.host.viral = true → exec c s = .next t →
    (∀ a, Memory.read t.host.hostMem a = Memory.read s.host.hostMem a) ∧
    (t.host.viral = true ∨ c = .cxlConventionalReset ∨ c = .darkReached ∨ ∃ b i, c = .porstN b i)) ∧
  ∀ (s : State) a errs, s.host.viral = true → a < hdmSize → s.memOn = true →
    ∃ t, exec (.hdmRead a errs) s = .next t ∧ t.host.lastPoison = true

/-- Two memories in canonical form whose every byte reads the same are equal data. (R159) -/
def Obligations.CanonicalMemoryIsItsReads : Prop :=
  ∀ m n : Mem, Memory.wf m → Memory.wf n → (∀ a, Memory.read m a = Memory.read n a) → m = n

/-- A BAR0 access of another size or alignment completes: a read returns 0, a write is discarded, and HST_ERR.BADACC is set; so do a BAR2 write that is not an aligned 64-bit one and every BAR2 read. No other register field and no other part of the state changes. (R31, R32, R35) -/
def Obligations.BadAccessChangesNothingElse : Prop :=
  ∀ (s : State) o n v m, s.power ≠ 3 → s.flt.c4 = [] →
  (accessOk o n = false → ∃ t, exec (.registerWrite .registers o n v m) s = .next t ∧
    t.getF HST_ERR.BADACC = 1 ∧ onlyFields [HST_ERR.BADACC] s t) ∧
  (accessOk o n = false → ∃ t, exec (.registerReadClear .registers o n m) s = .next t ∧
    t.getF HST_ERR.BADACC = 1 ∧ sameFields [HST_ERR.BADACC] s t ∧ t = { s with regs := t.regs, host.lastRead := 0 }) ∧
  (n ≠ 8 ∨ o % 8 ≠ 0 → ∀ c, ∀ i ∈ [Instr.registerWrite .doorbells o n v m, Instr.doorbell o n v c], ∃ t, exec i s = .next t ∧
    t.getF HST_ERR.BADACC = 1 ∧ onlyFields [HST_ERR.BADACC] s t) ∧
  ∃ t, exec (.registerReadClear .doorbells o n m) s = .next t ∧ t.getF HST_ERR.BADACC = 1 ∧ sameFields [HST_ERR.BADACC] s t ∧
    t = { s with regs := t.regs, host.lastRead := 0 }

/-- A 64-bit read of HST_DB_STALE returns the count and leaves the contribution m of an event of the same cycle; a 32-bit read of one half of ING_Pn_Ll_SER, whose field crosses bit 32, returns the bits it covers and leaves the field. Nothing else changes. (R8) -/
def Obligations.ReadClearKeepsTheEvent : Prop :=
  ∀ s : State, s.power ≠ 3 → s.flt.c4 = [] →
  (∀ m, ∃ t, exec (.registerReadClear .registers 0xB00030 8 m) s = .next t ∧
    t.host.lastRead = s.getF HST_DB_STALE.COUNT % 2 ^ 32 ∧
    t.getF HST_DB_STALE.COUNT = m % 2 ^ 32 ∧ sameFields [HST_DB_STALE.COUNT] s t ∧
    t = { s with regs := t.regs, host.lastRead := t.host.lastRead }) ∧
  ∀ p l, p < 24 → l < 4 → ∃ t,
    exec (.registerReadClear .registers (0x310110 + 0x1000 * p + 0x100 * l) 4 0) s = .next t ∧
    t.host.lastRead = s.getF (ING_P_L_SER.SYMERR p l) % 2 ^ 32 ∧
    (s.getF (ING_P_L_SER.SYMERR p l) < 2 ^ 48 → t.getF (ING_P_L_SER.SYMERR p l) = s.getF (ING_P_L_SER.SYMERR p l)) ∧
    sameFields [ING_P_L_SER.SYMERR p l] s t ∧ t = { s with regs := t.regs, host.lastRead := t.host.lastRead }

/-- NOP ends with a completion that waits for its sequence number: the index of the command, its ring, its TAG, STATUS OK and RESULT 0; a command that asks for no completion gets none. When the number of a waiting completion is due and its ring has space, one 32-byte entry is written at the slot of the producer index, with the next sequence number and the phase of the lap; the index advances, the phase toggles at the wrap, and every other ring, every other host byte and the store are as before. (R15, R41, R42, R45) -/
def Obligations.CompletionEntryWritten : Prop :=
  (∀ (s : State) (r : Fin 262144) e x, s.flt.c4 = [] → s.serves r.val 0x00 e → s.ring r.val = some x → x.exec = some e →
    exec (.nop r) s = .next { s with
      host.rings := Tbl.set s.host.rings none r.val (some { x with exec := none }),
      host.notices := if e.arg 9 1 = 1 then s.host.notices else s.host.notices ++
        [.completion s.clk.cycles x.cplRing r.val e.cidx (e.arg 32 16) stOk 0 0 (e.arg 8 1 == 1) none] }) ∧
  ∀ (s : State) stamp cpl r idx tag st res why irq c rest, s.flt.c4 = [] → s.outbox = [] → s.host.viral = false →
    s.host.notices = .completion stamp cpl r idx tag st res why irq none :: rest → stamp + 16 ≤ s.clk.cycles →
    s.ring cpl = some c → c.error = false → c.stuck = false → c.held = [] → c.lostCount = 0 → c.log2 ≤ 24 → c.prod < 2 ^ 32 →
    ∃ t, exec (.sequenceAssign []) s = .next t ∧
      (∀ i, i < 32 → Memory.read t.host.hostMem (c.base + 32 * (c.prod % c.size) + i) =
        (leBytes 32 (completionEntry res idx r tag st s.nextSeq why + 2 ^ 255 * c.phase)).getD i 0) ∧
      (∀ a, a < c.base + 32 * (c.prod % c.size) ∨ c.base + 32 * (c.prod % c.size) + 32 ≤ a →
        Memory.read t.host.hostMem a = Memory.read s.host.hostMem a) ∧
      t.nextSeq = s.nextSeq + 1 ∧ t.host.notices = rest ∧ sameStore s t ∧
      (∃ d, t.ring cpl = some d ∧ d.prod = (c.prod + 1) % 2 ^ 32 ∧ d.cons = c.cons ∧ d.base = c.base ∧ d.log2 = c.log2 ∧
        d.phase = (if (c.prod + 1) % c.size = 0 then 1 - c.phase else c.phase)) ∧
      ∀ q, q ≠ cpl → t.ring q = s.ring q

/-- A doorbell written to a page that does not own the ring or is not valid, to a ring that does not exist, or beyond the ring is discarded with its HST_ERR bit, the drop count and event 0x0B01, 0x0B02 or 0x0B03; the overrun also puts the ring in ERROR. One whose index lies behind is discarded with the stale count alone. A context miss may be counted. (R34, R35) -/
def Obligations.DoorbellChecks : Prop :=
  ∀ (s : State) off v r i subs, s.flt.c4 = [] → s.power ≠ 3 → off % 8 = 0 → v < 2 ^ 64 → r = bitsOf v 0 18 → i = bitsOf v 18 32 →
  subs = (if pageOfRing r = 0 then [] else [s.pageSub (pageOfRing r)]) →
  (pageOfRing r ≠ off / 4096 ∨ ((s.ring r).isSome = true ∧ s.pageValid (off / 4096) = false) →
    ∃ t, exec (.doorbell off 8 v false) s = .next t ∧ dropped HST_ERR.DB_MISROUTE (s.event subs 4 0x0B01 v off) s t) ∧
  (pageOfRing r = off / 4096 → s.ring r = none →
    ∃ t, exec (.doorbell off 8 v false) s = .next t ∧ dropped HST_ERR.DB_NORING (s.event subs 4 0x0B02 v off) s t) ∧
  (∀ x, pageOfRing r = off / 4096 → s.ring r = some x → s.pageValid (off / 4096) = true →
    (toSigned 32 (ofSigned 32 ((i : Int) - (if x.kind = 0 then x.prod else x.cons))) < 0 →
      ∃ t, exec (.doorbell off 8 v false) s = .next t ∧
        t.getF HST_DB_STALE.COUNT = min (2 ^ 32 - 1) (s.getF HST_DB_STALE.COUNT + 1) ∧
        sameFields [HST_DB_STALE.COUNT, HST_CTX_MISS.COUNT] s t ∧
        t = { s with regs := t.regs, host.ctxCache := t.host.ctxCache }) ∧
    (0 ≤ toSigned 32 (ofSigned 32 ((i : Int) - (if x.kind = 0 then x.prod else x.cons))) →
      x.size < (if x.kind = 0 then ofSigned 32 ((i : Int) - x.cons) else ofSigned 32 ((x.prod : Int) - i)) →
      ∃ t, exec (.doorbell off 8 v false) s = .next t ∧ t.getF HST_ERR.DB_OVERRUN = 1 ∧
        t.getF HST_DB_DROP.COUNT = min (2 ^ 32 - 1) (s.getF HST_DB_DROP.COUNT + 1) ∧
        t.ring r = some { x with error := true } ∧ (∀ q, q ≠ r → t.ring q = s.ring q) ∧
        t.outbox = s.outbox ++ [s.event subs 4 0x0B03 v (if x.kind = 0 then x.cons else x.prod)] ∧
        sameFields [HST_ERR.DB_OVERRUN, HST_DB_DROP.COUNT, HST_CTX_MISS.COUNT] s t ∧
        t = { s with
          regs := t.regs, outbox := t.outbox, host.rings := t.host.rings, host.ctxCache := t.host.ctxCache }))

/-- The image that governs dwell n is the newest one whose commit dwell is n or earlier, an image that governs every dwell among them. (R11, R54) -/
def Obligations.GoverningImage : Prop :=
  ∀ (s : State) (n : Int) l im r, s.scr.images = l ++ im :: r → (im.whole = true ∨ im.first ≤ n) →
  (∀ j ∈ r, j.whole = false ∧ n < j.first) → s.governing n = im

/-- A house cycle with EPOCH = 1 in which no new epoch group applies adds 4 × DEN to the accumulator and, where that reaches NUM, takes NUM off and advances house SIX by one modulo 2^64, whatever the frequency of the clock. With one image in force, n house cycles lead to the closed form. (R95) -/
def Obligations.HouseSixCounts : Prop :=
  (∀ s : State, s.epoch = true → s.clk.acc < s.num → 4 * s.den ≤ s.num → s.clk.six < 2 ^ 64 →
    (∀ im ∈ s.ahead, 1 < s.cyclesTo (im.startSix im.first)) →
    (tick s).clk.acc = (if s.num ≤ s.clk.acc + 4 * s.den then s.clk.acc + 4 * s.den - s.num else s.clk.acc + 4 * s.den) ∧
    (tick s).clk.six = (if s.num ≤ s.clk.acc + 4 * s.den then (s.clk.six + 1) % 2 ^ 64 else s.clk.six) ∧
    (tick s).clk.cycles = s.clk.cycles + 1 ∧ sameFields [TIM_EPS.VALUE] s (tick s) ∧
    tick s = { s with
      clk := (tick s).clk, regs := (tick s).regs, hck.hckSt := BitVec.ofNat 3 (s.getF HCK_STATUS.STATE),
      ing.taps := (tick s).ing.taps, ing.tapsDue := (tick s).ing.tapsDue }) ∧
  ∀ (s : State) im (n : Nat), s.epoch = true → s.scr.images = [im] → im.whole = true → s.clk.acc < im.val Scr.TIM_DT_NUM →
    s.clk.six < 2 ^ 64 →
    (tick^[n] s).clk.six = (s.clk.six + (s.clk.acc + 4 * n * im.val Scr.TIM_DT_DEN) / im.val Scr.TIM_DT_NUM) % 2 ^ 64

/-- With EPOCH = 0 and TAI valid or FREE_EPOCH set, EPOCH_START loads SIX and the accumulator by the formula of R94, with T - TAI0 in whole 2^-16 ns, sets EPOCH, and writes event 0x0207 with TAI_VALID; no store byte changes unless HCK_FLAG_MASK names the state of the house clock, whose mark may go into headers; otherwise EPOCH_START changes nothing. EPOCH_CLR clears EPOCH in HOLD and INTERMISSION, and sets TIM_EVT.WERR in any other state. (R94) -/
def Obligations.EpochStartsAndClears : Prop :=
  ∀ s : State, s.flt.c4 = [] →
  (s.epoch = false → (s.flag TIM_STATUS.TAI_VALID = true ∨ s.flag TIM_CTRL.FREE_EPOCH = true) →
    ∀ (num den : Nat) (x : Int), num = s.newest.val Scr.TIM_DT_NUM → den = s.newest.val Scr.TIM_DT_DEN → 0 < num →
    x = ((s.taiNow : Int) - taiTicks (s.newest.val Scr.TIM_TAI0)) * den / 65536 →
    ∃ t, exec .epochStart s = .next t ∧ t.epoch = true ∧
      t.clk.six = (((s.newest.val Scr.TIM_SIX0 : Int) + x / num) % 2 ^ 64).toNat ∧ (t.clk.acc : Int) = x - x / num * num ∧
      t.outbox = s.outbox ++ [⟨s.clk.cycles, t.clk.six, 2, 0x0207, t.clk.six,
        1 + 2 * b2n (s.flag TIM_STATUS.TAI_VALID), 0, 0, [], false⟩] ∧
      ((s.newest.val Scr.HCK_FLAG_MASK).testBit (s.getF HCK_STATUS.STATE) = false → sameStore s t)) ∧
  (s.epoch = true ∨ (s.flag TIM_STATUS.TAI_VALID = false ∧ s.flag TIM_CTRL.FREE_EPOCH = false) →
    exec .epochStart s = .next s) ∧
  ((s.getF PWR_STATUS.STATE = 1 ∨ s.getF PWR_STATUS.STATE = 2) →
    ∃ t, exec .epochClr s = .next t ∧ t.epoch = false ∧ onlyFields [TIM_STATUS.EPOCH] s t) ∧
  (s.getF PWR_STATUS.STATE ≠ 1 → s.getF PWR_STATUS.STATE ≠ 2 →
    ∃ t, exec .epochClr s = .next t ∧ t.bit TIM_EVT.BITS 7 = true ∧ onlyFields [TIM_EVT.BITS] s t)

/-- CUE_FIRE on a disabled channel only sets FIRE_ERR. On another channel, set and clear change its software level and put the edge that this makes, if any, on its way; a pulse on a low channel puts a rise and, one cycle later, a fall on their way: each with the present cycle as stamp and origin, an empty mask, and one cycle on the way unless the channel is unclocked. An edge that meets one the other way that is due no earlier takes it back instead (the model's choice, log 35). (R295, R302) -/
def Obligations.CueFire : Prop :=
  ∀ (s : State) (c : Fin 64) (way : Nat) (more : Bool → List Edge), s.flt.c4 = [] →
  way = (if (s.sv Scr.CUE_UNCLK).testBit c.val then 0 else 1) →
  (∀ lev, more lev = match s.lastEdge c.val with
    | some e => if s.clk.cycles + way ≤ e.due then s.cue.edges.erase e
      else s.cue.edges ++ [⟨c.val, lev, none, s.clk.cycles + way, s.clk.cycles, 0, s.clk.cycles⟩]
    | none => s.cue.edges ++ [⟨c.val, lev, none, s.clk.cycles + way, s.clk.cycles, 0, s.clk.cycles⟩]) →
  (s.bit CUE_CHDIS.MAP c.val = true → ∀ i ∈ [Instr.cueFirePulse c, Instr.cueFireSet c, Instr.cueFireClear c],
    ∃ t, exec i s = .next t ∧ t.getF CUE_STATUS.FIRE_ERR = 1 ∧ onlyFields [CUE_STATUS.FIRE_ERR] s t) ∧
  (s.bit CUE_CHDIS.MAP c.val = false →
    (∃ t, exec (.cueFireSet c) s = .next t ∧
      (∀ k, k < 64 → t.cue.swLevel.getLsbD k = (decide (k = c.val) || s.cue.swLevel.getLsbD k)) ∧
      t.cue.edges = (if s.schedLevel c.val then s.cue.edges else more true) ∧
      t = { s with cue.swLevel := t.cue.swLevel, cue.edges := t.cue.edges }) ∧
    (∃ t, exec (.cueFireClear c) s = .next t ∧
      (∀ k, k < 64 → t.cue.swLevel.getLsbD k = (!decide (k = c.val) && s.cue.swLevel.getLsbD k)) ∧
      (∀ lev, lev = (List.range 120).any (fun p => (s.se Scr.CUE_SRC c.val).testBit p && Tbl.get s.cue.prodLevel false p) →
        t.cue.edges = (if s.schedLevel c.val = lev then s.cue.edges else more lev)) ∧
      t = { s with cue.swLevel := t.cue.swLevel, cue.edges := t.cue.edges }) ∧
    (s.levelOf c.val = false → s.schedLevel c.val = false → (∀ e, s.lastEdge c.val = some e → e.due < s.clk.cycles + way) →
      exec (.cueFirePulse c) s = .next { s with
        cue.edges := s.cue.edges ++ [⟨c.val, true, none, s.clk.cycles + way, s.clk.cycles, 0, s.clk.cycles⟩,
          ⟨c.val, false, none, s.clk.cycles + 1 + way, s.clk.cycles + 1, 0, s.clk.cycles + 1⟩] }) ∧
    (s.levelOf c.val = true → exec (.cueFirePulse c) s = .next s))

/-- A fault of a class at or above FFL_MIN is captured while VALID is 0, with source, class, reason and house SIX; while VALID is 1 it only sets OVF; a fault below FFL_MIN changes nothing. Writing 0 to VALID clears it and nothing else. (R315) -/
def Obligations.FirstFaultLatch : Prop :=
  ∀ (s : State) src cls reason six, src < 1024 → cls ≤ 4 → reason < 65536 → six < 2 ^ 64 →
  (s.getF FLT_CTRL.FFL_MIN ≤ cls → s.flag FLT_FFL0.VALID = false →
    (s.latch src cls reason six).getF FLT_FFL0.SRC = src ∧ (s.latch src cls reason six).getF FLT_FFL0.CLASS = cls ∧
    (s.latch src cls reason six).getF FLT_FFL0.REASON = reason ∧ (s.latch src cls reason six).getF FLT_FFL1.SIX = six ∧
    (s.latch src cls reason six).flag FLT_FFL0.VALID = true ∧
    onlyFields [FLT_FFL0.SRC, FLT_FFL0.CLASS, FLT_FFL0.VALID, FLT_FFL0.REASON, FLT_FFL1.SIX] s (s.latch src cls reason six)) ∧
  (s.getF FLT_CTRL.FFL_MIN ≤ cls → s.flag FLT_FFL0.VALID = true →
    (s.latch src cls reason six).getF FLT_FFL0.OVF = 1 ∧ onlyFields [FLT_FFL0.OVF] s (s.latch src cls reason six)) ∧
  (cls < s.getF FLT_CTRL.FFL_MIN → s.latch src cls reason six = s) ∧
  (s.flt.c4 = [] → ∃ t, exec .fflRearm s = .next t ∧ t.flag FLT_FFL0.VALID = false ∧ onlyFields [FLT_FFL0.VALID] s t)

/-- While the collector is out of service a request for iron and a parity error change nothing, a rail fault is not judged, and an entry that gets its number writes no sticky bit, no count, no latch and no reaction. (R315, R316, R317) -/
def Obligations.OutOfServiceNoFault : Prop :=
  ∀ s : State, s.inService = false → s.flt.c4 = [] →
  exec .ironReq s = .next s ∧ exec (.paritySweep true) s = .next s ∧
  (∀ (k : Fin 1024) (c : Fin 4), ∃ t, exec (.railFault k c) s = .next t ∧ t = { s with flt.pair := t.flt.pair } ∧
    Tbl.get t.flt.pair 1 k.val = c.val) ∧
  ∀ e : Ev, sameFields [HST_CTX_MISS.COUNT] s (s.numberEv [] e) ∧ (s.numberEv [] e).flt = s.flt ∧
    (s.numberEv [] e).nextSeq = s.nextSeq + 1

/-- In service and outside iron, a request for iron or a parity error of the collector sends the device to iron within the command: FLT_STATUS.IRON and HST_STATUS.IRON are set and no class 4 fault is left without its answer. (R313, R320, R321) -/
def Obligations.Class4SendsToIron : Prop :=
  ∀ s : State, s.inService = true → s.iron = false → s.se Scr.FLT_PROMOTE 0 ≤ 4 → ∀ i ∈ [Instr.ironReq, Instr.paritySweep true],
  ∃ t, exec i s = .next t ∧ t.iron = true ∧ t.getF HST_STATUS.IRON = 1 ∧ t.flt.c4 = []

/-- In iron, with a class 4 source in error, the die at or above the resume threshold, or a failed self-test, a write of EXIT leaves the device in iron and changes only EXIT_FAIL and EXIT_WHY, which names the first of the three. (R323) -/
def Obligations.IronExitRefused : Prop :=
  ∀ (s : State) ok, s.iron = true → s.flt.c4 = [] →
  (s.c4Error = true ∨ (s.sv Scr.PWR_RESUME : Int) ≤ s.getS PWR_STATUS.THETA ∨ ok = false) →
  ∃ t, exec (.ironExit ok) s = .next t ∧ t.iron = true ∧ t.getF FLT_STATUS.EXIT_FAIL = 1 ∧
    t.getF FLT_STATUS.EXIT_WHY =
      (if s.c4Error then 1 else if (s.sv Scr.PWR_RESUME : Int) ≤ s.getS PWR_STATUS.THETA then 2 else 3) ∧
    onlyFields [FLT_STATUS.EXIT_FAIL, FLT_STATUS.EXIT_WHY] s t

/-- A live rank has MEMBER in bit 0, 0b01 in bits [2:1] and ACT in bit 3. The order of claims is that of the spec: null is below every live claim and above none, the signed 16-bit difference of the epochs decides, and the rank decides where it is 0 or 0x8000. Two live claims of different MEMBER never tie. An unpaired chip has MEMBER 0 and takes rank 0xA. (R327) -/
def Obligations.ClaimOrder : Prop :=
  (∀ a m, m ≤ 1 → (liveRank a m) % 2 = m ∧ bitsOf (liveRank a m) 1 2 = 1 ∧ bitOf (liveRank a m) 3 = a) ∧
  (∀ x y : Claim, x.2 = 0 → claimGreater x y = false) ∧
  (∀ x y : Claim, x.2 ≠ 0 → y.2 = 0 → claimGreater x y = true) ∧
  (∀ x y : Claim, x.1 < 65536 → y.1 < 65536 → x.2 ≠ 0 → y.2 ≠ 0 → ∀ d : Int, d = toSigned 16 (ofSigned 16 ((x.1 : Int) - y.1)) →
    claimGreater x y = (if d = 0 ∨ d = -32768 then decide (y.2 < x.2) else decide (0 < d))) ∧
  (∀ x y : Claim, x.1 < 65536 → y.1 < 65536 → x.2 ≠ 0 → y.2 ≠ 0 → x.2 ≠ y.2 → claimGreater x y = !claimGreater y x) ∧
  (∀ im : Image, im.paired = false → im.member = 0) ∧
  (∀ s : State, s.duo.joinAt.isSome = true → s.paired = false → s.iron = false → s.flag DUO_STATUS.WITHDRAWN = false →
    s.joinAlone.claim.2 = 0xA)

/-- With no M operation, nothing in flight and no input to take first, ADD, SUB, AND, OR, XOR, MIN, MAX, SEL, CNT, PACK, ADDI, SHLI, SHRAI and MVI leave their 16-bit result in Dd of every lane at the end of the cycle; every other data register, the accumulators, pointers, flags and memories of the cluster and the store are as before, and the program counter moves on by one. (R131, R140, R143) -/
def Obligations.AluLands : Prop :=
  ∀ (s : State) (c : Fin 128) (q : Ctx) (i : Instr) (f : Nat → Int), s.flt.c4 = [] → s.pitReady c.val = true → q = s.ctx c.val →
  mOp q.w = 0 → q.x.atReturn = false → q.x.flights = [] → q.x.redirects = [] → q.x.rtiLeft = none → q.x.flagsOr = 0 →
  ((i = .add c ∧ wOp q.w = 0x10 ∧ f = fun l => q.a l + q.b l) ∨
     (i = .sub c ∧ wOp q.w = 0x11 ∧ f = fun l => q.a l - q.b l) ∨
     (i = .pitAnd c ∧ wOp q.w = 0x12 ∧ f = fun l => ((half (q.a l) &&& half (q.b l) : Nat) : Int)) ∨
     (i = .pitOr c ∧ wOp q.w = 0x13 ∧ f = fun l => ((half (q.a l) ||| half (q.b l) : Nat) : Int)) ∨
     (i = .pitXor c ∧ wOp q.w = 0x14 ∧ f = fun l => ((half (q.a l) ^^^ half (q.b l) : Nat) : Int)) ∨
     (i = .pitMin c ∧ wOp q.w = 0x15 ∧ f = fun l => min (toSigned 16 (half (q.a l))) (toSigned 16 (half (q.b l)))) ∨
     (i = .pitMax c ∧ wOp q.w = 0x16 ∧ f = fun l => max (toSigned 16 (half (q.a l))) (toSigned 16 (half (q.b l)))) ∨
     (i = .sel c ∧ wOp q.w = 0x17 ∧ f = fun l => if q.flagOf l (rFlag q.w) then q.a l else q.b l) ∨
     (i = .cnt c ∧ wOp q.w = 0x18 ∧ f = fun l => q.a l + (if q.flagOf l (rFlag q.w) then 1 else 0)) ∨
     (i = .pack c ∧ wOp q.w = 0x1A ∧ f = fun l => 256 * (q.b l % 256) + q.a l % 256) ∨
     (i = .addi c ∧ wOp q.w = 0x20 ∧ f = fun l => (q.ia l : Int) + iImm q.w) ∨
     (i = .shli c ∧ wOp q.w = 0x22 ∧ f = fun l => (q.ia l : Int) * 2 ^ (iImm q.w % 16)) ∨
     (i = .shrai c ∧ wOp q.w = 0x23 ∧ f = fun l => toSigned 16 (q.ia l) / 2 ^ (iImm q.w % 16)) ∨
     (i = .mvi c ∧ wOp q.w = 0x24 ∧ f = fun _ => (iImm q.w : Int))) →
  ∃ t, exec i s = .next t ∧ (∀ l, l < 64 → (t.cluster c.val).dreg q.bank l (rDst q.w) = half (f l)) ∧
    (∀ b l r, l < 64 → r < 16 → (b ≠ q.bank ∨ r ≠ rDst q.w) → (t.cluster c.val).dreg b l r = q.x.dreg b l r) ∧
    (∃ d, t.cluster c.val = { q.x with
      d := d, next := (q.x.next + 1) % 4096, delay := q.x.delay - 1, sinceIn := q.x.sinceIn + 1,
      stopLeft := q.x.stopLeft.map (fun n => n - 1) }) ∧
    (∀ k, k ≠ c.val → t.cluster k = s.cluster k) ∧ sameStore s t

/-- With no M operation, nothing in flight, no flag set and no input to take first, a word of a reserved operation code sets ILL of the cluster and PIT_Cn_FLAGS.ILL; it changes no register, flag or memory of the cluster beside them. (R140) -/
def Obligations.IllegalWords : Prop :=
  ∀ (s : State) (c : Fin 128) (q : Ctx), s.flt.c4 = [] → s.pitReady c.val = true → q = s.ctx c.val → opDefined (wOp q.w) = false →
  mOp q.w = 0 → q.x.atReturn = false → q.x.flights = [] → q.x.redirects = [] → q.x.rtiLeft = none → q.x.sticky = [] →
  s.getF (PIT_C_FLAGS.BITS c.val) < 64 → s.promoted (s.pitSrc c.val) 1 < 4 →
  ∃ t, exec (.illegalOp c) s = .next t ∧
    t.cluster c.val = { q.x with
      ill := true, next := (q.x.next + 1) % 4096, delay := q.x.delay - 1, sinceIn := q.x.sinceIn + 1,
      stopLeft := q.x.stopLeft.map (fun n => n - 1) } ∧
    t.bit (PIT_C_FLAGS.BITS c.val) 5 = true ∧ sameStore s t ∧
    sameFields [PIT_C_FLAGS.BITS c.val, PIT_C_STATUS.PC c.val, PIT_C_STATUS.IN_WAIT c.val, PIT_C_STATUS.OUT_WAIT c.val,
      PIT_C_SAT.COUNT c.val] s t

/-- An accumulator takes the exact result modulo 2^40 and overflows just when that lies outside the signed 40-bit range. A reduction to w bits wraps, saturates, or saturates symmetrically; it leaves a value in range as it is, and reports a change only where a saturation made one. The shift truncates toward minus infinity. (R145) -/
def Obligations.Reductions : Prop :=
  (∀ v : Int, ((accFit v).1 : Int) = v % 2 ^ 40 ∧ ((accFit v).2 = true ↔ v < -2 ^ 39 ∨ 2 ^ 39 ≤ v) ∧
    ((accFit v).2 = false → toSigned 40 (accFit v).1 = v)) ∧
  (∀ w (v : Int), 1 ≤ w → (reduce w 0 v).2 = false ∧ ((reduce w 0 v).1 - v) % 2 ^ w = 0 ∧
    -2 ^ (w - 1) ≤ (reduce w 0 v).1 ∧ (reduce w 0 v).1 < 2 ^ (w - 1)) ∧
  (∀ w (v : Int), 1 ≤ w → (reduce w 1 v).1 = max (-2 ^ (w - 1)) (min (2 ^ (w - 1) - 1) v) ∧
    (reduce w 2 v).1 = max (-(2 ^ (w - 1) - 1)) (min (2 ^ (w - 1) - 1) v) ∧
    ∀ m, m = 1 ∨ m = 2 → ((reduce w m v).2 = true ↔ (reduce w m v).1 ≠ v)) ∧
  ∀ (v : Int) b (n : BitVec 32) (k : Nat), 2 ^ k * biased v b n k ≤ v + (if b then (n.toNat : Int) else 0) ∧
    v + (if b then (n.toNat : Int) else 0) < 2 ^ k * (biased v b n k + 1)

/-- With Ln = 0 a post-modify is taken modulo 1,024. With Ln set, a pointer whose offset lies in the buffer moves by a step of at most Ln round the buffer, any other step leaves an offset in the buffer or falls back to Bn and says so; a write of Ln leaves an offset below it, unchanged where it was so already. (R147) -/
def Obligations.CircularPointers : Prop :=
  (∀ p b (m : Int), ((circ p b 0 m).1 : Int) = (p + m) % 1024 ∧ (circ p b 0 m).2 = false ∧ circWrite p b 0 = (p, false)) ∧
  (∀ p b l (m : Int), p < 1024 → b < 1024 → 0 < l → l ≤ 1024 → ((circ p b l m).1 + 1024 - b) % 1024 < l ∧
    ((circ p b l m).2 = true → (circ p b l m).1 = b) ∧
    ((p + 1024 - b) % 1024 < l → -(l : Int) ≤ m → m ≤ l → (circ p b l m).2 = false ∧
      (((circ p b l m).1 + 1024 - b) % 1024 : Nat) = ((((p + 1024 - b) % 1024 : Nat) : Int) + m) % l)) ∧
  ∀ p b l, p < 1024 → b < 1024 → 0 < l → l ≤ 1024 → ((circWrite p b l).1 + 1024 - b) % 1024 < l ∧
    ((p + 1024 - b) % 1024 < l → circWrite p b l = (p, false)) ∧ ((circWrite p b l).2 = true → (circWrite p b l).1 = b)

/-- A write that its port has the right to, to a line that no open bank holds, at a controller for which nothing else waits, leaves the enabled bytes of the line as written, every other byte of the store as it was, and no poison in a code word written whole. (R163, R165) -/
def Obligations.StoreWriteReads : Prop :=
  ∀ (s : State) (p : Fin 10) a (d : BitVec 512) (b : BitVec 64) (w : Nat), s.flt.c4 = [] → a < storeBytes → s.storeOn = true →
  a % 64 = 0 → a < s.capBytes → (if p.val = 6 then s.hostMayWrite a else s.portMayWrite p.val a) = true →
  (s.pch (pcOf a)).queue = [] → (s.pch (pcOf a)).held = [] → (s.pch (pcOf a)).relocating = false → s.openLine a = none →
  ∃ t, exec (.storeWrite p a d b [] w) s = .next t ∧ sameStoreBut a s t ∧
    (∀ k, k < 64 → Memory.read t.mem (a + k) =
      (if b.getLsbD k then (leBytes 64 d.toNat).getD k 0 else Memory.read s.mem (a + k))) ∧
    (∀ i, i < 8 → bitsOf b.toNat (8 * i) 8 = 255 → t.poisoned (a / 8 + i) = false) ∧
    ∀ i, i < 8 → bitsOf b.toNat (8 * i) 8 ≠ 255 → t.poisoned (a / 8 + i) = s.poisoned (a / 8 + i)

/-- A host write outside a host-writable region is discarded with HDM_WR and event 0x0B04; an atomic add outside a region with AD or at or above the usable capacity, and a fabric write outside a region with FW or there, are discarded with STO_DENY and event 0x0507; a write of the other ports outside every region or there is discarded. No store byte and nothing else changes. (R29, R163) -/
def Obligations.DeniedAccesses : Prop :=
  ∀ (s : State), s.flt.c4 = [] →
  (∀ a d b es i, s.hostMayWrite a = false →
    ((a < hdmSize ∧ s.memOn = true ∧ i = .hdmWrite a d b es) ∨
      (a < storeBytes ∧ s.storeOn = true ∧ ∃ w, i = .storeWrite 6 a d b es w)) →
    ∃ t, exec i s = .next t ∧ t.getF HST_ERR.HDM_WR = 1 ∧ sameFields [HST_ERR.HDM_WR] s t ∧
      t = { s with regs := t.regs, outbox := s.outbox ++ [s.event [] 4 0x0B04 a 0] }) ∧
  ∀ a, a < storeBytes → s.storeOn = true → ∀ (p : Fin 10) i,
    (∀ d b es w, p.val ≠ 1 → p.val ≠ 6 → s.capBytes ≤ a ∨ s.portMayWrite p.val a = false →
      exec (.storeWrite p a d b es w) s = .next s) ∧
    (s.promoted (pcSrc (pcOf a)) 1 < 4 →
      (∃ f m d es, i = .atomicAdd p a f m d es ∧ (s.capBytes ≤ a ∨ s.addAllowed a = false)) ∨
        (p.val = 1 ∧ (s.capBytes ≤ a ∨ s.portMayWrite 1 a = false) ∧ ∃ d b es w, i = .storeWrite p a d b es w) →
      ∃ t, exec i s = .next t ∧ t.getF STO_DENY.COUNT = min (2 ^ 32 - 1) (s.getF STO_DENY.COUNT + 1) ∧
        sameFields [STO_DENY.COUNT] s t ∧ t = { s with
          regs := t.regs, outbox := s.outbox ++ [{ s.event [] (pcSrc (pcOf a)) 0x0507 a p.val with
            cls := s.promoted (pcSrc (pcOf a)) 1 }] })

/-- Where nothing else waits at the controller, a host read of a line from 1 GiB up to the usable capacity returns the line as stored, and one from 36 MiB to 1 GiB zeros, with poison where a code word of it is poisoned; a read between the usable capacity and 192 GiB returns zeros with poison. No store byte changes. (What lies below 36 MiB has no layout in the spec and is a free value, log 9: the statement leaves it and stale lines of an open bank out.) (R28, R161, R163) -/
def Obligations.HdmReads : Prop :=
  ∀ (s : State) a, s.flt.c4 = [] → a < windowBase → s.memOn = true → s.host.viral = false →
  (s.pch (pcOf a)).queue = [] → (s.pch (pcOf a)).held = [] → (s.pch (pcOf a)).relocating = false →
  (a < s.capBytes → 0x2400000 ≤ a → s.staleLine a = false → ∃ t, exec (.hdmRead a []) s = .next t ∧
    t.host.lastRead = (if a < 2 ^ 30 then 0 else leNat (Memory.readBytes s.mem a 64)) ∧
    t.host.lastPoison = (List.range 8).any (fun i => s.poisoned (a / 8 + i)) ∧ sameStore s t) ∧
  (s.capBytes ≤ a → ∀ es, ∃ t, exec (.hdmRead a es) s = .next t ∧ t.host.lastRead = 0 ∧ t.host.lastPoison = true ∧ t.mem = s.mem)

/-- An add to a clean line in a region with AD, at a controller for which nothing else waits and where no enabled lane overflows, leaves in each enabled lane the sum modulo 2^w without a carry between lanes, every other lane and every other store byte as before. The sum of a lane wraps, and counts as overflow just when the exact signed sum lies outside the range of the lane. (R163, R178) -/
def Obligations.AtomicAdd : Prop :=
  (∀ (s : State) (p : Fin 10) a (f : Fin 3) (m : BitVec 16) (d : BitVec 512), s.flt.c4 = [] → a < storeBytes → s.storeOn = true →
    a % 64 = 0 → a < s.capBytes → s.addAllowed a = true → s.openLine a = none →
    (s.pch (pcOf a)).queue = [] → (s.pch (pcOf a)).held = [] → (s.pch (pcOf a)).relocating = false →
    (∀ i, i < 8 → s.poisoned (a / 8 + i) = false) →
    (∀ l ∈ lanesOf f.val, m.toNat.testBit l.bit = true → (l.sum (Memory.readNat s.mem a 64) d.toNat).2 = false) →
    ∃ t, exec (.atomicAdd p a f m d []) s = .next t ∧ sameStoreBut a s t ∧
      ∀ l ∈ lanesOf f.val, bitsOf (Memory.readNat t.mem a 64) l.lo l.w =
        (if m.toNat.testBit l.bit then
          (bitsOf (Memory.readNat s.mem a 64) l.lo l.w + bitsOf d.toNat l.lo l.w) % 2 ^ l.w
        else bitsOf (Memory.readNat s.mem a 64) l.lo l.w)) ∧
  ∀ (l : LaneSlot) x y, 1 ≤ l.w → (l.sum x y).1 = (bitsOf x l.lo l.w + bitsOf y l.lo l.w) % 2 ^ l.w ∧
    ((l.sum x y).2 = true ↔ ¬(-2 ^ (l.w - 1) ≤ toSigned l.w (bitsOf x l.lo l.w) + toSigned l.w (bitsOf y l.lo l.w) ∧
      toSigned l.w (bitsOf x l.lo l.w) + toSigned l.w (bitsOf y l.lo l.w) ≤ 2 ^ (l.w - 1) - 1))

/-- Under one anchor the integration number of the next dwell is the same or one more, it is more exactly where a first dwell begins, and every dwell lies between the first and the last dwell of its integration. (R254) -/
def Obligations.IntegrationNumbers : Prop :=
  ∀ (s : State) (k i : Int) (L : Nat) (n : Int), s.prd.anchors = [(k, i, L)] → 1 ≤ L →
  s.integ n = i + (n - k) / L ∧ (s.integ (n + 1) = s.integ n ∨ s.integ (n + 1) = s.integ n + 1) ∧
  (s.firstDwell n = n ↔ (n - k) % L = 0) ∧ (s.firstDwell (n + 1) = n + 1 ↔ s.integ (n + 1) = s.integ n + 1) ∧
  s.firstDwell n ≤ n ∧ n ≤ s.lastDwell n ∧ s.integ (s.firstDwell n) = s.integ n ∧ s.integ (s.lastDwell n) = s.integ n

/-- Outside iron, a mover whose paced descriptor has had no request for MOV_PACE_TO µs since its start completes it with PACE_TIMEOUT and halts, whatever becomes of its STATUS; a MOV_PACE_TO of 0 disables the timeout. MOV_PACE_TO is that of the image the mover follows. (The clauses leave out a fault of it that FLT_PROMOTE raises to class 4, and a store descriptor met while granules are relocated.) (R199) -/
def Obligations.PaceTimeoutHalts : Prop :=
  ∀ (s : State) (m : Fin 64) (us : Nat), s.flt.c4 = [] → s.iron = false → s.flag (MOV_M_STATE.PACE_WAIT m.val) = true →
  us = (s.movImage m.val).el Scr.MOV_PACE_TO (m.val - 32) % 2 ^ 32 →
  (us ≠ 0 → (s.mover m.val).stopRings = [] → (s.movAddr m.val / 2 ^ 62 = 1 ∨ ∀ n, (s.pch n).relocating = false) →
    (∀ k, (s.lapse (.pace m.val) (250 * us)).promoted k 1 < 4) →
    ∃ t, exec (.paceTimeout m) s = .next t ∧ t.movState m.val = 3 ∧ t.getF (MOV_M_STATE.LAST_CODE m.val) = 4 ∧
      t.getF (MOV_M_STATE.PACE_WAIT m.val) = 0 ∧ (t.mover m.val).code = 4 ∧ (t.mover m.val).work = false ∧
      (∀ c, s.timerOf (.pace m.val) = some c → t.clk.cycles = max s.clk.cycles (c + 250 * us)) ∧
      (∀ k, k ≠ m.val → t.mover k = s.mover k) ∧ ∀ k, k < 64 → k ≠ m.val → t.movState k = s.movState k) ∧
  (us = 0 → exec (.paceTimeout m) s = .next s)

/-- From its HEAD on, a slot's field and tally give the exact sum of the terms of each component as f + t × 2^w while neither tally is SAT, for any terms within range, in any order; the field stays a signed w-bit value and the weight is the exact sum of the weights. (R214) -/
def Obligations.TallyExact : Prop :=
  ∀ (w : Nat) (c d : CellSlot) (h : Int × Int) (v : Nat) (l : List ((Int × Int) × Nat)), 1 ≤ w →
  (∀ p ∈ (h, v) :: l, |p.1.1| < 2 ^ (w - 1) ∧ |p.1.2| < 2 ^ (w - 1)) →
  d = l.foldl (fun c p => c.step w false p.1 p.2) (c.step w true h v) → d.tre ≠ 4 → d.tim ≠ 4 →
  h.1 + (l.map (fun p => p.1.1)).sum = d.re + d.tre * 2 ^ w ∧ h.2 + (l.map (fun p => p.1.2)).sum = d.im + d.tim * 2 ^ w ∧
  -2 ^ (w - 1) ≤ d.re ∧ d.re < 2 ^ (w - 1) ∧ -2 ^ (w - 1) ≤ d.im ∧ d.im < 2 ^ (w - 1) ∧
  d.wt = v + (l.map (fun p => p.2)).sum

/-- On a port that is UP, CREDIT_SEND sends one header of CLASS 0xE with a valid HCRC, an increment per pool of the units freed, at most 255, and DROP_REQ; what it returned is no longer owed. (R277, R279) -/
def Obligations.CreditUnitSent : Prop :=
  ∀ (s : State) (p : Fin 8), s.flt.c4 = [] → s.fabUp p.val = true → s.getF (FAB_P_STATUS.DROP_REQ p.val) < 16 →
  ∃ t h, exec (.creditSend p) s = .next t ∧ t.sent = s.sent ++ [.packet p.val h []] ∧ hdr h 4 4 = 0xE ∧
    (∀ q, q < 6 → hdr h (16 + 8 * q) 8 = min 255 (Tbl.get s.fab.freed 0 (poolKey p.val q)) ∧
      Tbl.get t.fab.freed 0 (poolKey p.val q) = Tbl.get s.fab.freed 0 (poolKey p.val q) - hdr h (16 + 8 * q) 8) ∧
    hdr h 64 4 = s.getF (FAB_P_STATUS.DROP_REQ p.val) ∧ hdr h 240 16 = hcrcOf (h.toNat % 2 ^ 240) ∧
    t = { s with fab.freed := t.fab.freed, sent := t.sent }

/-- REMAP follows the boot engine and the control cores alone: a host write sets BADACC, and no other master changes anything. ROLLBACK_ANCHOR leaves the rollback fuses as they are, or raises them to a count the journal floor already covers, and never lowers them. (R352, R362) -/
def Obligations.ControlPlaneRights : Prop :=
  (∀ (s : State) b, s.flt.c4 = [] →
    (∀ m, m = Master.bootEngine ∨ (∃ k, m = Master.core k) → ∃ t, exec (.remapWrite m b) s = .next t ∧
      t.flag CTL_MATRIX.REMAP = b ∧ onlyFields [CTL_MATRIX.REMAP] s t) ∧
    (∃ t, exec (.remapWrite .hostBridge b) s = .next t ∧ t.getF HST_ERR.BADACC = 1 ∧ onlyFields [HST_ERR.BADACC] s t) ∧
    exec (.remapWrite .debug b) s = .next s ∧ exec (.remapWrite .moverDma b) s = .next s) ∧
  ∀ (s t : State) r, s.flt.c4 = [] → exec (.rollbackAnchor r) s = .next t →
    t.ctl.jFloor = s.ctl.jFloor ∧ s.ctl.fuseCount ≤ t.ctl.fuseCount ∧
    (t.ctl.fuseCount ≠ s.ctl.fuseCount → 1024 * t.ctl.fuseCount ≤ s.ctl.jFloor)

/-- Outside DARK a pit block reset returns every PIT_ register field to its reset value and every cluster to idle with its program, local and coefficient memories kept, sets PWR_BLKRST bit 0 and changes nothing else while no pit command waits; in DARK none of the five block resets does anything. (R158, R389) -/
def Obligations.PitBlockReset : Prop :=
  ∀ s : State, s.flt.c4 = [] →
  (s.power ≠ 3 → (∀ e ∈ s.clu, ∀ x, e.2 = some x → x.coefRings = [] ∧ x.flipRing = none ∧ x.readRings = []) →
    ∃ t, exec .pitBlockReset s = .next t ∧ t.bit PWR_BLKRST.BITS 0 = true ∧
      (∀ f : Fld, 0x400000 ≤ f.off → f.off < 0x500000 → f.lo < 64 → f.rst < 2 ^ 64 → t.getF f = f.rst) ∧
      (∀ f : Fld, (f.off < 0x400000 ∨ 0x500000 ≤ f.off) → f.lo < 64 → f.key ≠ PWR_BLKRST.BITS.key → t.getF f = s.getF f) ∧
      (∀ c, t.cluster c = (s.cluster c).blank) ∧ t = { s with regs := t.regs, clu := t.clu }) ∧
  (s.power = 3 → ∀ i ∈ [Instr.pitBlockReset, Instr.movBlockReset, Instr.stgBlockReset, Instr.cueBlockReset, Instr.hstBlockReset],
    exec i s = .next s)
end

