-- ==== Sys2Proof/Laws/Tbl.lean ====
section
/-!
SUPPORT. Laws of the sparse tables and of the byte memory made of them: what a read after a write gives, and that every
operation keeps the canonical form.
-/

namespace Sys2Proof.Machine

namespace Tbl

variable {α : Type}

theorem get_insertSorted_self (d : α) (k : Nat) (v : α) (t : Tbl α) (h : ∀ e ∈ t, e.1 ≠ k) :
    get (insertSorted k v t) d k = v := by
  induction t with
  | nil => simp [insertSorted, get]
  | cons e r ih =>
    obtain ⟨k', v'⟩ := e
    have hk : k' ≠ k := h (k', v') (by simp)
    unfold insertSorted
    split
    · simp [get]
    · simp only [get, if_neg hk]
      exact ih (fun e he => h e (by simp [he]))

theorem get_insertSorted_other (d : α) (k j : Nat) (v : α) (t : Tbl α) (h : j ≠ k) :
    get (insertSorted k v t) d j = get t d j := by
  induction t with
  | nil => simp [insertSorted, get, Ne.symm h]
  | cons e r ih =>
    obtain ⟨k', v'⟩ := e
    unfold insertSorted
    split
    · simp [get, Ne.symm h]
    · simp only [get, ih]

theorem get_drop_self (d : α) (k : Nat) (t : Tbl α) : get (drop t k) d k = d := by
  induction t with
  | nil => rfl
  | cons e r ih =>
    obtain ⟨k', v'⟩ := e
    by_cases hk : k' = k
    · simpa [drop, hk] using ih
    · simpa [drop, hk, get] using ih

theorem get_drop_other (d : α) (k j : Nat) (t : Tbl α) (h : j ≠ k) : get (drop t k) d j = get t d j := by
  induction t with
  | nil => rfl
  | cons e r ih =>
    obtain ⟨k', v'⟩ := e
    by_cases hk : k' = k
    · subst hk
      simpa [drop, get, Ne.symm h] using ih
    · have : drop ((k', v') :: r) k = (k', v') :: drop r k := by simp [drop, hk]
      rw [this]; simp only [get, ih]

theorem key_mem_drop (k : Nat) (t : Tbl α) : ∀ e ∈ drop t k, e.1 ≠ k := by
  intro e he
  simp [drop] at he
  exact he.2

variable [DecidableEq α]

/-- A write is read back. -/
@[simp] theorem get_set_self (t : Tbl α) (d : α) (k : Nat) (v : α) : get (set t d k v) d k = v := by
  unfold set
  split
  · rename_i h; rw [get_drop_self, h]
  · exact get_insertSorted_self d k v _ (key_mem_drop k t)

/-- A write leaves every other key alone. -/
theorem get_set_other (t : Tbl α) (d : α) (k j : Nat) (v : α) (h : j ≠ k) : get (set t d k v) d j = get t d j := by
  unfold set
  split
  · exact get_drop_other d k j t h
  · rw [get_insertSorted_other d k j v _ h, get_drop_other d k j t h]

/-- A read after a write to any key. -/
theorem get_set (t : Tbl α) (d : α) (k j : Nat) (v : α) : get (set t d k v) d j = if j = k then v else get t d j := by
  by_cases h : j = k
  · simp [h]
  · simp [h, get_set_other]

theorem wfFrom_le (d : α) {lo hi : Nat} (h : lo ≤ hi) : ∀ {t : Tbl α}, wfFrom d hi t = true → wfFrom d lo t = true
  | [], _ => rfl
  | (k, v) :: r, hw => by
    simp only [wfFrom, Bool.and_eq_true, decide_eq_true_eq] at hw ⊢
    exact ⟨⟨by omega, hw.1.2⟩, hw.2⟩

/-- Removing entries keeps the canonical form. -/
theorem wfFrom_filter (d : α) (p : Nat × α → Bool) : ∀ {lo : Nat} {t : Tbl α}, wfFrom d lo t = true →
    wfFrom d lo (t.filter p) = true
  | _, [], _ => rfl
  | lo, (k, v) :: r, hw => by
    simp only [wfFrom, Bool.and_eq_true, decide_eq_true_eq] at hw
    have ih := wfFrom_filter d p hw.2
    simp only [List.filter]
    split
    · simp only [wfFrom, Bool.and_eq_true, decide_eq_true_eq]
      exact ⟨⟨hw.1.1, hw.1.2⟩, ih⟩
    · exact wfFrom_le d (by omega) ih

theorem wfFrom_insertSorted (d : α) (k : Nat) (v : α) (hv : v ≠ d) : ∀ {lo : Nat} {t : Tbl α}, wfFrom d lo t = true → lo ≤ k →
    (∀ e ∈ t, e.1 ≠ k) → wfFrom d lo (insertSorted k v t) = true
  | lo, [], _, hlo, _ => by simp [insertSorted, wfFrom, hlo, hv]
  | lo, (k', v') :: r, hw, hlo, hk => by
    simp only [wfFrom, Bool.and_eq_true, decide_eq_true_eq] at hw
    have hne : k' ≠ k := hk (k', v') (by simp)
    unfold insertSorted
    split
    · rename_i hlt
      simp only [wfFrom, Bool.and_eq_true, decide_eq_true_eq]
      exact ⟨⟨hlo, hv⟩, ⟨by omega, hw.1.2⟩, hw.2⟩
    · simp only [wfFrom, Bool.and_eq_true, decide_eq_true_eq]
      exact ⟨⟨hw.1.1, hw.1.2⟩, wfFrom_insertSorted d k v hv hw.2 (by omega) (fun e he => hk e (by simp [he]))⟩

/-- A write keeps the canonical form. -/
theorem wfFrom_set (d : α) (k : Nat) (v : α) {t : Tbl α} (h : wfFrom d 0 t = true) : wfFrom d 0 (set t d k v) = true := by
  unfold set
  split
  · exact wfFrom_filter d _ h
  · rename_i hv
    exact wfFrom_insertSorted d k v hv (wfFrom_filter d _ h) (Nat.zero_le _) (key_mem_drop k t)

/-- A key below every listed one reads the default. -/
theorem get_below (d : α) : ∀ {lo k : Nat} {t : Tbl α}, wfFrom d lo t = true → k < lo → get t d k = d
  | _, _, [], _, _ => rfl
  | lo, k, (k', v) :: r, hw, hk => by
    simp only [wfFrom, Bool.and_eq_true, decide_eq_true_eq] at hw
    have : k' ≠ k := by omega
    simp only [get, if_neg this]
    exact get_below d hw.2 (by omega)

end Tbl

namespace Memory

/-- A byte written is read back. -/
@[simp] theorem read_write_self (m : Mem) (a : Nat) (b : Byte) : read (write m a b) a = b := Tbl.get_set_self m unlisted a b

/-- A write leaves every other byte alone. -/
theorem read_write_other (m : Mem) (a x : Nat) (b : Byte) (h : x ≠ a) : read (write m a b) x = read m x :=
  Tbl.get_set_other m unlisted a x b h

/-- Writing a byte keeps the canonical form. -/
theorem wf_write {m : Mem} (h : wf m) (a : Nat) (b : Byte) : wf (write m a b) := Tbl.wfFrom_set unlisted a b h

/-- Writing bytes keeps the canonical form. -/
theorem wf_writeBytes {m : Mem} (h : wf m) (a : Nat) (l : List Byte) : wf (writeBytes m a l) := by
  induction l generalizing m a with
  | nil => exact h
  | cons b r ih => exact ih (wf_write h a b) (a + 1)

/-- Writing a value keeps the canonical form. -/
theorem wf_writeNat {m : Mem} (h : wf m) (a n v : Nat) : wf (writeNat m a n v) := wf_writeBytes h a _

/-- Clearing bytes keeps the canonical form. -/
theorem wf_filter {m : Mem} (h : wf m) (p : Host.Cell → Bool) : wf (m.filter p) := Tbl.wfFrom_filter unlisted p h

/-- Bytes outside a written span read as before. -/
theorem read_writeBytes_other (m : Mem) (a x : Nat) (l : List Byte) (h : x < a ∨ a + l.length ≤ x) :
    read (writeBytes m a l) x = read m x := by
  induction l generalizing m a with
  | nil => rfl
  | cons b r ih =>
    simp only [List.length_cons] at h
    rw [writeBytes, ih (write m a b) (a + 1) (by omega), read_write_other m a x b (by omega)]

/-- A byte of a written span. -/
theorem read_writeBytes_self (m : Mem) (a k : Nat) (l : List Byte) (h : k < l.length) :
    read (writeBytes m a l) (a + k) = l.getD k 0 := by
  induction l generalizing m a k with
  | nil => simp at h
  | cons b r ih =>
    cases k with
    | zero =>
      rw [writeBytes, Nat.add_zero, read_writeBytes_other _ _ _ _ (by omega)]
      simp
    | succ j =>
      have := ih (write m a b) (a + 1) j (by simpa using h)
      rw [writeBytes, show a + (j + 1) = a + 1 + j by omega, this]
      simp

@[simp] theorem length_leBytes (n v : Nat) : (leBytes n v).length = n := by
  induction n generalizing v with
  | zero => rfl
  | succ n ih => simp [leBytes, ih]

/-- Bytes outside a written value read as before. -/
theorem read_writeNat_other (m : Mem) (a n v x : Nat) (h : x < a ∨ a + n ≤ x) : read (writeNat m a n v) x = read m x :=
  read_writeBytes_other m a x _ (by simpa using h)

end Memory

end Sys2Proof.Machine
end

