-- ==== Sys2Proof/Laws/Kept.lean ====
section
/-!
SUPPORT. What no shared operation does, said once: `Kept s t`. An operation leaves the queue of commands alone, keeps the
store and host memory in their canonical form, only appends to the block's output, never lowers the event number, the
count of free values or the house cycle count, and writes nothing to host memory while viral is reported (R15, R30).
-/

namespace Sys2Proof.Machine

/-- What every shared operation keeps. -/
structure Kept (s t : State) : Prop where
  pending : t.pending = s.pending
  mem : Memory.wf s.mem → Memory.wf t.mem
  hostMem : Memory.wf s.host.hostMem → Memory.wf t.host.hostMem
  sent : s.sent <+: t.sent
  seq : s.nextSeq ≤ t.nextSeq
  free : s.freeCount ≤ t.freeCount
  cycles : s.clk.cycles ≤ t.clk.cycles
  viral : s.host.viral = true → t.host.viral = true ∧ t.host.hostMem = s.host.hostMem

theorem Kept.refl (s : State) : Kept s s :=
  ⟨rfl, id, id, List.prefix_rfl, le_refl _, le_refl _, le_refl _, fun h => ⟨h, rfl⟩⟩

theorem Kept.trans {a b c : State} (h : Kept a b) (k : Kept b c) : Kept a c where
  pending := k.pending.trans h.pending
  mem := k.mem ∘ h.mem
  hostMem := k.hostMem ∘ h.hostMem
  sent := h.sent.trans k.sent
  seq := h.seq.trans k.seq
  free := h.free.trans k.free
  cycles := h.cycles.trans k.cycles
  viral := fun v => ⟨(k.viral (h.viral v).1).1, (k.viral (h.viral v).1).2.trans (h.viral v).2⟩

theorem Kept.after {a b c : State} (k : Kept b c) (h : Kept a b) : Kept a c := h.trans k

theorem Kept.use {s t : State} (x : State) (h : Kept s x) (k : Kept s x → Kept s t) : Kept s t := k h

/-- The type of a value, by name. -/
abbrev TyOf {α : Type} (_ : α) : Type := α

/-- An update of the parts of the state that `Kept` does not speak of. -/
theorem Kept.lit (x : State) {regs outbox clu mov clk host scr hck tim ing sto seq bem prd fab cue flt duo ctl matrix pwr}
    (h1 : clk.cycles = x.clk.cycles) (h2 : host.hostMem = x.host.hostMem) (h3 : host.viral = x.host.viral) :
    Kept x ⟨x.pending, x.freeCount, regs, outbox, x.nextSeq, x.sent, x.mem, clu, mov, clk, host, scr, hck, tim, ing, sto, seq,
      bem, prd, fab, cue, flt, duo, ctl, matrix, pwr⟩ :=
  ⟨rfl, id, by simp [h2], List.prefix_rfl, le_refl _, le_refl _, by simp [h1], fun v => ⟨by simp [h3, v], by simp [h2]⟩⟩

/-- An update of any part, with what `Kept` asks of it. -/
theorem Kept.parts (x : State) {fc ns regs outbox sent mem clu mov clk host scr hck tim ing sto seq bem prd fab cue flt duo ctl matrix pwr}
    (hf : x.freeCount ≤ fc) (hn : x.nextSeq ≤ ns) (hs : x.sent <+: sent) (hm : Memory.wf x.mem → Memory.wf mem)
    (hc : x.clk.cycles ≤ clk.cycles) (hh : Memory.wf x.host.hostMem → Memory.wf host.hostMem)
    (hv : x.host.viral = true → host.viral = true ∧ host.hostMem = x.host.hostMem) :
    Kept x ⟨x.pending, fc, regs, outbox, ns, sent, mem, clu, mov, clk, host, scr, hck, tim, ing, sto, seq,
      bem, prd, fab, cue, flt, duo, ctl, matrix, pwr⟩ :=
  ⟨rfl, hm, hh, hs, hn, hf, hc, hv⟩

theorem Kept.ite {s a b : State} {c : Prop} [Decidable c] (ha : c → Kept s a) (hb : ¬c → Kept s b) :
    Kept s (if c then a else b) := by
  split
  · exact ha ‹_›
  · exact hb ‹_›

theorem Kept.fst_ite {α : Type} {s : State} {a b : State × α} {c : Prop} [Decidable c] (ha : c → Kept s a.1)
    (hb : ¬c → Kept s b.1) : Kept s (if c then a else b).1 := by
  split
  · exact ha ‹_›
  · exact hb ‹_›

theorem Kept.fst_mk {α : Type} {s a : State} {b : α} (h : Kept s a) : Kept s (a, b).1 := h

theorem Kept.fst_elim {α β : Type} {s : State} {o : Option β} {a : State × α} {f : β → State × α} (ha : Kept s a.1)
    (hf : ∀ x, o = some x → Kept s (f x).1) : Kept s (o.elim a f).1 := by
  cases o with
  | none => exact ha
  | some x => exact hf x rfl

theorem Kept.of_pair {α : Type} {s a : State} {x : State × α} {b : α} (e : x = (a, b)) (h : Kept s x.1) : Kept s a := by
  rw [e] at h
  exact h

theorem foldl_kept {α : Type} {f : State → α → State} (h : ∀ s a, Kept s (f s a)) (l : List α) (s : State) :
    Kept s (l.foldl f s) := by
  induction l generalizing s with
  | nil => exact Kept.refl s
  | cons a r ih => exact (h s a).trans (ih _)

theorem foldl_fst_kept {α β : Type} {f : State × β → α → State × β} (h : ∀ q a, Kept q.1 (f q a).1) (l : List α)
    (q : State × β) : Kept q.1 (l.foldl f q).1 := by
  induction l generalizing q with
  | nil => exact Kept.refl _
  | cons a r ih => exact (h q a).trans (ih _)

theorem foldl_pair_kept {α β : Type} {f : State × β → α → State × β} (h : ∀ q a, Kept q.1 (f q a).1) (l : List α) (s : State)
    (b : β) : Kept s (l.foldl f (s, b)).1 := foldl_fst_kept h l (s, b)

theorem State.each_kept {α : Type} {f : State → α → State} (h : ∀ s a, Kept s (f s a)) (s : State) (l : List α) :
    Kept s (s.each l f) := foldl_kept h l s

theorem State.whenever_kept {f : State → State} (h : ∀ s, Kept s (f s)) (s : State) (b : Bool) :
    Kept s (s.whenever b f) := by
  unfold State.whenever
  split
  · exact h s
  · exact Kept.refl s

end Sys2Proof.Machine
end

