-- ==== Sys2Proof/Laws/KeptBase.lean ====
section
/-!
SUPPORT. `Kept` for the operations every unit shares, from register fields to iron entry (R3 to R326).
-/

namespace Sys2Proof.Machine

/-! ## Ops -/

theorem State.setF_kept (s : State) (f : Fld) (v : Nat) : Kept s (State.setF s f v) := by
  unfold State.setF
  repeat' first
    | (with_reducible exact Kept.refl _)
    | (with_reducible rfl)
    | (with_reducible exact fun h => h)
    | (with_reducible exact fun h => ⟨h, rfl⟩)
    | (with_reducible apply Kept.after (Kept.parts _ ?_ ?_ ?_ ?_ ?_ ?_ ?_))

theorem State.setFlag_kept (s : State) (f : Fld) (b : Bool) : Kept s (State.setFlag s f b) := by
  unfold State.setFlag
  repeat' first
    | (with_reducible exact Kept.refl _)
    | (with_reducible apply Kept.after (State.setF_kept _ _ _))

theorem State.putBit_kept (s : State) (f : Fld) (i : Nat) (b : Bool) : Kept s (State.putBit s f i b) := by
  unfold State.putBit
  repeat' first
    | (with_reducible exact Kept.refl _)
    | (with_reducible apply Kept.after (State.setF_kept _ _ _))

theorem State.incF_kept (s : State) (f : Fld) (n : Nat) : Kept s (State.incF s f n) := by
  unfold State.incF
  repeat' first
    | (with_reducible exact Kept.refl _)
    | (with_reducible apply Kept.after (State.setF_kept _ _ _))

theorem State.addF_kept (s : State) (f : Fld) (n : Nat) : Kept s (State.addF s f n) := by
  unfold State.addF
  repeat' first
    | (with_reducible exact Kept.refl _)
    | (with_reducible apply Kept.after (State.setF_kept _ _ _))

theorem State.setS_kept (s : State) (f : Fld) (v : Int) : Kept s (State.setS s f v) := by
  unfold State.setS
  repeat' first
    | (with_reducible exact Kept.refl _)
    | (with_reducible apply Kept.after (State.setF_kept _ _ _))

theorem State.resetRegs_kept (s : State) (lo hi : Nat) (keep : Nat → Bool) : Kept s (State.resetRegs s lo hi keep) := by
  unfold State.resetRegs
  repeat' first
    | (with_reducible exact Kept.refl _)
    | (with_reducible rfl)
    | (with_reducible exact fun h => h)
    | (with_reducible exact fun h => ⟨h, rfl⟩)
    | (with_reducible apply Kept.after (Kept.parts _ ?_ ?_ ?_ ?_ ?_ ?_ ?_))

theorem State.drew_kept (s : State) : Kept s (State.drew s) := by
  unfold State.drew
  repeat' first
    | (with_reducible exact Kept.refl _)
    | (with_reducible rfl)
    | (with_reducible exact fun h => h)
    | (with_reducible exact fun h => ⟨h, rfl⟩)
    | (with_reducible exact Nat.le_add_right _ _)
    | (with_reducible apply Kept.after (Kept.parts _ ?_ ?_ ?_ ?_ ?_ ?_ ?_))

theorem State.send_kept (s : State) (x : Sent) : Kept s (State.send s x) := by
  unfold State.send
  repeat' first
    | (with_reducible exact Kept.refl _)
    | (with_reducible rfl)
    | (with_reducible exact fun h => h)
    | (with_reducible exact fun h => ⟨h, rfl⟩)
    | (with_reducible exact List.prefix_append _ _)
    | (with_reducible apply Kept.after (Kept.parts _ ?_ ?_ ?_ ?_ ?_ ?_ ?_))

theorem State.mapEps_kept (s : State) : Kept s (State.mapEps s) := by
  unfold State.mapEps
  repeat' first
    | (with_reducible exact Kept.refl _)
    | (with_reducible apply Kept.after (State.setS_kept _ _ _))

theorem State.pushEdgeWith_kept (s : State) (carry : Option Int) (c : Nat) (lev : Bool) (cyc stamp : Nat) (mask : BitVec 64)
    (origin : Nat) : Kept s (State.pushEdgeWith s carry c lev cyc stamp mask origin) := by
  unfold State.pushEdgeWith
  repeat' first
    | (with_reducible exact Kept.refl _)
    | (extract_lets +onlyGivenNames x; clear_value x; revert x; intro _)
    | (with_reducible apply Kept.ite)
    | (with_reducible rfl)
    | (with_reducible exact fun h => h)
    | (with_reducible exact fun h => ⟨h, rfl⟩)
    | (intro _)
    | split
    | (with_reducible apply Kept.after (Kept.parts _ ?_ ?_ ?_ ?_ ?_ ?_ ?_))

theorem State.pushEdge_kept (s : State) (c : Nat) (lev : Bool) (cyc stamp : Nat) (mask : BitVec 64) (origin : Nat) : Kept s (State.pushEdge s c lev cyc stamp mask origin) := by
  unfold State.pushEdge
  repeat' first
    | (with_reducible exact Kept.refl _)
    | (with_reducible apply Kept.after (State.pushEdgeWith_kept _ _ _ _ _ _ _ _))

theorem State.pulseOn_kept (s : State) (carry : Option Int) (c : Nat) : Kept s (State.pulseOn s carry c) := by
  unfold State.pulseOn
  repeat' first
    | (with_reducible exact Kept.refl _)
    | (extract_lets +onlyGivenNames x; clear_value x; revert x; intro _)
    | (with_reducible apply Kept.after (State.pushEdge_kept _ _ _ _ _ _ _))
    | (with_reducible apply Kept.after (State.pushEdgeWith_kept _ _ _ _ _ _ _ _))
    | (with_reducible apply Kept.ite)
    | (intro _)

theorem State.pulseWith_kept (s : State) (carry : Option Int) (p : Nat) : Kept s (State.pulseWith s carry p) := by
  unfold State.pulseWith
  repeat' first
    | (with_reducible exact Kept.refl _)
    | (with_reducible apply Kept.after (State.pulseOn_kept _ _ _))
    | (intro _)
    | (with_reducible apply Kept.after (foldl_kept ?_ _ _))

theorem State.pulse_kept (s : State) (p : Nat) : Kept s (State.pulse s p) := by
  unfold State.pulse
  repeat' first
    | (with_reducible exact Kept.refl _)
    | (with_reducible apply Kept.after (State.pulseWith_kept _ _ _))

theorem State.driveEdge_kept (s : State) (p : Nat) (lev : Bool) (cyc stamp : Nat) (mask : BitVec 64) (origin : Nat) : Kept s (State.driveEdge s p lev cyc stamp mask origin) := by
  unfold State.driveEdge
  repeat' first
    | (with_reducible exact Kept.refl _)
    | (with_reducible assumption)
    | (extract_lets +onlyGivenNames x; have e : TyOf x = State := (by with_reducible rfl); clear e; with_reducible apply Kept.use x; (on_goal 1 => dsimp -zeta only [x]; clear x); (on_goal 2 => intro h; clear_value x; revert x; intro _ _))
    | (extract_lets +onlyGivenNames x; clear_value x; revert x; intro _)
    | (with_reducible apply Kept.after (State.pushEdge_kept _ _ _ _ _ _ _))
    | (with_reducible rfl)
    | (with_reducible exact fun h => h)
    | (with_reducible exact fun h => ⟨h, rfl⟩)
    | (intro _)
    | (with_reducible apply Kept.after (foldl_kept ?_ _ _))
    | (with_reducible apply Kept.after (Kept.parts _ ?_ ?_ ?_ ?_ ?_ ?_ ?_))

theorem State.drive_kept (s : State) (p : Nat) (lev : Bool) : Kept s (State.drive s p lev) := by
  unfold State.drive
  repeat' first
    | (with_reducible exact Kept.refl _)
    | (with_reducible apply Kept.after (State.driveEdge_kept _ _ _ _ _ _ _))
    | (with_reducible apply Kept.ite)
    | (intro _)

theorem State.latch_kept (s : State) (src cls reason six : Nat) : Kept s (State.latch s src cls reason six) := by
  unfold State.latch
  repeat' first
    | (with_reducible exact Kept.refl _)
    | (with_reducible apply Kept.after (State.setF_kept _ _ _))
    | (with_reducible apply Kept.ite)
    | (intro _)

theorem State.post_kept (s : State) (e : Ev) : Kept s (State.post s e) := by
  unfold State.post
  repeat' first
    | (with_reducible exact Kept.refl _)
    | (with_reducible assumption)
    | (extract_lets +onlyGivenNames x; have e : TyOf x = State := (by with_reducible rfl); clear e; with_reducible apply Kept.use x; (on_goal 1 => dsimp -zeta only [x]; clear x); (on_goal 2 => intro h; clear_value x; revert x; intro _ _))
    | (extract_lets +onlyGivenNames x; clear_value x; revert x; intro _)
    | (with_reducible apply Kept.after (State.latch_kept _ _ _ _ _))
    | (with_reducible apply Kept.ite)
    | (with_reducible rfl)
    | (with_reducible exact fun h => h)
    | (with_reducible exact fun h => ⟨h, rfl⟩)
    | (intro _)
    | (with_reducible apply Kept.after (Kept.parts _ ?_ ?_ ?_ ?_ ?_ ?_ ?_))

theorem State.emitFor_kept (s : State) (subs : List Nat) (src code d0 d1 cls : Nat) : Kept s (State.emitFor s subs src code d0 d1 cls) := by
  unfold State.emitFor
  repeat' first
    | (with_reducible exact Kept.refl _)
    | (with_reducible apply Kept.after (State.post_kept _ _))

theorem State.emit_kept (s : State) (src code d0 d1 cls : Nat) : Kept s (State.emit s src code d0 d1 cls) := by
  unfold State.emit
  repeat' first
    | (with_reducible exact Kept.refl _)
    | (with_reducible apply Kept.after (State.emitFor_kept _ _ _ _ _ _ _))

theorem State.emitScript_kept (s : State) (code d0 d1 : Nat) : Kept s (State.emitScript s code d0 d1) := by
  unfold State.emitScript
  repeat' first
    | (with_reducible exact Kept.refl _)
    | (with_reducible apply Kept.after (State.post_kept _ _))

theorem State.raiseFor_kept (s : State) (subs : List Nat) (src reason cls : Nat) (own : Bool) (d1 : Nat) : Kept s (State.raiseFor s subs src reason cls own d1) := by
  unfold State.raiseFor
  repeat' first
    | (with_reducible exact Kept.refl _)
    | (with_reducible apply Kept.after (State.post_kept _ _))
    | (with_reducible apply Kept.ite)
    | (intro _)

theorem State.raise_kept (s : State) (src reason cls : Nat) (own : Bool) : Kept s (State.raise s src reason cls own) := by
  unfold State.raise
  repeat' first
    | (with_reducible exact Kept.refl _)
    | (with_reducible apply Kept.after (State.raiseFor_kept _ _ _ _ _ _ _))

theorem State.markDwell_kept (s : State) (n : Int) (flags subs : Nat) : Kept s (State.markDwell s n flags subs) := by
  unfold State.markDwell
  repeat' first
    | (with_reducible exact Kept.refl _)
    | (extract_lets +onlyGivenNames x; clear_value x; revert x; intro _)
    | (with_reducible rfl)
    | (with_reducible exact fun h => h)
    | (with_reducible exact fun h => ⟨h, rfl⟩)
    | (with_reducible apply Kept.after (Kept.parts _ ?_ ?_ ?_ ?_ ?_ ?_ ?_))

theorem State.startTimer_kept (s : State) (k : Timer) : Kept s (State.startTimer s k) := by
  unfold State.startTimer
  repeat' first
    | (with_reducible exact Kept.refl _)
    | (extract_lets +onlyGivenNames x; have e : TyOf x = Clk := (by with_reducible rfl); clear e; dsimp -zeta only [x]; clear x)
    | (with_reducible rfl)
    | (with_reducible exact fun h => h)
    | (with_reducible exact fun h => ⟨h, rfl⟩)
    | (with_reducible apply Kept.after (Kept.parts _ ?_ ?_ ?_ ?_ ?_ ?_ ?_))

theorem State.stopTimer_kept (s : State) (k : Timer) : Kept s (State.stopTimer s k) := by
  unfold State.stopTimer
  repeat' first
    | (with_reducible exact Kept.refl _)
    | (extract_lets +onlyGivenNames x; have e : TyOf x = Clk := (by with_reducible rfl); clear e; dsimp -zeta only [x]; clear x)
    | (with_reducible rfl)
    | (with_reducible exact fun h => h)
    | (with_reducible exact fun h => ⟨h, rfl⟩)
    | (with_reducible apply Kept.after (Kept.parts _ ?_ ?_ ?_ ?_ ?_ ?_ ?_))

/-! ## Store -/

theorem State.setBank_kept (s : State) (b : Nat) (k : Bank) : Kept s (State.setBank s b k) := by
  unfold State.setBank
  repeat' first
    | (with_reducible exact Kept.refl _)
    | (extract_lets +onlyGivenNames x; clear_value x; revert x; intro _)
    | (with_reducible rfl)
    | (with_reducible exact fun h => h)
    | (with_reducible exact fun h => ⟨h, rfl⟩)
    | (with_reducible apply Kept.after (Kept.parts _ ?_ ?_ ?_ ?_ ?_ ?_ ?_))

theorem State.orHeader_kept (s : State) (h flags : Nat) : Kept s (State.orHeader s h flags) := by
  unfold State.orHeader
  repeat' first
    | (with_reducible exact Kept.refl _)
    | (with_reducible rfl)
    | (with_reducible exact fun h => h)
    | (with_reducible exact fun h => ⟨h, rfl⟩)
    | (with_reducible exact fun h => Memory.wf_write h _ _)
    | (with_reducible apply Kept.after (Kept.parts _ ?_ ?_ ?_ ?_ ?_ ?_ ?_))

theorem State.flagBank_kept (s : State) (b flags : Nat) : Kept s (State.flagBank s b flags) := by
  unfold State.flagBank
  repeat' first
    | (with_reducible exact Kept.refl _)
    | (extract_lets +onlyGivenNames x; clear_value x; revert x; intro _)
    | (with_reducible apply Kept.after (State.orHeader_kept _ _ _))
    | (with_reducible apply Kept.after (State.setBank_kept _ _ _))
    | (with_reducible apply Kept.ite)
    | (intro _)

theorem State.setRec_kept (s : State) (x : Nat) (r : Rec) : Kept s (State.setRec s x r) := by
  unfold State.setRec
  repeat' first
    | (with_reducible exact Kept.refl _)
    | (extract_lets +onlyGivenNames x; clear_value x; revert x; intro _)
    | (with_reducible rfl)
    | (with_reducible exact fun h => h)
    | (with_reducible exact fun h => ⟨h, rfl⟩)
    | (with_reducible apply Kept.after (Kept.parts _ ?_ ?_ ?_ ?_ ?_ ?_ ?_))

theorem State.flagRec_kept (s : State) (x flags : Nat) : Kept s (State.flagRec s x flags) := by
  unfold State.flagRec
  repeat' first
    | (with_reducible exact Kept.refl _)
    | (with_reducible assumption)
    | (extract_lets +onlyGivenNames x; have e : TyOf x = State := (by with_reducible rfl); clear e; with_reducible apply Kept.use x; (on_goal 1 => dsimp -zeta only [x]; clear x); (on_goal 2 => intro h; clear_value x; revert x; intro _ _))
    | (extract_lets +onlyGivenNames x; clear_value x; revert x; intro _)
    | (with_reducible apply Kept.after (State.orHeader_kept _ _ _))
    | (with_reducible apply Kept.after (State.setRec_kept _ _ _))
    | (with_reducible apply Kept.ite)
    | (intro _)

theorem State.condFor_kept (s : State) (n : Int) (flags subs : Nat) : Kept s (State.condFor s n flags subs) := by
  unfold State.condFor
  repeat' first
    | (with_reducible exact Kept.refl _)
    | (with_reducible assumption)
    | (extract_lets +onlyGivenNames x; have e : TyOf x = State := (by with_reducible rfl); clear e; with_reducible apply Kept.use x; (on_goal 1 => dsimp -zeta only [x]; clear x); (on_goal 2 => intro h; clear_value x; revert x; intro _ _))
    | (extract_lets +onlyGivenNames x; clear_value x; revert x; intro _)
    | (with_reducible apply Kept.after (State.flagRec_kept _ _ _))
    | (with_reducible apply Kept.after (State.markDwell_kept _ _ _ _))
    | (with_reducible apply Kept.after (State.orHeader_kept _ _ _))
    | (with_reducible apply Kept.after (State.each_kept ?_ _ _))
    | (with_reducible apply Kept.ite)
    | (intro _)

theorem State.condDwell_kept (s : State) (n : Int) (flags : Nat) : Kept s (State.condDwell s n flags) := by
  unfold State.condDwell
  repeat' first
    | (with_reducible exact Kept.refl _)
    | (with_reducible apply Kept.after (State.condFor_kept _ _ _ _))

theorem State.flagBuf_kept (s : State) (q flags writing : Nat) : Kept s (State.flagBuf s q flags writing) := by
  unfold State.flagBuf
  repeat' first
    | (with_reducible exact Kept.refl _)
    | (extract_lets +onlyGivenNames x; clear_value x; revert x; intro _)
    | (with_reducible apply Kept.after (State.orHeader_kept _ _ _))
    | (with_reducible apply Kept.ite)
    | (with_reducible rfl)
    | (with_reducible exact fun h => h)
    | (with_reducible exact fun h => ⟨h, rfl⟩)
    | (intro _)
    | (with_reducible apply Kept.after (Kept.parts _ ?_ ?_ ?_ ?_ ?_ ?_ ?_))

theorem State.flagAddr_kept (s : State) (a flags : Nat) : Kept s (State.flagAddr s a flags) := by
  unfold State.flagAddr
  repeat' first
    | (with_reducible exact Kept.refl _)
    | (with_reducible assumption)
    | (extract_lets +onlyGivenNames x; have e : TyOf x = State := (by with_reducible rfl); clear e; with_reducible apply Kept.use x; (on_goal 1 => dsimp -zeta only [x]; clear x); (on_goal 2 => intro h; clear_value x; revert x; intro _ _))
    | (extract_lets +onlyGivenNames x; clear_value x; revert x; intro _)
    | (with_reducible apply Kept.after (State.flagBank_kept _ _ _))
    | (with_reducible apply Kept.after (State.flagBuf_kept _ _ _ _))
    | (with_reducible apply Kept.after (State.flagRec_kept _ _ _))
    | (with_reducible apply Kept.after (State.each_kept ?_ _ _))
    | (with_reducible apply Kept.ite)
    | (intro _)

theorem State.setCaps_kept (s : State) (off : Nat) (fs : List (Fld × Nat)) : Kept s (State.setCaps s off fs) := by
  unfold State.setCaps
  repeat' first
    | (with_reducible exact Kept.refl _)
    | (with_reducible assumption)
    | (extract_lets +onlyGivenNames x; have e : TyOf x = State := (by with_reducible rfl); clear e; with_reducible apply Kept.use x; (on_goal 1 => dsimp -zeta only [x]; clear x); (on_goal 2 => intro h; clear_value x; revert x; intro _ _))
    | (extract_lets +onlyGivenNames x; clear_value x; revert x; intro _)
    | (with_reducible apply Kept.after (State.addF_kept _ _ _))
    | (with_reducible apply Kept.after (State.emit_kept _ _ _ _ _ _))
    | (with_reducible apply Kept.after (State.setF_kept _ _ _))
    | (with_reducible apply Kept.after (State.each_kept ?_ _ _))
    | (with_reducible apply Kept.ite)
    | (intro _)

theorem State.fenceCap_kept (s : State) : Kept s (State.fenceCap s) := by
  unfold State.fenceCap
  repeat' first
    | (with_reducible exact Kept.refl _)
    | (with_reducible apply Kept.after (State.setCaps_kept _ _ _))

theorem State.journal_kept (s : State) (w : JWrite) : Kept s (State.journal s w) := by
  unfold State.journal
  repeat' first
    | (with_reducible exact Kept.refl _)
    | (extract_lets +onlyGivenNames x; clear_value x; revert x; intro _)
    | (with_reducible rfl)
    | (with_reducible exact fun h => h)
    | (with_reducible exact fun h => ⟨h, rfl⟩)
    | (with_reducible apply Kept.after (Kept.parts _ ?_ ?_ ?_ ?_ ?_ ?_ ?_))

theorem State.setAttn_kept (s : State) : Kept s (State.setAttn s) := by
  unfold State.setAttn
  repeat' first
    | (with_reducible exact Kept.refl _)
    | (with_reducible apply Kept.after (State.drive_kept _ _ _))
    | (with_reducible apply Kept.after (State.setF_kept _ _ _))

theorem State.attn_kept (s : State) (c : Nat) : Kept s (State.attn s c) := by
  unfold State.attn
  repeat' first
    | (with_reducible exact Kept.refl _)
    | (with_reducible apply Kept.after (State.setAttn_kept _))
    | (with_reducible apply Kept.ite)
    | (intro _)

theorem State.setReplace_kept (s : State) (c : Nat) : Kept s (State.setReplace s c) := by
  unfold State.setReplace
  repeat' first
    | (with_reducible exact Kept.refl _)
    | (with_reducible assumption)
    | (extract_lets +onlyGivenNames x; have e : TyOf x = State := (by with_reducible rfl); clear e; with_reducible apply Kept.use x; (on_goal 1 => dsimp -zeta only [x]; clear x); (on_goal 2 => intro h; clear_value x; revert x; intro _ _))
    | (extract_lets +onlyGivenNames x; clear_value x; revert x; intro _)
    | (with_reducible apply Kept.after (State.attn_kept _ _))
    | (with_reducible apply Kept.after (State.drive_kept _ _ _))
    | (with_reducible apply Kept.after (State.emit_kept _ _ _ _ _ _))
    | (with_reducible apply Kept.after (State.journal_kept _ _))
    | (with_reducible apply Kept.after (State.putBit_kept _ _ _ _))
    | (with_reducible apply Kept.after (State.setFlag_kept _ _ _))
    | (with_reducible apply Kept.ite)
    | (with_reducible rfl)
    | (with_reducible exact fun h => h)
    | (with_reducible exact fun h => ⟨h, rfl⟩)
    | (intro _)
    | (with_reducible apply Kept.after (Kept.parts _ ?_ ?_ ?_ ?_ ?_ ?_ ?_))

theorem State.clearLane_kept (s : State) : Kept s (State.clearLane s) := by
  unfold State.clearLane
  repeat' first
    | (with_reducible exact Kept.refl _)
    | (with_reducible assumption)
    | (extract_lets +onlyGivenNames x; have e : TyOf x = State := (by with_reducible rfl); clear e; with_reducible apply Kept.use x; (on_goal 1 => dsimp -zeta only [x]; clear x); (on_goal 2 => intro h; clear_value x; revert x; intro _ _))
    | (extract_lets +onlyGivenNames x; clear_value x; revert x; intro _)
    | (with_reducible apply Kept.after (State.drive_kept _ _ _))
    | (with_reducible apply Kept.after (State.putBit_kept _ _ _ _))
    | (with_reducible apply Kept.after (State.setFlag_kept _ _ _))
    | (with_reducible apply Kept.ite)
    | (with_reducible rfl)
    | (with_reducible exact fun h => h)
    | (with_reducible exact fun h => ⟨h, rfl⟩)
    | (intro _)
    | (with_reducible apply Kept.after (Kept.parts _ ?_ ?_ ?_ ?_ ?_ ?_ ?_))

theorem State.setPch_kept (s : State) (n : Nat) (p : PChan) : Kept s (State.setPch s n p) := by
  unfold State.setPch
  repeat' first
    | (with_reducible exact Kept.refl _)
    | (extract_lets +onlyGivenNames x; clear_value x; revert x; intro _)
    | (with_reducible rfl)
    | (with_reducible exact fun h => h)
    | (with_reducible exact fun h => ⟨h, rfl⟩)
    | (with_reducible apply Kept.after (Kept.parts _ ?_ ?_ ?_ ?_ ?_ ?_ ?_))

theorem State.setPoison_kept (s : State) (w : Nat) (b : Bool) : Kept s (State.setPoison s w b) := by
  unfold State.setPoison
  repeat' first
    | (with_reducible exact Kept.refl _)
    | (extract_lets +onlyGivenNames x; clear_value x; revert x; intro _)
    | (with_reducible rfl)
    | (with_reducible exact fun h => h)
    | (with_reducible exact fun h => ⟨h, rfl⟩)
    | (with_reducible apply Kept.after (Kept.parts _ ?_ ?_ ?_ ?_ ?_ ?_ ?_))

theorem State.refreshAllSr_kept (s : State) : Kept s (State.refreshAllSr s) := by
  unfold State.refreshAllSr
  repeat' first
    | (with_reducible exact Kept.refl _)
    | (with_reducible apply Kept.after (State.setFlag_kept _ _ _))

theorem State.enterSr_kept (s : State) (n : Nat) : Kept s (State.enterSr s n) := by
  unfold State.enterSr
  repeat' first
    | (with_reducible exact Kept.refl _)
    | (with_reducible apply Kept.after (State.putBit_kept _ _ _ _))
    | (with_reducible apply Kept.after (State.setF_kept _ _ _))
    | (with_reducible apply Kept.ite)
    | (intro _)

theorem State.retrain_kept (s : State) (n : Nat) : Kept s (State.retrain s n) := by
  unfold State.retrain
  repeat' first
    | (with_reducible exact Kept.refl _)
    | (with_reducible assumption)
    | (extract_lets +onlyGivenNames x; have e : TyOf x = State := (by with_reducible rfl); clear e; with_reducible apply Kept.use x; (on_goal 1 => dsimp -zeta only [x]; clear x); (on_goal 2 => intro h; clear_value x; revert x; intro _ _))
    | (extract_lets +onlyGivenNames x; clear_value x; revert x; intro _)
    | (with_reducible apply Kept.after (State.addF_kept _ _ _))
    | (with_reducible apply Kept.after (State.drive_kept _ _ _))
    | (with_reducible apply Kept.after (State.setF_kept _ _ _))
    | (with_reducible apply Kept.after (State.setPch_kept _ _ _))
    | (with_reducible apply Kept.ite)
    | (intro _)

theorem State.retrainOver_kept (s : State) (n : Nat) : Kept s (State.retrainOver s n) := by
  unfold State.retrainOver
  repeat' first
    | (with_reducible exact Kept.refl _)
    | (with_reducible assumption)
    | (extract_lets +onlyGivenNames x; have e : TyOf x = State := (by with_reducible rfl); clear e; with_reducible apply Kept.use x; (on_goal 1 => dsimp -zeta only [x]; clear x); (on_goal 2 => intro h; clear_value x; revert x; intro _ _))
    | (with_reducible apply Kept.after (State.drive_kept _ _ _))
    | (with_reducible apply Kept.after (State.setF_kept _ _ _))
    | (with_reducible apply Kept.ite)
    | (intro _)

theorem State.leaveSr_kept (s : State) (n : Nat) : Kept s (State.leaveSr s n) := by
  unfold State.leaveSr
  repeat' first
    | (with_reducible exact Kept.refl _)
    | (with_reducible assumption)
    | (extract_lets +onlyGivenNames x; have e : TyOf x = State := (by with_reducible rfl); clear e; with_reducible apply Kept.use x; (on_goal 1 => dsimp -zeta only [x]; clear x); (on_goal 2 => intro h; clear_value x; revert x; intro _ _))
    | (extract_lets +onlyGivenNames x; clear_value x; revert x; intro _)
    | (with_reducible apply Kept.after (State.putBit_kept _ _ _ _))
    | (with_reducible apply Kept.after (State.retrain_kept _ _))
    | (with_reducible apply Kept.after (State.setF_kept _ _ _))
    | (with_reducible apply Kept.after (State.setPch_kept _ _ _))
    | (with_reducible apply Kept.ite)
    | (intro _)

theorem State.activate_kept (s : State) (a : Nat) : Kept s (State.activate s a) := by
  unfold State.activate
  repeat' first
    | (with_reducible exact Kept.refl _)
    | (with_reducible assumption)
    | (extract_lets +onlyGivenNames x; have e : TyOf x = State := (by with_reducible rfl); clear e; with_reducible apply Kept.use x; (on_goal 1 => dsimp -zeta only [x]; clear x); (on_goal 2 => intro h; clear_value x; revert x; intro _ _))
    | (extract_lets +onlyGivenNames x; clear_value x; revert x; intro _)
    | (with_reducible apply Kept.after (State.leaveSr_kept _ _))
    | (with_reducible apply Kept.after (State.setPch_kept _ _ _))

theorem State.storeSleep_kept (s : State) : Kept s (State.storeSleep s) := by
  unfold State.storeSleep
  repeat' first
    | (with_reducible exact Kept.refl _)
    | (with_reducible apply Kept.after (State.enterSr_kept _ _))
    | (with_reducible apply Kept.after (State.refreshAllSr_kept _))
    | (with_reducible apply Kept.after (State.each_kept ?_ _ _))
    | (intro _)

theorem State.storeWake_kept (s : State) : Kept s (State.storeWake s) := by
  unfold State.storeWake
  repeat' first
    | (with_reducible exact Kept.refl _)
    | (with_reducible apply Kept.after (State.leaveSr_kept _ _))
    | (with_reducible apply Kept.after (State.each_kept ?_ _ _))
    | (intro _)

theorem State.fence_kept (s : State) (n : Nat) : Kept s (State.fence s n) := by
  unfold State.fence
  repeat' first
    | (with_reducible exact Kept.refl _)
    | (with_reducible assumption)
    | (extract_lets +onlyGivenNames x; have e : TyOf x = State := (by with_reducible rfl); clear e; with_reducible apply Kept.use x; (on_goal 1 => dsimp -zeta only [x]; clear x); (on_goal 2 => intro h; clear_value x; revert x; intro _ _))
    | (extract_lets +onlyGivenNames x; clear_value x; revert x; intro _)
    | (with_reducible apply Kept.after (State.addF_kept _ _ _))
    | (with_reducible apply Kept.after (State.emit_kept _ _ _ _ _ _))
    | (with_reducible apply Kept.after (State.fenceCap_kept _))
    | (with_reducible apply Kept.after (State.flagBank_kept _ _ _))
    | (with_reducible apply Kept.after (State.flagBuf_kept _ _ _ _))
    | (with_reducible apply Kept.after (State.flagRec_kept _ _ _))
    | (with_reducible apply Kept.after (State.journal_kept _ _))
    | (with_reducible apply Kept.after (State.pulse_kept _ _))
    | (with_reducible apply Kept.after (State.putBit_kept _ _ _ _))
    | (with_reducible apply Kept.after (State.raiseFor_kept _ _ _ _ _ _ _))
    | (with_reducible apply Kept.after (State.refreshAllSr_kept _))
    | (with_reducible apply Kept.after (State.retrainOver_kept _ _))
    | (with_reducible apply Kept.after (State.setF_kept _ _ _))
    | (with_reducible apply Kept.after (State.setPch_kept _ _ _))
    | (with_reducible apply Kept.after (State.setReplace_kept _ _))
    | (with_reducible apply Kept.after (State.each_kept ?_ _ _))
    | (with_reducible apply Kept.ite)
    | (with_reducible rfl)
    | (with_reducible exact fun h => h)
    | (with_reducible exact fun h => ⟨h, rfl⟩)
    | (intro _)
    | (with_reducible apply Kept.after (Kept.parts _ ?_ ?_ ?_ ?_ ?_ ?_ ?_))

theorem State.corrected_kept (s : State) (n k : Nat) : Kept s (State.corrected s n k) := by
  unfold State.corrected
  repeat' first
    | (with_reducible exact Kept.refl _)
    | (with_reducible assumption)
    | (extract_lets +onlyGivenNames x; have e : TyOf x = State := (by with_reducible rfl); clear e; with_reducible apply Kept.use x; (on_goal 1 => dsimp -zeta only [x]; clear x); (on_goal 2 => intro h; clear_value x; revert x; intro _ _))
    | (extract_lets +onlyGivenNames x; clear_value x; revert x; intro _)
    | (with_reducible apply Kept.after (State.incF_kept _ _ _))
    | (with_reducible apply Kept.after (State.setPch_kept _ _ _))
    | (with_reducible apply Kept.ite)
    | (intro _)

theorem State.uncorrectable_kept (s : State) (port a : Nat) (onRead : Bool) : Kept s (State.uncorrectable s port a onRead) := by
  unfold State.uncorrectable
  repeat' first
    | (with_reducible exact Kept.refl _)
    | (with_reducible assumption)
    | (extract_lets +onlyGivenNames x; have e : TyOf x = State := (by with_reducible rfl); clear e; with_reducible apply Kept.use x; (on_goal 1 => dsimp -zeta only [x]; clear x); (on_goal 2 => intro h; clear_value x; revert x; intro _ _))
    | (extract_lets +onlyGivenNames x; clear_value x; revert x; intro _)
    | (with_reducible apply Kept.after (State.emit_kept _ _ _ _ _ _))
    | (with_reducible apply Kept.after (State.fence_kept _ _))
    | (with_reducible apply Kept.after (State.flagAddr_kept _ _ _))
    | (with_reducible apply Kept.after (State.incF_kept _ _ _))
    | (with_reducible apply Kept.after (State.setF_kept _ _ _))
    | (with_reducible apply Kept.after (State.setPch_kept _ _ _))
    | (with_reducible apply Kept.ite)
    | (intro _)

theorem State.drewIf_kept (s : State) (a : Nat) (errs : List Nat) : Kept s (State.drewIf s a errs) := by
  unfold State.drewIf
  repeat' first
    | (with_reducible exact Kept.refl _)
    | (with_reducible apply Kept.after (State.drew_kept _))
    | (with_reducible apply Kept.ite)
    | (intro _)

theorem State.poisonWords_kept (s : State) (a words : Nat) : Kept s (State.poisonWords s a words) := by
  unfold State.poisonWords
  repeat' first
    | (with_reducible exact Kept.refl _)
    | (with_reducible apply Kept.after (State.setPoison_kept _ _ _))
    | (with_reducible apply Kept.after (State.each_kept ?_ _ _))
    | (intro _)

theorem State.afterDecode_kept (s : State) (port a : Nat) (ws : List WordDecode) (onRead : Bool) : Kept s (State.afterDecode s port a ws onRead) := by
  unfold State.afterDecode
  repeat' first
    | (with_reducible exact Kept.refl _)
    | (with_reducible assumption)
    | (extract_lets +onlyGivenNames x; have e : TyOf x = State := (by with_reducible rfl); clear e; with_reducible apply Kept.use x; (on_goal 1 => dsimp -zeta only [x]; clear x); (on_goal 2 => intro h; clear_value x; revert x; intro _ _))
    | (with_reducible apply Kept.after (State.corrected_kept _ _ _))
    | (with_reducible apply Kept.after (State.incF_kept _ _ _))
    | (with_reducible apply Kept.after (State.uncorrectable_kept _ _ _ _))
    | (with_reducible apply Kept.after (State.each_kept ?_ _ _))
    | (with_reducible apply Kept.ite)
    | (intro _)

theorem State.fetchLine_kept (s : State) (port a : Nat) (errs : List Nat) : Kept s (State.fetchLine s port a errs).1 := by
  unfold State.fetchLine
  repeat' first
    | (with_reducible exact Kept.refl _)
    | (with_reducible assumption)
    | (extract_lets +onlyGivenNames x; have e : TyOf x = State := (by with_reducible rfl); clear e; with_reducible apply Kept.use x; (on_goal 1 => dsimp -zeta only [x]; clear x); (on_goal 2 => intro h; clear_value x; revert x; intro _ _))
    | (extract_lets +onlyGivenNames x; clear_value x; revert x; intro _)
    | (with_reducible apply Kept.after (State.activate_kept _ _))
    | (with_reducible apply Kept.after (State.afterDecode_kept _ _ _ _ _))
    | (with_reducible apply Kept.after (State.drewIf_kept _ _ _))

theorem State.readLine_kept (s : State) (port a : Nat) (errs : List Nat) : Kept s (State.readLine s port a errs).1 := by
  unfold State.readLine
  repeat' first
    | (with_reducible exact Kept.refl _)
    | (with_reducible assumption)
    | (extract_lets +onlyGivenNames x; obtain ⟨_, e⟩ : ∃ α, TyOf x = (State × α) := (by with_reducible exact ⟨_, rfl⟩); clear e; with_reducible apply Kept.use x.1; (on_goal 1 => dsimp -zeta only [x]; clear x); (on_goal 2 => intro h; clear_value x; revert x; intro _ _))
    | (with_reducible apply Kept.after (State.fetchLine_kept _ _ _ _))
    | (with_reducible apply Kept.after (State.poisonWords_kept _ _ _))

theorem State.writeLine_kept (s : State) (port a : Nat) (data : List Byte) (bytes : Nat) (errs : List Nat) : Kept s (State.writeLine s port a data bytes errs) := by
  unfold State.writeLine
  repeat' first
    | (with_reducible exact Kept.refl _)
    | (with_reducible assumption)
    | (extract_lets +onlyGivenNames x; have e : TyOf x = State := (by with_reducible rfl); clear e; with_reducible apply Kept.use x; (on_goal 1 => dsimp -zeta only [x]; clear x); (on_goal 2 => intro h; clear_value x; revert x; intro _ _))
    | (extract_lets +onlyGivenNames x; clear_value x; revert x; intro _)
    | (with_reducible apply Kept.after (State.activate_kept _ _))
    | (with_reducible apply Kept.after (State.afterDecode_kept _ _ _ _ _))
    | (with_reducible apply Kept.after (State.poisonWords_kept _ _ _))
    | (with_reducible apply Kept.after (State.setPoison_kept _ _ _))
    | (with_reducible apply Kept.after (State.each_kept ?_ _ _))
    | (with_reducible apply Kept.ite)
    | (with_reducible rfl)
    | (with_reducible exact fun h => h)
    | (with_reducible exact fun h => ⟨h, rfl⟩)
    | (with_reducible exact fun h => Memory.wf_write h _ _)
    | (intro _)
    | (with_reducible apply Kept.after (Kept.parts _ ?_ ?_ ?_ ?_ ?_ ?_ ?_))

theorem State.addLine_kept (s : State) (port a fmt mask : Nat) (op : Nat) (errs : List Nat) : Kept s (State.addLine s port a fmt mask op errs) := by
  unfold State.addLine
  repeat' first
    | (with_reducible exact Kept.refl _)
    | (with_reducible assumption)
    | (extract_lets +onlyGivenNames x; have e : TyOf x = State := (by with_reducible rfl); clear e; with_reducible apply Kept.use x; (on_goal 1 => dsimp -zeta only [x]; clear x); (on_goal 2 => intro h; clear_value x; revert x; intro _ _))
    | (extract_lets +onlyGivenNames x; clear_value x; revert x; intro _)
    | (with_reducible apply Kept.after (State.activate_kept _ _))
    | (with_reducible apply Kept.after (State.afterDecode_kept _ _ _ _ _))
    | (with_reducible apply Kept.after (State.drewIf_kept _ _ _))
    | (with_reducible apply Kept.after (State.emit_kept _ _ _ _ _ _))
    | (with_reducible apply Kept.after (State.flagAddr_kept _ _ _))
    | (with_reducible apply Kept.after (State.incF_kept _ _ _))
    | (with_reducible apply Kept.after (State.poisonWords_kept _ _ _))
    | (with_reducible apply Kept.after (State.each_kept ?_ _ _))
    | (with_reducible rfl)
    | (with_reducible exact fun h => h)
    | (with_reducible exact fun h => ⟨h, rfl⟩)
    | (with_reducible exact fun h => Memory.wf_writeNat h _ _ _)
    | (intro _)
    | (with_reducible apply Kept.after (Kept.parts _ ?_ ?_ ?_ ?_ ?_ ?_ ?_))

theorem State.deny_kept (s : State) (port a : Nat) : Kept s (State.deny s port a) := by
  unfold State.deny
  repeat' first
    | (with_reducible exact Kept.refl _)
    | (with_reducible apply Kept.after (State.emit_kept _ _ _ _ _ _))
    | (with_reducible apply Kept.after (State.incF_kept _ _ _))

theorem State.latency_kept (s : State) (port a wait : Nat) : Kept s (State.latency s port a wait) := by
  unfold State.latency
  repeat' first
    | (with_reducible exact Kept.refl _)
    | (with_reducible assumption)
    | (extract_lets +onlyGivenNames x; have e : TyOf x = State := (by with_reducible rfl); clear e; with_reducible apply Kept.use x; (on_goal 1 => dsimp -zeta only [x]; clear x); (on_goal 2 => intro h; clear_value x; revert x; intro _ _))
    | (extract_lets +onlyGivenNames x; clear_value x; revert x; intro _)
    | (with_reducible apply Kept.after (State.emit_kept _ _ _ _ _ _))
    | (with_reducible apply Kept.after (State.incF_kept _ _ _))
    | (with_reducible apply Kept.after (State.setF_kept _ _ _))
    | (with_reducible apply Kept.ite)
    | (with_reducible rfl)
    | (with_reducible exact fun h => h)
    | (with_reducible exact fun h => ⟨h, rfl⟩)
    | (intro _)
    | (with_reducible apply Kept.after (Kept.parts _ ?_ ?_ ?_ ?_ ?_ ?_ ?_))

theorem State.invalidate_kept (s : State) (a : Nat) : Kept s (State.invalidate s a) := by
  unfold State.invalidate
  repeat' first
    | (with_reducible exact Kept.refl _)
    | (extract_lets +onlyGivenNames x; have e : TyOf x = HostU := (by with_reducible rfl); clear e; dsimp -zeta only [x]; clear x)
    | (with_reducible apply Kept.after (State.send_kept _ _))
    | (with_reducible apply Kept.ite)
    | (with_reducible rfl)
    | (with_reducible exact fun h => h)
    | (with_reducible exact fun h => ⟨h, rfl⟩)
    | (intro _)
    | (with_reducible apply Kept.after (Kept.parts _ ?_ ?_ ?_ ?_ ?_ ?_ ?_))

/-! ## StoreQueue -/

theorem State.touchLine_kept (s : State) (b l : Nat) : Kept s (State.touchLine s b l) := by
  unfold State.touchLine
  repeat' first
    | (with_reducible exact Kept.refl _)
    | (extract_lets +onlyGivenNames x; clear_value x; revert x; intro _)
    | (with_reducible apply Kept.after (State.setBank_kept _ _ _))

theorem State.freshen_kept (s : State) (a : Nat) : Kept s (State.freshen s a) := by
  unfold State.freshen
  repeat' first
    | (with_reducible exact Kept.refl _)
    | (with_reducible apply Kept.after (State.touchLine_kept _ _ _))
    | (with_reducible apply Kept.after (State.writeLine_kept _ _ _ _ _ _))
    | (with_reducible apply Kept.ite)
    | (intro _)
    | split

theorem State.addAt_kept (s : State) (port a fmt mask op : Nat) (errs : List Nat) : Kept s (State.addAt s port a fmt mask op errs) := by
  unfold State.addAt
  repeat' first
    | (with_reducible exact Kept.refl _)
    | (with_reducible assumption)
    | (extract_lets +onlyGivenNames x; have e : TyOf x = State := (by with_reducible rfl); clear e; with_reducible apply Kept.use x; (on_goal 1 => dsimp -zeta only [x]; clear x); (on_goal 2 => intro h; clear_value x; revert x; intro _ _))
    | (extract_lets +onlyGivenNames x; clear_value x; revert x; intro _)
    | (with_reducible apply Kept.after (State.addLine_kept _ _ _ _ _ _ _))
    | (with_reducible apply Kept.after (State.invalidate_kept _ _))
    | (with_reducible apply Kept.after (State.touchLine_kept _ _ _))
    | (with_reducible apply Kept.after (State.writeLine_kept _ _ _ _ _ _))
    | (with_reducible apply Kept.ite)
    | (intro _)
    | split

theorem State.freeLine_kept (s : State) : Kept s (State.freeLine s).1 := by
  unfold State.freeLine
  repeat' first
    | (with_reducible exact Kept.refl _)
    | (with_reducible rfl)
    | (with_reducible exact fun h => h)
    | (with_reducible exact fun h => ⟨h, rfl⟩)
    | (with_reducible exact Nat.le_add_right _ _)
    | (dsimp -zeta only)
    | (with_reducible apply Kept.after (Kept.parts _ ?_ ?_ ?_ ?_ ?_ ?_ ?_))

theorem State.serveRead_kept (s : State) (port a : Nat) (errs : List Nat) : Kept s (State.serveRead s port a errs).1 := by
  unfold State.serveRead
  repeat' first
    | (with_reducible exact Kept.refl _)
    | (with_reducible assumption)
    | (extract_lets +onlyGivenNames x; obtain ⟨_, e⟩ : ∃ α, TyOf x = (State × α) := (by with_reducible exact ⟨_, rfl⟩); clear e; with_reducible apply Kept.use x.1; (on_goal 1 => dsimp -zeta only [x]; clear x); (on_goal 2 => intro h; clear_value x; revert x; intro _ _))
    | (with_reducible apply Kept.after (State.activate_kept _ _))
    | (with_reducible apply Kept.after (State.fetchLine_kept _ _ _ _))
    | (with_reducible apply Kept.after (State.freeLine_kept _))
    | split

theorem State.trackLine_kept (s : State) (a : Nat) : Kept s (State.trackLine s a) := by
  unfold State.trackLine
  repeat' first
    | (with_reducible exact Kept.refl _)
    | (with_reducible assumption)
    | (extract_lets +onlyGivenNames x; have e : TyOf x = State := (by with_reducible rfl); clear e; with_reducible apply Kept.use x; (on_goal 1 => dsimp -zeta only [x]; clear x); (on_goal 2 => intro h; clear_value x; revert x; intro _ _))
    | (extract_lets +onlyGivenNames x; have e : TyOf x = HostU := (by with_reducible rfl); clear e; dsimp -zeta only [x]; clear x)
    | (with_reducible apply Kept.after (State.send_kept _ _))
    | (with_reducible apply Kept.ite)
    | (with_reducible rfl)
    | (with_reducible exact fun h => h)
    | (with_reducible exact fun h => ⟨h, rfl⟩)
    | (intro _)
    | split
    | (with_reducible apply Kept.after (Kept.parts _ ?_ ?_ ?_ ?_ ?_ ?_ ?_))

theorem State.answer_kept (s : State) (v : Nat) (psn : Bool) : Kept s (State.answer s v psn) := by
  unfold State.answer
  repeat' first
    | (with_reducible exact Kept.refl _)
    | (extract_lets +onlyGivenNames x; have e : TyOf x = HostU := (by with_reducible rfl); clear e; dsimp -zeta only [x]; clear x)
    | (with_reducible rfl)
    | (with_reducible exact fun h => h)
    | (with_reducible exact fun h => ⟨h, rfl⟩)
    | (with_reducible apply Kept.after (Kept.parts _ ?_ ?_ ?_ ?_ ?_ ?_ ?_))

theorem State.handOver_kept (s : State) (a : Nat) (dest : ReadDest) (v : Nat) (psn : List Bool) : Kept s (State.handOver s a dest v psn) := by
  unfold State.handOver
  repeat' first
    | (with_reducible exact Kept.refl _)
    | (extract_lets +onlyGivenNames x; clear_value x; revert x; intro _)
    | (with_reducible apply Kept.after (State.answer_kept _ _ _))
    | (with_reducible apply Kept.after (State.trackLine_kept _ _))
    | (with_reducible rfl)
    | (with_reducible exact fun h => h)
    | (with_reducible exact fun h => ⟨h, rfl⟩)
    | split
    | (with_reducible apply Kept.after (Kept.parts _ ?_ ?_ ?_ ?_ ?_ ?_ ?_))

theorem State.refusal_kept (s : State) (port a : Nat) (ask : Ask) : ∀ t, State.refusal s port a ask = some t → Kept s t := by
  intro t h
  unfold State.refusal at h
  split at h
  · split at h
    · split at h
      · cases h
      · rw [← Option.some.inj h]
        exact (State.setF_kept _ _ _).trans (State.emit_kept _ _ _ _ _ _)
    · split at h
      · rw [← Option.some.inj h]
        exact Kept.ite (fun _ => State.deny_kept _ _ _) (fun _ => Kept.refl _)
      · cases h
  · split at h
    · rw [← Option.some.inj h]
      exact State.deny_kept _ _ _
    · cases h
  · cases h

theorem State.completed_kept (s : State) (r : StoreReq) : Kept s (State.completed s r) := by
  unfold State.completed
  repeat' first
    | (with_reducible exact Kept.refl _)
    | (with_reducible apply Kept.after (State.latency_kept _ _ _ _))

theorem State.serve_kept (s : State) (r : StoreReq) : Kept s (State.serve s r).1 := by
  unfold State.serve
  cases r.ask with
  | read errs dest =>
    exact ((State.serveRead_kept s _ _ _).trans (State.handOver_kept _ _ _ _ _)).trans (State.completed_kept _ _)
  | write data bytes errs =>
    dsimp only
    refine Kept.trans (b := (if r.port = 6 || 8 ≤ r.port then s else s.invalidate r.a)) ?_ ?_
    · exact Kept.ite (fun _ => Kept.refl s) (fun _ => State.invalidate_kept _ _)
    · exact ((State.freshen_kept _ _).trans (State.writeLine_kept _ _ _ _ _ _)).trans (State.completed_kept _ _)
  | add fmt mask data errs => exact (State.addAt_kept _ _ _ _ _ _ _).trans (State.completed_kept _ _)
  | scrub errs => exact (State.fetchLine_kept _ _ _ _).trans (State.completed_kept _ _)
  | back words => exact State.poisonWords_kept _ _ _

theorem State.serveOne_kept (s : State) (r : StoreReq) : Kept s (match s.refusal r.port r.a r.ask with
    | some u => (u, [])
    | none => s.serve r).1 := by
  have h := State.refusal_kept s r.port r.a r.ask
  cases e : s.refusal r.port r.a r.ask with
  | none => exact State.serve_kept s r
  | some u => exact h u e

theorem State.serveQueue_kept (n fuel : Nat) (s : State) : Kept s (State.serveQueue n fuel s) := by
  induction fuel generalizing s with
  | zero => exact Kept.refl s
  | succ k ih =>
    rw [State.serveQueue]
    generalize s.pch n = p
    refine Kept.ite (fun _ => Kept.refl s) (fun _ => ?_)
    cases s.pickReq p.queue with
    | none => exact Kept.refl s
    | some i =>
      dsimp only
      cases p.queue[i]? with
      | none => exact Kept.refl s
      | some r =>
        exact (((State.setPch_kept s n _).trans (State.serveOne_kept _ r)).trans (State.setPch_kept _ n _)).trans (ih _)

theorem State.serveAll_kept (s : State) (n : Nat) : Kept s (State.serveAll s n) := State.serveQueue_kept n _ s

theorem State.request_kept (s : State) (r : StoreReq) : Kept s (State.request s r) := by
  unfold State.request
  have h := State.refusal_kept s r.port r.a r.ask
  cases e : s.refusal r.port r.a r.ask with
  | none => exact (State.setPch_kept s _ _).trans (State.serveAll_kept _ _)
  | some u => exact h u e

theorem State.relocated_kept (s : State) (n : Nat) : Kept s (State.relocated s n) :=
  (State.setPch_kept s n _).trans (State.serveAll_kept _ n)

theorem State.awaitLine_kept (s : State) (a : Nat) : Kept s (State.awaitLine s a) := by
  unfold State.awaitLine
  repeat' first
    | (with_reducible exact Kept.refl _)
    | (with_reducible apply Kept.after (State.relocated_kept _ _))
    | (with_reducible apply Kept.ite)
    | (intro _)

theorem State.awaitStore_kept (s : State) : Kept s (State.awaitStore s) := by
  unfold State.awaitStore
  repeat' first
    | (with_reducible exact Kept.refl _)
    | (with_reducible apply Kept.after (State.relocated_kept _ _))
    | (with_reducible apply Kept.after (State.each_kept ?_ _ _))
    | (intro _)

theorem State.agentRead_kept (s : State) (port a : Nat) (errs : List Nat) : Kept s (State.agentRead s port a errs).1 := by
  unfold State.agentRead
  repeat' first
    | (with_reducible exact Kept.refl _)
    | (with_reducible apply Kept.after (State.awaitLine_kept _ _))
    | (with_reducible apply Kept.after (State.readLine_kept _ _ _ _))
    | split

theorem State.agentWrite_kept (s : State) (port a : Nat) (data : List Byte) (bytes : Nat) : Kept s (State.agentWrite s port a data bytes) := by
  unfold State.agentWrite
  repeat' first
    | (with_reducible exact Kept.refl _)
    | (with_reducible assumption)
    | (extract_lets +onlyGivenNames x; have e : TyOf x = State := (by with_reducible rfl); clear e; with_reducible apply Kept.use x; (on_goal 1 => dsimp -zeta only [x]; clear x); (on_goal 2 => intro h; clear_value x; revert x; intro _ _))
    | (with_reducible apply Kept.after (State.awaitLine_kept _ _))
    | (with_reducible apply Kept.after (State.invalidate_kept _ _))
    | (with_reducible apply Kept.after (State.writeLine_kept _ _ _ _ _ _))
    | (with_reducible apply Kept.ite)
    | (intro _)

theorem State.agentAdd_kept (s : State) (port a fmt mask op : Nat) : Kept s (State.agentAdd s port a fmt mask op) := by
  unfold State.agentAdd
  repeat' first
    | (with_reducible exact Kept.refl _)
    | (with_reducible apply Kept.after (State.addAt_kept _ _ _ _ _ _ _))
    | (with_reducible apply Kept.after (State.awaitLine_kept _ _))
    | (with_reducible apply Kept.after (State.deny_kept _ _ _))
    | (with_reducible apply Kept.ite)
    | (intro _)

theorem State.readSpan_kept (s : State) (port a n : Nat) : Kept s (State.readSpan s port a n).1 := by
  unfold State.readSpan
  extract_lets lo cnt r
  exact Kept.fst_mk (foldl_pair_kept (fun q i => Kept.fst_mk (State.agentRead_kept q.1 port (lo + 64 * i) [])) _ s _)

/-! ## HostOps -/

theorem State.setRing_kept (s : State) (r : Nat) (x : Option Ring) : Kept s (State.setRing s r x) := by
  unfold State.setRing
  repeat' first
    | (with_reducible exact Kept.refl _)
    | (extract_lets +onlyGivenNames x; have e : TyOf x = HostU := (by with_reducible rfl); clear e; dsimp -zeta only [x]; clear x)
    | (with_reducible rfl)
    | (with_reducible exact fun h => h)
    | (with_reducible exact fun h => ⟨h, rfl⟩)
    | (with_reducible apply Kept.after (Kept.parts _ ?_ ?_ ?_ ?_ ?_ ?_ ?_))

theorem State.sendMsix_kept (s : State) (v : Nat) : Kept s (State.sendMsix s v) := by
  unfold State.sendMsix
  repeat' first
    | (with_reducible exact Kept.refl _)
    | (extract_lets +onlyGivenNames x; have e : TyOf x = HostU := (by with_reducible rfl); clear e; dsimp -zeta only [x]; clear x)
    | (with_reducible apply Kept.after (State.send_kept _ _))
    | (with_reducible apply Kept.ite)
    | (with_reducible rfl)
    | (with_reducible exact fun h => h)
    | (with_reducible exact fun h => ⟨h, rfl⟩)
    | (intro _)
    | (with_reducible apply Kept.after (Kept.parts _ ?_ ?_ ?_ ?_ ?_ ?_ ?_))

theorem State.raiseVector_kept (s : State) (v : Nat) : Kept s (State.raiseVector s v) := by
  unfold State.raiseVector
  repeat' first
    | (with_reducible exact Kept.refl _)
    | (extract_lets +onlyGivenNames x; have e : TyOf x = HostU := (by with_reducible rfl); clear e; dsimp -zeta only [x]; clear x)
    | (extract_lets +onlyGivenNames x; clear_value x; revert x; intro _)
    | (with_reducible apply Kept.after (State.sendMsix_kept _ _))
    | (with_reducible apply Kept.ite)
    | (with_reducible rfl)
    | (with_reducible exact fun h => h)
    | (with_reducible exact fun h => ⟨h, rfl⟩)
    | (intro _)
    | (with_reducible apply Kept.after (Kept.parts _ ?_ ?_ ?_ ?_ ?_ ?_ ?_))

theorem State.announceRing_kept (s : State) (r : Nat) (x : Ring) : Kept s (State.announceRing s r x) := by
  unfold State.announceRing
  repeat' first
    | (with_reducible exact Kept.refl _)
    | (with_reducible apply Kept.after (State.raiseVector_kept _ _))
    | (with_reducible apply Kept.after (State.setRing_kept _ _ _))

theorem State.hostPut_kept (s : State) (a : Nat) (bytes : List Byte) : Kept s (State.hostPut s a bytes) := by
  unfold State.hostPut
  repeat' first
    | (with_reducible exact Kept.refl _)
    | (extract_lets +onlyGivenNames x; have e : TyOf x = HostU := (by with_reducible rfl); clear e; dsimp -zeta only [x]; clear x)
    | (with_reducible apply Kept.ite)
    | (with_reducible rfl)
    | (with_reducible exact fun h => h)
    | (with_reducible exact fun h => Memory.wf_writeBytes h _ _)
    | (intro _)
    | (dsimp -zeta only)
    | (with_reducible apply Kept.after (Kept.parts _ ?_ ?_ ?_ ?_ ?_ ?_ ?_))
    | contradiction

theorem State.removeRing_kept (s : State) (t : Nat) : Kept s (State.removeRing s t) := by
  unfold State.removeRing
  repeat' first
    | (with_reducible exact Kept.refl _)
    | (with_reducible assumption)
    | (extract_lets +onlyGivenNames x; have e : TyOf x = State := (by with_reducible rfl); clear e; with_reducible apply Kept.use x; (on_goal 1 => dsimp -zeta only [x]; clear x); (on_goal 2 => intro h; clear_value x; revert x; intro _ _))
    | (extract_lets +onlyGivenNames x; have e : TyOf x = HostU := (by with_reducible rfl); clear e; dsimp -zeta only [x]; clear x)
    | (with_reducible apply Kept.after (State.setRing_kept _ _ _))
    | (with_reducible rfl)
    | (with_reducible exact fun h => h)
    | (with_reducible exact fun h => ⟨h, rfl⟩)
    | (with_reducible apply Kept.after (Kept.parts _ ?_ ?_ ?_ ?_ ?_ ?_ ?_))

theorem State.entryOver_kept (s : State) (h : Held) : Kept s (State.entryOver s h) := by
  unfold State.entryOver
  repeat' first
    | (with_reducible exact Kept.refl _)
    | (with_reducible apply Kept.after (State.removeRing_kept _ _))
    | split

theorem State.putEntry_kept (s : State) (r : Nat) (x : Ring) (h : Held) : Kept s (State.putEntry s r x h) := by
  unfold State.putEntry
  repeat' first
    | (with_reducible exact Kept.refl _)
    | (with_reducible assumption)
    | (extract_lets +onlyGivenNames x; have e : TyOf x = State := (by with_reducible rfl); clear e; with_reducible apply Kept.use x; (on_goal 1 => dsimp -zeta only [x]; clear x); (on_goal 2 => intro h; clear_value x; revert x; intro _ _))
    | (extract_lets +onlyGivenNames x; clear_value x; revert x; intro _)
    | (with_reducible apply Kept.after (State.announceRing_kept _ _ _))
    | (with_reducible apply Kept.after (State.entryOver_kept _ _))
    | (with_reducible apply Kept.after (State.hostPut_kept _ _ _))
    | (with_reducible apply Kept.after (State.setRing_kept _ _ _))
    | (with_reducible apply Kept.after (State.startTimer_kept _ _))
    | (with_reducible apply Kept.ite)
    | (intro _)

theorem State.cacheCtx_kept (s : State) (r : Nat) : Kept s (State.cacheCtx s r) := by
  unfold State.cacheCtx
  repeat' first
    | (with_reducible exact Kept.refl _)
    | (extract_lets +onlyGivenNames x; have e : TyOf x = HostU := (by with_reducible rfl); clear e; dsimp -zeta only [x]; clear x)
    | (extract_lets +onlyGivenNames x; clear_value x; revert x; intro _)
    | (with_reducible rfl)
    | (with_reducible exact fun h => h)
    | (with_reducible exact fun h => ⟨h, rfl⟩)
    | (with_reducible apply Kept.after (Kept.parts _ ?_ ?_ ?_ ?_ ?_ ?_ ?_))

theorem State.touchCtx_kept (s : State) (r : Nat) : Kept s (State.touchCtx s r) := by
  unfold State.touchCtx
  repeat' first
    | (with_reducible exact Kept.refl _)
    | (with_reducible apply Kept.after (State.addF_kept _ _ _))
    | (with_reducible apply Kept.after (State.cacheCtx_kept _ _))
    | (with_reducible apply Kept.ite)
    | (intro _)

theorem State.ctxError_kept (s : State) (r : Nat) (x : Ring) : Kept s (State.ctxError s r x) := by
  unfold State.ctxError
  repeat' first
    | (with_reducible exact Kept.refl _)
    | (with_reducible apply Kept.after (State.agentRead_kept _ _ _ _))
    | (with_reducible apply Kept.after (State.setF_kept _ _ _))
    | (with_reducible apply Kept.after (State.setRing_kept _ _ _))

theorem State.deliver_kept (s : State) (bad : List Nat) (r seq : Nat) (h : Held) : Kept s (State.deliver s bad r seq h) := by
  unfold State.deliver
  repeat' first
    | (with_reducible exact Kept.refl _)
    | (with_reducible assumption)
    | (extract_lets +onlyGivenNames x; have e : TyOf x = State := (by with_reducible rfl); clear e; with_reducible apply Kept.use x; (on_goal 1 => dsimp -zeta only [x]; clear x); (on_goal 2 => intro h; clear_value x; revert x; intro _ _))
    | (extract_lets +onlyGivenNames x; clear_value x; revert x; intro _)
    | (with_reducible apply Kept.after (State.ctxError_kept _ _ _))
    | (with_reducible apply Kept.after (State.entryOver_kept _ _))
    | (with_reducible apply Kept.after (State.putEntry_kept _ _ _ _))
    | (with_reducible apply Kept.after (State.setRing_kept _ _ _))
    | (with_reducible apply Kept.after (State.touchCtx_kept _ _))
    | (with_reducible apply Kept.ite)
    | (intro _)
    | split

theorem State.flushHeld_kept (s : State) (r : Nat) : Kept s (State.flushHeld s r) := by
  unfold State.flushHeld
  repeat' first
    | (with_reducible exact Kept.refl _)
    | (with_reducible apply Kept.after (State.putEntry_kept _ _ _ _))
    | (with_reducible apply Kept.ite)
    | (intro _)
    | split
    | (with_reducible apply Kept.after (foldl_kept ?_ _ _))

theorem State.spaceBack_kept (s : State) (r : Nat) : Kept s (State.spaceBack s r) := by
  unfold State.spaceBack
  repeat' first
    | (with_reducible exact Kept.refl _)
    | (with_reducible apply Kept.after (State.flushHeld_kept _ _))
    | (with_reducible apply Kept.after (State.post_kept _ _))
    | (with_reducible apply Kept.ite)
    | (intro _)
    | split

theorem State.settled_kept (s : State) (r : Nat) : Kept s (State.settled s r) := by
  unfold State.settled
  repeat' first
    | (with_reducible exact Kept.refl _)
    | (with_reducible apply Kept.after (State.setRing_kept _ _ _))
    | split

theorem State.takeSeq_kept (s : State) : Kept s (State.takeSeq s).1 := by
  unfold State.takeSeq
  repeat' first
    | (with_reducible exact Kept.refl _)
    | (with_reducible rfl)
    | (with_reducible exact fun h => h)
    | (with_reducible exact fun h => ⟨h, rfl⟩)
    | (with_reducible exact Nat.le_add_right _ _)
    | (dsimp -zeta only)
    | (with_reducible apply Kept.after (Kept.parts _ ?_ ?_ ?_ ?_ ?_ ?_ ?_))

theorem State.runReact_kept (s : State) (x : React) : Kept s (State.runReact s x) := by
  unfold State.runReact
  repeat' first
    | (with_reducible exact Kept.refl _)
    | (with_reducible assumption)
    | (extract_lets +onlyGivenNames x; have e : TyOf x = State := (by with_reducible rfl); clear e; with_reducible apply Kept.use x; (on_goal 1 => dsimp -zeta only [x]; clear x); (on_goal 2 => intro h; clear_value x; revert x; intro _ _))
    | (extract_lets +onlyGivenNames x; clear_value x; revert x; intro _)
    | (with_reducible apply Kept.after (State.condDwell_kept _ _ _))
    | (with_reducible apply Kept.after (State.pulse_kept _ _))
    | (with_reducible apply Kept.after (State.startTimer_kept _ _))
    | (with_reducible apply Kept.ite)
    | (with_reducible rfl)
    | (with_reducible exact fun h => h)
    | (with_reducible exact fun h => ⟨h, rfl⟩)
    | (intro _)
    | (with_reducible apply Kept.after (Kept.parts _ ?_ ?_ ?_ ?_ ?_ ?_ ?_))

theorem State.nextReaction_kept (s : State) : Kept s (State.nextReaction s) := by
  unfold State.nextReaction
  repeat' first
    | (with_reducible exact Kept.refl _)
    | (extract_lets +onlyGivenNames x; clear_value x; revert x; intro _)
    | (with_reducible apply Kept.after (State.runReact_kept _ _))
    | (with_reducible apply Kept.ite)
    | (with_reducible rfl)
    | (with_reducible exact fun h => h)
    | (with_reducible exact fun h => ⟨h, rfl⟩)
    | (intro _)
    | split
    | (with_reducible apply Kept.after (Kept.parts _ ?_ ?_ ?_ ?_ ?_ ?_ ?_))

theorem State.resume_kept (s : State) : Kept s (State.resume s) := by
  unfold State.resume
  repeat' first
    | (with_reducible exact Kept.refl _)
    | (with_reducible apply Kept.after (State.nextReaction_kept _))
    | (with_reducible apply Kept.ite)
    | (intro _)
    | split

theorem State.collect_kept (s : State) (e : Ev) (seq : Nat) : Kept s (State.collect s e seq) := by
  unfold State.collect
  repeat' first
    | (with_reducible exact Kept.refl _)
    | (with_reducible assumption)
    | (extract_lets +onlyGivenNames x; have e : TyOf x = State := (by with_reducible rfl); clear e; with_reducible apply Kept.use x; (on_goal 1 => dsimp -zeta only [x]; clear x); (on_goal 2 => intro h; clear_value x; revert x; intro _ _))
    | (extract_lets +onlyGivenNames x; clear_value x; revert x; intro _)
    | (with_reducible apply Kept.after (State.emit_kept _ _ _ _ _ _))
    | (with_reducible apply Kept.after (State.latch_kept _ _ _ _ _))
    | (with_reducible apply Kept.after (State.nextReaction_kept _))
    | (with_reducible apply Kept.after (State.putBit_kept _ _ _ _))
    | (with_reducible apply Kept.after (State.resume_kept _))
    | (with_reducible apply Kept.after (State.setF_kept _ _ _))
    | (with_reducible apply Kept.ite)
    | (with_reducible rfl)
    | (with_reducible exact fun h => h)
    | (with_reducible exact fun h => ⟨h, rfl⟩)
    | (intro _)
    | split
    | (with_reducible apply Kept.after (Kept.parts _ ?_ ?_ ?_ ?_ ?_ ?_ ?_))

theorem State.numberEv_kept (s : State) (bad : List Nat) (e : Ev) : Kept s (State.numberEv s bad e) := by
  unfold State.numberEv
  repeat' first
    | (with_reducible exact Kept.refl _)
    | (with_reducible apply Kept.after (State.collect_kept _ _ _))
    | (with_reducible apply Kept.after (State.deliver_kept _ _ _ _ _))
    | (with_reducible apply Kept.after (State.settled_kept _ _))
    | (with_reducible apply Kept.after (State.spaceBack_kept _ _))
    | (with_reducible apply Kept.after (State.takeSeq_kept _))
    | (with_reducible apply Kept.after (State.each_kept ?_ _ _))
    | (with_reducible apply Kept.ite)
    | (intro _)

theorem State.numberLost_kept (s : State) (bad : List Nat) (e : Ev) : Kept s (State.numberLost s bad e) := by
  unfold State.numberLost
  repeat' first
    | (with_reducible exact Kept.refl _)
    | (extract_lets +onlyGivenNames x; clear_value x; revert x; intro _)
    | (with_reducible apply Kept.after (State.deliver_kept _ _ _ _ _))
    | (with_reducible apply Kept.after (State.flushHeld_kept _ _))
    | (with_reducible apply Kept.after (State.setRing_kept _ _ _))
    | (with_reducible apply Kept.after (State.takeSeq_kept _))
    | (with_reducible apply Kept.ite)
    | (intro _)
    | split

theorem State.numberNotice_kept (s : State) (bad : List Nat) (x : Notice) : Kept s (State.numberNotice s bad x) := by
  unfold State.numberNotice
  repeat' first
    | (with_reducible exact Kept.refl _)
    | (extract_lets +onlyGivenNames x; clear_value x; revert x; intro _)
    | (with_reducible apply Kept.after (State.deliver_kept _ _ _ _ _))
    | (with_reducible apply Kept.after (State.takeSeq_kept _))
    | (with_reducible apply Kept.after (State.each_kept ?_ _ _))
    | (with_reducible apply Kept.ite)
    | (intro _)
    | split

theorem State.assignEv_kept (s : State) (bad : List Nat) (e : Ev) : Kept s (State.assignEv s bad e) := by
  unfold State.assignEv
  repeat' first
    | (with_reducible exact Kept.refl _)
    | (with_reducible assumption)
    | (extract_lets +onlyGivenNames x; have e : TyOf x = State := (by with_reducible rfl); clear e; with_reducible apply Kept.use x; (on_goal 1 => dsimp -zeta only [x]; clear x); (on_goal 2 => intro h; clear_value x; revert x; intro _ _))
    | (with_reducible apply Kept.after (State.numberEv_kept _ _ _))
    | (with_reducible apply Kept.after (State.numberLost_kept _ _ _))
    | (with_reducible apply Kept.ite)
    | (with_reducible rfl)
    | (with_reducible exact fun h => h)
    | (with_reducible exact fun h => ⟨h, rfl⟩)
    | (intro _)
    | (with_reducible apply Kept.after (Kept.parts _ ?_ ?_ ?_ ?_ ?_ ?_ ?_))

theorem State.assignNotice_kept (s : State) (bad : List Nat) (x : Notice) : Kept s (State.assignNotice s bad x) := by
  unfold State.assignNotice
  repeat' first
    | (with_reducible exact Kept.refl _)
    | (extract_lets +onlyGivenNames x; have e : TyOf x = HostU := (by with_reducible rfl); clear e; dsimp -zeta only [x]; clear x)
    | (with_reducible apply Kept.after (State.numberNotice_kept _ _ _))
    | (with_reducible apply Kept.ite)
    | (with_reducible rfl)
    | (with_reducible exact fun h => h)
    | (with_reducible exact fun h => ⟨h, rfl⟩)
    | (intro _)
    | (with_reducible apply Kept.after (Kept.parts _ ?_ ?_ ?_ ?_ ?_ ?_ ?_))

theorem State.assign_kept (s : State) (bad : List Nat) : Kept s (State.assign s bad) := by
  unfold State.assign
  repeat' first
    | (with_reducible exact Kept.refl _)
    | (with_reducible apply Kept.after (State.assignEv_kept _ _ _))
    | (with_reducible apply Kept.after (State.assignNotice_kept _ _ _))
    | (with_reducible apply Kept.ite)
    | (intro _)
    | split

theorem State.endOrphan_kept (s : State) (r : Nat) (e : Exec) : Kept s (State.endOrphan s r e) := by
  unfold State.endOrphan
  repeat' first
    | (with_reducible exact Kept.refl _)
    | (extract_lets +onlyGivenNames x; have e : TyOf x = HostU := (by with_reducible rfl); clear e; dsimp -zeta only [x]; clear x)
    | (with_reducible rfl)
    | (with_reducible exact fun h => h)
    | (with_reducible exact fun h => ⟨h, rfl⟩)
    | (with_reducible apply Kept.after (Kept.parts _ ?_ ?_ ?_ ?_ ?_ ?_ ?_))

theorem State.completeGone_kept (s : State) (r : Nat) (e : Exec) (status result reason : Nat) (gone : Option Nat) : Kept s (State.completeGone s r e status result reason gone) := by
  unfold State.completeGone
  repeat' first
    | (with_reducible exact Kept.refl _)
    | (with_reducible assumption)
    | (extract_lets +onlyGivenNames x; have e : TyOf x = State := (by with_reducible rfl); clear e; with_reducible apply Kept.use x; (on_goal 1 => dsimp -zeta only [x]; clear x); (on_goal 2 => intro h; clear_value x; revert x; intro _ _))
    | (extract_lets +onlyGivenNames x; have e : TyOf x = HostU := (by with_reducible rfl); clear e; dsimp -zeta only [x]; clear x)
    | (with_reducible apply Kept.after (State.endOrphan_kept _ _ _))
    | (with_reducible apply Kept.after (State.entryOver_kept _ _))
    | (with_reducible apply Kept.after (State.setRing_kept _ _ _))
    | (with_reducible apply Kept.ite)
    | (with_reducible rfl)
    | (with_reducible exact fun h => h)
    | (with_reducible exact fun h => ⟨h, rfl⟩)
    | (intro _)
    | split
    | (with_reducible apply Kept.after (Kept.parts _ ?_ ?_ ?_ ?_ ?_ ?_ ?_))

theorem State.complete_kept (s : State) (r : Nat) (e : Exec) (status result reason : Nat) : Kept s (State.complete s r e status result reason) := by
  unfold State.complete
  repeat' first
    | (with_reducible exact Kept.refl _)
    | (with_reducible apply Kept.after (State.completeGone_kept _ _ _ _ _ _ _))

theorem State.finish_kept (s : State) (r : Nat) (e : Exec) (status : Nat) : Kept s (State.finish s r e status) := by
  unfold State.finish
  repeat' first
    | (with_reducible exact Kept.refl _)
    | (with_reducible apply Kept.after (State.complete_kept _ _ _ _ _ _))

theorem State.productNotice_kept (s : State) (hdr typ sub len64 : Nat) (integ : Nat) : Kept s (State.productNotice s hdr typ sub len64 integ) := by
  unfold State.productNotice
  repeat' first
    | (with_reducible exact Kept.refl _)
    | (extract_lets +onlyGivenNames x; have e : TyOf x = HostU := (by with_reducible rfl); clear e; dsimp -zeta only [x]; clear x)
    | (with_reducible rfl)
    | (with_reducible exact fun h => h)
    | (with_reducible exact fun h => ⟨h, rfl⟩)
    | (with_reducible apply Kept.after (Kept.parts _ ?_ ?_ ?_ ?_ ?_ ?_ ?_))

/-! ## Banks -/

theorem State.writeHeader_kept (s : State) (a : Nat) (h : Header) : Kept s (State.writeHeader s a h) := by
  unfold State.writeHeader
  repeat' first
    | (with_reducible exact Kept.refl _)
    | (with_reducible apply Kept.after (State.agentWrite_kept _ _ _ _ _))

theorem State.dropMarks_kept (s : State) (target record : Nat) (lo hi : Int) : Kept s (State.dropMarks s target record lo hi).1 := by
  unfold State.dropMarks
  repeat' first
    | (with_reducible exact Kept.refl _)
    | (with_reducible assumption)
    | (extract_lets +onlyGivenNames x; have e : TyOf x = State := (by with_reducible rfl); clear e; with_reducible apply Kept.use x; (on_goal 1 => dsimp -zeta only [x]; clear x); (on_goal 2 => intro h; clear_value x; revert x; intro _ _))
    | (extract_lets +onlyGivenNames x; clear_value x; revert x; intro _)
    | (with_reducible apply Kept.after (State.emit_kept _ _ _ _ _ _))
    | (with_reducible apply Kept.after (State.each_kept ?_ _ _))
    | (with_reducible rfl)
    | (with_reducible exact fun h => h)
    | (with_reducible exact fun h => ⟨h, rfl⟩)
    | (intro _)
    | (with_reducible apply Kept.after (Kept.parts _ ?_ ?_ ?_ ?_ ?_ ?_ ?_))

theorem State.startClose_kept (s : State) (b cause : Nat) : Kept s (State.startClose s b cause) := by
  unfold State.startClose
  repeat' first
    | (with_reducible exact Kept.refl _)
    | (with_reducible assumption)
    | (extract_lets +onlyGivenNames x; have e : TyOf x = State := (by with_reducible rfl); clear e; with_reducible apply Kept.use x; (on_goal 1 => dsimp -zeta only [x]; clear x); (on_goal 2 => intro h; clear_value x; revert x; intro _ _))
    | (extract_lets +onlyGivenNames x; clear_value x; revert x; intro _)
    | (with_reducible apply Kept.after (State.dropMarks_kept _ _ _ _ _))
    | (with_reducible apply Kept.after (State.emitFor_kept _ _ _ _ _ _ _))
    | (with_reducible apply Kept.after (State.incF_kept _ _ _))
    | (with_reducible apply Kept.after (State.putBit_kept _ _ _ _))
    | (with_reducible apply Kept.after (State.setBank_kept _ _ _))
    | (with_reducible apply Kept.after (State.setF_kept _ _ _))
    | (with_reducible apply Kept.ite)
    | (intro _)

theorem State.checkComplete_kept (s : State) (b : Nat) : Kept s (State.checkComplete s b) := by
  unfold State.checkComplete
  repeat' first
    | (with_reducible exact Kept.refl _)
    | (extract_lets +onlyGivenNames x; clear_value x; revert x; intro _)
    | (with_reducible apply Kept.after (State.startClose_kept _ _ _))
    | (with_reducible apply Kept.ite)
    | (intro _)

theorem State.countMark_kept (s : State) (b : Nat) (n : Int) : Kept s (State.countMark s b n) := by
  unfold State.countMark
  repeat' first
    | (with_reducible exact Kept.refl _)
    | (with_reducible assumption)
    | (extract_lets +onlyGivenNames x; have e : TyOf x = State := (by with_reducible rfl); clear e; with_reducible apply Kept.use x; (on_goal 1 => dsimp -zeta only [x]; clear x); (on_goal 2 => intro h; clear_value x; revert x; intro _ _))
    | (extract_lets +onlyGivenNames x; clear_value x; revert x; intro _)
    | (with_reducible apply Kept.after (State.addF_kept _ _ _))
    | (with_reducible apply Kept.after (State.checkComplete_kept _ _))
    | (with_reducible apply Kept.after (State.setBank_kept _ _ _))
    | (with_reducible apply Kept.ite)
    | (intro _)

theorem State.openBank_kept (s : State) (b : Nat) (n : Int) : Kept s (State.openBank s b n) := by
  unfold State.openBank
  repeat' first
    | (with_reducible exact Kept.refl _)
    | (with_reducible assumption)
    | (extract_lets +onlyGivenNames x; have e : TyOf x = State := (by with_reducible rfl); clear e; with_reducible apply Kept.use x; (on_goal 1 => dsimp -zeta only [x]; clear x); (on_goal 2 => intro h; clear_value x; revert x; intro _ _))
    | (extract_lets +onlyGivenNames x; clear_value x; revert x; intro _)
    | (with_reducible apply Kept.after (State.countMark_kept _ _ _))
    | (with_reducible apply Kept.after (State.setBank_kept _ _ _))
    | (with_reducible apply Kept.after (State.setF_kept _ _ _))
    | (with_reducible apply Kept.after (State.writeHeader_kept _ _ _))
    | (with_reducible apply Kept.after (State.each_kept ?_ _ _))
    | (with_reducible rfl)
    | (with_reducible exact fun h => h)
    | (with_reducible exact fun h => ⟨h, rfl⟩)
    | (intro _)
    | (with_reducible apply Kept.after (Kept.parts _ ?_ ?_ ?_ ?_ ?_ ?_ ?_))

theorem State.late_kept (s : State) (n : Int) (src : Nat) (drain : Bool) : Kept s (State.late s n src drain) := by
  unfold State.late
  repeat' first
    | (with_reducible exact Kept.refl _)
    | (with_reducible assumption)
    | (extract_lets +onlyGivenNames x; have e : TyOf x = State := (by with_reducible rfl); clear e; with_reducible apply Kept.use x; (on_goal 1 => dsimp -zeta only [x]; clear x); (on_goal 2 => intro h; clear_value x; revert x; intro _ _))
    | (extract_lets +onlyGivenNames x; clear_value x; revert x; intro _)
    | (with_reducible apply Kept.after (State.emitFor_kept _ _ _ _ _ _ _))
    | (with_reducible apply Kept.after (State.flagBank_kept _ _ _))
    | (with_reducible apply Kept.after (State.incF_kept _ _ _))
    | (with_reducible apply Kept.after (State.putBit_kept _ _ _ _))
    | (with_reducible apply Kept.after (State.setBank_kept _ _ _))
    | (with_reducible apply Kept.ite)
    | (intro _)

theorem State.accept_kept (s : State) (n : Int) : Kept s (State.accept s n).1 := by
  unfold State.accept
  repeat' first
    | (with_reducible exact Kept.refl _)
    | (extract_lets +onlyGivenNames x; clear_value x; revert x; intro _)
    | (with_reducible apply Kept.after (State.openBank_kept _ _ _))
    | (with_reducible apply Kept.after (State.startClose_kept _ _ _))
    | split

theorem State.mark_kept (s : State) (n : Int) (src : Nat) : Kept s (State.mark s n src) := by
  unfold State.mark
  repeat' first
    | (with_reducible exact Kept.refl _)
    | (extract_lets +onlyGivenNames x; clear_value x; revert x; intro _)
    | (with_reducible apply Kept.after (State.countMark_kept _ _ _))
    | (with_reducible apply Kept.after (State.late_kept _ _ _ _))
    | (with_reducible apply Kept.ite)
    | (with_reducible rfl)
    | (with_reducible exact fun h => h)
    | (with_reducible exact fun h => ⟨h, rfl⟩)
    | (intro _)
    | (with_reducible apply Kept.after (Kept.parts _ ?_ ?_ ?_ ?_ ?_ ?_ ?_))

theorem State.bankAdd_kept (s : State) (port b fmt l mask op : Nat) : Kept s (State.bankAdd s port b fmt l mask op) := by
  unfold State.bankAdd
  repeat' first
    | (with_reducible exact Kept.refl _)
    | (with_reducible apply Kept.after (State.agentAdd_kept _ _ _ _ _ _))

theorem State.sweep_kept (s : State) (b : Nat) : Kept s (State.sweep s b) := by
  unfold State.sweep
  repeat' first
    | (with_reducible exact Kept.refl _)
    | (with_reducible assumption)
    | (extract_lets +onlyGivenNames x; have e : TyOf x = State := (by with_reducible rfl); clear e; with_reducible apply Kept.use x; (on_goal 1 => dsimp -zeta only [x]; clear x); (on_goal 2 => intro h; clear_value x; revert x; intro _ _))
    | (extract_lets +onlyGivenNames x; clear_value x; revert x; intro _)
    | (with_reducible apply Kept.after (State.addF_kept _ _ _))
    | (with_reducible apply Kept.after (State.agentWrite_kept _ _ _ _ _))
    | (with_reducible apply Kept.after (State.emitFor_kept _ _ _ _ _ _ _))
    | (with_reducible apply Kept.after (State.incF_kept _ _ _))
    | (with_reducible apply Kept.after (State.productNotice_kept _ _ _ _ _ _))
    | (with_reducible apply Kept.after (State.pulse_kept _ _))
    | (with_reducible apply Kept.after (State.putBit_kept _ _ _ _))
    | (with_reducible apply Kept.after (State.setBank_kept _ _ _))
    | (with_reducible apply Kept.after (State.setF_kept _ _ _))
    | (with_reducible apply Kept.after (State.setFlag_kept _ _ _))
    | (with_reducible apply Kept.after (State.writeHeader_kept _ _ _))
    | (with_reducible apply Kept.after (State.each_kept ?_ _ _))
    | (with_reducible apply Kept.ite)
    | (intro _)

theorem State.zeroSpan_kept (s : State) (a n : Nat) : Kept s (State.zeroSpan s a n) := by
  unfold State.zeroSpan
  repeat' first
    | (with_reducible exact Kept.refl _)
    | (with_reducible assumption)
    | (extract_lets +onlyGivenNames x; have e : TyOf x = State := (by with_reducible rfl); clear e; with_reducible apply Kept.use x; (on_goal 1 => dsimp -zeta only [x]; clear x); (on_goal 2 => intro h; clear_value x; revert x; intro _ _))
    | (with_reducible apply Kept.after (State.setPoison_kept _ _ _))
    | (with_reducible apply Kept.after (State.each_kept ?_ _ _))
    | (with_reducible rfl)
    | (with_reducible exact fun h => h)
    | (with_reducible exact fun h => ⟨h, rfl⟩)
    | (with_reducible exact fun h => Memory.wf_filter h _)
    | (intro _)
    | (with_reducible apply Kept.after (Kept.parts _ ?_ ?_ ?_ ?_ ?_ ?_ ?_))

theorem State.emptyRec_kept (s : State) (x : Nat) (n : Int) : Kept s (State.emptyRec s x n) := by
  unfold State.emptyRec
  repeat' first
    | (with_reducible exact Kept.refl _)
    | (extract_lets +onlyGivenNames x; clear_value x; revert x; intro _)
    | (with_reducible apply Kept.after (State.setRec_kept _ _ _))

theorem State.fillRec_kept (s : State) (x : Nat) : Kept s (State.fillRec s x) := by
  unfold State.fillRec
  repeat' first
    | (with_reducible exact Kept.refl _)
    | (with_reducible assumption)
    | (extract_lets +onlyGivenNames x; have e : TyOf x = State := (by with_reducible rfl); clear e; with_reducible apply Kept.use x; (on_goal 1 => dsimp -zeta only [x]; clear x); (on_goal 2 => intro h; clear_value x; revert x; intro _ _))
    | (extract_lets +onlyGivenNames x; clear_value x; revert x; intro _)
    | (with_reducible apply Kept.after (State.addF_kept _ _ _))
    | (with_reducible apply Kept.after (State.productNotice_kept _ _ _ _ _ _))
    | (with_reducible apply Kept.after (State.pulse_kept _ _))
    | (with_reducible apply Kept.after (State.setRec_kept _ _ _))
    | (with_reducible apply Kept.after (State.startTimer_kept _ _))
    | (with_reducible apply Kept.after (State.writeHeader_kept _ _ _))
    | (with_reducible apply Kept.ite)
    | (with_reducible rfl)
    | (with_reducible exact fun h => h)
    | (with_reducible exact fun h => ⟨h, rfl⟩)
    | (intro _)
    | (with_reducible apply Kept.after (Kept.parts _ ?_ ?_ ?_ ?_ ?_ ?_ ?_))

theorem State.recLate_kept (s : State) (x : Nat) (n : Int) (fabric : Bool) : Kept s (State.recLate s x n fabric) := by
  unfold State.recLate
  repeat' first
    | (with_reducible exact Kept.refl _)
    | (with_reducible apply Kept.after (State.emit_kept _ _ _ _ _ _))
    | (with_reducible apply Kept.after (State.incF_kept _ _ _))
    | (with_reducible apply Kept.after (State.putBit_kept _ _ _ _))

theorem State.recOpen_kept (s : State) (x : Nat) (n : Int) : Kept s (State.recOpen s x n) := by
  unfold State.recOpen
  repeat' first
    | (with_reducible exact Kept.refl _)
    | (extract_lets +onlyGivenNames x; clear_value x; revert x; intro _)
    | (with_reducible apply Kept.after (State.setRec_kept _ _ _))
    | (with_reducible apply Kept.ite)
    | (intro _)

theorem State.recMark_kept (s : State) (x : Nat) (n : Int) (poisoned partialData : Bool) : Kept s (State.recMark s x n poisoned partialData) := by
  unfold State.recMark
  repeat' first
    | (with_reducible exact Kept.refl _)
    | (with_reducible assumption)
    | (extract_lets +onlyGivenNames x; have e : TyOf x = State := (by with_reducible rfl); clear e; with_reducible apply Kept.use x; (on_goal 1 => dsimp -zeta only [x]; clear x); (on_goal 2 => intro h; clear_value x; revert x; intro _ _))
    | (extract_lets +onlyGivenNames x; clear_value x; revert x; intro _)
    | (with_reducible apply Kept.after (State.fillRec_kept _ _))
    | (with_reducible apply Kept.after (State.recOpen_kept _ _ _))
    | (with_reducible apply Kept.after (State.setRec_kept _ _ _))
    | (with_reducible apply Kept.ite)
    | (intro _)

theorem State.freeFrame_kept (s : State) (x : Nat) : Kept s (State.freeFrame s x) := by
  unfold State.freeFrame
  repeat' first
    | (with_reducible exact Kept.refl _)
    | (with_reducible assumption)
    | (extract_lets +onlyGivenNames x; have e : TyOf x = State := (by with_reducible rfl); clear e; with_reducible apply Kept.use x; (on_goal 1 => dsimp -zeta only [x]; clear x); (on_goal 2 => intro h; clear_value x; revert x; intro _ _))
    | (extract_lets +onlyGivenNames x; clear_value x; revert x; intro _)
    | (with_reducible apply Kept.after (State.emptyRec_kept _ _ _))
    | (with_reducible apply Kept.after (State.orHeader_kept _ _ _))
    | (with_reducible apply Kept.after (State.zeroSpan_kept _ _ _))

theorem State.discardRecs_kept (s : State) : Kept s (State.discardRecs s) := by
  unfold State.discardRecs
  repeat' first
    | (with_reducible exact Kept.refl _)
    | (with_reducible assumption)
    | (extract_lets +onlyGivenNames x; have e : TyOf x = State := (by with_reducible rfl); clear e; with_reducible apply Kept.use x; (on_goal 1 => dsimp -zeta only [x]; clear x); (on_goal 2 => intro h; clear_value x; revert x; intro _ _))
    | (extract_lets +onlyGivenNames x; clear_value x; revert x; intro _)
    | (with_reducible apply Kept.after (State.emit_kept _ _ _ _ _ _))
    | (with_reducible apply Kept.after (State.emptyRec_kept _ _ _))
    | (with_reducible apply Kept.after (State.putBit_kept _ _ _ _))
    | (with_reducible apply Kept.after (State.zeroSpan_kept _ _ _))
    | (with_reducible apply Kept.after (State.each_kept ?_ _ _))
    | (intro _)

/-! ## FabOps -/

theorem State.idleEgq_kept (s : State) : Kept s (State.idleEgq s) := by
  unfold State.idleEgq
  repeat' first
    | (with_reducible exact Kept.refl _)
    | (extract_lets +onlyGivenNames x; clear_value x; revert x; intro _)
    | (with_reducible apply Kept.ite)
    | (with_reducible rfl)
    | (with_reducible exact fun h => h)
    | (with_reducible exact fun h => ⟨h, rfl⟩)
    | (intro _)
    | (with_reducible apply Kept.after (Kept.parts _ ?_ ?_ ?_ ?_ ?_ ?_ ?_))

theorem State.egqLevel_kept (s : State) (p : Nat) : Kept s (State.egqLevel s p) := by
  unfold State.egqLevel
  repeat' first
    | (with_reducible exact Kept.refl _)
    | (with_reducible assumption)
    | (extract_lets +onlyGivenNames x; have e : TyOf x = State := (by with_reducible rfl); clear e; with_reducible apply Kept.use x; (on_goal 1 => dsimp -zeta only [x]; clear x); (on_goal 2 => intro h; clear_value x; revert x; intro _ _))
    | (extract_lets +onlyGivenNames x; clear_value x; revert x; intro _)
    | (with_reducible apply Kept.after (State.idleEgq_kept _))
    | (with_reducible apply Kept.after (State.setF_kept _ _ _))
    | (with_reducible apply Kept.ite)
    | (intro _)

theorem State.enqueue_kept (s : State) (p pool fwd : Nat) (h : BitVec 256) (pay : List Byte) : Kept s (State.enqueue s p pool fwd h pay) := by
  unfold State.enqueue
  repeat' first
    | (with_reducible exact Kept.refl _)
    | (extract_lets +onlyGivenNames x; clear_value x; revert x; intro _)
    | (with_reducible apply Kept.after (State.egqLevel_kept _ _))
    | (with_reducible rfl)
    | (with_reducible exact fun h => h)
    | (with_reducible exact fun h => ⟨h, rfl⟩)
    | (with_reducible apply Kept.after (Kept.parts _ ?_ ?_ ?_ ?_ ?_ ?_ ?_))

theorem State.noRoute_kept (s : State) (p dst cls : Nat) : Kept s (State.noRoute s p dst cls) := by
  unfold State.noRoute
  repeat' first
    | (with_reducible exact Kept.refl _)
    | (with_reducible assumption)
    | (extract_lets +onlyGivenNames x; have e : TyOf x = State := (by with_reducible rfl); clear e; with_reducible apply Kept.use x; (on_goal 1 => dsimp -zeta only [x]; clear x); (on_goal 2 => intro h; clear_value x; revert x; intro _ _))
    | (extract_lets +onlyGivenNames x; clear_value x; revert x; intro _)
    | (with_reducible apply Kept.after (State.emit_kept _ _ _ _ _ _))
    | (with_reducible apply Kept.after (State.incF_kept _ _ _))
    | (with_reducible apply Kept.ite)
    | (with_reducible rfl)
    | (with_reducible exact fun h => h)
    | (with_reducible exact fun h => ⟨h, rfl⟩)
    | (intro _)
    | (with_reducible apply Kept.after (Kept.parts _ ?_ ?_ ?_ ?_ ?_ ?_ ?_))

theorem State.sendFab_kept (s : State) (dst : Nat) (h : BitVec 256) (pay : List Byte) : Kept s (State.sendFab s dst h pay) := by
  unfold State.sendFab
  repeat' first
    | (with_reducible exact Kept.refl _)
    | (with_reducible assumption)
    | (extract_lets +onlyGivenNames x; have e : TyOf x = State := (by with_reducible rfl); clear e; with_reducible apply Kept.use x; (on_goal 1 => dsimp -zeta only [x]; clear x); (on_goal 2 => intro h; clear_value x; revert x; intro _ _))
    | (extract_lets +onlyGivenNames x; clear_value x; revert x; intro _)
    | (with_reducible apply Kept.after (State.enqueue_kept _ _ _ _ _ _))
    | (with_reducible apply Kept.after (State.incF_kept _ _ _))
    | (with_reducible apply Kept.after (State.noRoute_kept _ _ _ _))
    | (with_reducible apply Kept.ite)
    | (with_reducible rfl)
    | (with_reducible exact fun h => h)
    | (with_reducible exact fun h => ⟨h, rfl⟩)
    | (intro _)
    | split
    | (with_reducible apply Kept.after (Kept.parts _ ?_ ?_ ?_ ?_ ?_ ?_ ?_))

theorem State.hearClaim_kept (s : State) (h : BitVec 256) : Kept s (State.hearClaim s h) := by
  unfold State.hearClaim
  repeat' first
    | (with_reducible exact Kept.refl _)
    | (extract_lets +onlyGivenNames x; clear_value x; revert x; intro _)
    | (with_reducible rfl)
    | (with_reducible exact fun h => h)
    | (with_reducible exact fun h => ⟨h, rfl⟩)
    | (with_reducible apply Kept.after (Kept.parts _ ?_ ?_ ?_ ?_ ?_ ?_ ?_))

theorem State.freeUnits_kept (s : State) (p pool n : Nat) : Kept s (State.freeUnits s p pool n) := by
  unfold State.freeUnits
  repeat' first
    | (with_reducible exact Kept.refl _)
    | (extract_lets +onlyGivenNames x; clear_value x; revert x; intro _)
    | (with_reducible rfl)
    | (with_reducible exact fun h => h)
    | (with_reducible exact fun h => ⟨h, rfl⟩)
    | (with_reducible apply Kept.after (Kept.parts _ ?_ ?_ ?_ ?_ ?_ ?_ ?_))

theorem State.release_kept (s : State) (p : Nat) (h : BitVec 256) : Kept s (State.release s p h) := by
  unfold State.release
  repeat' first
    | (with_reducible exact Kept.refl _)
    | (with_reducible apply Kept.after (State.freeUnits_kept _ _ _ _))
    | split

theorem State.fabTake_kept (s : State) (p : Nat) (fecBad : Bool) (h : BitVec 256) (cls op : Nat) : Kept s (State.fabTake s p fecBad h cls op).1 := by
  unfold State.fabTake
  repeat' first
    | (with_reducible exact Kept.refl _)
    | (with_reducible apply Kept.after (State.addF_kept _ _ _))
    | (with_reducible apply Kept.after (State.hearClaim_kept _ _))
    | (with_reducible apply Kept.after (State.incF_kept _ _ _))
    | (with_reducible apply Kept.after (State.release_kept _ _ _))
    | split

theorem State.sendBeacon_kept (s : State) (p : Nat) : Kept s (State.sendBeacon s p) := by
  unfold State.sendBeacon
  repeat' first
    | (with_reducible exact Kept.refl _)
    | (with_reducible assumption)
    | (extract_lets +onlyGivenNames x; have e : TyOf x = State := (by with_reducible rfl); clear e; with_reducible apply Kept.use x; (on_goal 1 => dsimp -zeta only [x]; clear x); (on_goal 2 => intro h; clear_value x; revert x; intro _ _))
    | (extract_lets +onlyGivenNames x; clear_value x; revert x; intro _)
    | (with_reducible apply Kept.after (State.enqueue_kept _ _ _ _ _ _))
    | (with_reducible rfl)
    | (with_reducible exact fun h => h)
    | (with_reducible exact fun h => ⟨h, rfl⟩)
    | (with_reducible apply Kept.after (Kept.parts _ ?_ ?_ ?_ ?_ ?_ ?_ ?_))

theorem State.sendAdds_kept (s : State) (dst : Nat) (n : Int) (target fmt rec : Nat) (ls : List AddLine) : Kept s (State.sendAdds s dst n target fmt rec ls) := by
  unfold State.sendAdds
  repeat' first
    | (with_reducible exact Kept.refl _)
    | (with_reducible assumption)
    | (extract_lets +onlyGivenNames x; have e : TyOf x = State := (by with_reducible rfl); clear e; with_reducible apply Kept.use x; (on_goal 1 => dsimp -zeta only [x]; clear x); (on_goal 2 => intro h; clear_value x; revert x; intro _ _))
    | (extract_lets +onlyGivenNames x; clear_value x; revert x; intro _)
    | (with_reducible apply Kept.after (State.sendFab_kept _ _ _ _))
    | (with_reducible apply Kept.after (State.each_kept ?_ _ _))
    | (with_reducible rfl)
    | (with_reducible exact fun h => h)
    | (with_reducible exact fun h => ⟨h, rfl⟩)
    | (intro _)
    | split
    | (with_reducible apply Kept.after (Kept.parts _ ?_ ?_ ?_ ?_ ?_ ?_ ?_))

theorem State.sendMark_kept (s : State) (dst : Nat) (n : Int) (target rec flags : Nat) : Kept s (State.sendMark s dst n target rec flags) := by
  unfold State.sendMark
  repeat' first
    | (with_reducible exact Kept.refl _)
    | (with_reducible assumption)
    | (extract_lets +onlyGivenNames x; have e : TyOf x = State := (by with_reducible rfl); clear e; with_reducible apply Kept.use x; (on_goal 1 => dsimp -zeta only [x]; clear x); (on_goal 2 => intro h; clear_value x; revert x; intro _ _))
    | (extract_lets +onlyGivenNames x; clear_value x; revert x; intro _)
    | (with_reducible apply Kept.after (State.sendFab_kept _ _ _ _))
    | (with_reducible rfl)
    | (with_reducible exact fun h => h)
    | (with_reducible exact fun h => ⟨h, rfl⟩)
    | (with_reducible apply Kept.after (Kept.parts _ ?_ ?_ ?_ ?_ ?_ ?_ ?_))

/-! ## StageOps -/

theorem State.idleHalves_kept (s : State) : Kept s (State.idleHalves s) := by
  unfold State.idleHalves
  repeat' first
    | (with_reducible exact Kept.refl _)
    | (extract_lets +onlyGivenNames x; clear_value x; revert x; intro _)
    | (with_reducible apply Kept.ite)
    | (with_reducible rfl)
    | (with_reducible exact fun h => h)
    | (with_reducible exact fun h => ⟨h, rfl⟩)
    | (intro _)
    | (with_reducible apply Kept.after (Kept.parts _ ?_ ?_ ?_ ?_ ?_ ?_ ?_))

theorem State.returnPages_kept (s : State) (n : Int) (keep : Nat → Nat → Bool) : Kept s (State.returnPages s n keep) := by
  unfold State.returnPages
  repeat' first
    | (with_reducible exact Kept.refl _)
    | (extract_lets +onlyGivenNames x; clear_value x; revert x; intro _)
    | (with_reducible apply Kept.after (State.idleHalves_kept _))
    | (with_reducible rfl)
    | (with_reducible exact fun h => h)
    | (with_reducible exact fun h => ⟨h, rfl⟩)
    | (with_reducible apply Kept.after (Kept.parts _ ?_ ?_ ?_ ?_ ?_ ?_ ?_))

theorem State.takeFree_kept (s : State) (n : Int) (c b k : Nat) : ∀ t, State.takeFree s n c b k = some t → Kept s t.1 := by
  intro t h
  unfold State.takeFree at h
  obtain ⟨p, -, e⟩ := Option.map_eq_some_iff.mp h
  rw [← e]
  exact Kept.lit s rfl rfl rfl

theorem State.showPart_kept (s : State) (p : Nat) : Kept s (State.showPart s p) := by
  unfold State.showPart
  repeat' first
    | (with_reducible exact Kept.refl _)
    | (with_reducible assumption)
    | (extract_lets +onlyGivenNames x; have e : TyOf x = State := (by with_reducible rfl); clear e; with_reducible apply Kept.use x; (on_goal 1 => dsimp -zeta only [x]; clear x); (on_goal 2 => intro h; clear_value x; revert x; intro _ _))
    | (extract_lets +onlyGivenNames x; clear_value x; revert x; intro _)
    | (with_reducible apply Kept.after (State.setF_kept _ _ _))
    | (with_reducible apply Kept.after (State.setFlag_kept _ _ _))

theorem State.setPart_kept (s : State) (p : Nat) (x : Part) : Kept s (State.setPart s p x) := by
  unfold State.setPart
  repeat' first
    | (with_reducible exact Kept.refl _)
    | (extract_lets +onlyGivenNames x; clear_value x; revert x; intro _)
    | (with_reducible apply Kept.after (State.showPart_kept _ _))
    | (with_reducible rfl)
    | (with_reducible exact fun h => h)
    | (with_reducible exact fun h => ⟨h, rfl⟩)
    | (with_reducible apply Kept.after (Kept.parts _ ?_ ?_ ?_ ?_ ?_ ?_ ?_))

theorem State.reportStalls_kept (s : State) (p : Nat) (n : Int) : Kept s (State.reportStalls s p n) := by
  unfold State.reportStalls
  repeat' first
    | (with_reducible exact Kept.refl _)
    | (with_reducible assumption)
    | (extract_lets +onlyGivenNames x; have e : TyOf x = State := (by with_reducible rfl); clear e; with_reducible apply Kept.use x; (on_goal 1 => dsimp -zeta only [x]; clear x); (on_goal 2 => intro h; clear_value x; revert x; intro _ _))
    | (extract_lets +onlyGivenNames x; clear_value x; revert x; intro _)
    | (with_reducible apply Kept.after (State.emit_kept _ _ _ _ _ _))
    | (with_reducible apply Kept.after (State.putBit_kept _ _ _ _))
    | (with_reducible apply Kept.after (State.setPart_kept _ _ _))
    | (with_reducible apply Kept.ite)
    | (intro _)

theorem State.checkPart_kept (s : State) (im : Image) (n : Int) (p : Nat) : Kept s (State.checkPart s im n p) := by
  unfold State.checkPart
  repeat' first
    | (with_reducible exact Kept.refl _)
    | (extract_lets +onlyGivenNames x; clear_value x; revert x; intro _)
    | (with_reducible apply Kept.after (State.reportStalls_kept _ _ _))
    | (with_reducible apply Kept.after (State.setPart_kept _ _ _))
    | (with_reducible apply Kept.ite)
    | (intro _)

theorem State.endReplay_kept (s : State) (n : Int) : Kept s (State.endReplay s n) := by
  unfold State.endReplay
  repeat' first
    | (with_reducible exact Kept.refl _)
    | (with_reducible assumption)
    | (extract_lets +onlyGivenNames x; have e : TyOf x = State := (by with_reducible rfl); clear e; with_reducible apply Kept.use x; (on_goal 1 => dsimp -zeta only [x]; clear x); (on_goal 2 => intro h; clear_value x; revert x; intro _ _))
    | (extract_lets +onlyGivenNames x; clear_value x; revert x; intro _)
    | (with_reducible apply Kept.after (State.pulse_kept _ _))
    | (with_reducible apply Kept.after (State.returnPages_kept _ _ _))
    | (with_reducible apply Kept.after (State.setF_kept _ _ _))
    | (with_reducible rfl)
    | (with_reducible exact fun h => h)
    | (with_reducible exact fun h => ⟨h, rfl⟩)
    | (with_reducible apply Kept.after (Kept.parts _ ?_ ?_ ?_ ?_ ?_ ?_ ?_))

theorem State.afterEntry_kept (s : State) (p : Nat) : Kept s (State.afterEntry s p) := by
  unfold State.afterEntry
  repeat' first
    | (with_reducible exact Kept.refl _)
    | (with_reducible assumption)
    | (extract_lets +onlyGivenNames x; have e : TyOf x = State := (by with_reducible rfl); clear e; with_reducible apply Kept.use x; (on_goal 1 => dsimp -zeta only [x]; clear x); (on_goal 2 => intro h; clear_value x; revert x; intro _ _))
    | (extract_lets +onlyGivenNames x; clear_value x; revert x; intro _)
    | (with_reducible apply Kept.after (State.checkPart_kept _ _ _ _))
    | (with_reducible apply Kept.after (State.endReplay_kept _ _))
    | (with_reducible apply Kept.after (State.returnPages_kept _ _ _))
    | (with_reducible apply Kept.ite)
    | (intro _)
    | split

theorem State.passTruncated_kept (s : State) (n : Int) (p entry cnt cause : Nat) : Kept s (State.passTruncated s n p entry cnt cause) := by
  unfold State.passTruncated
  repeat' first
    | (with_reducible exact Kept.refl _)
    | (with_reducible assumption)
    | (extract_lets +onlyGivenNames x; have e : TyOf x = State := (by with_reducible rfl); clear e; with_reducible apply Kept.use x; (on_goal 1 => dsimp -zeta only [x]; clear x); (on_goal 2 => intro h; clear_value x; revert x; intro _ _))
    | (extract_lets +onlyGivenNames x; clear_value x; revert x; intro _)
    | (with_reducible apply Kept.after (State.condDwell_kept _ _ _))
    | (with_reducible apply Kept.after (State.emit_kept _ _ _ _ _ _))
    | (with_reducible apply Kept.after (State.incF_kept _ _ _))
    | (with_reducible apply Kept.after (State.putBit_kept _ _ _ _))

theorem State.closeSlot_kept (s : State) (im : Image) (n : Int) (p e cnt : Nat) : Kept s (State.closeSlot s im n p e cnt) := by
  unfold State.closeSlot
  repeat' first
    | (with_reducible exact Kept.refl _)
    | (extract_lets +onlyGivenNames x; clear_value x; revert x; intro _)
    | (with_reducible apply Kept.after (State.setPart_kept _ _ _))
    | split

/-! ## BeamOps -/

theorem State.addSums_kept (s : State) (n : Int) (vis beam : Nat) : Kept s (State.addSums s n vis beam) := by
  unfold State.addSums
  repeat' first
    | (with_reducible exact Kept.refl _)
    | (extract_lets +onlyGivenNames x; clear_value x; revert x; intro _)
    | (with_reducible rfl)
    | (with_reducible exact fun h => h)
    | (with_reducible exact fun h => ⟨h, rfl⟩)
    | (with_reducible apply Kept.after (Kept.parts _ ?_ ?_ ?_ ?_ ?_ ?_ ?_))

theorem State.saturated_kept (s : State) (n : Int) (g k : Nat) : Kept s (State.saturated s n g k) := by
  unfold State.saturated
  repeat' first
    | (with_reducible exact Kept.refl _)
    | (with_reducible assumption)
    | (extract_lets +onlyGivenNames x; have e : TyOf x = State := (by with_reducible rfl); clear e; with_reducible apply Kept.use x; (on_goal 1 => dsimp -zeta only [x]; clear x); (on_goal 2 => intro h; clear_value x; revert x; intro _ _))
    | (extract_lets +onlyGivenNames x; clear_value x; revert x; intro _)
    | (with_reducible apply Kept.after (State.emit_kept _ _ _ _ _ _))
    | (with_reducible apply Kept.after (State.incF_kept _ _ _))
    | (with_reducible apply Kept.after (State.putBit_kept _ _ _ _))
    | (with_reducible apply Kept.ite)
    | (with_reducible rfl)
    | (with_reducible exact fun h => h)
    | (with_reducible exact fun h => ⟨h, rfl⟩)
    | (intro _)
    | (with_reducible apply Kept.after (Kept.parts _ ?_ ?_ ?_ ?_ ?_ ?_ ?_))

theorem State.beamAdd_kept (s : State) (base : Nat) (l : AddLine) : Kept s (State.beamAdd s base l) := by
  unfold State.beamAdd
  repeat' first
    | (with_reducible exact Kept.refl _)
    | (with_reducible apply Kept.after (State.agentAdd_kept _ _ _ _ _ _))

theorem State.beamWrite_kept (s : State) (a : Nat) (data : List Byte) : Kept s (State.beamWrite s a data) := by
  unfold State.beamWrite
  repeat' first
    | (with_reducible exact Kept.refl _)
    | (with_reducible apply Kept.after (State.agentWrite_kept _ _ _ _ _))
    | (with_reducible apply Kept.after (State.deny_kept _ _ _))
    | (with_reducible apply Kept.ite)
    | (intro _)

theorem State.reducedLines_kept (s : State) (q : BeamPass) (g j base cnt : Nat) : Kept s (State.reducedLines s q g j base cnt) := by
  unfold State.reducedLines
  repeat' first
    | (with_reducible exact Kept.refl _)
    | (with_reducible assumption)
    | (extract_lets +onlyGivenNames x; have e : TyOf x = State := (by with_reducible rfl); clear e; with_reducible apply Kept.use x; (on_goal 1 => dsimp -zeta only [x]; clear x); (on_goal 2 => intro h; clear_value x; revert x; intro _ _))
    | (extract_lets +onlyGivenNames x; clear_value x; revert x; intro _)
    | (with_reducible apply Kept.after (State.beamWrite_kept _ _ _))
    | (with_reducible apply Kept.after (State.saturated_kept _ _ _ _))
    | (with_reducible apply Kept.after (State.each_kept ?_ _ _))
    | (intro _)

theorem State.beamGroup_kept (s : State) (q : BeamPass) (cnt : Nat) (cut : Bool) (j : Nat) : Kept s (State.beamGroup s q cnt cut j) := by
  unfold State.beamGroup
  repeat' first
    | (with_reducible exact Kept.refl _)
    | (with_reducible assumption)
    | (extract_lets +onlyGivenNames x; have e : TyOf x = State := (by with_reducible rfl); clear e; with_reducible apply Kept.use x; (on_goal 1 => dsimp -zeta only [x]; clear x); (on_goal 2 => intro h; clear_value x; revert x; intro _ _))
    | (extract_lets +onlyGivenNames x; clear_value x; revert x; intro _)
    | (with_reducible apply Kept.after (State.addSums_kept _ _ _ _))
    | (with_reducible apply Kept.after (State.beamAdd_kept _ _ _))
    | (with_reducible apply Kept.after (State.recLate_kept _ _ _ _))
    | (with_reducible apply Kept.after (State.recMark_kept _ _ _ _ _))
    | (with_reducible apply Kept.after (State.recOpen_kept _ _ _))
    | (with_reducible apply Kept.after (State.reducedLines_kept _ _ _ _ _ _))
    | (with_reducible apply Kept.after (State.sendAdds_kept _ _ _ _ _ _ _))
    | (with_reducible apply Kept.after (State.sendMark_kept _ _ _ _ _ _))
    | (with_reducible apply Kept.after (State.each_kept ?_ _ _))
    | (with_reducible apply Kept.ite)
    | (intro _)
    | split

theorem State.beamDone_kept (s : State) (q : BeamPass) (cnt : Nat) (cut : Bool) : Kept s (State.beamDone s q cnt cut) := by
  unfold State.beamDone
  repeat' first
    | (with_reducible exact Kept.refl _)
    | (with_reducible apply Kept.after (State.beamGroup_kept _ _ _ _ _))
    | (with_reducible apply Kept.after (State.each_kept ?_ _ _))
    | (intro _)

theorem State.overrunPart_kept (s : State) (im : Image) (n : Int) (p : Nat) : Kept s (State.overrunPart s im n p) := by
  unfold State.overrunPart
  repeat' first
    | (with_reducible exact Kept.refl _)
    | (with_reducible assumption)
    | (extract_lets +onlyGivenNames x; have e : TyOf x = State := (by with_reducible rfl); clear e; with_reducible apply Kept.use x; (on_goal 1 => dsimp -zeta only [x]; clear x); (on_goal 2 => intro h; clear_value x; revert x; intro _ _))
    | (extract_lets +onlyGivenNames x; clear_value x; revert x; intro _)
    | (with_reducible apply Kept.after (State.beamDone_kept _ _ _ _))
    | (with_reducible apply Kept.after (State.closeSlot_kept _ _ _ _ _ _))
    | (with_reducible apply Kept.after (State.drew_kept _))
    | (with_reducible apply Kept.after (State.passTruncated_kept _ _ _ _ _ _))
    | (with_reducible apply Kept.after (State.setPart_kept _ _ _))
    | (with_reducible apply Kept.ite)
    | (intro _)
    | split

theorem State.restMarks_kept (s : State) (n : Int) : Kept s (State.restMarks s n) := by
  unfold State.restMarks
  repeat' first
    | (with_reducible exact Kept.refl _)
    | (extract_lets +onlyGivenNames x; clear_value x; revert x; intro _)
    | (with_reducible apply Kept.after (State.sendMark_kept _ _ _ _ _ _))
    | (with_reducible apply Kept.after (State.each_kept ?_ _ _))
    | (intro _)

/-! ## MovOps -/

theorem State.setMover_kept (s : State) (m : Nat) (x : Mover) : Kept s (State.setMover s m x) := by
  unfold State.setMover
  repeat' first
    | (with_reducible exact Kept.refl _)
    | (with_reducible rfl)
    | (with_reducible exact fun h => h)
    | (with_reducible exact fun h => ⟨h, rfl⟩)
    | (with_reducible apply Kept.after (Kept.parts _ ?_ ?_ ?_ ?_ ?_ ?_ ?_))

theorem State.ironSleep_kept (s : State) : Kept s (State.ironSleep s) := by
  unfold State.ironSleep
  repeat' first
    | (with_reducible exact Kept.refl _)
    | (with_reducible apply Kept.after (State.storeSleep_kept _))
    | (with_reducible apply Kept.ite)
    | (intro _)

theorem State.movWriteback_kept (s : State) (m : Nat) : Kept s (State.movWriteback s m).1 := by
  unfold State.movWriteback
  repeat' first
    | (with_reducible exact Kept.refl _)
    | (extract_lets +onlyGivenNames x; clear_value x; revert x; intro _)
    | (with_reducible apply Kept.after (State.addF_kept _ _ _))
    | (with_reducible apply Kept.after (State.agentWrite_kept _ _ _ _ _))
    | (with_reducible apply Kept.after (State.deny_kept _ _ _))
    | (with_reducible apply Kept.after (State.hostPut_kept _ _ _))
    | split

theorem State.movRefused_kept (s : State) (m : Nat) : Kept s (State.movRefused s m) := by
  unfold State.movRefused
  repeat' first
    | (with_reducible exact Kept.refl _)
    | (with_reducible assumption)
    | (extract_lets +onlyGivenNames x; have e : TyOf x = State := (by with_reducible rfl); clear e; with_reducible apply Kept.use x; (on_goal 1 => dsimp -zeta only [x]; clear x); (on_goal 2 => intro h; clear_value x; revert x; intro _ _))
    | (extract_lets +onlyGivenNames x; clear_value x; revert x; intro _)
    | (with_reducible apply Kept.after (State.deny_kept _ _ _))
    | (with_reducible apply Kept.after (State.incF_kept _ _ _))
    | (with_reducible apply Kept.after (State.setMover_kept _ _ _))
    | (with_reducible apply Kept.after (State.each_kept ?_ _ _))
    | (intro _)

theorem State.movEnd_kept (s : State) (m : Nat) : Kept s (State.movEnd s m).1 := by
  unfold State.movEnd
  repeat' first
    | (with_reducible exact Kept.refl _)
    | (with_reducible assumption)
    | (extract_lets +onlyGivenNames x; have e : TyOf x = State := (by with_reducible rfl); clear e; with_reducible apply Kept.use x; (on_goal 1 => dsimp -zeta only [x]; clear x); (on_goal 2 => intro h; clear_value x; revert x; intro _ _))
    | (extract_lets +onlyGivenNames x; obtain ⟨_, e⟩ : ∃ α, TyOf x = (State × α) := (by with_reducible exact ⟨_, rfl⟩); clear e; with_reducible apply Kept.use x.1; (on_goal 1 => dsimp -zeta only [x]; clear x); (on_goal 2 => intro h; clear_value x; revert x; intro _ _))
    | (extract_lets +onlyGivenNames x; clear_value x; revert x; intro _)
    | (with_reducible apply Kept.after (State.emitFor_kept _ _ _ _ _ _ _))
    | (with_reducible apply Kept.after (State.movRefused_kept _ _))
    | (with_reducible apply Kept.after (State.movWriteback_kept _ _))
    | (with_reducible apply Kept.after (State.setF_kept _ _ _))
    | (with_reducible apply Kept.ite)
    | (intro _)

theorem State.movStopped_kept (s : State) (m : Nat) : Kept s (State.movStopped s m) := by
  unfold State.movStopped
  repeat' first
    | (with_reducible exact Kept.refl _)
    | (extract_lets +onlyGivenNames x; clear_value x; revert x; intro _)
    | (with_reducible apply Kept.after (State.complete_kept _ _ _ _ _ _))
    | (with_reducible apply Kept.after (State.setMover_kept _ _ _))
    | (with_reducible apply Kept.after (State.each_kept ?_ _ _))
    | (intro _)
    | split

theorem State.movHalt_kept (s : State) (m : Nat) : Kept s (State.movHalt s m) := by
  unfold State.movHalt
  repeat' first
    | (with_reducible exact Kept.refl _)
    | (with_reducible assumption)
    | (extract_lets +onlyGivenNames x; have e : TyOf x = State := (by with_reducible rfl); clear e; with_reducible apply Kept.use x; (on_goal 1 => dsimp -zeta only [x]; clear x); (on_goal 2 => intro h; clear_value x; revert x; intro _ _))
    | (extract_lets +onlyGivenNames x; clear_value x; revert x; intro _)
    | (with_reducible apply Kept.after (State.emitFor_kept _ _ _ _ _ _ _))
    | (with_reducible apply Kept.after (State.ironSleep_kept _))
    | (with_reducible apply Kept.after (State.movStopped_kept _ _))
    | (with_reducible apply Kept.after (State.pulse_kept _ _))
    | (with_reducible apply Kept.after (State.setF_kept _ _ _))
    | (with_reducible apply Kept.after (State.setMover_kept _ _ _))

theorem State.movFail_kept (s : State) (m code : Nat) : Kept s (State.movFail s m code) := by
  unfold State.movFail
  repeat' first
    | (with_reducible exact Kept.refl _)
    | (extract_lets +onlyGivenNames x; clear_value x; revert x; intro _)
    | (with_reducible apply Kept.after (State.movEnd_kept _ _))
    | (with_reducible apply Kept.after (State.movHalt_kept _ _))
    | (with_reducible apply Kept.after (State.setMover_kept _ _ _))

theorem State.movBegin_kept (s : State) (m addr : Nat) (desc : BitVec 512) : Kept s (State.movBegin s m addr desc) := by
  unfold State.movBegin
  repeat' first
    | (with_reducible exact Kept.refl _)
    | (with_reducible assumption)
    | (extract_lets +onlyGivenNames x; have e : TyOf x = State := (by with_reducible rfl); clear e; with_reducible apply Kept.use x; (on_goal 1 => dsimp -zeta only [x]; clear x); (on_goal 2 => intro h; clear_value x; revert x; intro _ _))
    | (extract_lets +onlyGivenNames x; clear_value x; revert x; intro _)
    | (with_reducible apply Kept.after (State.setF_kept _ _ _))
    | (with_reducible apply Kept.after (State.setMover_kept _ _ _))
    | (with_reducible apply Kept.after (State.startTimer_kept _ _))

theorem State.movIdle_kept (s : State) (m saved : Nat) : Kept s (State.movIdle s m saved) := by
  unfold State.movIdle
  repeat' first
    | (with_reducible exact Kept.refl _)
    | (with_reducible apply Kept.after (State.ironSleep_kept _))
    | (with_reducible apply Kept.after (State.movStopped_kept _ _))
    | (with_reducible apply Kept.after (State.setF_kept _ _ _))

theorem State.abandon_kept (s : State) (n : Int) (fault : Bool) : Kept s (State.abandon s n fault) := by
  unfold State.abandon
  extract_lets im s1 s2 s3 sf q s4 q5 s5
  have h1 : Kept s s1 := Kept.ite (fun _ => (State.each_kept (fun s p =>
    (State.overrunPart_kept s im n p).trans (State.reportStalls_kept _ p n)) s _).trans (State.restMarks_kept _ n)) (fun _ => Kept.refl s)
  have h2 : Kept s s2 := h1.trans (State.condDwell_kept _ _ _)
  have h3 : Kept s s3 := Kept.ite (fun _ => (h2.trans (State.raiseFor_kept _ _ _ _ _ _ _)).trans (State.pulse_kept _ _)) (fun _ => h2)
  have h4 : Kept s s4 := 
    Kept.ite (fun _ => h3.trans (Kept.trans (State.setF_kept s3 STG_STATUS.FMT_WAIT 0) (Kept.lit sf rfl rfl rfl))) (fun _ => h3)
  have h5 : Kept s s5 := h4.trans (Kept.lit _ rfl rfl rfl)
  refine Kept.ite (fun _ => h5.trans (State.endReplay_kept _ _)) (fun _ => ?_)
  exact (h5.trans (State.returnPages_kept _ _ _)).trans (Kept.lit _ rfl rfl rfl)

theorem State.takeOr_kept (s : State) (n : Int) (c b k : Nat) (other : State × Option Nat) {x : State} (h : Kept x other.1)
    (hs : Kept x s) : Kept x (State.takeOr s n c b k other).1 := by
  rw [State.takeOr]
  exact Kept.fst_elim h (fun q e => hs.trans (State.takeFree_kept s n c b k q e))

theorem State.takeAbandon_kept (s : State) (n : Int) (c b k : Nat) (d : Int) : Kept s (State.takeAbandon s n c b k d).1 := by
  rw [State.takeAbandon]
  exact State.takeOr_kept _ n c b k _ (Kept.fst_mk (State.abandon_kept s d true)) (State.abandon_kept s d true)

theorem State.takePage_kept (s : State) (n : Int) (c b k : Nat) : Kept s (State.takePage s n c b k).1 := by
  rw [State.takePage]
  exact Kept.fst_elim (State.takeOr_kept s n c b k _ (Kept.fst_elim (Kept.fst_mk (Kept.refl s))
    (fun d _ => State.takeAbandon_kept s n c b k d)) (Kept.refl s)) (fun _ _ => Kept.fst_mk (Kept.refl s))

/-! ## UnitOps -/

theorem State.setCluster_kept (s : State) (c : Nat) (x : Cluster) : Kept s (State.setCluster s c x) := by
  unfold State.setCluster
  repeat' first
    | (with_reducible exact Kept.refl _)
    | (with_reducible rfl)
    | (with_reducible exact fun h => h)
    | (with_reducible exact fun h => ⟨h, rfl⟩)
    | (with_reducible apply Kept.after (Kept.parts _ ?_ ?_ ?_ ?_ ?_ ?_ ?_))

theorem State.setPort_kept (s : State) (p : Nat) (x : Port) : Kept s (State.setPort s p x) := by
  unfold State.setPort
  repeat' first
    | (with_reducible exact Kept.refl _)
    | (extract_lets +onlyGivenNames x; clear_value x; revert x; intro _)
    | (with_reducible rfl)
    | (with_reducible exact fun h => h)
    | (with_reducible exact fun h => ⟨h, rfl⟩)
    | (with_reducible apply Kept.after (Kept.parts _ ?_ ?_ ?_ ?_ ?_ ?_ ?_))

theorem State.showAccepted_kept (s : State) : Kept s (State.showAccepted s) := by
  unfold State.showAccepted
  repeat' first
    | (with_reducible exact Kept.refl _)
    | (extract_lets +onlyGivenNames x; clear_value x; revert x; intro _)
    | (with_reducible apply Kept.after (State.drive_kept _ _ _))
    | (with_reducible apply Kept.after (State.setFlag_kept _ _ _))

theorem State.setClaim_kept (s : State) (e r cause : Nat) : Kept s (State.setClaim s e r cause) := by
  unfold State.setClaim
  repeat' first
    | (with_reducible exact Kept.refl _)
    | (with_reducible assumption)
    | (extract_lets +onlyGivenNames x; have e : TyOf x = State := (by with_reducible rfl); clear e; with_reducible apply Kept.use x; (on_goal 1 => dsimp -zeta only [x]; clear x); (on_goal 2 => intro h; clear_value x; revert x; intro _ _))
    | (extract_lets +onlyGivenNames x; clear_value x; revert x; intro _)
    | (with_reducible apply Kept.after (State.emit_kept _ _ _ _ _ _))
    | (with_reducible apply Kept.after (State.setF_kept _ _ _))
    | (with_reducible apply Kept.after (State.showAccepted_kept _))
    | (with_reducible apply Kept.after (State.startTimer_kept _ _))
    | (with_reducible apply Kept.ite)
    | (intro _)

theorem State.stopPasses_kept (s : State) (cause : Nat) : Kept s (State.stopPasses s cause) := by
  unfold State.stopPasses
  repeat' first
    | (with_reducible exact Kept.refl _)
    | (extract_lets +onlyGivenNames x; clear_value x; revert x; intro _)
    | (with_reducible apply Kept.after (State.drew_kept _))
    | (with_reducible apply Kept.after (State.passTruncated_kept _ _ _ _ _ _))
    | (with_reducible apply Kept.after (State.each_kept ?_ _ _))
    | (intro _)
    | split

theorem State.freeSlots_kept (s : State) : Kept s (State.freeSlots s) := by
  unfold State.freeSlots
  repeat' first
    | (with_reducible exact Kept.refl _)
    | (with_reducible apply Kept.after (State.setPart_kept _ _ _))
    | (with_reducible apply Kept.after (State.each_kept ?_ _ _))
    | (intro _)

theorem State.stopStage_kept (s : State) (cause : Nat) : Kept s (State.stopStage s cause) := by
  unfold State.stopStage
  repeat' first
    | (with_reducible exact Kept.refl _)
    | (with_reducible apply Kept.after (State.discardRecs_kept _))
    | (with_reducible apply Kept.after (State.freeSlots_kept _))
    | (with_reducible apply Kept.after (State.setF_kept _ _ _))
    | (with_reducible apply Kept.after (State.stopPasses_kept _ _))

theorem State.ironPace_kept (s : State) (m : Nat) : Kept s (State.ironPace s m) := by
  unfold State.ironPace
  repeat' first
    | (with_reducible exact Kept.refl _)
    | (with_reducible apply Kept.after (State.movFail_kept _ _ _))
    | (with_reducible apply Kept.ite)
    | (intro _)

theorem State.stopPit_kept (s : State) : Kept s (State.stopPit s) := by
  unfold State.stopPit
  repeat' first
    | (with_reducible exact Kept.refl _)
    | (with_reducible rfl)
    | (with_reducible exact fun h => h)
    | (with_reducible exact fun h => ⟨h, rfl⟩)
    | (with_reducible apply Kept.after (Kept.parts _ ?_ ?_ ?_ ?_ ?_ ?_ ?_))

theorem State.ironEntry_kept (s : State) (reason src : Nat) : Kept s (State.ironEntry s reason src) := by
  unfold State.ironEntry
  repeat' first
    | (with_reducible exact Kept.refl _)
    | (with_reducible assumption)
    | (extract_lets +onlyGivenNames x; have e : TyOf x = State := (by with_reducible rfl); clear e; with_reducible apply Kept.use x; (on_goal 1 => dsimp -zeta only [x]; clear x); (on_goal 2 => intro h; clear_value x; revert x; intro _ _))
    | (extract_lets +onlyGivenNames x; clear_value x; revert x; intro _)
    | (with_reducible apply Kept.after (State.attn_kept _ _))
    | (with_reducible apply Kept.after (State.drive_kept _ _ _))
    | (with_reducible apply Kept.after (State.egqLevel_kept _ _))
    | (with_reducible apply Kept.after (State.emit_kept _ _ _ _ _ _))
    | (with_reducible apply Kept.after (State.incF_kept _ _ _))
    | (with_reducible apply Kept.after (State.ironPace_kept _ _))
    | (with_reducible apply Kept.after (State.ironSleep_kept _))
    | (with_reducible apply Kept.after (State.sendBeacon_kept _ _))
    | (with_reducible apply Kept.after (State.setClaim_kept _ _ _ _))
    | (with_reducible apply Kept.after (State.setF_kept _ _ _))
    | (with_reducible apply Kept.after (State.startTimer_kept _ _))
    | (with_reducible apply Kept.after (State.stopPit_kept _))
    | (with_reducible apply Kept.after (State.stopStage_kept _ _))
    | (with_reducible apply Kept.after (State.each_kept ?_ _ _))
    | (with_reducible apply Kept.ite)
    | (with_reducible rfl)
    | (with_reducible exact fun h => h)
    | (with_reducible exact fun h => ⟨h, rfl⟩)
    | (intro _)
    | (with_reducible apply Kept.after (Kept.parts _ ?_ ?_ ?_ ?_ ?_ ?_ ?_))

theorem State.settle_kept (s : State) : Kept s (State.settle s) := by
  unfold State.settle
  repeat' first
    | (with_reducible exact Kept.refl _)
    | (with_reducible assumption)
    | (extract_lets +onlyGivenNames x; have e : TyOf x = State := (by with_reducible rfl); clear e; with_reducible apply Kept.use x; (on_goal 1 => dsimp -zeta only [x]; clear x); (on_goal 2 => intro h; clear_value x; revert x; intro _ _))
    | (extract_lets +onlyGivenNames x; clear_value x; revert x; intro _)
    | (with_reducible apply Kept.after (State.ironEntry_kept _ _ _))
    | (with_reducible rfl)
    | (with_reducible exact fun h => h)
    | (with_reducible exact fun h => ⟨h, rfl⟩)
    | split
    | (with_reducible apply Kept.after (Kept.parts _ ?_ ?_ ?_ ?_ ?_ ?_ ?_))

end Sys2Proof.Machine
end

