-- ==== Sys2Proof/Laws/KeptUnits.lean ====
section
/-!
SUPPORT. `Kept` for the operations of the clock, the DPLL, the cue matrix, the lanes, the duet, the faults, boot and the control plane.
-/

namespace Sys2Proof.Machine

/-! ## Clock -/

theorem State.rawRun_kept (s : State) (n : Nat) : Kept s (State.rawRun s n) := by
  unfold State.rawRun
  repeat' first
    | (with_reducible exact Kept.refl _)
    | (with_reducible assumption)
    | (extract_lets +onlyGivenNames x; have e : TyOf x = State := (by with_reducible rfl); clear e; with_reducible apply Kept.use x; (on_goal 1 => dsimp -zeta only [x]; clear x); (on_goal 2 => intro h; clear_value x; revert x; intro _ _))
    | (extract_lets +onlyGivenNames x; have e : TyOf x = Clk := (by with_reducible rfl); clear e; dsimp -zeta only [x]; clear x)
    | (extract_lets +onlyGivenNames x; clear_value x; revert x; intro _)
    | (with_reducible apply Kept.after (State.setS_kept _ _ _))
    | (with_reducible apply Kept.ite)
    | (with_reducible rfl)
    | (with_reducible exact fun h => h)
    | (with_reducible exact fun h => ⟨h, rfl⟩)
    | (with_reducible exact Nat.le_add_right _ _)
    | (intro _)
    | (with_reducible apply Kept.after (Kept.parts _ ?_ ?_ ?_ ?_ ?_ ?_ ?_))

theorem State.cross_kept (s : State) (im old : Image) : Kept s (State.cross s im old) := by
  unfold State.cross
  repeat' first
    | (with_reducible exact Kept.refl _)
    | (with_reducible assumption)
    | (extract_lets +onlyGivenNames x; have e : TyOf x = State := (by with_reducible rfl); clear e; with_reducible apply Kept.use x; (on_goal 1 => dsimp -zeta only [x]; clear x); (on_goal 2 => intro h; clear_value x; revert x; intro _ _))
    | (extract_lets +onlyGivenNames x; have e : TyOf x = Clk := (by with_reducible rfl); clear e; dsimp -zeta only [x]; clear x)
    | (extract_lets +onlyGivenNames x; clear_value x; revert x; intro _)
    | (with_reducible apply Kept.after (State.emit_kept _ _ _ _ _ _))
    | (with_reducible apply Kept.after (State.putBit_kept _ _ _ _))
    | (with_reducible apply Kept.after (State.setS_kept _ _ _))
    | (with_reducible apply Kept.ite)
    | (with_reducible rfl)
    | (with_reducible exact fun h => h)
    | (with_reducible exact fun h => ⟨h, rfl⟩)
    | (intro _)
    | (with_reducible apply Kept.after (Kept.parts _ ?_ ?_ ?_ ?_ ?_ ?_ ?_))

theorem State.commaSent_kept (s : State) : Kept s (State.commaSent s) := by
  unfold State.commaSent
  repeat' first
    | (with_reducible exact Kept.refl _)
    | (extract_lets +onlyGivenNames x; clear_value x; revert x; intro _)
    | (with_reducible rfl)
    | (with_reducible exact fun h => h)
    | (with_reducible exact fun h => ⟨h, rfl⟩)
    | (with_reducible apply Kept.after (Kept.parts _ ?_ ?_ ?_ ?_ ?_ ?_ ?_))

theorem State.runCycles_kept (s : State) (n : Nat) : Kept s (State.runCycles s n) := by
  unfold State.runCycles
  repeat' first
    | (with_reducible exact Kept.refl _)
    | (with_reducible assumption)
    | (extract_lets +onlyGivenNames x; obtain ⟨_, e⟩ : ∃ α, TyOf x = (State × α) := (by with_reducible exact ⟨_, rfl⟩); clear e; with_reducible apply Kept.use x.1; (on_goal 1 => dsimp -zeta only [x]; clear x); (on_goal 2 => intro h; clear_value x; revert x; intro _ _))
    | (extract_lets +onlyGivenNames x; clear_value x; revert x; intro _)
    | (with_reducible apply Kept.after (State.commaSent_kept _))
    | (with_reducible apply Kept.after (State.cross_kept _ _ _))
    | (with_reducible apply Kept.after (State.rawRun_kept _ _))
    | (intro _)
    | split
    | (with_reducible apply Kept.after (foldl_fst_kept ?_ _ _))

theorem State.lapse_kept (s : State) (k : Timer) (n : Nat) : Kept s (State.lapse s k n) := by
  unfold State.lapse
  repeat' first
    | (with_reducible exact Kept.refl _)
    | (with_reducible apply Kept.after (State.runCycles_kept _ _))
    | split

theorem State.advanceTo_kept (s : State) (six : Nat) : Kept s (State.advanceTo s six) := by
  unfold State.advanceTo
  repeat' first
    | (with_reducible exact Kept.refl _)
    | (with_reducible assumption)
    | (extract_lets +onlyGivenNames x; have e : TyOf x = State := (by with_reducible rfl); clear e; with_reducible apply Kept.use x; (on_goal 1 => dsimp -zeta only [x]; clear x); (on_goal 2 => intro h; clear_value x; revert x; intro _ _))
    | (with_reducible apply Kept.after (State.commaSent_kept _))
    | (with_reducible apply Kept.after (State.cross_kept _ _ _))
    | (with_reducible apply Kept.after (State.rawRun_kept _ _))
    | (with_reducible apply Kept.ite)
    | (intro _)
    | (with_reducible apply Kept.after (foldl_kept ?_ _ _))

theorem State.afterClose_kept (s : State) (n : Int) (ms : Nat) : Kept s (State.afterClose s n ms) := by
  unfold State.afterClose
  repeat' first
    | (with_reducible exact Kept.refl _)
    | (extract_lets +onlyGivenNames x; clear_value x; revert x; intro _)
    | (with_reducible apply Kept.after (State.advanceTo_kept _ _))

theorem State.showHckSt_kept (s : State) : Kept s (State.showHckSt s) := by
  unfold State.showHckSt
  repeat' first
    | (with_reducible exact Kept.refl _)
    | (extract_lets +onlyGivenNames x; clear_value x; revert x; intro _)
    | (with_reducible rfl)
    | (with_reducible exact fun h => h)
    | (with_reducible exact fun h => ⟨h, rfl⟩)
    | (with_reducible apply Kept.after (Kept.parts _ ?_ ?_ ?_ ?_ ?_ ?_ ?_))

theorem tick_kept (s : State) : Kept s (tick s) := by
  unfold tick
  repeat' first
    | (with_reducible exact Kept.refl _)
    | (with_reducible apply Kept.after (State.runCycles_kept _ _))
    | (with_reducible apply Kept.after (State.showHckSt_kept _))

/-! ## HckOps -/

theorem State.hckApply_kept (s : State) : Kept s (State.hckApply s) := by
  unfold State.hckApply
  repeat' first
    | (with_reducible exact Kept.refl _)
    | (extract_lets +onlyGivenNames x; clear_value x; revert x; intro _)
    | (with_reducible rfl)
    | (with_reducible exact fun h => h)
    | (with_reducible exact fun h => ⟨h, rfl⟩)
    | (with_reducible apply Kept.after (Kept.parts _ ?_ ?_ ?_ ?_ ?_ ?_ ?_))

theorem State.setEntState_kept (s : State) (e v : Nat) : Kept s (State.setEntState s e v) := by
  unfold State.setEntState
  repeat' first
    | (with_reducible exact Kept.refl _)
    | (with_reducible apply Kept.after (State.setF_kept _ _ _))

theorem State.enterWtr_kept (s : State) (e : Nat) : Kept s (State.enterWtr s e) := by
  unfold State.enterWtr
  repeat' first
    | (with_reducible exact Kept.refl _)
    | (with_reducible assumption)
    | (extract_lets +onlyGivenNames x; have e : TyOf x = State := (by with_reducible rfl); clear e; with_reducible apply Kept.use x; (on_goal 1 => dsimp -zeta only [x]; clear x); (on_goal 2 => intro h; clear_value x; revert x; intro _ _))
    | (extract_lets +onlyGivenNames x; clear_value x; revert x; intro _)
    | (with_reducible apply Kept.after (State.setEntState_kept _ _ _))
    | (with_reducible apply Kept.after (State.setF_kept _ _ _))
    | (with_reducible rfl)
    | (with_reducible exact fun h => h)
    | (with_reducible exact fun h => ⟨h, rfl⟩)
    | (with_reducible apply Kept.after (Kept.parts _ ?_ ?_ ?_ ?_ ?_ ?_ ?_))

theorem State.entSignals_kept (s : State) : Kept s (State.entSignals s) := by
  unfold State.entSignals
  repeat' first
    | (with_reducible exact Kept.refl _)
    | (with_reducible apply Kept.after (State.enterWtr_kept _ _))
    | (with_reducible apply Kept.after (State.setEntState_kept _ _ _))
    | (with_reducible apply Kept.after (State.each_kept ?_ _ _))
    | (with_reducible apply Kept.ite)
    | (intro _)

theorem State.hckMark_kept (s : State) : Kept s (State.hckMark s) := by
  unfold State.hckMark
  repeat' first
    | (with_reducible exact Kept.refl _)
    | (with_reducible apply Kept.after (State.condDwell_kept _ _ _))
    | (with_reducible apply Kept.after (State.each_kept ?_ _ _))
    | (with_reducible apply Kept.ite)
    | (intro _)

theorem State.takeBw_kept (s : State) : Kept s (State.takeBw s) := by
  unfold State.takeBw
  repeat' first
    | (with_reducible exact Kept.refl _)
    | (extract_lets +onlyGivenNames x; clear_value x; revert x; intro _)
    | (with_reducible rfl)
    | (with_reducible exact fun h => h)
    | (with_reducible exact fun h => ⟨h, rfl⟩)
    | split
    | (with_reducible apply Kept.after (Kept.parts _ ?_ ?_ ?_ ?_ ?_ ?_ ?_))

theorem State.goAtOnce_kept (s : State) : Kept s (State.goAtOnce s) := by
  unfold State.goAtOnce
  repeat' first
    | (with_reducible exact Kept.refl _)
    | (with_reducible apply Kept.after (State.setS_kept _ _ _))
    | (with_reducible apply Kept.ite)
    | (intro _)

theorem State.hckState_kept (s : State) (new : Nat) : Kept s (State.hckState s new) := by
  unfold State.hckState
  repeat' first
    | (with_reducible exact Kept.refl _)
    | (with_reducible assumption)
    | (extract_lets +onlyGivenNames x; have e : TyOf x = State := (by with_reducible rfl); clear e; with_reducible apply Kept.use x; (on_goal 1 => dsimp -zeta only [x]; clear x); (on_goal 2 => intro h; clear_value x; revert x; intro _ _))
    | (extract_lets +onlyGivenNames x; clear_value x; revert x; intro _)
    | (with_reducible apply Kept.after (State.drive_kept _ _ _))
    | (with_reducible apply Kept.after (State.emit_kept _ _ _ _ _ _))
    | (with_reducible apply Kept.after (State.hckMark_kept _))
    | (with_reducible apply Kept.after (State.putBit_kept _ _ _ _))
    | (with_reducible apply Kept.after (State.raise_kept _ _ _ _ _))
    | (with_reducible apply Kept.after (State.setF_kept _ _ _))
    | (with_reducible apply Kept.after (State.showHckSt_kept _))
    | (with_reducible apply Kept.after (State.startTimer_kept _ _))
    | (with_reducible apply Kept.after (State.takeBw_kept _))
    | (with_reducible apply Kept.ite)
    | (with_reducible rfl)
    | (with_reducible exact fun h => h)
    | (with_reducible exact fun h => ⟨h, rfl⟩)
    | (intro _)
    | (with_reducible apply Kept.after (Kept.parts _ ?_ ?_ ?_ ?_ ?_ ?_ ?_))

theorem State.hckSwitch_kept (s : State) (new cause : Nat) (ps : Int) : Kept s (State.hckSwitch s new cause ps) := by
  unfold State.hckSwitch
  repeat' first
    | (with_reducible exact Kept.refl _)
    | (with_reducible assumption)
    | (extract_lets +onlyGivenNames x; have e : TyOf x = State := (by with_reducible rfl); clear e; with_reducible apply Kept.use x; (on_goal 1 => dsimp -zeta only [x]; clear x); (on_goal 2 => intro h; clear_value x; revert x; intro _ _))
    | (extract_lets +onlyGivenNames x; clear_value x; revert x; intro _)
    | (with_reducible apply Kept.after (State.addF_kept _ _ _))
    | (with_reducible apply Kept.after (State.emit_kept _ _ _ _ _ _))
    | (with_reducible apply Kept.after (State.pulse_kept _ _))
    | (with_reducible apply Kept.after (State.putBit_kept _ _ _ _))
    | (with_reducible apply Kept.after (State.setF_kept _ _ _))
    | (with_reducible apply Kept.after (State.setS_kept _ _ _))
    | (with_reducible apply Kept.after (State.takeBw_kept _))
    | (with_reducible rfl)
    | (with_reducible exact fun h => h)
    | (with_reducible exact fun h => ⟨h, rfl⟩)
    | (with_reducible apply Kept.after (Kept.parts _ ?_ ?_ ?_ ?_ ?_ ?_ ?_))

theorem State.enterHoldover_kept (s : State) (g : Nat) : Kept s (State.enterHoldover s g) := by
  unfold State.enterHoldover
  repeat' first
    | (with_reducible exact Kept.refl _)
    | (with_reducible assumption)
    | (extract_lets +onlyGivenNames x; have e : TyOf x = State := (by with_reducible rfl); clear e; with_reducible apply Kept.use x; (on_goal 1 => dsimp -zeta only [x]; clear x); (on_goal 2 => intro h; clear_value x; revert x; intro _ _))
    | (extract_lets +onlyGivenNames x; clear_value x; revert x; intro _)
    | (with_reducible apply Kept.after (State.goAtOnce_kept _))
    | (with_reducible apply Kept.after (State.hckState_kept _ _))
    | (with_reducible apply Kept.after (State.setF_kept _ _ _))
    | (with_reducible apply Kept.ite)
    | (with_reducible rfl)
    | (with_reducible exact fun h => h)
    | (with_reducible exact fun h => ⟨h, rfl⟩)
    | (intro _)
    | split
    | (with_reducible apply Kept.after (Kept.parts _ ?_ ?_ ?_ ?_ ?_ ?_ ?_))

theorem State.hckSelect_kept (s : State) (lost disq : Bool) (ps : Int) : Kept s (State.hckSelect s lost disq ps) := by
  unfold State.hckSelect
  repeat' first
    | (with_reducible exact Kept.refl _)
    | (with_reducible apply Kept.after (State.enterHoldover_kept _ _))
    | (with_reducible apply Kept.after (State.hckState_kept _ _))
    | (with_reducible apply Kept.after (State.hckSwitch_kept _ _ _ _))
    | (with_reducible apply Kept.after (State.setF_kept _ _ _))
    | (with_reducible apply Kept.ite)
    | (intro _)
    | split

theorem State.hckSignals_kept (s : State) (ps : Int) : Kept s (State.hckSignals s ps) := by
  unfold State.hckSignals
  repeat' first
    | (with_reducible exact Kept.refl _)
    | (with_reducible assumption)
    | (extract_lets +onlyGivenNames x; have e : TyOf x = State := (by with_reducible rfl); clear e; with_reducible apply Kept.use x; (on_goal 1 => dsimp -zeta only [x]; clear x); (on_goal 2 => intro h; clear_value x; revert x; intro _ _))
    | (with_reducible apply Kept.after (State.entSignals_kept _))
    | (with_reducible apply Kept.after (State.hckSelect_kept _ _ _ _))
    | (with_reducible apply Kept.ite)
    | (intro _)

theorem State.hckLinks_kept (s : State) : Kept s (State.hckLinks s) := by
  unfold State.hckLinks
  repeat' first
    | (with_reducible exact Kept.refl _)
    | (with_reducible assumption)
    | (extract_lets +onlyGivenNames x; have e : TyOf x = State := (by with_reducible rfl); clear e; with_reducible apply Kept.use x; (on_goal 1 => dsimp -zeta only [x]; clear x); (on_goal 2 => intro h; clear_value x; revert x; intro _ _))
    | (with_reducible apply Kept.after (State.drew_kept _))
    | (with_reducible apply Kept.after (State.entSignals_kept _))
    | (with_reducible apply Kept.after (State.hckSelect_kept _ _ _ _))
    | (with_reducible apply Kept.ite)
    | (intro _)

/-! ## DuetOps -/

theorem State.claimTo_kept (s : State) (e r cause : Nat) : Kept s (State.claimTo s e r cause) := by
  unfold State.claimTo
  repeat' first
    | (with_reducible exact Kept.refl _)
    | (with_reducible apply Kept.after (State.journal_kept _ _))
    | (with_reducible apply Kept.after (State.setClaim_kept _ _ _ _))
    | (with_reducible apply Kept.ite)
    | (intro _)

theorem State.propose_kept (s : State) (k : Int) : Kept s (State.propose s k) := by
  unfold State.propose
  repeat' first
    | (with_reducible exact Kept.refl _)
    | (with_reducible assumption)
    | (extract_lets +onlyGivenNames x; have e : TyOf x = State := (by with_reducible rfl); clear e; with_reducible apply Kept.use x; (on_goal 1 => dsimp -zeta only [x]; clear x); (on_goal 2 => intro h; clear_value x; revert x; intro _ _))
    | (extract_lets +onlyGivenNames x; clear_value x; revert x; intro _)
    | (with_reducible apply Kept.after (State.setF_kept _ _ _))
    | (with_reducible apply Kept.after (State.stopTimer_kept _ _))
    | (with_reducible rfl)
    | (with_reducible exact fun h => h)
    | (with_reducible exact fun h => ⟨h, rfl⟩)
    | (with_reducible apply Kept.after (Kept.parts _ ?_ ?_ ?_ ?_ ?_ ?_ ?_))

theorem State.proposeEarliest_kept (s : State) : Kept s (State.proposeEarliest s) := by
  unfold State.proposeEarliest
  repeat' first
    | (with_reducible exact Kept.refl _)
    | (with_reducible apply Kept.after (State.propose_kept _ _))
    | (with_reducible apply Kept.ite)
    | (intro _)

theorem State.swapEnd_kept (s : State) : Kept s (State.swapEnd s) := by
  unfold State.swapEnd
  repeat' first
    | (with_reducible exact Kept.refl _)
    | (with_reducible assumption)
    | (extract_lets +onlyGivenNames x; have e : TyOf x = State := (by with_reducible rfl); clear e; with_reducible apply Kept.use x; (on_goal 1 => dsimp -zeta only [x]; clear x); (on_goal 2 => intro h; clear_value x; revert x; intro _ _))
    | (extract_lets +onlyGivenNames x; clear_value x; revert x; intro _)
    | (with_reducible apply Kept.after (State.setF_kept _ _ _))
    | (with_reducible rfl)
    | (with_reducible exact fun h => h)
    | (with_reducible exact fun h => ⟨h, rfl⟩)
    | (with_reducible apply Kept.after (Kept.parts _ ?_ ?_ ?_ ?_ ?_ ?_ ?_))

theorem State.swapApply_kept (s : State) (n : Int) : Kept s (State.swapApply s n) := by
  unfold State.swapApply
  repeat' first
    | (with_reducible exact Kept.refl _)
    | (extract_lets +onlyGivenNames x; clear_value x; revert x; intro _)
    | (with_reducible apply Kept.after (State.emit_kept _ _ _ _ _ _))
    | (with_reducible apply Kept.after (State.pulse_kept _ _))
    | (with_reducible apply Kept.after (State.setClaim_kept _ _ _ _))
    | (with_reducible apply Kept.after (State.startTimer_kept _ _))
    | (with_reducible apply Kept.after (State.swapEnd_kept _))
    | (with_reducible apply Kept.ite)
    | (intro _)

theorem State.claimBoundary_kept (s : State) : Kept s (State.claimBoundary s) := by
  unfold State.claimBoundary
  repeat' first
    | (with_reducible exact Kept.refl _)
    | (with_reducible assumption)
    | (extract_lets +onlyGivenNames x; have e : TyOf x = State := (by with_reducible rfl); clear e; with_reducible apply Kept.use x; (on_goal 1 => dsimp -zeta only [x]; clear x); (on_goal 2 => intro h; clear_value x; revert x; intro _ _))
    | (extract_lets +onlyGivenNames x; clear_value x; revert x; intro _)
    | (with_reducible apply Kept.after (State.claimTo_kept _ _ _ _))
    | (with_reducible apply Kept.after (State.emit_kept _ _ _ _ _ _))
    | (with_reducible apply Kept.after (State.swapEnd_kept _))
    | (with_reducible apply Kept.ite)
    | (with_reducible rfl)
    | (with_reducible exact fun h => h)
    | (with_reducible exact fun h => ⟨h, rfl⟩)
    | (intro _)
    | split
    | (with_reducible apply Kept.after (Kept.parts _ ?_ ?_ ?_ ?_ ?_ ?_ ?_))

theorem State.joinAlone_kept (s : State) : Kept s (State.joinAlone s) := by
  unfold State.joinAlone
  repeat' first
    | (with_reducible exact Kept.refl _)
    | (extract_lets +onlyGivenNames x; clear_value x; revert x; intro _)
    | (with_reducible apply Kept.after (State.setClaim_kept _ _ _ _))
    | (with_reducible apply Kept.ite)
    | (with_reducible rfl)
    | (with_reducible exact fun h => h)
    | (with_reducible exact fun h => ⟨h, rfl⟩)
    | (intro _)
    | split
    | (with_reducible apply Kept.after (Kept.parts _ ?_ ?_ ?_ ?_ ?_ ?_ ?_))

theorem State.join_kept (s : State) : Kept s (State.join s) := by
  unfold State.join
  repeat' first
    | (with_reducible exact Kept.refl _)
    | (extract_lets +onlyGivenNames x; clear_value x; revert x; intro _)
    | (with_reducible apply Kept.after (State.startTimer_kept _ _))
    | (with_reducible rfl)
    | (with_reducible exact fun h => h)
    | (with_reducible exact fun h => ⟨h, rfl⟩)
    | (with_reducible apply Kept.after (Kept.parts _ ?_ ?_ ?_ ?_ ?_ ?_ ?_))

theorem State.sendPair_kept (s : State) (op : Nat) (args pay : Nat) : Kept s (State.sendPair s op args pay) := by
  unfold State.sendPair
  repeat' first
    | (with_reducible exact Kept.refl _)
    | (with_reducible assumption)
    | (extract_lets +onlyGivenNames x; have e : TyOf x = State := (by with_reducible rfl); clear e; with_reducible apply Kept.use x; (on_goal 1 => dsimp -zeta only [x]; clear x); (on_goal 2 => intro h; clear_value x; revert x; intro _ _))
    | (extract_lets +onlyGivenNames x; clear_value x; revert x; intro _)
    | (with_reducible apply Kept.after (State.enqueue_kept _ _ _ _ _ _))
    | (with_reducible apply Kept.ite)
    | (with_reducible rfl)
    | (with_reducible exact fun h => h)
    | (with_reducible exact fun h => ⟨h, rfl⟩)
    | (intro _)
    | (with_reducible apply Kept.after (Kept.parts _ ?_ ?_ ?_ ?_ ?_ ?_ ?_))

theorem State.engineCaps_kept (s : State) : Kept s (State.engineCaps s) := by
  unfold State.engineCaps
  repeat' first
    | (with_reducible exact Kept.refl _)
    | (extract_lets +onlyGivenNames x; clear_value x; revert x; intro _)
    | (with_reducible apply Kept.after (State.setCaps_kept _ _ _))

theorem State.pitCaps_kept (s : State) : Kept s (State.pitCaps s) := by
  unfold State.pitCaps
  repeat' first
    | (with_reducible exact Kept.refl _)
    | (with_reducible apply Kept.after (State.setCaps_kept _ _ _))

theorem State.applyRetire_kept (s : State) (w : JWrite) : Kept s (State.applyRetire s w) := by
  unfold State.applyRetire
  extract_lets gone engine
  have h : ∀ (s : State) (i col : Nat), Kept s (engine s i col) := fun s i col =>
    ((State.emit_kept _ _ _ _ _ _).trans (State.engineCaps_kept _)).trans (State.pulse_kept _ _)
  clear_value engine
  cases w with
  | row i => exact h _ _ _
  | col i => exact h _ _ _
  | fence n => exact State.fenceCap_kept _
  | cluster i => exact State.pitCaps_kept _
  | _ => exact Kept.refl s

theorem State.retire_kept (s : State) (w : JWrite) : Kept s (State.retire s w) := by
  unfold State.retire
  repeat' first
    | (with_reducible exact Kept.refl _)
    | (extract_lets +onlyGivenNames x; clear_value x; revert x; intro _)
    | (with_reducible apply Kept.after (State.applyRetire_kept _ _))
    | (with_reducible apply Kept.ite)
    | (with_reducible rfl)
    | (with_reducible exact fun h => h)
    | (with_reducible exact fun h => ⟨h, rfl⟩)
    | (intro _)
    | (with_reducible apply Kept.after (Kept.parts _ ?_ ?_ ?_ ?_ ?_ ?_ ?_))

theorem State.retireAll_kept (s : State) : Kept s (State.retireAll s) := by
  unfold State.retireAll
  repeat' first
    | (with_reducible exact Kept.refl _)
    | (extract_lets +onlyGivenNames x; clear_value x; revert x; intro _)
    | (with_reducible apply Kept.after (State.applyRetire_kept _ _))
    | (with_reducible apply Kept.after (State.each_kept ?_ _ _))
    | (with_reducible rfl)
    | (with_reducible exact fun h => h)
    | (with_reducible exact fun h => ⟨h, rfl⟩)
    | (intro _)
    | (with_reducible apply Kept.after (Kept.parts _ ?_ ?_ ?_ ?_ ?_ ?_ ?_))

theorem State.retireRow_kept (s : State) (i : Nat) : Kept s (State.retireRow s i) := by
  unfold State.retireRow
  repeat' first
    | (with_reducible exact Kept.refl _)
    | (with_reducible assumption)
    | (extract_lets +onlyGivenNames x; have e : TyOf x = State := (by with_reducible rfl); clear e; with_reducible apply Kept.use x; (on_goal 1 => dsimp -zeta only [x]; clear x); (on_goal 2 => intro h; clear_value x; revert x; intro _ _))
    | (with_reducible apply Kept.after (State.journal_kept _ _))
    | (with_reducible apply Kept.after (State.putBit_kept _ _ _ _))
    | (with_reducible apply Kept.after (State.retire_kept _ _))
    | (with_reducible apply Kept.after (State.setF_kept _ _ _))
    | (with_reducible apply Kept.ite)
    | (intro _)

theorem State.retireCol_kept (s : State) (i : Nat) : Kept s (State.retireCol s i) := by
  unfold State.retireCol
  repeat' first
    | (with_reducible exact Kept.refl _)
    | (with_reducible assumption)
    | (extract_lets +onlyGivenNames x; have e : TyOf x = State := (by with_reducible rfl); clear e; with_reducible apply Kept.use x; (on_goal 1 => dsimp -zeta only [x]; clear x); (on_goal 2 => intro h; clear_value x; revert x; intro _ _))
    | (with_reducible apply Kept.after (State.journal_kept _ _))
    | (with_reducible apply Kept.after (State.putBit_kept _ _ _ _))
    | (with_reducible apply Kept.after (State.retire_kept _ _))
    | (with_reducible apply Kept.after (State.setF_kept _ _ _))
    | (with_reducible apply Kept.ite)
    | (intro _)

theorem State.engineBad_kept (s : State) (row col : Nat) : Kept s (State.engineBad s row col) := by
  unfold State.engineBad
  repeat' first
    | (with_reducible exact Kept.refl _)
    | (with_reducible assumption)
    | (extract_lets +onlyGivenNames x; have e : TyOf x = State := (by with_reducible rfl); clear e; with_reducible apply Kept.use x; (on_goal 1 => dsimp -zeta only [x]; clear x); (on_goal 2 => intro h; clear_value x; revert x; intro _ _))
    | (with_reducible apply Kept.after (State.retireCol_kept _ _))
    | (with_reducible apply Kept.after (State.retireRow_kept _ _))
    | (with_reducible apply Kept.after (State.setReplace_kept _ _))
    | (with_reducible apply Kept.ite)
    | (intro _)

theorem State.copyMemories_kept (s : State) (c mref : Nat) : Kept s (State.copyMemories s c mref) := by
  unfold State.copyMemories
  repeat' first
    | (with_reducible exact Kept.refl _)
    | (with_reducible assumption)
    | (extract_lets +onlyGivenNames x; have e : TyOf x = State := (by with_reducible rfl); clear e; with_reducible apply Kept.use x; (on_goal 1 => dsimp -zeta only [x]; clear x); (on_goal 2 => intro h; clear_value x; revert x; intro _ _))
    | (extract_lets +onlyGivenNames x; clear_value x; revert x; intro _)
    | (with_reducible apply Kept.after (State.drew_kept _))
    | (with_reducible apply Kept.after (State.raiseFor_kept _ _ _ _ _ _ _))
    | (with_reducible apply Kept.after (State.setCluster_kept _ _ _))
    | (with_reducible apply Kept.ite)
    | (intro _)

theorem State.takeOver_kept (s : State) (c mref : Nat) : Kept s (State.takeOver s c mref) := by
  unfold State.takeOver
  repeat' first
    | (with_reducible exact Kept.refl _)
    | (with_reducible assumption)
    | (extract_lets +onlyGivenNames x; have e : TyOf x = State := (by with_reducible rfl); clear e; with_reducible apply Kept.use x; (on_goal 1 => dsimp -zeta only [x]; clear x); (on_goal 2 => intro h; clear_value x; revert x; intro _ _))
    | (extract_lets +onlyGivenNames x; clear_value x; revert x; intro _)
    | (with_reducible apply Kept.after (State.copyMemories_kept _ _ _))
    | (with_reducible apply Kept.after (State.emit_kept _ _ _ _ _ _))
    | (with_reducible apply Kept.after (State.pulse_kept _ _))
    | (with_reducible apply Kept.after (State.retire_kept _ _))
    | (with_reducible apply Kept.after (State.setCluster_kept _ _ _))
    | (with_reducible apply Kept.after (State.setF_kept _ _ _))
    | (with_reducible apply Kept.after (State.setReplace_kept _ _))
    | (with_reducible apply Kept.ite)
    | (intro _)
    | split

theorem State.clusterBad_kept (s : State) (phys : Nat) : Kept s (State.clusterBad s phys) := by
  unfold State.clusterBad
  repeat' first
    | (with_reducible exact Kept.refl _)
    | (with_reducible assumption)
    | (extract_lets +onlyGivenNames x; have e : TyOf x = State := (by with_reducible rfl); clear e; with_reducible apply Kept.use x; (on_goal 1 => dsimp -zeta only [x]; clear x); (on_goal 2 => intro h; clear_value x; revert x; intro _ _))
    | (extract_lets +onlyGivenNames x; clear_value x; revert x; intro _)
    | (with_reducible apply Kept.after (State.journal_kept _ _))
    | (with_reducible apply Kept.after (State.retire_kept _ _))
    | (with_reducible apply Kept.after (State.setCluster_kept _ _ _))
    | (with_reducible apply Kept.after (State.takeOver_kept _ _ _))
    | (with_reducible apply Kept.ite)
    | (with_reducible rfl)
    | (with_reducible exact fun h => h)
    | (with_reducible exact fun h => ⟨h, rfl⟩)
    | (intro _)
    | split
    | (with_reducible apply Kept.after (Kept.parts _ ?_ ?_ ?_ ?_ ?_ ?_ ?_))

theorem State.withdraw_kept (s : State) : Kept s (State.withdraw s) := by
  unfold State.withdraw
  repeat' first
    | (with_reducible exact Kept.refl _)
    | (with_reducible assumption)
    | (extract_lets +onlyGivenNames x; have e : TyOf x = State := (by with_reducible rfl); clear e; with_reducible apply Kept.use x; (on_goal 1 => dsimp -zeta only [x]; clear x); (on_goal 2 => intro h; clear_value x; revert x; intro _ _))
    | (extract_lets +onlyGivenNames x; clear_value x; revert x; intro _)
    | (with_reducible apply Kept.after (State.setClaim_kept _ _ _ _))
    | (with_reducible apply Kept.after (State.setF_kept _ _ _))
    | (with_reducible rfl)
    | (with_reducible exact fun h => h)
    | (with_reducible exact fun h => ⟨h, rfl⟩)
    | (with_reducible apply Kept.after (Kept.parts _ ?_ ?_ ?_ ?_ ?_ ?_ ?_))

/-! ## CueOps -/

theorem State.cmpNote_kept (s : State) (u : Nat) : Kept s (State.cmpNote s u) := by
  unfold State.cmpNote
  repeat' first
    | (with_reducible exact Kept.refl _)
    | (extract_lets +onlyGivenNames x; clear_value x; revert x; intro _)
    | (with_reducible apply Kept.ite)
    | (with_reducible rfl)
    | (with_reducible exact fun h => h)
    | (with_reducible exact fun h => ⟨h, rfl⟩)
    | (intro _)
    | (with_reducible apply Kept.after (Kept.parts _ ?_ ?_ ?_ ?_ ?_ ?_ ?_))

theorem State.cmpNoteAll_kept (s : State) : Kept s (State.cmpNoteAll s) := by
  unfold State.cmpNoteAll
  repeat' first
    | (with_reducible exact Kept.refl _)
    | (with_reducible apply Kept.after (State.cmpNote_kept _ _))
    | (with_reducible apply Kept.after (State.each_kept ?_ _ _))
    | (intro _)

theorem State.cmpArm_kept (s : State) (u : Nat) : Kept s (State.cmpArm s u) := by
  unfold State.cmpArm
  repeat' first
    | (with_reducible exact Kept.refl _)
    | (with_reducible apply Kept.after (State.cmpNote_kept _ _))
    | (with_reducible apply Kept.after (State.setF_kept _ _ _))

theorem State.blankLine_kept (s : State) (a : Nat) (v : OutVect) (code : Byte) : Kept s (State.blankLine s a v code) := by
  unfold State.blankLine
  repeat' first
    | (with_reducible exact Kept.refl _)
    | (with_reducible apply Kept.after (State.agentWrite_kept _ _ _ _ _))
    | (with_reducible apply Kept.ite)
    | (intro _)

theorem State.blankWritten_kept (s : State) (v : OutVect) : Kept s (State.blankWritten s v) := by
  unfold State.blankWritten
  repeat' first
    | (with_reducible exact Kept.refl _)
    | (extract_lets +onlyGivenNames x; clear_value x; revert x; intro _)
    | (with_reducible apply Kept.after (State.blankLine_kept _ _ _ _))
    | (with_reducible apply Kept.ite)
    | (intro _)
    | split

theorem State.blankHeld_kept (s : State) : Kept s (State.blankHeld s) := by
  unfold State.blankHeld
  repeat' first
    | (with_reducible exact Kept.refl _)
    | (with_reducible assumption)
    | (extract_lets +onlyGivenNames x; have e : TyOf x = State := (by with_reducible rfl); clear e; with_reducible apply Kept.use x; (on_goal 1 => dsimp -zeta only [x]; clear x); (on_goal 2 => intro h; clear_value x; revert x; intro _ _))
    | (extract_lets +onlyGivenNames x; clear_value x; revert x; intro _)
    | (with_reducible apply Kept.after (State.blankWritten_kept _ _))
    | (with_reducible apply Kept.after (State.each_kept ?_ _ _))
    | (with_reducible rfl)
    | (with_reducible exact fun h => h)
    | (with_reducible exact fun h => ⟨h, rfl⟩)
    | (intro _)
    | (with_reducible apply Kept.after (Kept.parts _ ?_ ?_ ?_ ?_ ?_ ?_ ?_))

theorem State.blankMerged_kept (s : State) (m : Blank) (k : Nat) : Kept s (State.blankMerged s m k) := by
  unfold State.blankMerged
  repeat' first
    | (with_reducible exact Kept.refl _)
    | (extract_lets +onlyGivenNames x; clear_value x; revert x; intro _)
    | (with_reducible apply Kept.after (State.drew_kept _))
    | (with_reducible apply Kept.after (State.emitFor_kept _ _ _ _ _ _ _))

theorem State.blankAdd_kept (s : State) (k : Nat) (six : Nat) : Kept s (State.blankAdd s k six) := by
  unfold State.blankAdd
  repeat' first
    | (with_reducible exact Kept.refl _)
    | (extract_lets +onlyGivenNames x; clear_value x; revert x; intro _)
    | (with_reducible apply Kept.after (State.blankMerged_kept _ _ _))
    | (with_reducible apply Kept.ite)
    | (with_reducible rfl)
    | (with_reducible exact fun h => h)
    | (with_reducible exact fun h => ⟨h, rfl⟩)
    | (intro _)
    | split
    | (with_reducible apply Kept.after (Kept.parts _ ?_ ?_ ?_ ?_ ?_ ?_ ?_))

theorem State.blankStart_kept (s : State) (k : Nat) (six : Nat) : Kept s (State.blankStart s k six) := by
  unfold State.blankStart
  repeat' first
    | (with_reducible exact Kept.refl _)
    | (with_reducible apply Kept.after (State.blankAdd_kept _ _ _))
    | (with_reducible apply Kept.after (State.blankHeld_kept _))

theorem State.blankStop_kept (s : State) (k : Nat) (six : Nat) : Kept s (State.blankStop s k six) := by
  unfold State.blankStop
  repeat' first
    | (with_reducible exact Kept.refl _)
    | (extract_lets +onlyGivenNames x; clear_value x; revert x; intro _)
    | (with_reducible rfl)
    | (with_reducible exact fun h => h)
    | (with_reducible exact fun h => ⟨h, rfl⟩)
    | split
    | (with_reducible apply Kept.after (Kept.parts _ ?_ ?_ ?_ ?_ ?_ ?_ ?_))

theorem State.taskTake_kept (s : State) (i stamp : Nat) : Kept s (State.taskTake s i stamp) := by
  unfold State.taskTake
  repeat' first
    | (with_reducible exact Kept.refl _)
    | (with_reducible assumption)
    | (extract_lets +onlyGivenNames x; have e : TyOf x = State := (by with_reducible rfl); clear e; with_reducible apply Kept.use x; (on_goal 1 => dsimp -zeta only [x]; clear x); (on_goal 2 => intro h; clear_value x; revert x; intro _ _))
    | (extract_lets +onlyGivenNames x; clear_value x; revert x; intro _)
    | (with_reducible apply Kept.after (State.blankStart_kept _ _ _))
    | (with_reducible apply Kept.after (State.blankStop_kept _ _ _))
    | (with_reducible apply Kept.after (State.condDwell_kept _ _ _))
    | (with_reducible apply Kept.ite)
    | (with_reducible rfl)
    | (with_reducible exact fun h => h)
    | (with_reducible exact fun h => ⟨h, rfl⟩)
    | (intro _)
    | (with_reducible apply Kept.after (Kept.parts _ ?_ ?_ ?_ ?_ ?_ ?_ ?_))

theorem State.cueSnap_kept (s : State) (k stamp : Nat) : Kept s (State.cueSnap s k stamp) := by
  unfold State.cueSnap
  repeat' first
    | (with_reducible exact Kept.refl _)
    | (with_reducible assumption)
    | (extract_lets +onlyGivenNames x; have e : TyOf x = State := (by with_reducible rfl); clear e; with_reducible apply Kept.use x; (on_goal 1 => dsimp -zeta only [x]; clear x); (on_goal 2 => intro h; clear_value x; revert x; intro _ _))
    | (extract_lets +onlyGivenNames x; clear_value x; revert x; intro _)
    | (with_reducible apply Kept.after (State.setF_kept _ _ _))

theorem State.taskAct_kept (s : State) (i c stamp : Nat) : Kept s (State.taskAct s i c stamp) := by
  unfold State.taskAct
  repeat' first
    | (with_reducible exact Kept.refl _)
    | (extract_lets +onlyGivenNames x; clear_value x; revert x; intro _)
    | (with_reducible apply Kept.after (State.cmpArm_kept _ _))
    | (with_reducible apply Kept.after (State.cueSnap_kept _ _ _))
    | (with_reducible apply Kept.after (State.emit_kept _ _ _ _ _ _))
    | (with_reducible apply Kept.after (State.proposeEarliest_kept _))
    | (with_reducible apply Kept.after (State.raise_kept _ _ _ _ _))
    | (with_reducible apply Kept.after (State.setCluster_kept _ _ _))
    | (with_reducible apply Kept.after (State.each_kept ?_ _ _))
    | (with_reducible apply Kept.ite)
    | (intro _)

theorem State.ovrBit_kept (s : State) (i : Nat) : Kept s (State.ovrBit s i) := by
  unfold State.ovrBit
  repeat' first
    | (with_reducible exact Kept.refl _)
    | (with_reducible apply Kept.after (State.putBit_kept _ _ _ _))
    | (with_reducible apply Kept.ite)
    | (intro _)

theorem State.coincBit_kept (s : State) (i : Nat) : Kept s (State.coincBit s i) := by
  unfold State.coincBit
  repeat' first
    | (with_reducible exact Kept.refl _)
    | (with_reducible apply Kept.after (State.putBit_kept _ _ _ _))
    | (with_reducible apply Kept.ite)
    | (intro _)

theorem State.taskOvr_kept (s : State) (i stamp : Nat) : Kept s (State.taskOvr s i stamp) := by
  unfold State.taskOvr
  repeat' first
    | (with_reducible exact Kept.refl _)
    | (with_reducible assumption)
    | (extract_lets +onlyGivenNames x; have e : TyOf x = State := (by with_reducible rfl); clear e; with_reducible apply Kept.use x; (on_goal 1 => dsimp -zeta only [x]; clear x); (on_goal 2 => intro h; clear_value x; revert x; intro _ _))
    | (extract_lets +onlyGivenNames x; clear_value x; revert x; intro _)
    | (with_reducible apply Kept.after (State.emit_kept _ _ _ _ _ _))
    | (with_reducible apply Kept.after (State.ovrBit_kept _ _))
    | (with_reducible apply Kept.after (State.pulse_kept _ _))
    | (with_reducible apply Kept.ite)
    | (with_reducible rfl)
    | (with_reducible exact fun h => h)
    | (with_reducible exact fun h => ⟨h, rfl⟩)
    | (intro _)
    | (with_reducible apply Kept.after (Kept.parts _ ?_ ?_ ?_ ?_ ?_ ?_ ?_))

theorem State.taskRise_kept (s : State) (i c cyc stamp : Nat) : Kept s (State.taskRise s i c cyc stamp) := by
  unfold State.taskRise
  repeat' first
    | (with_reducible exact Kept.refl _)
    | (with_reducible assumption)
    | (extract_lets +onlyGivenNames x; have e : TyOf x = State := (by with_reducible rfl); clear e; with_reducible apply Kept.use x; (on_goal 1 => dsimp -zeta only [x]; clear x); (on_goal 2 => intro h; clear_value x; revert x; intro _ _))
    | (extract_lets +onlyGivenNames x; clear_value x; revert x; intro _)
    | (with_reducible apply Kept.after (State.coincBit_kept _ _))
    | (with_reducible apply Kept.after (State.taskAct_kept _ _ _ _))
    | (with_reducible apply Kept.after (State.taskOvr_kept _ _ _))
    | (with_reducible apply Kept.ite)
    | (with_reducible rfl)
    | (with_reducible exact fun h => h)
    | (with_reducible exact fun h => ⟨h, rfl⟩)
    | (intro _)
    | split
    | (with_reducible apply Kept.after (Kept.parts _ ?_ ?_ ?_ ?_ ?_ ?_ ?_))

theorem State.cueTasks_kept (s : State) (c : Nat) (lev : Bool) (cyc stamp : Nat) : Kept s (State.cueTasks s c lev cyc stamp) := by
  unfold State.cueTasks
  repeat' first
    | (with_reducible exact Kept.refl _)
    | (extract_lets +onlyGivenNames x; clear_value x; revert x; intro _)
    | (with_reducible apply Kept.after (State.addF_kept _ _ _))
    | (with_reducible apply Kept.after (State.taskRise_kept _ _ _ _ _))
    | (with_reducible apply Kept.after (State.taskTake_kept _ _ _))
    | (with_reducible apply Kept.after (State.each_kept ?_ _ _))
    | (with_reducible apply Kept.ite)
    | (intro _)

theorem State.setFilt_kept (s : State) (f : Nat) (x : Filt) : Kept s (State.setFilt s f x) := by
  unfold State.setFilt
  repeat' first
    | (with_reducible exact Kept.refl _)
    | (extract_lets +onlyGivenNames x; clear_value x; revert x; intro _)
    | (with_reducible rfl)
    | (with_reducible exact fun h => h)
    | (with_reducible exact fun h => ⟨h, rfl⟩)
    | (with_reducible apply Kept.after (Kept.parts _ ?_ ?_ ?_ ?_ ?_ ?_ ?_))

theorem State.filtDrive_kept (s : State) (f : Nat) (lev : Bool) (cyc stamp : Nat) (mask : BitVec 64) (origin : Nat) : Kept s (State.filtDrive s f lev cyc stamp mask origin) := by
  unfold State.filtDrive
  repeat' first
    | (with_reducible exact Kept.refl _)
    | (extract_lets +onlyGivenNames x; clear_value x; revert x; intro _)
    | (with_reducible apply Kept.after (State.driveEdge_kept _ _ _ _ _ _ _))
    | (with_reducible apply Kept.after (State.setFilt_kept _ _ _))
    | (with_reducible apply Kept.ite)
    | (intro _)

theorem State.filtDetect_kept (s : State) (f code : Nat) : Kept s (State.filtDetect s f code) := by
  unfold State.filtDetect
  repeat' first
    | (with_reducible exact Kept.refl _)
    | (with_reducible assumption)
    | (extract_lets +onlyGivenNames x; have e : TyOf x = State := (by with_reducible rfl); clear e; with_reducible apply Kept.use x; (on_goal 1 => dsimp -zeta only [x]; clear x); (on_goal 2 => intro h; clear_value x; revert x; intro _ _))
    | (extract_lets +onlyGivenNames x; clear_value x; revert x; intro _)
    | (with_reducible apply Kept.after (State.emit_kept _ _ _ _ _ _))
    | (with_reducible apply Kept.after (State.filtDrive_kept _ _ _ _ _ _ _))
    | (with_reducible apply Kept.after (State.pulse_kept _ _))
    | (with_reducible apply Kept.after (State.putBit_kept _ _ _ _))
    | (with_reducible apply Kept.after (State.setFilt_kept _ _ _))
    | (with_reducible apply Kept.ite)
    | (intro _)

theorem State.filtPass_kept (s : State) (f cyc : Nat) : Kept s (State.filtPass s f cyc) := by
  unfold State.filtPass
  repeat' first
    | (with_reducible exact Kept.refl _)
    | (with_reducible assumption)
    | (extract_lets +onlyGivenNames x; have e : TyOf x = State := (by with_reducible rfl); clear e; with_reducible apply Kept.use x; (on_goal 1 => dsimp -zeta only [x]; clear x); (on_goal 2 => intro h; clear_value x; revert x; intro _ _))
    | (extract_lets +onlyGivenNames x; clear_value x; revert x; intro _)
    | (with_reducible apply Kept.after (State.filtDetect_kept _ _ _))
    | (with_reducible apply Kept.after (State.filtDrive_kept _ _ _ _ _ _ _))
    | (with_reducible apply Kept.after (State.setFilt_kept _ _ _))
    | (with_reducible apply Kept.ite)
    | (intro _)

theorem State.filtInput_kept (s : State) (f : Nat) (lev : Bool) (cyc stamp : Nat) (mask : BitVec 64) (origin : Nat) : Kept s (State.filtInput s f lev cyc stamp mask origin) := by
  unfold State.filtInput
  repeat' first
    | (with_reducible exact Kept.refl _)
    | (with_reducible assumption)
    | (extract_lets +onlyGivenNames x; have e : TyOf x = State := (by with_reducible rfl); clear e; with_reducible apply Kept.use x; (on_goal 1 => dsimp -zeta only [x]; clear x); (on_goal 2 => intro h; clear_value x; revert x; intro _ _))
    | (extract_lets +onlyGivenNames x; clear_value x; revert x; intro _)
    | (with_reducible apply Kept.after (State.filtPass_kept _ _ _))
    | (with_reducible apply Kept.after (State.setFilt_kept _ _ _))
    | (with_reducible apply Kept.ite)
    | (intro _)

theorem State.filtRestart_kept (s : State) (f : Nat) : Kept s (State.filtRestart s f) := by
  unfold State.filtRestart
  repeat' first
    | (with_reducible exact Kept.refl _)
    | (with_reducible assumption)
    | (extract_lets +onlyGivenNames x; have e : TyOf x = State := (by with_reducible rfl); clear e; with_reducible apply Kept.use x; (on_goal 1 => dsimp -zeta only [x]; clear x); (on_goal 2 => intro h; clear_value x; revert x; intro _ _))
    | (extract_lets +onlyGivenNames x; clear_value x; revert x; intro _)
    | (with_reducible apply Kept.after (State.filtDrive_kept _ _ _ _ _ _ _))
    | (with_reducible apply Kept.after (State.putBit_kept _ _ _ _))
    | (with_reducible apply Kept.after (State.setFilt_kept _ _ _))

theorem State.cellEval_kept (s : State) (k cyc stamp : Nat) (mask : BitVec 64) (origin : Nat) : Kept s (State.cellEval s k cyc stamp mask origin) := by
  unfold State.cellEval
  repeat' first
    | (with_reducible exact Kept.refl _)
    | (extract_lets +onlyGivenNames x; clear_value x; revert x; intro _)
    | (with_reducible apply Kept.after (State.filtInput_kept _ _ _ _ _ _ _))
    | (with_reducible rfl)
    | (with_reducible exact fun h => h)
    | (with_reducible exact fun h => ⟨h, rfl⟩)
    | (dsimp -zeta only)
    | (with_reducible apply Kept.after (Kept.parts _ ?_ ?_ ?_ ?_ ?_ ?_ ?_))

theorem State.setChan_kept (s : State) (c : Nat) (x : Chan) : Kept s (State.setChan s c x) := by
  unfold State.setChan
  repeat' first
    | (with_reducible exact Kept.refl _)
    | (extract_lets +onlyGivenNames x; clear_value x; revert x; intro _)
    | (with_reducible rfl)
    | (with_reducible exact fun h => h)
    | (with_reducible exact fun h => ⟨h, rfl⟩)
    | (with_reducible apply Kept.after (Kept.parts _ ?_ ?_ ?_ ?_ ?_ ?_ ?_))

theorem State.cueDeliver_kept (s : State) (c : Nat) (lev : Bool) (cyc stamp : Nat) : Kept s (State.cueDeliver s c lev cyc stamp) := by
  unfold State.cueDeliver
  repeat' first
    | (with_reducible exact Kept.refl _)
    | (with_reducible assumption)
    | (extract_lets +onlyGivenNames x; have e : TyOf x = State := (by with_reducible rfl); clear e; with_reducible apply Kept.use x; (on_goal 1 => dsimp -zeta only [x]; clear x); (on_goal 2 => intro h; clear_value x; revert x; intro _ _))
    | (extract_lets +onlyGivenNames x; clear_value x; revert x; intro _)
    | (with_reducible apply Kept.after (State.cellEval_kept _ _ _ _ _ _))
    | (with_reducible apply Kept.after (State.cueTasks_kept _ _ _ _ _))
    | (with_reducible apply Kept.after (State.each_kept ?_ _ _))
    | (intro _)

theorem State.loopDisable_kept (s : State) (c cyc stamp : Nat) : Kept s (State.loopDisable s c cyc stamp) := by
  unfold State.loopDisable
  repeat' first
    | (with_reducible exact Kept.refl _)
    | (with_reducible assumption)
    | (extract_lets +onlyGivenNames x; have e : TyOf x = State := (by with_reducible rfl); clear e; with_reducible apply Kept.use x; (on_goal 1 => dsimp -zeta only [x]; clear x); (on_goal 2 => intro h; clear_value x; revert x; intro _ _))
    | (extract_lets +onlyGivenNames x; clear_value x; revert x; intro _)
    | (with_reducible apply Kept.after (State.cueDeliver_kept _ _ _ _ _))
    | (with_reducible apply Kept.after (State.emit_kept _ _ _ _ _ _))
    | (with_reducible apply Kept.after (State.pulse_kept _ _))
    | (with_reducible apply Kept.after (State.putBit_kept _ _ _ _))
    | (with_reducible apply Kept.ite)
    | (intro _)

theorem State.putLevel_kept (s : State) (c : Nat) (lev : Bool) : Kept s (State.putLevel s c lev) := by
  unfold State.putLevel
  repeat' first
    | (with_reducible exact Kept.refl _)
    | (extract_lets +onlyGivenNames x; clear_value x; revert x; intro _)
    | (with_reducible rfl)
    | (with_reducible exact fun h => h)
    | (with_reducible exact fun h => ⟨h, rfl⟩)
    | split
    | (with_reducible apply Kept.after (Kept.parts _ ?_ ?_ ?_ ?_ ?_ ?_ ?_))

theorem State.edgeArrives_kept (s : State) (e : Edge) : Kept s (State.edgeArrives s e) := by
  unfold State.edgeArrives
  repeat' first
    | (with_reducible exact Kept.refl _)
    | (with_reducible assumption)
    | (extract_lets +onlyGivenNames x; have e : TyOf x = State := (by with_reducible rfl); clear e; with_reducible apply Kept.use x; (on_goal 1 => dsimp -zeta only [x]; clear x); (on_goal 2 => intro h; clear_value x; revert x; intro _ _))
    | (extract_lets +onlyGivenNames x; clear_value x; revert x; intro _)
    | (with_reducible apply Kept.after (State.cueDeliver_kept _ _ _ _ _))
    | (with_reducible apply Kept.after (State.loopDisable_kept _ _ _ _))
    | (with_reducible apply Kept.after (State.putLevel_kept _ _ _))
    | (with_reducible apply Kept.after (State.runCycles_kept _ _))
    | (with_reducible apply Kept.after (State.setChan_kept _ _ _))
    | (with_reducible apply Kept.ite)
    | (intro _)

theorem State.chanEnable_kept (s : State) (c : Nat) : Kept s (State.chanEnable s c) := by
  unfold State.chanEnable
  repeat' first
    | (with_reducible exact Kept.refl _)
    | (with_reducible assumption)
    | (extract_lets +onlyGivenNames x; have e : TyOf x = State := (by with_reducible rfl); clear e; with_reducible apply Kept.use x; (on_goal 1 => dsimp -zeta only [x]; clear x); (on_goal 2 => intro h; clear_value x; revert x; intro _ _))
    | (extract_lets +onlyGivenNames x; clear_value x; revert x; intro _)
    | (with_reducible apply Kept.after (State.cueDeliver_kept _ _ _ _ _))
    | (with_reducible apply Kept.after (State.putBit_kept _ _ _ _))
    | (with_reducible apply Kept.after (State.setChan_kept _ _ _))
    | (with_reducible apply Kept.ite)
    | (intro _)

theorem State.cueRewire_kept (s : State) (old new : Image) : Kept s (State.cueRewire s old new) := by
  unfold State.cueRewire
  repeat' first
    | (with_reducible exact Kept.refl _)
    | (with_reducible assumption)
    | (extract_lets +onlyGivenNames x; have e : TyOf x = State := (by with_reducible rfl); clear e; with_reducible apply Kept.use x; (on_goal 1 => dsimp -zeta only [x]; clear x); (on_goal 2 => intro h; clear_value x; revert x; intro _ _))
    | (extract_lets +onlyGivenNames x; clear_value x; revert x; intro _)
    | (with_reducible apply Kept.after (State.cellEval_kept _ _ _ _ _ _))
    | (with_reducible apply Kept.after (State.chanEnable_kept _ _))
    | (with_reducible apply Kept.after (State.filtRestart_kept _ _))
    | (with_reducible apply Kept.after (State.pushEdge_kept _ _ _ _ _ _ _))
    | (with_reducible apply Kept.after (State.taskTake_kept _ _ _))
    | (with_reducible apply Kept.after (State.each_kept ?_ _ _))
    | (intro _)

/-! ## LaneOps -/

theorem State.setLane_kept (s : State) (p l : Nat) (x : Lane) : Kept s (State.setLane s p l x) := by
  unfold State.setLane
  repeat' first
    | (with_reducible exact Kept.refl _)
    | (extract_lets +onlyGivenNames x; clear_value x; revert x; intro _)
    | (with_reducible rfl)
    | (with_reducible exact fun h => h)
    | (with_reducible exact fun h => ⟨h, rfl⟩)
    | (with_reducible apply Kept.after (Kept.parts _ ?_ ?_ ?_ ?_ ?_ ?_ ?_))

theorem State.fabPortMoves_kept (s : State) (f old new : Nat) : Kept s (State.fabPortMoves s f old new) := by
  unfold State.fabPortMoves
  repeat' first
    | (with_reducible exact Kept.refl _)
    | (with_reducible assumption)
    | (extract_lets +onlyGivenNames x; have e : TyOf x = State := (by with_reducible rfl); clear e; with_reducible apply Kept.use x; (on_goal 1 => dsimp -zeta only [x]; clear x); (on_goal 2 => intro h; clear_value x; revert x; intro _ _))
    | (extract_lets +onlyGivenNames x; clear_value x; revert x; intro _)
    | (with_reducible apply Kept.after (State.egqLevel_kept _ _))
    | (with_reducible apply Kept.after (State.release_kept _ _ _))
    | (with_reducible apply Kept.after (State.setF_kept _ _ _))
    | (with_reducible apply Kept.after (State.each_kept ?_ _ _))
    | (with_reducible apply Kept.ite)
    | (with_reducible rfl)
    | (with_reducible exact fun h => h)
    | (with_reducible exact fun h => ⟨h, rfl⟩)
    | (intro _)
    | (with_reducible apply Kept.after (Kept.parts _ ?_ ?_ ?_ ?_ ?_ ?_ ?_))

theorem State.portEvent_kept (s : State) (p old new : Nat) : Kept s (State.portEvent s p old new) := by
  unfold State.portEvent
  repeat' first
    | (with_reducible exact Kept.refl _)
    | (extract_lets +onlyGivenNames x; clear_value x; revert x; intro _)
    | (with_reducible apply Kept.after (State.emit_kept _ _ _ _ _ _))
    | (with_reducible apply Kept.after (State.emitFor_kept _ _ _ _ _ _ _))
    | (with_reducible apply Kept.ite)
    | (intro _)

theorem State.setPortState_kept (s : State) (p new : Nat) : Kept s (State.setPortState s p new) := by
  unfold State.setPortState
  repeat' first
    | (with_reducible exact Kept.refl _)
    | (with_reducible assumption)
    | (extract_lets +onlyGivenNames x; have e : TyOf x = State := (by with_reducible rfl); clear e; with_reducible apply Kept.use x; (on_goal 1 => dsimp -zeta only [x]; clear x); (on_goal 2 => intro h; clear_value x; revert x; intro _ _))
    | (extract_lets +onlyGivenNames x; clear_value x; revert x; intro _)
    | (with_reducible apply Kept.after (State.clearLane_kept _))
    | (with_reducible apply Kept.after (State.condFor_kept _ _ _ _))
    | (with_reducible apply Kept.after (State.drive_kept _ _ _))
    | (with_reducible apply Kept.after (State.fabPortMoves_kept _ _ _ _))
    | (with_reducible apply Kept.after (State.portEvent_kept _ _ _ _))
    | (with_reducible apply Kept.after (State.setF_kept _ _ _))
    | (with_reducible apply Kept.after (State.setPort_kept _ _ _))
    | (with_reducible apply Kept.after (State.startTimer_kept _ _))
    | (with_reducible apply Kept.ite)
    | (intro _)

theorem State.portRefresh_kept (s : State) (p : Nat) : Kept s (State.portRefresh s p) := by
  unfold State.portRefresh
  repeat' first
    | (with_reducible exact Kept.refl _)
    | (with_reducible assumption)
    | (extract_lets +onlyGivenNames x; have e : TyOf x = State := (by with_reducible rfl); clear e; with_reducible apply Kept.use x; (on_goal 1 => dsimp -zeta only [x]; clear x); (on_goal 2 => intro h; clear_value x; revert x; intro _ _))
    | (extract_lets +onlyGivenNames x; clear_value x; revert x; intro _)
    | (with_reducible apply Kept.after (State.hckLinks_kept _))
    | (with_reducible apply Kept.after (State.setF_kept _ _ _))
    | (with_reducible apply Kept.after (State.setPortState_kept _ _ _))
    | (with_reducible apply Kept.ite)
    | (with_reducible rfl)
    | (with_reducible exact fun h => h)
    | (with_reducible exact fun h => ⟨h, rfl⟩)
    | (intro _)
    | (with_reducible apply Kept.after (Kept.parts _ ?_ ?_ ?_ ?_ ?_ ?_ ?_))

theorem State.portModeChanged_kept (s : State) (p : Nat) : Kept s (State.portModeChanged s p) := by
  unfold State.portModeChanged
  repeat' first
    | (with_reducible exact Kept.refl _)
    | (with_reducible assumption)
    | (extract_lets +onlyGivenNames x; have e : TyOf x = State := (by with_reducible rfl); clear e; with_reducible apply Kept.use x; (on_goal 1 => dsimp -zeta only [x]; clear x); (on_goal 2 => intro h; clear_value x; revert x; intro _ _))
    | (extract_lets +onlyGivenNames x; clear_value x; revert x; intro _)
    | (with_reducible apply Kept.after (State.hckLinks_kept _))
    | (with_reducible apply Kept.after (State.setF_kept _ _ _))
    | (with_reducible apply Kept.after (State.setPortState_kept _ _ _))
    | (with_reducible apply Kept.ite)
    | (with_reducible rfl)
    | (with_reducible exact fun h => h)
    | (with_reducible exact fun h => ⟨h, rfl⟩)
    | (intro _)
    | (with_reducible apply Kept.after (Kept.parts _ ?_ ?_ ?_ ?_ ?_ ?_ ?_))

theorem State.lockEvent_kept (s : State) (p l : Nat) (locked : Bool) (cause : Nat) : Kept s (State.lockEvent s p l locked cause) := by
  unfold State.lockEvent
  repeat' first
    | (with_reducible exact Kept.refl _)
    | (with_reducible apply Kept.after (State.emitFor_kept _ _ _ _ _ _ _))
    | (with_reducible apply Kept.ite)
    | (intro _)

theorem State.laneLocked_kept (s : State) (p l cause : Nat) : Kept s (State.laneLocked s p l cause) := by
  unfold State.laneLocked
  repeat' first
    | (with_reducible exact Kept.refl _)
    | (with_reducible apply Kept.after (State.hckLinks_kept _))
    | (with_reducible apply Kept.after (State.lockEvent_kept _ _ _ _ _))
    | (with_reducible apply Kept.after (State.putBit_kept _ _ _ _))
    | (with_reducible apply Kept.after (State.startTimer_kept _ _))
    | (with_reducible apply Kept.ite)
    | (intro _)

theorem State.lmapLoss_kept (s : State) (p l : Nat) : Kept s (State.lmapLoss s p l) := by
  unfold State.lmapLoss
  repeat' first
    | (with_reducible exact Kept.refl _)
    | (with_reducible assumption)
    | (extract_lets +onlyGivenNames x; have e : TyOf x = State := (by with_reducible rfl); clear e; with_reducible apply Kept.use x; (on_goal 1 => dsimp -zeta only [x]; clear x); (on_goal 2 => intro h; clear_value x; revert x; intro _ _))
    | (extract_lets +onlyGivenNames x; clear_value x; revert x; intro _)
    | (with_reducible apply Kept.after (State.putBit_kept _ _ _ _))
    | (with_reducible apply Kept.after (State.setPort_kept _ _ _))
    | (with_reducible apply Kept.after (State.setPortState_kept _ _ _))
    | (with_reducible apply Kept.after (State.startTimer_kept _ _))
    | (with_reducible apply Kept.ite)
    | (intro _)

theorem State.laneLost_kept (s : State) (p l cause : Nat) : Kept s (State.laneLost s p l cause) := by
  unfold State.laneLost
  repeat' first
    | (with_reducible exact Kept.refl _)
    | (with_reducible assumption)
    | (extract_lets +onlyGivenNames x; have e : TyOf x = State := (by with_reducible rfl); clear e; with_reducible apply Kept.use x; (on_goal 1 => dsimp -zeta only [x]; clear x); (on_goal 2 => intro h; clear_value x; revert x; intro _ _))
    | (with_reducible apply Kept.after (State.hckLinks_kept _))
    | (with_reducible apply Kept.after (State.lmapLoss_kept _ _ _))
    | (with_reducible apply Kept.after (State.lockEvent_kept _ _ _ _ _))
    | (with_reducible apply Kept.after (State.putBit_kept _ _ _ _))
    | (with_reducible apply Kept.after (State.setLane_kept _ _ _ _))
    | (with_reducible apply Kept.ite)
    | (intro _)

theorem State.applyLmap_kept (s : State) (p m : Nat) : Kept s (State.applyLmap s p m) := by
  unfold State.applyLmap
  repeat' first
    | (with_reducible exact Kept.refl _)
    | (with_reducible assumption)
    | (extract_lets +onlyGivenNames x; have e : TyOf x = State := (by with_reducible rfl); clear e; with_reducible apply Kept.use x; (on_goal 1 => dsimp -zeta only [x]; clear x); (on_goal 2 => intro h; clear_value x; revert x; intro _ _))
    | (extract_lets +onlyGivenNames x; clear_value x; revert x; intro _)
    | (with_reducible apply Kept.after (State.emitFor_kept _ _ _ _ _ _ _))
    | (with_reducible apply Kept.after (State.setF_kept _ _ _))
    | (with_reducible apply Kept.after (State.setPort_kept _ _ _))
    | (with_reducible apply Kept.after (State.setPortState_kept _ _ _))
    | (with_reducible apply Kept.ite)
    | (intro _)

theorem State.fecBad_kept (s : State) (p l : Nat) : Kept s (State.fecBad s p l) := by
  unfold State.fecBad
  repeat' first
    | (with_reducible exact Kept.refl _)
    | (with_reducible assumption)
    | (extract_lets +onlyGivenNames x; have e : TyOf x = State := (by with_reducible rfl); clear e; with_reducible apply Kept.use x; (on_goal 1 => dsimp -zeta only [x]; clear x); (on_goal 2 => intro h; clear_value x; revert x; intro _ _))
    | (extract_lets +onlyGivenNames x; clear_value x; revert x; intro _)
    | (with_reducible apply Kept.after (State.incF_kept _ _ _))
    | (with_reducible apply Kept.after (State.laneLost_kept _ _ _ _))
    | (with_reducible apply Kept.after (State.setLane_kept _ _ _ _))
    | (with_reducible apply Kept.after (State.setPort_kept _ _ _))
    | (with_reducible apply Kept.after (State.startTimer_kept _ _))
    | (with_reducible apply Kept.ite)
    | (intro _)

theorem State.joinStream_kept (s : State) (p l cw ofs : Nat) (bytes : BitVec 5120) : Kept s (State.joinStream s p l cw ofs bytes) := by
  unfold State.joinStream
  repeat' first
    | (with_reducible exact Kept.refl _)
    | (extract_lets +onlyGivenNames x; clear_value x; revert x; intro _)
    | (with_reducible apply Kept.after (State.setPort_kept _ _ _))
    | split

theorem State.fecGood_kept (s : State) (p l k : Nat) (msg : BitVec 5140) : Kept s (State.fecGood s p l k msg) := by
  unfold State.fecGood
  repeat' first
    | (with_reducible exact Kept.refl _)
    | (with_reducible assumption)
    | (extract_lets +onlyGivenNames x; have e : TyOf x = State := (by with_reducible rfl); clear e; with_reducible apply Kept.use x; (on_goal 1 => dsimp -zeta only [x]; clear x); (on_goal 2 => intro h; clear_value x; revert x; intro _ _))
    | (extract_lets +onlyGivenNames x; clear_value x; revert x; intro _)
    | (with_reducible apply Kept.after (State.incF_kept _ _ _))
    | (with_reducible apply Kept.after (State.joinStream_kept _ _ _ _ _ _))
    | (with_reducible apply Kept.after (State.setLane_kept _ _ _ _))
    | (with_reducible apply Kept.ite)
    | (intro _)

theorem State.commaTaken_kept (s : State) (p l w : Nat) : Kept s (State.commaTaken s p l w) := by
  unfold State.commaTaken
  repeat' first
    | (with_reducible exact Kept.refl _)
    | (with_reducible assumption)
    | (extract_lets +onlyGivenNames x; have e : TyOf x = State := (by with_reducible rfl); clear e; with_reducible apply Kept.use x; (on_goal 1 => dsimp -zeta only [x]; clear x); (on_goal 2 => intro h; clear_value x; revert x; intro _ _))
    | (extract_lets +onlyGivenNames x; clear_value x; revert x; intro _)
    | (with_reducible apply Kept.after (State.applyLmap_kept _ _ _))
    | (with_reducible apply Kept.after (State.laneLocked_kept _ _ _ _))
    | (with_reducible apply Kept.after (State.setF_kept _ _ _))
    | (with_reducible apply Kept.after (State.setFlag_kept _ _ _))
    | (with_reducible apply Kept.after (State.setLane_kept _ _ _ _))
    | (with_reducible apply Kept.after (State.setPort_kept _ _ _))
    | (with_reducible apply Kept.ite)
    | (intro _)

theorem State.commaBad_kept (s : State) (p l : Nat) : Kept s (State.commaBad s p l) := by
  unfold State.commaBad
  repeat' first
    | (with_reducible exact Kept.refl _)
    | (with_reducible assumption)
    | (extract_lets +onlyGivenNames x; have e : TyOf x = State := (by with_reducible rfl); clear e; with_reducible apply Kept.use x; (on_goal 1 => dsimp -zeta only [x]; clear x); (on_goal 2 => intro h; clear_value x; revert x; intro _ _))
    | (extract_lets +onlyGivenNames x; clear_value x; revert x; intro _)
    | (with_reducible apply Kept.after (State.laneLost_kept _ _ _ _))
    | (with_reducible apply Kept.after (State.setLane_kept _ _ _ _))
    | (with_reducible apply Kept.ite)
    | (intro _)

theorem State.adapt_kept (s : State) (p l : Nat) : Kept s (State.adapt s p l) := by
  unfold State.adapt
  repeat' first
    | (with_reducible exact Kept.refl _)
    | (with_reducible assumption)
    | (extract_lets +onlyGivenNames x; have e : TyOf x = State := (by with_reducible rfl); clear e; with_reducible apply Kept.use x; (on_goal 1 => dsimp -zeta only [x]; clear x); (on_goal 2 => intro h; clear_value x; revert x; intro _ _))
    | (extract_lets +onlyGivenNames x; clear_value x; revert x; intro _)
    | (with_reducible apply Kept.after (State.drew_kept _))
    | (with_reducible apply Kept.after (State.setF_kept _ _ _))
    | (with_reducible apply Kept.ite)
    | (intro _)

theorem State.adaptNow_kept (s : State) (p l : Nat) : Kept s (State.adaptNow s p l) := by
  unfold State.adaptNow
  repeat' first
    | (with_reducible exact Kept.refl _)
    | (with_reducible apply Kept.after (State.adapt_kept _ _ _))
    | (with_reducible apply Kept.after (State.drew_kept _))
    | (with_reducible apply Kept.after (State.setF_kept _ _ _))
    | (with_reducible apply Kept.ite)
    | (intro _)

/-! ## Duet -/

theorem State.hbSend_kept (s : State) : Kept s (State.hbSend s) := by
  unfold State.hbSend
  repeat' first
    | (with_reducible exact Kept.refl _)
    | (with_reducible assumption)
    | (extract_lets +onlyGivenNames x; have e : TyOf x = State := (by with_reducible rfl); clear e; with_reducible apply Kept.use x; (on_goal 1 => dsimp -zeta only [x]; clear x); (on_goal 2 => intro h; clear_value x; revert x; intro _ _))
    | (extract_lets +onlyGivenNames x; clear_value x; revert x; intro _)
    | (with_reducible apply Kept.after (State.sendPair_kept _ _ _ _))
    | (with_reducible apply Kept.after (State.startTimer_kept _ _))
    | (with_reducible apply Kept.ite)
    | (with_reducible rfl)
    | (with_reducible exact fun h => h)
    | (with_reducible exact fun h => ⟨h, rfl⟩)
    | (intro _)
    | (with_reducible apply Kept.after (Kept.parts _ ?_ ?_ ?_ ?_ ?_ ?_ ?_))

theorem State.takePair_kept (s : State) (fecBad : Bool) (h : BitVec 256) (op : Nat) : Kept s (State.takePair s fecBad h op).1 := by
  unfold State.takePair
  repeat' first
    | (with_reducible exact Kept.refl _)
    | (with_reducible assumption)
    | (extract_lets +onlyGivenNames x; obtain ⟨_, e⟩ : ∃ α, TyOf x = (State × α) := (by with_reducible exact ⟨_, rfl⟩); clear e; with_reducible apply Kept.use x.1; (on_goal 1 => dsimp -zeta only [x]; clear x); (on_goal 2 => intro h; clear_value x; revert x; intro _ _))
    | (extract_lets +onlyGivenNames x; clear_value x; revert x; intro _)
    | (with_reducible apply Kept.after (State.fabTake_kept _ _ _ _ _ _))
    | (with_reducible apply Kept.after (State.release_kept _ _ _))
    | (with_reducible apply Kept.ite)
    | (intro _)
    | split

theorem State.hbTag_kept (s : State) (n : Int) (tag : Nat) : Kept s (State.hbTag s n tag) := by
  unfold State.hbTag
  repeat' first
    | (with_reducible exact Kept.refl _)
    | (extract_lets +onlyGivenNames x; clear_value x; revert x; intro _)
    | (with_reducible apply Kept.after (State.emit_kept _ _ _ _ _ _))
    | (with_reducible apply Kept.ite)
    | (with_reducible rfl)
    | (with_reducible exact fun h => h)
    | (with_reducible exact fun h => ⟨h, rfl⟩)
    | (intro _)
    | (with_reducible apply Kept.after (Kept.parts _ ?_ ?_ ?_ ?_ ?_ ?_ ?_))

theorem State.hbRoles_kept (s : State) (n : Int) (tag : Nat) (gone : Bool) : Kept s (State.hbRoles s n tag gone) := by
  unfold State.hbRoles
  repeat' first
    | (with_reducible exact Kept.refl _)
    | (extract_lets +onlyGivenNames x; clear_value x; revert x; intro _)
    | (with_reducible apply Kept.after (State.claimTo_kept _ _ _ _))
    | (with_reducible apply Kept.ite)
    | (with_reducible rfl)
    | (with_reducible exact fun h => h)
    | (with_reducible exact fun h => ⟨h, rfl⟩)
    | (intro _)
    | split
    | (with_reducible apply Kept.after (Kept.parts _ ?_ ?_ ?_ ?_ ?_ ?_ ?_))

theorem State.hbSwap_kept (s : State) (pay : Nat) : Kept s (State.hbSwap s pay) := by
  unfold State.hbSwap
  repeat' first
    | (with_reducible exact Kept.refl _)
    | (with_reducible assumption)
    | (extract_lets +onlyGivenNames x; have e : TyOf x = State := (by with_reducible rfl); clear e; with_reducible apply Kept.use x; (on_goal 1 => dsimp -zeta only [x]; clear x); (on_goal 2 => intro h; clear_value x; revert x; intro _ _))
    | (extract_lets +onlyGivenNames x; clear_value x; revert x; intro _)
    | (with_reducible apply Kept.after (State.setF_kept _ _ _))
    | (with_reducible apply Kept.after (State.swapEnd_kept _))
    | (with_reducible apply Kept.ite)
    | (with_reducible rfl)
    | (with_reducible exact fun h => h)
    | (with_reducible exact fun h => ⟨h, rfl⟩)
    | (intro _)
    | (with_reducible apply Kept.after (Kept.parts _ ?_ ?_ ?_ ?_ ?_ ?_ ?_))

theorem State.hbTaken_kept (s : State) (header payload : BitVec 256) : Kept s (State.hbTaken s header payload) := by
  unfold State.hbTaken
  repeat' first
    | (with_reducible exact Kept.refl _)
    | (with_reducible assumption)
    | (extract_lets +onlyGivenNames x; have e : TyOf x = State := (by with_reducible rfl); clear e; with_reducible apply Kept.use x; (on_goal 1 => dsimp -zeta only [x]; clear x); (on_goal 2 => intro h; clear_value x; revert x; intro _ _))
    | (extract_lets +onlyGivenNames x; clear_value x; revert x; intro _)
    | (with_reducible apply Kept.after (State.emit_kept _ _ _ _ _ _))
    | (with_reducible apply Kept.after (State.hbRoles_kept _ _ _ _))
    | (with_reducible apply Kept.after (State.hbSwap_kept _ _))
    | (with_reducible apply Kept.after (State.hbTag_kept _ _ _))
    | (with_reducible apply Kept.after (State.setF_kept _ _ _))
    | (with_reducible apply Kept.after (State.setFlag_kept _ _ _))
    | (with_reducible apply Kept.after (State.showAccepted_kept _))
    | (with_reducible apply Kept.after (State.startTimer_kept _ _))
    | (with_reducible apply Kept.ite)
    | (intro _)

theorem State.partnerGone_kept (s : State) : Kept s (State.partnerGone s) := by
  unfold State.partnerGone
  repeat' first
    | (with_reducible exact Kept.refl _)
    | (with_reducible assumption)
    | (extract_lets +onlyGivenNames x; have e : TyOf x = State := (by with_reducible rfl); clear e; with_reducible apply Kept.use x; (on_goal 1 => dsimp -zeta only [x]; clear x); (on_goal 2 => intro h; clear_value x; revert x; intro _ _))
    | (extract_lets +onlyGivenNames x; clear_value x; revert x; intro _)
    | (with_reducible apply Kept.after (State.claimTo_kept _ _ _ _))
    | (with_reducible apply Kept.after (State.emit_kept _ _ _ _ _ _))
    | (with_reducible apply Kept.after (State.incF_kept _ _ _))
    | (with_reducible apply Kept.after (State.setF_kept _ _ _))
    | (with_reducible apply Kept.ite)
    | (intro _)

theorem State.swapDue_kept (s : State) : Kept s (State.swapDue s) := by
  unfold State.swapDue
  repeat' first
    | (with_reducible exact Kept.refl _)
    | (with_reducible apply Kept.after (State.lapse_kept _ _ _))
    | (with_reducible apply Kept.ite)
    | (intro _)

theorem State.joinEnds_kept (s : State) : Kept s (State.joinEnds s) := by
  unfold State.joinEnds
  repeat' first
    | (with_reducible exact Kept.refl _)
    | (extract_lets +onlyGivenNames x; clear_value x; revert x; intro _)
    | (with_reducible rfl)
    | (with_reducible exact fun h => h)
    | (with_reducible exact fun h => ⟨h, rfl⟩)
    | (with_reducible apply Kept.after (Kept.parts _ ?_ ?_ ?_ ?_ ?_ ?_ ?_))

theorem State.digestCompare_kept (s : State) (n : Int) : Kept s (State.digestCompare s n) := by
  unfold State.digestCompare
  repeat' first
    | (with_reducible exact Kept.refl _)
    | (with_reducible assumption)
    | (extract_lets +onlyGivenNames x; have e : TyOf x = State := (by with_reducible rfl); clear e; with_reducible apply Kept.use x; (on_goal 1 => dsimp -zeta only [x]; clear x); (on_goal 2 => intro h; clear_value x; revert x; intro _ _))
    | (extract_lets +onlyGivenNames x; clear_value x; revert x; intro _)
    | (with_reducible apply Kept.after (State.emit_kept _ _ _ _ _ _))
    | (with_reducible apply Kept.after (State.incF_kept _ _ _))
    | (with_reducible apply Kept.after (State.raiseFor_kept _ _ _ _ _ _ _))
    | (with_reducible apply Kept.after (State.stopTimer_kept _ _))
    | (with_reducible apply Kept.ite)
    | (with_reducible rfl)
    | (with_reducible exact fun h => h)
    | (with_reducible exact fun h => ⟨h, rfl⟩)
    | (intro _)
    | split
    | (with_reducible apply Kept.after (Kept.parts _ ?_ ?_ ?_ ?_ ?_ ?_ ?_))

theorem State.digestOut_kept (s : State) (dwell : Int) : Kept s (State.digestOut s dwell) := by
  unfold State.digestOut
  repeat' first
    | (with_reducible exact Kept.refl _)
    | (with_reducible assumption)
    | (extract_lets +onlyGivenNames x; have e : TyOf x = State := (by with_reducible rfl); clear e; with_reducible apply Kept.use x; (on_goal 1 => dsimp -zeta only [x]; clear x); (on_goal 2 => intro h; clear_value x; revert x; intro _ _))
    | (extract_lets +onlyGivenNames x; clear_value x; revert x; intro _)
    | (with_reducible apply Kept.after (State.digestCompare_kept _ _))
    | (with_reducible apply Kept.after (State.drew_kept _))
    | (with_reducible apply Kept.after (State.sendPair_kept _ _ _ _))
    | (with_reducible apply Kept.after (State.startTimer_kept _ _))
    | (with_reducible rfl)
    | (with_reducible exact fun h => h)
    | (with_reducible exact fun h => ⟨h, rfl⟩)
    | (with_reducible apply Kept.after (Kept.parts _ ?_ ?_ ?_ ?_ ?_ ?_ ?_))

theorem State.digestTaken_kept (s : State) (header payload : BitVec 256) : Kept s (State.digestTaken s header payload) := by
  unfold State.digestTaken
  repeat' first
    | (with_reducible exact Kept.refl _)
    | (extract_lets +onlyGivenNames x; clear_value x; revert x; intro _)
    | (with_reducible apply Kept.after (State.digestCompare_kept _ _))
    | (with_reducible rfl)
    | (with_reducible exact fun h => h)
    | (with_reducible exact fun h => ⟨h, rfl⟩)
    | (with_reducible apply Kept.after (Kept.parts _ ?_ ?_ ?_ ?_ ?_ ?_ ?_))

theorem State.jApply_kept (s : State) (w : JWrite) : Kept s (State.jApply s w) := by
  unfold State.jApply
  repeat' first
    | (with_reducible exact Kept.refl _)
    | (with_reducible assumption)
    | (extract_lets +onlyGivenNames x; have e : TyOf x = State := (by with_reducible rfl); clear e; with_reducible apply Kept.use x; (on_goal 1 => dsimp -zeta only [x]; clear x); (on_goal 2 => intro h; clear_value x; revert x; intro _ _))
    | (extract_lets +onlyGivenNames x; clear_value x; revert x; intro _)
    | (with_reducible apply Kept.after (State.emit_kept _ _ _ _ _ _))
    | (with_reducible apply Kept.after (State.finish_kept _ _ _ _))
    | (with_reducible apply Kept.after (State.setClaim_kept _ _ _ _))
    | (with_reducible apply Kept.after (State.setF_kept _ _ _))
    | (with_reducible apply Kept.after (State.setFlag_kept _ _ _))
    | (with_reducible apply Kept.ite)
    | (with_reducible rfl)
    | (with_reducible exact fun h => h)
    | (with_reducible exact fun h => ⟨h, rfl⟩)
    | (intro _)
    | split
    | (with_reducible apply Kept.after (Kept.parts _ ?_ ?_ ?_ ?_ ?_ ?_ ?_))

/-! ## Fault -/

theorem State.railFault_kept (s : State) (src code : Nat) (found : Bool) : Kept s (State.railFault s src code found) := by
  unfold State.railFault
  repeat' first
    | (with_reducible exact Kept.refl _)
    | (with_reducible assumption)
    | (extract_lets +onlyGivenNames x; have e : TyOf x = State := (by with_reducible rfl); clear e; with_reducible apply Kept.use x; (on_goal 1 => dsimp -zeta only [x]; clear x); (on_goal 2 => intro h; clear_value x; revert x; intro _ _))
    | (with_reducible apply Kept.after (State.post_kept _ _))
    | (with_reducible apply Kept.after (State.putBit_kept _ _ _ _))

theorem State.ackReact_kept (s : State) (src : Nat) : Kept s (State.ackReact s src) := by
  unfold State.ackReact
  repeat' first
    | (with_reducible exact Kept.refl _)
    | (extract_lets +onlyGivenNames x; clear_value x; revert x; intro _)
    | (with_reducible apply Kept.after (State.resume_kept _))
    | (with_reducible apply Kept.ite)
    | (with_reducible rfl)
    | (with_reducible exact fun h => h)
    | (with_reducible exact fun h => ⟨h, rfl⟩)
    | (intro _)
    | split
    | (with_reducible apply Kept.after (Kept.parts _ ?_ ?_ ?_ ?_ ?_ ?_ ?_))

theorem State.ackLate_kept (s : State) (src : Nat) : Kept s (State.ackLate s src) := by
  unfold State.ackLate
  repeat' first
    | (with_reducible exact Kept.refl _)
    | (with_reducible apply Kept.after (State.raiseFor_kept _ _ _ _ _ _ _))

theorem State.enterService_kept (s : State) (cause : Nat) (rails : List (Nat × Nat)) : Kept s (State.enterService s cause rails) := by
  unfold State.enterService
  repeat' first
    | (with_reducible exact Kept.refl _)
    | (with_reducible assumption)
    | (extract_lets +onlyGivenNames x; have e : TyOf x = State := (by with_reducible rfl); clear e; with_reducible apply Kept.use x; (on_goal 1 => dsimp -zeta only [x]; clear x); (on_goal 2 => intro h; clear_value x; revert x; intro _ _))
    | (extract_lets +onlyGivenNames x; clear_value x; revert x; intro _)
    | (with_reducible apply Kept.after (State.emit_kept _ _ _ _ _ _))
    | (with_reducible apply Kept.after (State.latch_kept _ _ _ _ _))
    | (with_reducible apply Kept.after (State.railFault_kept _ _ _ _))
    | (with_reducible apply Kept.after (State.setF_kept _ _ _))
    | (with_reducible apply Kept.after (State.each_kept ?_ _ _))
    | (with_reducible rfl)
    | (with_reducible exact fun h => h)
    | (with_reducible exact fun h => ⟨h, rfl⟩)
    | (intro _)
    | (with_reducible apply Kept.after (Kept.parts _ ?_ ?_ ?_ ?_ ?_ ?_ ?_))

theorem State.leaveService_kept (s : State) (cause : Nat) : Kept s (State.leaveService s cause) := by
  unfold State.leaveService
  repeat' first
    | (with_reducible exact Kept.refl _)
    | (with_reducible apply Kept.after (State.emit_kept _ _ _ _ _ _))
    | (with_reducible apply Kept.after (State.setF_kept _ _ _))
    | (with_reducible apply Kept.ite)
    | (intro _)

theorem State.restartPit_kept (s : State) (mref : Nat) : Kept s (State.restartPit s mref) := by
  unfold State.restartPit
  repeat' first
    | (with_reducible exact Kept.refl _)
    | (with_reducible apply Kept.after (State.setCluster_kept _ _ _))
    | (with_reducible apply Kept.after (State.setF_kept _ _ _))
    | (with_reducible apply Kept.after (State.each_kept ?_ _ _))
    | (with_reducible apply Kept.ite)
    | (intro _)

theorem State.ironOver_kept (s : State) : Kept s (State.ironOver s) := by
  unfold State.ironOver
  repeat' first
    | (with_reducible exact Kept.refl _)
    | (with_reducible assumption)
    | (extract_lets +onlyGivenNames x; have e : TyOf x = State := (by with_reducible rfl); clear e; with_reducible apply Kept.use x; (on_goal 1 => dsimp -zeta only [x]; clear x); (on_goal 2 => intro h; clear_value x; revert x; intro _ _))
    | (extract_lets +onlyGivenNames x; clear_value x; revert x; intro _)
    | (with_reducible apply Kept.after (State.abandon_kept _ _ _))
    | (with_reducible apply Kept.after (State.drive_kept _ _ _))
    | (with_reducible apply Kept.after (State.freeSlots_kept _))
    | (with_reducible apply Kept.after (State.join_kept _))
    | (with_reducible apply Kept.after (State.restartPit_kept _ _))
    | (with_reducible apply Kept.after (State.setF_kept _ _ _))
    | (with_reducible apply Kept.after (State.storeWake_kept _))
    | (with_reducible apply Kept.after (State.each_kept ?_ _ _))
    | (with_reducible apply Kept.ite)
    | (with_reducible rfl)
    | (with_reducible exact fun h => h)
    | (with_reducible exact fun h => ⟨h, rfl⟩)
    | (intro _)
    | (with_reducible apply Kept.after (Kept.parts _ ?_ ?_ ?_ ?_ ?_ ?_ ?_))

theorem State.ironExit_kept (s : State) (selfTestOk : Bool) : Kept s (State.ironExit s selfTestOk) := by
  unfold State.ironExit
  repeat' first
    | (with_reducible exact Kept.refl _)
    | (with_reducible assumption)
    | (extract_lets +onlyGivenNames x; have e : TyOf x = State := (by with_reducible rfl); clear e; with_reducible apply Kept.use x; (on_goal 1 => dsimp -zeta only [x]; clear x); (on_goal 2 => intro h; clear_value x; revert x; intro _ _))
    | (extract_lets +onlyGivenNames x; clear_value x; revert x; intro _)
    | (with_reducible apply Kept.after (State.emit_kept _ _ _ _ _ _))
    | (with_reducible apply Kept.after (State.enterService_kept _ _ _))
    | (with_reducible apply Kept.after (State.ironOver_kept _))
    | (with_reducible apply Kept.after (State.leaveService_kept _ _))
    | (with_reducible apply Kept.after (State.setF_kept _ _ _))
    | (with_reducible apply Kept.after (State.whenever_kept ?_ _ _))
    | (with_reducible apply Kept.ite)
    | (intro _)

/-! ## BootOps -/

theorem State.disable_kept (s : State) : Kept s (State.disable s) := by
  unfold State.disable
  repeat' first
    | (with_reducible exact Kept.refl _)
    | (with_reducible assumption)
    | (extract_lets +onlyGivenNames x; have e : TyOf x = State := (by with_reducible rfl); clear e; with_reducible apply Kept.use x; (on_goal 1 => dsimp -zeta only [x]; clear x); (on_goal 2 => intro h; clear_value x; revert x; intro _ _))
    | (extract_lets +onlyGivenNames x; have e : TyOf x = HostU := (by with_reducible rfl); clear e; dsimp -zeta only [x]; clear x)
    | (extract_lets +onlyGivenNames x; clear_value x; revert x; intro _)
    | (with_reducible apply Kept.after (State.setF_kept _ _ _))
    | (with_reducible rfl)
    | (with_reducible exact fun h => h)
    | (with_reducible exact fun h => ⟨h, rfl⟩)
    | (with_reducible apply Kept.after (Kept.parts _ ?_ ?_ ?_ ?_ ?_ ?_ ?_))

theorem State.resetConfig_kept (s : State) : Kept s (State.resetConfig s) := by
  unfold State.resetConfig
  repeat' first
    | (with_reducible exact Kept.refl _)
    | (with_reducible assumption)
    | (extract_lets +onlyGivenNames x; have e : TyOf x = State := (by with_reducible rfl); clear e; with_reducible apply Kept.use x; (on_goal 1 => dsimp -zeta only [x]; clear x); (on_goal 2 => intro h; clear_value x; revert x; intro _ _))
    | (extract_lets +onlyGivenNames x; have e : TyOf x = HostU := (by with_reducible rfl); clear e; dsimp -zeta only [x]; clear x)
    | (with_reducible apply Kept.after (State.disable_kept _))
    | (with_reducible rfl)
    | (with_reducible exact fun h => h)
    | (with_reducible exact fun h => ⟨h, rfl⟩)
    | (with_reducible apply Kept.after (Kept.parts _ ?_ ?_ ?_ ?_ ?_ ?_ ?_))

theorem State.matrixReset_kept (s : State) (m : Master) : Kept s (State.matrixReset s m) := by
  unfold State.matrixReset
  repeat' first
    | (with_reducible exact Kept.refl _)
    | (extract_lets +onlyGivenNames x; clear_value x; revert x; intro _)
    | (with_reducible rfl)
    | (with_reducible exact fun h => h)
    | (with_reducible exact fun h => ⟨h, rfl⟩)
    | (with_reducible apply Kept.after (Kept.parts _ ?_ ?_ ?_ ?_ ?_ ?_ ?_))

theorem State.setCore_kept (s : State) (k v : Nat) : Kept s (State.setCore s k v) := by
  unfold State.setCore
  repeat' first
    | (with_reducible exact Kept.refl _)
    | (with_reducible apply Kept.after (State.setF_kept _ _ _))

theorem State.resetCore_kept (s : State) (k : Nat) : Kept s (State.resetCore s k) := by
  unfold State.resetCore
  repeat' first
    | (with_reducible exact Kept.refl _)
    | (with_reducible apply Kept.after (State.matrixReset_kept _ _))
    | (with_reducible apply Kept.after (State.setCore_kept _ _ _))

theorem State.setArea_kept (s : State) (k area : Nat) : Kept s (State.setArea s k area) := by
  unfold State.setArea
  repeat' first
    | (with_reducible exact Kept.refl _)
    | (with_reducible apply Kept.after (State.putBit_kept _ _ _ _))

theorem State.newNonce_kept (s : State) : Kept s (State.newNonce s) := by
  unfold State.newNonce
  repeat' first
    | (with_reducible exact Kept.refl _)
    | (with_reducible apply Kept.after (State.drew_kept _))
    | (with_reducible apply Kept.after (State.setF_kept _ _ _))
    | (with_reducible apply Kept.after (State.each_kept ?_ _ _))
    | (intro _)

theorem State.usedNonce_kept (s : State) (code : Nat) : Kept s (State.usedNonce s code) := by
  unfold State.usedNonce
  repeat' first
    | (with_reducible exact Kept.refl _)
    | (with_reducible apply Kept.after (State.newNonce_kept _))
    | (with_reducible apply Kept.ite)
    | (intro _)

theorem State.imageAt_kept (s : State) (addr len : Nat) (host : List Byte) : Kept s (State.imageAt s addr len host).1 := by
  unfold State.imageAt
  repeat' first
    | (with_reducible exact Kept.refl _)
    | (with_reducible assumption)
    | (extract_lets +onlyGivenNames x; obtain ⟨_, e⟩ : ∃ α, TyOf x = (State × α) := (by with_reducible exact ⟨_, rfl⟩); clear e; with_reducible apply Kept.use x.1; (on_goal 1 => dsimp -zeta only [x]; clear x); (on_goal 2 => intro h; clear_value x; revert x; intro _ _))
    | (with_reducible apply Kept.after (State.readSpan_kept _ _ _ _))
    | split

theorem State.recordAt_kept (s : State) (addr : Nat) (host : List Byte) : Kept s (State.recordAt s addr host).1 := by
  unfold State.recordAt
  repeat' first
    | (with_reducible exact Kept.refl _)
    | (with_reducible apply Kept.after (State.imageAt_kept _ _ _ _))
    | split

theorem State.rollForward_kept (s : State) (svn : Nat) (roll : Bool) : Kept s (State.rollForward s svn roll) := by
  unfold State.rollForward
  repeat' first
    | (with_reducible exact Kept.refl _)
    | (with_reducible apply Kept.after (State.journal_kept _ _))
    | (with_reducible apply Kept.ite)
    | (intro _)

theorem State.startBoot_kept (s : State) (kind : Nat) : Kept s (State.startBoot s kind) := by
  unfold State.startBoot
  repeat' first
    | (with_reducible exact Kept.refl _)
    | (with_reducible assumption)
    | (extract_lets +onlyGivenNames x; have e : TyOf x = State := (by with_reducible rfl); clear e; with_reducible apply Kept.use x; (on_goal 1 => dsimp -zeta only [x]; clear x); (on_goal 2 => intro h; clear_value x; revert x; intro _ _))
    | (extract_lets +onlyGivenNames x; clear_value x; revert x; intro _)
    | (with_reducible apply Kept.after (State.newNonce_kept _))
    | (with_reducible apply Kept.after (State.setF_kept _ _ _))
    | (with_reducible apply Kept.ite)
    | (with_reducible rfl)
    | (with_reducible exact fun h => h)
    | (with_reducible exact fun h => ⟨h, rfl⟩)
    | (intro _)
    | (with_reducible apply Kept.after (Kept.parts _ ?_ ?_ ?_ ?_ ?_ ?_ ?_))

theorem State.bootFail_kept (s : State) (code : Nat) : Kept s (State.bootFail s code) := by
  unfold State.bootFail
  repeat' first
    | (with_reducible exact Kept.refl _)
    | (with_reducible assumption)
    | (extract_lets +onlyGivenNames x; have e : TyOf x = State := (by with_reducible rfl); clear e; with_reducible apply Kept.use x; (on_goal 1 => dsimp -zeta only [x]; clear x); (on_goal 2 => intro h; clear_value x; revert x; intro _ _))
    | (extract_lets +onlyGivenNames x; clear_value x; revert x; intro _)
    | (with_reducible apply Kept.after (State.setF_kept _ _ _))
    | (with_reducible apply Kept.ite)
    | (with_reducible rfl)
    | (with_reducible exact fun h => h)
    | (with_reducible exact fun h => ⟨h, rfl⟩)
    | (intro _)
    | (with_reducible apply Kept.after (Kept.parts _ ?_ ?_ ?_ ?_ ?_ ?_ ?_))

theorem State.bootJournal_kept (s : State) : Kept s (State.bootJournal s) := by
  unfold State.bootJournal
  repeat' first
    | (with_reducible exact Kept.refl _)
    | (with_reducible assumption)
    | (extract_lets +onlyGivenNames x; have e : TyOf x = State := (by with_reducible rfl); clear e; with_reducible apply Kept.use x; (on_goal 1 => dsimp -zeta only [x]; clear x); (on_goal 2 => intro h; clear_value x; revert x; intro _ _))
    | (extract_lets +onlyGivenNames x; clear_value x; revert x; intro _)
    | (with_reducible apply Kept.after (State.addF_kept _ _ _))
    | (with_reducible apply Kept.after (State.drive_kept _ _ _))
    | (with_reducible apply Kept.after (State.engineCaps_kept _))
    | (with_reducible apply Kept.after (State.fenceCap_kept _))
    | (with_reducible apply Kept.after (State.pitCaps_kept _))
    | (with_reducible apply Kept.after (State.putBit_kept _ _ _ _))
    | (with_reducible apply Kept.after (State.setF_kept _ _ _))
    | (with_reducible apply Kept.after (State.setFlag_kept _ _ _))
    | (with_reducible apply Kept.after (State.setPch_kept _ _ _))
    | (with_reducible apply Kept.after (State.takeOver_kept _ _ _))
    | (with_reducible apply Kept.after (State.each_kept ?_ _ _))
    | (with_reducible apply Kept.ite)
    | (with_reducible rfl)
    | (with_reducible exact fun h => h)
    | (with_reducible exact fun h => ⟨h, rfl⟩)
    | (intro _)
    | (with_reducible apply Kept.after (Kept.parts _ ?_ ?_ ?_ ?_ ?_ ?_ ?_))

theorem State.wakeUp_kept (s : State) : Kept s (State.wakeUp s) := by
  unfold State.wakeUp
  repeat' first
    | (with_reducible exact Kept.refl _)
    | (with_reducible assumption)
    | (extract_lets +onlyGivenNames x; have e : TyOf x = State := (by with_reducible rfl); clear e; with_reducible apply Kept.use x; (on_goal 1 => dsimp -zeta only [x]; clear x); (on_goal 2 => intro h; clear_value x; revert x; intro _ _))
    | (extract_lets +onlyGivenNames x; clear_value x; revert x; intro _)
    | (with_reducible apply Kept.after (State.cross_kept _ _ _))
    | (with_reducible apply Kept.after (State.emit_kept _ _ _ _ _ _))
    | (with_reducible apply Kept.after (State.pulse_kept _ _))
    | (with_reducible apply Kept.after (State.setF_kept _ _ _))
    | (with_reducible rfl)
    | (with_reducible exact fun h => h)
    | (with_reducible exact fun h => ⟨h, rfl⟩)
    | (with_reducible apply Kept.after (Kept.parts _ ?_ ?_ ?_ ?_ ?_ ?_ ?_))

theorem State.bootDone_kept (s : State) (m : List Byte) : Kept s (State.bootDone s m) := by
  unfold State.bootDone
  repeat' first
    | (with_reducible exact Kept.refl _)
    | (with_reducible assumption)
    | (extract_lets +onlyGivenNames x; have e : TyOf x = State := (by with_reducible rfl); clear e; with_reducible apply Kept.use x; (on_goal 1 => dsimp -zeta only [x]; clear x); (on_goal 2 => intro h; clear_value x; revert x; intro _ _))
    | (extract_lets +onlyGivenNames x; clear_value x; revert x; intro _)
    | (with_reducible apply Kept.after (State.bootJournal_kept _))
    | (with_reducible apply Kept.after (State.emit_kept _ _ _ _ _ _))
    | (with_reducible apply Kept.after (State.enterService_kept _ _ _))
    | (with_reducible apply Kept.after (State.join_kept _))
    | (with_reducible apply Kept.after (State.rollForward_kept _ _ _))
    | (with_reducible apply Kept.after (State.setF_kept _ _ _))
    | (with_reducible apply Kept.after (State.startTimer_kept _ _))
    | (with_reducible apply Kept.after (State.wakeUp_kept _))
    | (with_reducible apply Kept.after (State.each_kept ?_ _ _))
    | (with_reducible apply Kept.ite)
    | (with_reducible rfl)
    | (with_reducible exact fun h => h)
    | (with_reducible exact fun h => ⟨h, rfl⟩)
    | (intro _)
    | (with_reducible apply Kept.after (Kept.parts _ ?_ ?_ ?_ ?_ ?_ ?_ ?_))

theorem State.bootImage_kept (s : State) (m : List Byte) : Kept s (State.bootImage s m) := by
  unfold State.bootImage
  repeat' first
    | (with_reducible exact Kept.refl _)
    | (extract_lets +onlyGivenNames x; clear_value x; revert x; intro _)
    | (with_reducible apply Kept.after (State.bootDone_kept _ _))
    | (with_reducible apply Kept.after (State.bootFail_kept _ _))
    | (with_reducible apply Kept.ite)
    | (intro _)

/-! ## Ctl -/

theorem State.pushGo_kept (s : State) : Kept s (State.pushGo s) := by
  unfold State.pushGo
  repeat' first
    | (with_reducible exact Kept.refl _)
    | (with_reducible apply Kept.after (State.setF_kept _ _ _))
    | (with_reducible apply Kept.after (State.whenever_kept ?_ _ _))
    | (intro _)

theorem State.pushDone_kept (s : State) : Kept s (State.pushDone s) := by
  unfold State.pushDone
  repeat' first
    | (with_reducible exact Kept.refl _)
    | (with_reducible assumption)
    | (extract_lets +onlyGivenNames x; have e : TyOf x = State := (by with_reducible rfl); clear e; with_reducible apply Kept.use x; (on_goal 1 => dsimp -zeta only [x]; clear x); (on_goal 2 => intro h; clear_value x; revert x; intro _ _))
    | (extract_lets +onlyGivenNames x; clear_value x; revert x; intro _)
    | (with_reducible apply Kept.after (State.bootImage_kept _ _))
    | (with_reducible apply Kept.after (State.setF_kept _ _ _))
    | (with_reducible apply Kept.ite)
    | (with_reducible rfl)
    | (with_reducible exact fun h => h)
    | (with_reducible exact fun h => ⟨h, rfl⟩)
    | (intro _)
    | (with_reducible apply Kept.after (Kept.parts _ ?_ ?_ ?_ ?_ ?_ ?_ ?_))

theorem State.updateNext_kept (s : State) : Kept s (State.updateNext s) := by
  unfold State.updateNext
  repeat' first
    | (with_reducible exact Kept.refl _)
    | (with_reducible apply Kept.after (State.resetCore_kept _ _))
    | (with_reducible apply Kept.after (State.startTimer_kept _ _))
    | split

theorem State.updateBegin_kept (s : State) (m : List Byte) (area : Nat) : Kept s (State.updateBegin s m area) := by
  unfold State.updateBegin
  repeat' first
    | (with_reducible exact Kept.refl _)
    | (extract_lets +onlyGivenNames x; clear_value x; revert x; intro _)
    | (with_reducible apply Kept.after (State.updateNext_kept _))
    | (with_reducible rfl)
    | (with_reducible exact fun h => h)
    | (with_reducible exact fun h => ⟨h, rfl⟩)
    | (with_reducible apply Kept.after (Kept.parts _ ?_ ?_ ?_ ?_ ?_ ?_ ?_))

theorem State.updateStep_kept (s : State) (k : Nat) (u : Update) : Kept s (State.updateStep s k u) := by
  unfold State.updateStep
  repeat' first
    | (with_reducible exact Kept.refl _)
    | (with_reducible assumption)
    | (extract_lets +onlyGivenNames x; have e : TyOf x = State := (by with_reducible rfl); clear e; with_reducible apply Kept.use x; (on_goal 1 => dsimp -zeta only [x]; clear x); (on_goal 2 => intro h; clear_value x; revert x; intro _ _))
    | (extract_lets +onlyGivenNames x; clear_value x; revert x; intro _)
    | (with_reducible apply Kept.after (State.emit_kept _ _ _ _ _ _))
    | (with_reducible apply Kept.after (State.rollForward_kept _ _ _))
    | (with_reducible apply Kept.after (State.setArea_kept _ _ _))
    | (with_reducible apply Kept.after (State.setF_kept _ _ _))
    | (with_reducible apply Kept.after (State.updateNext_kept _))
    | (with_reducible apply Kept.ite)
    | (with_reducible rfl)
    | (with_reducible exact fun h => h)
    | (with_reducible exact fun h => ⟨h, rfl⟩)
    | (intro _)
    | (with_reducible apply Kept.after (Kept.parts _ ?_ ?_ ?_ ?_ ?_ ?_ ?_))

theorem State.updateBack_kept (s : State) (k : Nat) (u : Update) : Kept s (State.updateBack s k u) := by
  unfold State.updateBack
  repeat' first
    | (with_reducible exact Kept.refl _)
    | (with_reducible assumption)
    | (extract_lets +onlyGivenNames x; have e : TyOf x = State := (by with_reducible rfl); clear e; with_reducible apply Kept.use x; (on_goal 1 => dsimp -zeta only [x]; clear x); (on_goal 2 => intro h; clear_value x; revert x; intro _ _))
    | (extract_lets +onlyGivenNames x; clear_value x; revert x; intro _)
    | (with_reducible apply Kept.after (State.emit_kept _ _ _ _ _ _))
    | (with_reducible apply Kept.after (State.updateNext_kept _))
    | (with_reducible rfl)
    | (with_reducible exact fun h => h)
    | (with_reducible exact fun h => ⟨h, rfl⟩)
    | (with_reducible apply Kept.after (Kept.parts _ ?_ ?_ ?_ ?_ ?_ ?_ ?_))

theorem State.revoke_kept (s : State) (slot : Nat) : Kept s (State.revoke s slot) := by
  unfold State.revoke
  repeat' first
    | (with_reducible exact Kept.refl _)
    | (with_reducible assumption)
    | (extract_lets +onlyGivenNames x; have e : TyOf x = State := (by with_reducible rfl); clear e; with_reducible apply Kept.use x; (on_goal 1 => dsimp -zeta only [x]; clear x); (on_goal 2 => intro h; clear_value x; revert x; intro _ _))
    | (extract_lets +onlyGivenNames x; clear_value x; revert x; intro _)
    | (with_reducible apply Kept.after (State.emit_kept _ _ _ _ _ _))
    | (with_reducible apply Kept.after (State.journal_kept _ _))
    | (with_reducible apply Kept.after (State.setF_kept _ _ _))
    | (with_reducible rfl)
    | (with_reducible exact fun h => h)
    | (with_reducible exact fun h => ⟨h, rfl⟩)
    | (with_reducible apply Kept.after (Kept.parts _ ?_ ?_ ?_ ?_ ?_ ?_ ?_))

theorem State.anchor_kept (s : State) (n : Nat) : Kept s (State.anchor s n) := by
  unfold State.anchor
  repeat' first
    | (with_reducible exact Kept.refl _)
    | (with_reducible assumption)
    | (extract_lets +onlyGivenNames x; have e : TyOf x = State := (by with_reducible rfl); clear e; with_reducible apply Kept.use x; (on_goal 1 => dsimp -zeta only [x]; clear x); (on_goal 2 => intro h; clear_value x; revert x; intro _ _))
    | (extract_lets +onlyGivenNames x; clear_value x; revert x; intro _)
    | (with_reducible apply Kept.after (State.emit_kept _ _ _ _ _ _))
    | (with_reducible apply Kept.after (State.setF_kept _ _ _))
    | (with_reducible rfl)
    | (with_reducible exact fun h => h)
    | (with_reducible exact fun h => ⟨h, rfl⟩)
    | (with_reducible apply Kept.after (Kept.parts _ ?_ ?_ ?_ ?_ ?_ ?_ ?_))

/-! ## Cue -/

theorem State.filtRelease_kept (s : State) (f : Nat) : Kept s (State.filtRelease s f) := by
  unfold State.filtRelease
  repeat' first
    | (with_reducible exact Kept.refl _)
    | (extract_lets +onlyGivenNames x; clear_value x; revert x; intro _)
    | (with_reducible apply Kept.after (State.filtDrive_kept _ _ _ _ _ _ _))
    | (with_reducible apply Kept.after (State.setFilt_kept _ _ _))
    | (with_reducible apply Kept.ite)
    | (intro _)

theorem State.filtStuck_kept (s : State) (f : Nat) : Kept s (State.filtStuck s f) := by
  unfold State.filtStuck
  repeat' first
    | (with_reducible exact Kept.refl _)
    | (extract_lets +onlyGivenNames x; clear_value x; revert x; intro _)
    | (with_reducible apply Kept.after (State.filtDetect_kept _ _ _))
    | (with_reducible apply Kept.after (State.filtDrive_kept _ _ _ _ _ _ _))
    | (with_reducible apply Kept.after (State.setFilt_kept _ _ _))

theorem State.cueFire_kept (s : State) (c : Nat) (f : State → State) (h : ∀ s, Kept s (f s)) : Kept s (State.cueFire s c f) := by
  unfold State.cueFire
  split
  · exact State.setF_kept _ _ _
  · exact h s

theorem State.softLevel_kept (s : State) (c : Nat) (lev : Bool) : Kept s (State.softLevel s c lev) := by
  unfold State.softLevel
  repeat' first
    | (with_reducible exact Kept.refl _)
    | (with_reducible assumption)
    | (extract_lets +onlyGivenNames x; have e : TyOf x = State := (by with_reducible rfl); clear e; with_reducible apply Kept.use x; (on_goal 1 => dsimp -zeta only [x]; clear x); (on_goal 2 => intro h; clear_value x; revert x; intro _ _))
    | (extract_lets +onlyGivenNames x; clear_value x; revert x; intro _)
    | (with_reducible apply Kept.after (State.pushEdge_kept _ _ _ _ _ _ _))
    | (with_reducible rfl)
    | (with_reducible exact fun h => h)
    | (with_reducible exact fun h => ⟨h, rfl⟩)
    | split
    | (with_reducible apply Kept.after (Kept.parts _ ?_ ?_ ?_ ?_ ?_ ?_ ?_))

theorem State.filtEnable_kept (s : State) (f : Nat) : Kept s (State.filtEnable s f) := by
  unfold State.filtEnable
  repeat' first
    | (with_reducible exact Kept.refl _)
    | (extract_lets +onlyGivenNames x; clear_value x; revert x; intro _)
    | (with_reducible apply Kept.after (State.filtPass_kept _ _ _))
    | (with_reducible apply Kept.after (State.putBit_kept _ _ _ _))
    | (with_reducible apply Kept.after (State.setFilt_kept _ _ _))
    | (with_reducible apply Kept.after (State.whenever_kept ?_ _ _))
    | (intro _)

end Sys2Proof.Machine
end

