-- ==== Sys2Proof/Laws/KeptCommands.lean ====
section
/-!
SUPPORT. `Kept` for the operations of the remaining families of commands.
-/

namespace Sys2Proof.Machine

/-! ## Fabric -/

theorem State.windowPulse_kept (s : State) (six : Nat) : Kept s (State.windowPulse s six) := by
  unfold State.windowPulse
  repeat' first
    | (with_reducible exact Kept.refl _)
    | (with_reducible apply Kept.after (State.pulse_kept _ _))
    | (with_reducible apply Kept.ite)
    | (intro _)

theorem State.claimCheck_kept (s : State) (p src : Nat) (n : Int) (kind : Nat) : Kept s (State.claimCheck s p src n kind).1 := by
  unfold State.claimCheck
  repeat' first
    | (with_reducible exact Kept.refl _)
    | (with_reducible assumption)
    | (extract_lets +onlyGivenNames x; have e : TyOf x = State := (by with_reducible rfl); clear e; with_reducible apply Kept.use x; (on_goal 1 => dsimp -zeta only [x]; clear x); (on_goal 2 => intro h; clear_value x; revert x; intro _ _))
    | (extract_lets +onlyGivenNames x; clear_value x; revert x; intro _)
    | (with_reducible apply Kept.after (State.emit_kept _ _ _ _ _ _))
    | (with_reducible apply Kept.after (State.incF_kept _ _ _))
    | (with_reducible apply Kept.ite)
    | (with_reducible rfl)
    | (with_reducible exact fun h => h)
    | (with_reducible exact fun h => ⟨h, rfl⟩)
    | (intro _)
    | split
    | (with_reducible apply Kept.after (Kept.parts _ ?_ ?_ ?_ ?_ ?_ ?_ ?_))

theorem State.forward_kept (s : State) (p : Nat) (h : BitVec 256) (pay : List Byte) : Kept s (State.forward s p h pay) := by
  unfold State.forward
  repeat' first
    | (with_reducible exact Kept.refl _)
    | (extract_lets +onlyGivenNames x; clear_value x; revert x; intro _)
    | (with_reducible apply Kept.after (State.enqueue_kept _ _ _ _ _ _))
    | (with_reducible apply Kept.after (State.noRoute_kept _ _ _ _))
    | (with_reducible apply Kept.after (State.release_kept _ _ _))
    | (with_reducible apply Kept.ite)
    | (intro _)
    | split

theorem State.fabArrive_kept (s : State) (p : Nat) (fecBad : Bool) (h : BitVec 256) (pay : List Byte) (cls op : Nat) : Kept s (State.fabArrive s p fecBad h pay cls op).1 := by
  unfold State.fabArrive
  repeat' first
    | (with_reducible exact Kept.refl _)
    | (with_reducible apply Kept.after (State.fabTake_kept _ _ _ _ _ _))
    | (with_reducible apply Kept.after (State.forward_kept _ _ _ _))
    | split
    | (with_reducible apply Kept.of_pair (by assumption))

theorem State.inputTaken_kept (s : State) (p : Nat) (h : BitVec 256) (pay : List Byte) : Kept s (State.inputTaken s p h pay) := by
  unfold State.inputTaken
  repeat' first
    | (with_reducible exact Kept.refl _)
    | (extract_lets +onlyGivenNames x; clear_value x; revert x; intro _)
    | (with_reducible apply Kept.after (State.claimCheck_kept _ _ _ _ _))
    | (with_reducible apply Kept.after (State.incF_kept _ _ _))
    | (with_reducible apply Kept.after (State.release_kept _ _ _))
    | (with_reducible apply Kept.after (State.windowPulse_kept _ _))
    | (with_reducible apply Kept.ite)
    | (with_reducible rfl)
    | (with_reducible exact fun h => h)
    | (with_reducible exact fun h => ⟨h, rfl⟩)
    | (intro _)
    | split
    | (with_reducible apply Kept.of_pair (by assumption))
    | (with_reducible apply Kept.after (Kept.parts _ ?_ ?_ ?_ ?_ ?_ ?_ ?_))

theorem State.addSeen_kept (s : State) (k : Nat × Int × Nat × Nat) : Kept s (State.addSeen s k) := by
  unfold State.addSeen
  repeat' first
    | (with_reducible exact Kept.refl _)
    | (extract_lets +onlyGivenNames x; clear_value x; revert x; intro _)
    | (with_reducible rfl)
    | (with_reducible exact fun h => h)
    | (with_reducible exact fun h => ⟨h, rfl⟩)
    | (with_reducible apply Kept.after (Kept.parts _ ?_ ?_ ?_ ?_ ?_ ?_ ?_))

theorem State.addAccept_kept (s : State) (h : BitVec 256) : Kept s (State.addAccept s h).1 := by
  unfold State.addAccept
  repeat' first
    | (with_reducible exact Kept.refl _)
    | (extract_lets +onlyGivenNames x; clear_value x; revert x; intro _)
    | (with_reducible apply Kept.after (State.accept_kept _ _))
    | (with_reducible apply Kept.after (State.recOpen_kept _ _ _))
    | split

theorem State.addLate_kept (s : State) (h : BitVec 256) : Kept s (State.addLate s h) := by
  unfold State.addLate
  repeat' first
    | (with_reducible exact Kept.refl _)
    | (with_reducible apply Kept.after (State.late_kept _ _ _ _))
    | (with_reducible apply Kept.after (State.recLate_kept _ _ _ _))
    | (with_reducible apply Kept.ite)
    | (intro _)

theorem State.addLinesIn_kept (s : State) (h : BitVec 256) (pay : List Byte) : Kept s (State.addLinesIn s h pay) := by
  unfold State.addLinesIn
  repeat' first
    | (with_reducible exact Kept.refl _)
    | (extract_lets +onlyGivenNames x; clear_value x; revert x; intro _)
    | (with_reducible apply Kept.after (State.agentAdd_kept _ _ _ _ _ _))
    | (with_reducible apply Kept.after (State.bankAdd_kept _ _ _ _ _ _ _))
    | (with_reducible apply Kept.after (State.each_kept ?_ _ _))
    | (with_reducible apply Kept.ite)
    | (intro _)

theorem State.markIn_kept (s : State) (m : EndMark) : Kept s (State.markIn s m) := by
  unfold State.markIn
  repeat' first
    | (with_reducible exact Kept.refl _)
    | (with_reducible assumption)
    | (extract_lets +onlyGivenNames x; have e : TyOf x = State := (by with_reducible rfl); clear e; with_reducible apply Kept.use x; (on_goal 1 => dsimp -zeta only [x]; clear x); (on_goal 2 => intro h; clear_value x; revert x; intro _ _))
    | (extract_lets +onlyGivenNames x; clear_value x; revert x; intro _)
    | (with_reducible apply Kept.after (State.flagBank_kept _ _ _))
    | (with_reducible apply Kept.after (State.flagRec_kept _ _ _))
    | (with_reducible apply Kept.after (State.mark_kept _ _ _))
    | (with_reducible apply Kept.after (State.markDwell_kept _ _ _ _))
    | (with_reducible apply Kept.after (State.recLate_kept _ _ _ _))
    | (with_reducible apply Kept.after (State.recMark_kept _ _ _ _ _))
    | (with_reducible apply Kept.after (State.recOpen_kept _ _ _))
    | (with_reducible apply Kept.ite)
    | (intro _)
    | split

theorem State.marksDue_kept (s : State) : Kept s (State.marksDue s) := by
  unfold State.marksDue
  repeat' first
    | (with_reducible exact Kept.refl _)
    | (extract_lets +onlyGivenNames x; clear_value x; revert x; intro _)
    | (with_reducible apply Kept.after (State.markIn_kept _ _))
    | (with_reducible apply Kept.after (State.each_kept ?_ _ _))
    | (with_reducible rfl)
    | (with_reducible exact fun h => h)
    | (with_reducible exact fun h => ⟨h, rfl⟩)
    | (intro _)
    | (with_reducible apply Kept.after (Kept.parts _ ?_ ?_ ?_ ?_ ?_ ?_ ?_))

theorem State.deliverAdd_kept (s : State) (p : Nat) (h : BitVec 256) (pay : List Byte) : Kept s (State.deliverAdd s p h pay) := by
  unfold State.deliverAdd
  repeat' first
    | (with_reducible exact Kept.refl _)
    | (with_reducible assumption)
    | (extract_lets +onlyGivenNames x; have e : TyOf x = State := (by with_reducible rfl); clear e; with_reducible apply Kept.use x; (on_goal 1 => dsimp -zeta only [x]; clear x); (on_goal 2 => intro h; clear_value x; revert x; intro _ _))
    | (extract_lets +onlyGivenNames x; clear_value x; revert x; intro _)
    | (with_reducible apply Kept.after (State.addAccept_kept _ _))
    | (with_reducible apply Kept.after (State.addLate_kept _ _))
    | (with_reducible apply Kept.after (State.addLinesIn_kept _ _ _))
    | (with_reducible apply Kept.after (State.addSeen_kept _ _))
    | (with_reducible apply Kept.after (State.incF_kept _ _ _))
    | (with_reducible apply Kept.after (State.marksDue_kept _))
    | (with_reducible apply Kept.after (State.release_kept _ _ _))
    | (with_reducible apply Kept.ite)
    | (with_reducible rfl)
    | (with_reducible exact fun h => h)
    | (with_reducible exact fun h => ⟨h, rfl⟩)
    | (intro _)
    | split
    | (with_reducible apply Kept.of_pair (by assumption))
    | (with_reducible apply Kept.after (Kept.parts _ ?_ ?_ ?_ ?_ ?_ ?_ ?_))

theorem State.deliverMark_kept (s : State) (p : Nat) (h : BitVec 256) : Kept s (State.deliverMark s p h) := by
  unfold State.deliverMark
  repeat' first
    | (with_reducible exact Kept.refl _)
    | (extract_lets +onlyGivenNames x; clear_value x; revert x; intro _)
    | (with_reducible apply Kept.after (State.addLate_kept _ _))
    | (with_reducible apply Kept.after (State.incF_kept _ _ _))
    | (with_reducible apply Kept.after (State.marksDue_kept _))
    | (with_reducible apply Kept.after (State.release_kept _ _ _))
    | (with_reducible apply Kept.ite)
    | (with_reducible rfl)
    | (with_reducible exact fun h => h)
    | (with_reducible exact fun h => ⟨h, rfl⟩)
    | (intro _)
    | (with_reducible apply Kept.after (Kept.parts _ ?_ ?_ ?_ ?_ ?_ ?_ ?_))

theorem State.retryAdds_kept (s : State) : Kept s (State.retryAdds s) := by
  unfold State.retryAdds
  repeat' first
    | (with_reducible exact Kept.refl _)
    | (extract_lets +onlyGivenNames x; clear_value x; revert x; intro _)
    | (with_reducible apply Kept.after (State.deliverAdd_kept _ _ _ _))
    | (with_reducible apply Kept.after (State.deliverMark_kept _ _ _))
    | (with_reducible apply Kept.after (State.each_kept ?_ _ _))
    | (with_reducible apply Kept.ite)
    | (with_reducible rfl)
    | (with_reducible exact fun h => h)
    | (with_reducible exact fun h => ⟨h, rfl⟩)
    | (intro _)
    | (with_reducible apply Kept.after (Kept.parts _ ?_ ?_ ?_ ?_ ?_ ?_ ?_))

theorem State.peerWrite_kept (s : State) (header : BitVec 256) (payload : List Byte) : Kept s (State.peerWrite s header payload) := by
  unfold State.peerWrite
  repeat' first
    | (with_reducible exact Kept.refl _)
    | (with_reducible assumption)
    | (extract_lets +onlyGivenNames x; have e : TyOf x = State := (by with_reducible rfl); clear e; with_reducible apply Kept.use x; (on_goal 1 => dsimp -zeta only [x]; clear x); (on_goal 2 => intro h; clear_value x; revert x; intro _ _))
    | (extract_lets +onlyGivenNames x; clear_value x; revert x; intro _)
    | (with_reducible apply Kept.after (State.agentWrite_kept _ _ _ _ _))
    | (with_reducible apply Kept.after (State.deny_kept _ _ _))
    | (with_reducible apply Kept.after (State.sendFab_kept _ _ _ _))
    | (with_reducible apply Kept.ite)
    | (intro _)

theorem State.peerFailed_kept (s : State) (m w why : Nat) : Kept s (State.peerFailed s m w why) := by
  unfold State.peerFailed
  repeat' first
    | (with_reducible exact Kept.refl _)
    | (with_reducible assumption)
    | (extract_lets +onlyGivenNames x; have e : TyOf x = State := (by with_reducible rfl); clear e; with_reducible apply Kept.use x; (on_goal 1 => dsimp -zeta only [x]; clear x); (on_goal 2 => intro h; clear_value x; revert x; intro _ _))
    | (extract_lets +onlyGivenNames x; clear_value x; revert x; intro _)
    | (with_reducible apply Kept.after (State.emit_kept _ _ _ _ _ _))
    | (with_reducible apply Kept.after (State.setMover_kept _ _ _))

theorem State.peerDone_kept (s : State) (m w : Nat) : Kept s (State.peerDone s m w) := by
  unfold State.peerDone
  repeat' first
    | (with_reducible exact Kept.refl _)
    | (extract_lets +onlyGivenNames x; clear_value x; revert x; intro _)
    | (with_reducible apply Kept.after (State.setMover_kept _ _ _))
    | (with_reducible apply Kept.after (State.stopTimer_kept _ _))

theorem State.beaconTag_kept (s : State) (src : Nat) (n : Int) (tag : Nat) : Kept s (State.beaconTag s src n tag) := by
  unfold State.beaconTag
  repeat' first
    | (with_reducible exact Kept.refl _)
    | (with_reducible assumption)
    | (extract_lets +onlyGivenNames x; have e : TyOf x = State := (by with_reducible rfl); clear e; with_reducible apply Kept.use x; (on_goal 1 => dsimp -zeta only [x]; clear x); (on_goal 2 => intro h; clear_value x; revert x; intro _ _))
    | (extract_lets +onlyGivenNames x; clear_value x; revert x; intro _)
    | (with_reducible apply Kept.after (State.attn_kept _ _))
    | (with_reducible apply Kept.after (State.emitScript_kept _ _ _ _))
    | (with_reducible apply Kept.after (State.incF_kept _ _ _))
    | (with_reducible apply Kept.after (State.pulse_kept _ _))
    | (with_reducible apply Kept.ite)
    | (with_reducible rfl)
    | (with_reducible exact fun h => h)
    | (with_reducible exact fun h => ⟨h, rfl⟩)
    | (intro _)
    | (with_reducible apply Kept.after (Kept.parts _ ?_ ?_ ?_ ?_ ?_ ?_ ?_))

theorem State.beaconTaken_kept (s : State) (p : Nat) (header : BitVec 256) : Kept s (State.beaconTaken s p header) := by
  unfold State.beaconTaken
  repeat' first
    | (with_reducible exact Kept.refl _)
    | (with_reducible assumption)
    | (extract_lets +onlyGivenNames x; have e : TyOf x = State := (by with_reducible rfl); clear e; with_reducible apply Kept.use x; (on_goal 1 => dsimp -zeta only [x]; clear x); (on_goal 2 => intro h; clear_value x; revert x; intro _ _))
    | (extract_lets +onlyGivenNames x; clear_value x; revert x; intro _)
    | (with_reducible apply Kept.after (State.beaconTag_kept _ _ _ _))
    | (with_reducible apply Kept.after (State.setF_kept _ _ _))
    | (with_reducible rfl)
    | (with_reducible exact fun h => h)
    | (with_reducible exact fun h => ⟨h, rfl⟩)
    | (with_reducible apply Kept.after (Kept.parts _ ?_ ?_ ?_ ?_ ?_ ?_ ?_))

theorem State.setCredit_kept (s : State) (p q v : Nat) : Kept s (State.setCredit s p q v) := by
  unfold State.setCredit
  repeat' first
    | (with_reducible exact Kept.refl _)
    | (extract_lets +onlyGivenNames x; clear_value x; revert x; intro _)
    | (with_reducible rfl)
    | (with_reducible exact fun h => h)
    | (with_reducible exact fun h => ⟨h, rfl⟩)
    | (with_reducible apply Kept.after (Kept.parts _ ?_ ?_ ?_ ?_ ?_ ?_ ?_))

theorem State.packetOut_kept (s : State) (p q : Nat) (e : Nat × Nat × BitVec 256 × List Byte) : Kept s (State.packetOut s p q e) := by
  unfold State.packetOut
  repeat' first
    | (with_reducible exact Kept.refl _)
    | (with_reducible assumption)
    | (extract_lets +onlyGivenNames x; have e : TyOf x = State := (by with_reducible rfl); clear e; with_reducible apply Kept.use x; (on_goal 1 => dsimp -zeta only [x]; clear x); (on_goal 2 => intro h; clear_value x; revert x; intro _ _))
    | (extract_lets +onlyGivenNames x; clear_value x; revert x; intro _)
    | (with_reducible apply Kept.after (State.addF_kept _ _ _))
    | (with_reducible apply Kept.after (State.egqLevel_kept _ _))
    | (with_reducible apply Kept.after (State.release_kept _ _ _))
    | (with_reducible apply Kept.after (State.send_kept _ _))
    | (with_reducible apply Kept.after (State.setCredit_kept _ _ _ _))
    | (with_reducible apply Kept.ite)
    | (with_reducible rfl)
    | (with_reducible exact fun h => h)
    | (with_reducible exact fun h => ⟨h, rfl⟩)
    | (intro _)
    | split
    | (with_reducible apply Kept.after (Kept.parts _ ?_ ?_ ?_ ?_ ?_ ?_ ?_))

theorem State.creditOut_kept (s : State) (p : Nat) : Kept s (State.creditOut s p) := by
  unfold State.creditOut
  repeat' first
    | (with_reducible exact Kept.refl _)
    | (with_reducible assumption)
    | (extract_lets +onlyGivenNames x; have e : TyOf x = State := (by with_reducible rfl); clear e; with_reducible apply Kept.use x; (on_goal 1 => dsimp -zeta only [x]; clear x); (on_goal 2 => intro h; clear_value x; revert x; intro _ _))
    | (extract_lets +onlyGivenNames x; clear_value x; revert x; intro _)
    | (with_reducible apply Kept.after (State.send_kept _ _))
    | (with_reducible apply Kept.after (State.each_kept ?_ _ _))
    | (with_reducible rfl)
    | (with_reducible exact fun h => h)
    | (with_reducible exact fun h => ⟨h, rfl⟩)
    | (intro _)
    | (with_reducible apply Kept.after (Kept.parts _ ?_ ?_ ?_ ?_ ?_ ?_ ?_))

theorem State.sendInput_kept (s : State) (j : Nat) (v : OutVect) : Kept s (State.sendInput s j v) := by
  unfold State.sendInput
  repeat' first
    | (with_reducible exact Kept.refl _)
    | (extract_lets +onlyGivenNames x; clear_value x; revert x; intro _)
    | (with_reducible apply Kept.after (State.incF_kept _ _ _))
    | (with_reducible apply Kept.after (State.sendFab_kept _ _ _ _))
    | (with_reducible apply Kept.ite)
    | (intro _)

theorem State.outDrain_kept (s : State) (c : Nat) : Kept s (State.outDrain s c) := by
  unfold State.outDrain
  repeat' first
    | (with_reducible exact Kept.refl _)
    | (extract_lets +onlyGivenNames x; clear_value x; revert x; intro _)
    | (with_reducible apply Kept.after (State.sendInput_kept _ _ _))
    | (with_reducible apply Kept.after (State.setCluster_kept _ _ _))
    | (intro _)
    | split
    | (with_reducible apply Kept.after (foldl_kept ?_ _ _))

theorem State.creditIn_kept (s : State) (p : Nat) (header : BitVec 256) : Kept s (State.creditIn s p header) := by
  unfold State.creditIn
  repeat' first
    | (with_reducible exact Kept.refl _)
    | (with_reducible assumption)
    | (extract_lets +onlyGivenNames x; have e : TyOf x = State := (by with_reducible rfl); clear e; with_reducible apply Kept.use x; (on_goal 1 => dsimp -zeta only [x]; clear x); (on_goal 2 => intro h; clear_value x; revert x; intro _ _))
    | (with_reducible apply Kept.after (State.outDrain_kept _ _))
    | (with_reducible apply Kept.after (State.setCredit_kept _ _ _ _))
    | (with_reducible apply Kept.after (State.setF_kept _ _ _))
    | (with_reducible apply Kept.after (State.each_kept ?_ _ _))
    | (intro _)

/-! ## RingOps -/

theorem State.badAccess_kept (s : State) : Kept s (State.badAccess s) := by
  unfold State.badAccess
  repeat' first
    | (with_reducible exact Kept.refl _)
    | (with_reducible apply Kept.after (State.setF_kept _ _ _))

theorem State.hstEvent_kept (s : State) (r code d0 d1 : Nat) : Kept s (State.hstEvent s r code d0 d1) := by
  unfold State.hstEvent
  repeat' first
    | (with_reducible exact Kept.refl _)
    | (with_reducible apply Kept.after (State.emitFor_kept _ _ _ _ _ _ _))

theorem State.enable_kept (s : State) : Kept s (State.enable s) := by
  unfold State.enable
  repeat' first
    | (with_reducible exact Kept.refl _)
    | (with_reducible assumption)
    | (extract_lets +onlyGivenNames x; have e : TyOf x = State := (by with_reducible rfl); clear e; with_reducible apply Kept.use x; (on_goal 1 => dsimp -zeta only [x]; clear x); (on_goal 2 => intro h; clear_value x; revert x; intro _ _))
    | (extract_lets +onlyGivenNames x; clear_value x; revert x; intro _)
    | (with_reducible apply Kept.after (State.cacheCtx_kept _ _))
    | (with_reducible apply Kept.after (State.setF_kept _ _ _))
    | (with_reducible apply Kept.after (State.setRing_kept _ _ _))
    | (with_reducible apply Kept.ite)
    | (intro _)

theorem State.dropResize_kept (s : State) (r : Nat) (x : Ring) : Kept s (State.dropResize s r x) := by
  unfold State.dropResize
  repeat' first
    | (with_reducible exact Kept.refl _)
    | (with_reducible apply Kept.after (State.hstEvent_kept _ _ _ _ _))
    | split

/-! ## PitOps -/

theorem State.pitFlags_kept (s : State) (c pc cleared : Nat) : Kept s (State.pitFlags s c pc cleared) := by
  unfold State.pitFlags
  repeat' first
    | (with_reducible exact Kept.refl _)
    | (with_reducible assumption)
    | (extract_lets +onlyGivenNames x; have e : TyOf x = State := (by with_reducible rfl); clear e; with_reducible apply Kept.use x; (on_goal 1 => dsimp -zeta only [x]; clear x); (on_goal 2 => intro h; clear_value x; revert x; intro _ _))
    | (extract_lets +onlyGivenNames x; clear_value x; revert x; intro _)
    | (with_reducible apply Kept.after (State.emitFor_kept _ _ _ _ _ _ _))
    | (with_reducible apply Kept.after (State.setF_kept _ _ _))
    | (with_reducible apply Kept.ite)
    | (intro _)

theorem State.cycleEnd_kept (s : State) (c : Nat) (x : Cluster) (cleared : Nat) : Kept s (State.cycleEnd s c x cleared) := by
  unfold State.cycleEnd
  repeat' first
    | (with_reducible exact Kept.refl _)
    | (extract_lets +onlyGivenNames x; clear_value x; revert x; intro _)
    | (with_reducible apply Kept.after (State.pitFlags_kept _ _ _ _))
    | (with_reducible apply Kept.after (State.setCluster_kept _ _ _))

theorem State.rtiStep_kept (s : State) (c : Nat) (rti : Bool) : Kept s (State.rtiStep s c rti) := by
  unfold State.rtiStep
  repeat' first
    | (with_reducible exact Kept.refl _)
    | (extract_lets +onlyGivenNames x; clear_value x; revert x; intro _)
    | (with_reducible apply Kept.after (State.setCluster_kept _ _ _))
    | (with_reducible apply Kept.after (State.setF_kept _ _ _))
    | (with_reducible apply Kept.ite)
    | (intro _)
    | split

theorem State.issue_kept (s : State) (c : Nat) (q : Ctx) (e : Eff) : Kept s (State.issue s c q e) := by
  unfold State.issue
  repeat' first
    | (with_reducible exact Kept.refl _)
    | (with_reducible assumption)
    | (extract_lets +onlyGivenNames x; have e : TyOf x = State := (by with_reducible rfl); clear e; with_reducible apply Kept.use x; (on_goal 1 => dsimp -zeta only [x]; clear x); (on_goal 2 => intro h; clear_value x; revert x; intro _ _))
    | (extract_lets +onlyGivenNames x; clear_value x; revert x; intro _)
    | (with_reducible apply Kept.after (State.cycleEnd_kept _ _ _ _))
    | (with_reducible apply Kept.after (State.incF_kept _ _ _))
    | (with_reducible apply Kept.after (State.rtiStep_kept _ _ _))
    | (with_reducible apply Kept.after (State.setF_kept _ _ _))

theorem State.stall_kept (s : State) (c : Nat) (f : Fld) : Kept s (State.stall s c f) := by
  unfold State.stall
  repeat' first
    | (with_reducible exact Kept.refl _)
    | (extract_lets +onlyGivenNames x; clear_value x; revert x; intro _)
    | (with_reducible apply Kept.after (State.cycleEnd_kept _ _ _ _))
    | (with_reducible apply Kept.after (State.setF_kept _ _ _))

theorem State.pitOp_kept (s : State) (c op : Nat) (f : Ctx → Eff) : Kept s (State.pitOp s c op f) := by
  unfold State.pitOp
  repeat' first
    | (with_reducible exact Kept.refl _)
    | (with_reducible apply Kept.after (State.issue_kept _ _ _ _))
    | (with_reducible apply Kept.after (State.whenever_kept ?_ _ _))
    | (intro _)

theorem State.flipsDone_kept (s : State) (r : Nat) : Kept s (State.flipsDone s r) := by
  unfold State.flipsDone
  repeat' first
    | (with_reducible exact Kept.refl _)
    | (with_reducible assumption)
    | (extract_lets +onlyGivenNames x; have e : TyOf x = State := (by with_reducible rfl); clear e; with_reducible apply Kept.use x; (on_goal 1 => dsimp -zeta only [x]; clear x); (on_goal 2 => intro h; clear_value x; revert x; intro _ _))
    | (extract_lets +onlyGivenNames x; clear_value x; revert x; intro _)
    | (with_reducible apply Kept.after (State.complete_kept _ _ _ _ _ _))
    | (with_reducible apply Kept.after (State.setCluster_kept _ _ _))
    | (with_reducible apply Kept.after (State.each_kept ?_ _ _))
    | (with_reducible apply Kept.ite)
    | (intro _)
    | split

theorem State.coefsDone_kept (s : State) (r : Nat) : Kept s (State.coefsDone s r) := by
  unfold State.coefsDone
  repeat' first
    | (with_reducible exact Kept.refl _)
    | (with_reducible assumption)
    | (extract_lets +onlyGivenNames x; have e : TyOf x = State := (by with_reducible rfl); clear e; with_reducible apply Kept.use x; (on_goal 1 => dsimp -zeta only [x]; clear x); (on_goal 2 => intro h; clear_value x; revert x; intro _ _))
    | (extract_lets +onlyGivenNames x; clear_value x; revert x; intro _)
    | (with_reducible apply Kept.after (State.complete_kept _ _ _ _ _ _))
    | (with_reducible apply Kept.after (State.drew_kept _))
    | (with_reducible apply Kept.after (State.setCluster_kept _ _ _))
    | (with_reducible apply Kept.after (State.each_kept ?_ _ _))
    | (with_reducible apply Kept.ite)
    | (intro _)
    | split

theorem State.localRead_kept (s : State) (c r : Nat) : Kept s (State.localRead s c r) := by
  unfold State.localRead
  repeat' first
    | (with_reducible exact Kept.refl _)
    | (with_reducible assumption)
    | (extract_lets +onlyGivenNames x; have e : TyOf x = State := (by with_reducible rfl); clear e; with_reducible apply Kept.use x; (on_goal 1 => dsimp -zeta only [x]; clear x); (on_goal 2 => intro h; clear_value x; revert x; intro _ _))
    | (extract_lets +onlyGivenNames x; clear_value x; revert x; intro _)
    | (with_reducible apply Kept.after (State.complete_kept _ _ _ _ _ _))
    | (with_reducible apply Kept.after (State.drew_kept _))
    | (with_reducible apply Kept.after (State.hostPut_kept _ _ _))
    | (with_reducible apply Kept.ite)
    | (intro _)
    | split

theorem State.betweenVectors_kept (s : State) (c : Nat) : Kept s (State.betweenVectors s c) := by
  unfold State.betweenVectors
  repeat' first
    | (with_reducible exact Kept.refl _)
    | (extract_lets +onlyGivenNames x; clear_value x; revert x; intro _)
    | (with_reducible apply Kept.after (State.localRead_kept _ _ _))
    | (with_reducible apply Kept.after (State.setCluster_kept _ _ _))
    | (with_reducible apply Kept.after (State.each_kept ?_ _ _))
    | (intro _)

theorem State.goIdle_kept (s : State) (c : Nat) : Kept s (State.goIdle s c) := by
  unfold State.goIdle
  repeat' first
    | (with_reducible exact Kept.refl _)
    | (with_reducible assumption)
    | (extract_lets +onlyGivenNames x; have e : TyOf x = State := (by with_reducible rfl); clear e; with_reducible apply Kept.use x; (on_goal 1 => dsimp -zeta only [x]; clear x); (on_goal 2 => intro h; clear_value x; revert x; intro _ _))
    | (extract_lets +onlyGivenNames x; clear_value x; revert x; intro _)
    | (with_reducible apply Kept.after (State.coefsDone_kept _ _))
    | (with_reducible apply Kept.after (State.flipsDone_kept _ _))
    | (with_reducible apply Kept.after (State.setCluster_kept _ _ _))
    | (with_reducible apply Kept.after (State.setF_kept _ _ _))
    | (with_reducible apply Kept.after (State.each_kept ?_ _ _))
    | (intro _)

theorem State.swapAt_kept (s : State) (c : Nat) (n : Int) : Kept s (State.swapAt s c n) := by
  unfold State.swapAt
  repeat' first
    | (with_reducible exact Kept.refl _)
    | (with_reducible assumption)
    | (extract_lets +onlyGivenNames x; have e : TyOf x = State := (by with_reducible rfl); clear e; with_reducible apply Kept.use x; (on_goal 1 => dsimp -zeta only [x]; clear x); (on_goal 2 => intro h; clear_value x; revert x; intro _ _))
    | (extract_lets +onlyGivenNames x; clear_value x; revert x; intro _)
    | (with_reducible apply Kept.after (State.emitFor_kept _ _ _ _ _ _ _))
    | (with_reducible apply Kept.after (State.goIdle_kept _ _))
    | (with_reducible apply Kept.after (State.setCluster_kept _ _ _))
    | (with_reducible apply Kept.after (State.setF_kept _ _ _))
    | (with_reducible apply Kept.after (State.setFlag_kept _ _ _))
    | (with_reducible apply Kept.ite)
    | (intro _)

theorem State.startNulls_kept (s : State) (c : Nat) : Kept s (State.startNulls s c) := by
  unfold State.startNulls
  repeat' first
    | (with_reducible exact Kept.refl _)
    | (extract_lets +onlyGivenNames x; clear_value x; revert x; intro _)
    | (with_reducible apply Kept.after (State.setCluster_kept _ _ _))
    | (with_reducible apply Kept.ite)
    | (intro _)

theorem State.flipAt_kept (s : State) (c six : Nat) : Kept s (State.flipAt s c six) := by
  unfold State.flipAt
  repeat' first
    | (with_reducible exact Kept.refl _)
    | (with_reducible assumption)
    | (extract_lets +onlyGivenNames x; have e : TyOf x = State := (by with_reducible rfl); clear e; with_reducible apply Kept.use x; (on_goal 1 => dsimp -zeta only [x]; clear x); (on_goal 2 => intro h; clear_value x; revert x; intro _ _))
    | (extract_lets +onlyGivenNames x; clear_value x; revert x; intro _)
    | (with_reducible apply Kept.after (State.emitFor_kept _ _ _ _ _ _ _))
    | (with_reducible apply Kept.after (State.flipsDone_kept _ _))
    | (with_reducible apply Kept.after (State.setCluster_kept _ _ _))
    | (with_reducible apply Kept.after (State.setF_kept _ _ _))
    | (with_reducible apply Kept.ite)
    | (intro _)
    | split

theorem State.takeVect_kept (s : State) (c : Nat) (v : Vect) : Kept s (State.takeVect s c v) := by
  unfold State.takeVect
  repeat' first
    | (with_reducible exact Kept.refl _)
    | (with_reducible assumption)
    | (extract_lets +onlyGivenNames x; have e : TyOf x = State := (by with_reducible rfl); clear e; with_reducible apply Kept.use x; (on_goal 1 => dsimp -zeta only [x]; clear x); (on_goal 2 => intro h; clear_value x; revert x; intro _ _))
    | (extract_lets +onlyGivenNames x; clear_value x; revert x; intro _)
    | (with_reducible apply Kept.after (State.addF_kept _ _ _))
    | (with_reducible apply Kept.after (State.coefsDone_kept _ _))
    | (with_reducible apply Kept.after (State.flipAt_kept _ _ _))
    | (with_reducible apply Kept.after (State.setCluster_kept _ _ _))
    | (with_reducible apply Kept.after (State.setF_kept _ _ _))
    | (with_reducible apply Kept.after (State.each_kept ?_ _ _))
    | (with_reducible apply Kept.ite)
    | (intro _)

theorem State.takeNull_kept (s : State) (c : Nat) : Kept s (State.takeNull s c).1 := by
  unfold State.takeNull
  repeat' first
    | (with_reducible exact Kept.refl _)
    | (with_reducible assumption)
    | (extract_lets +onlyGivenNames x; have e : TyOf x = State := (by with_reducible rfl); clear e; with_reducible apply Kept.use x; (on_goal 1 => dsimp -zeta only [x]; clear x); (on_goal 2 => intro h; clear_value x; revert x; intro _ _))
    | (extract_lets +onlyGivenNames x; clear_value x; revert x; intro _)
    | (with_reducible apply Kept.after (State.setCluster_kept _ _ _))
    | (with_reducible apply Kept.after (State.takeVect_kept _ _ _))
    | split

theorem State.pushVect_kept (s : State) (c : Nat) (v : Vect) : Kept s (State.pushVect s c v) := by
  unfold State.pushVect
  repeat' first
    | (with_reducible exact Kept.refl _)
    | (with_reducible assumption)
    | (extract_lets +onlyGivenNames x; have e : TyOf x = State := (by with_reducible rfl); clear e; with_reducible apply Kept.use x; (on_goal 1 => dsimp -zeta only [x]; clear x); (on_goal 2 => intro h; clear_value x; revert x; intro _ _))
    | (extract_lets +onlyGivenNames x; clear_value x; revert x; intro _)
    | (with_reducible apply Kept.after (State.setCluster_kept _ _ _))
    | (with_reducible apply Kept.after (State.setF_kept _ _ _))
    | (with_reducible apply Kept.after (State.swapAt_kept _ _ _))
    | (with_reducible apply Kept.ite)
    | (intro _)

theorem State.lostVect_kept (s : State) (p : Nat) (c : Option Nat) (v : Vect) : Kept s (State.lostVect s p c v) := by
  unfold State.lostVect
  repeat' first
    | (with_reducible exact Kept.refl _)
    | (with_reducible assumption)
    | (extract_lets +onlyGivenNames x; have e : TyOf x = State := (by with_reducible rfl); clear e; with_reducible apply Kept.use x; (on_goal 1 => dsimp -zeta only [x]; clear x); (on_goal 2 => intro h; clear_value x; revert x; intro _ _))
    | (extract_lets +onlyGivenNames x; clear_value x; revert x; intro _)
    | (with_reducible apply Kept.after (State.condDwell_kept _ _ _))
    | (with_reducible apply Kept.after (State.drew_kept _))
    | (with_reducible apply Kept.after (State.emitFor_kept _ _ _ _ _ _ _))
    | (with_reducible apply Kept.after (State.incF_kept _ _ _))
    | (with_reducible apply Kept.ite)
    | (with_reducible rfl)
    | (with_reducible exact fun h => h)
    | (with_reducible exact fun h => ⟨h, rfl⟩)
    | (intro _)
    | (with_reducible apply Kept.after (Kept.parts _ ?_ ?_ ?_ ?_ ?_ ?_ ?_))

theorem State.showFlow_kept (s : State) (p : Nat) (full : Bool) : Kept s (State.showFlow s p full) := by
  unfold State.showFlow
  repeat' first
    | (with_reducible exact Kept.refl _)
    | (with_reducible apply Kept.after (State.setF_kept _ _ _))

theorem State.pumpOne_kept (s : State) (p : Nat) : Kept s (State.pumpOne s p) := by
  unfold State.pumpOne
  repeat' first
    | (with_reducible exact Kept.refl _)
    | (with_reducible assumption)
    | (extract_lets +onlyGivenNames x; have e : TyOf x = State := (by with_reducible rfl); clear e; with_reducible apply Kept.use x; (on_goal 1 => dsimp -zeta only [x]; clear x); (on_goal 2 => intro h; clear_value x; revert x; intro _ _))
    | (extract_lets +onlyGivenNames x; clear_value x; revert x; intro _)
    | (with_reducible apply Kept.after (State.lostVect_kept _ _ _ _))
    | (with_reducible apply Kept.after (State.pushVect_kept _ _ _))
    | (with_reducible apply Kept.after (State.setPort_kept _ _ _))
    | (with_reducible apply Kept.ite)
    | (intro _)
    | split

theorem State.pumpPort_kept (s : State) (p : Nat) : Kept s (State.pumpPort s p) := by
  unfold State.pumpPort
  repeat' first
    | (with_reducible exact Kept.refl _)
    | (with_reducible assumption)
    | (extract_lets +onlyGivenNames x; have e : TyOf x = State := (by with_reducible rfl); clear e; with_reducible apply Kept.use x; (on_goal 1 => dsimp -zeta only [x]; clear x); (on_goal 2 => intro h; clear_value x; revert x; intro _ _))
    | (with_reducible apply Kept.after (State.pumpOne_kept _ _))
    | (with_reducible apply Kept.after (State.showFlow_kept _ _ _))
    | (with_reducible apply Kept.ite)
    | (intro _)
    | (with_reducible apply Kept.after (foldl_kept ?_ _ _))

theorem State.pump_kept (s : State) : Kept s (State.pump s) := by
  unfold State.pump
  repeat' first
    | (with_reducible exact Kept.refl _)
    | (with_reducible apply Kept.after (State.pumpPort_kept _ _))
    | (intro _)
    | (with_reducible apply Kept.after (foldl_kept ?_ _ _))

theorem State.nextVect_kept (s : State) (c : Nat) : Kept s (State.nextVect s c).1 := by
  unfold State.nextVect
  repeat' first
    | (with_reducible exact Kept.refl _)
    | (with_reducible assumption)
    | (extract_lets +onlyGivenNames x; have e : TyOf x = State := (by with_reducible rfl); clear e; with_reducible apply Kept.use x; (on_goal 1 => dsimp -zeta only [x]; clear x); (on_goal 2 => intro h; clear_value x; revert x; intro _ _))
    | (extract_lets +onlyGivenNames x; clear_value x; revert x; intro _)
    | (with_reducible apply Kept.after (State.betweenVectors_kept _ _))
    | (with_reducible apply Kept.after (State.goIdle_kept _ _))
    | (with_reducible apply Kept.after (State.pump_kept _))
    | (with_reducible apply Kept.after (State.setCluster_kept _ _ _))
    | (with_reducible apply Kept.after (State.stall_kept _ _ _))
    | (with_reducible apply Kept.after (State.startNulls_kept _ _))
    | (with_reducible apply Kept.after (State.swapAt_kept _ _ _))
    | (with_reducible apply Kept.after (State.takeNull_kept _ _))
    | (with_reducible apply Kept.after (State.takeOver_kept _ _ _))
    | (with_reducible apply Kept.after (State.takeVect_kept _ _ _))
    | split

theorem State.pitTake_kept (s : State) (c op : Nat) (f : Ctx → Vect → List Flight) : Kept s (State.pitTake s c op f) := by
  unfold State.pitTake
  repeat' first
    | (with_reducible exact Kept.refl _)
    | (extract_lets +onlyGivenNames x; clear_value x; revert x; intro _)
    | (with_reducible apply Kept.after (State.issue_kept _ _ _ _))
    | (with_reducible apply Kept.after (State.nextVect_kept _ _))
    | (with_reducible apply Kept.after (State.setCluster_kept _ _ _))
    | (with_reducible apply Kept.after (State.whenever_kept ?_ _ _))
    | (with_reducible apply Kept.ite)
    | (intro _)
    | split
    | (with_reducible apply Kept.of_pair (by assumption))

/-! ## Seq -/

theorem State.newBanks_kept (s : State) (im : Image) : Kept s (State.newBanks s im) := by
  unfold State.newBanks
  repeat' first
    | (with_reducible exact Kept.refl _)
    | (with_reducible assumption)
    | (extract_lets +onlyGivenNames x; have e : TyOf x = State := (by with_reducible rfl); clear e; with_reducible apply Kept.use x; (on_goal 1 => dsimp -zeta only [x]; clear x); (on_goal 2 => intro h; clear_value x; revert x; intro _ _))
    | (extract_lets +onlyGivenNames x; clear_value x; revert x; intro _)
    | (with_reducible apply Kept.after (State.setF_kept _ _ _))
    | (with_reducible apply Kept.ite)
    | (with_reducible rfl)
    | (with_reducible exact fun h => h)
    | (with_reducible exact fun h => ⟨h, rfl⟩)
    | (intro _)
    | (with_reducible apply Kept.after (Kept.parts _ ?_ ?_ ?_ ?_ ?_ ?_ ?_))

theorem State.partStart_kept (s : State) (im : Image) (p : Nat) : Kept s (State.partStart s im p) := by
  unfold State.partStart
  repeat' first
    | (with_reducible exact Kept.refl _)
    | (with_reducible assumption)
    | (extract_lets +onlyGivenNames x; have e : TyOf x = State := (by with_reducible rfl); clear e; with_reducible apply Kept.use x; (on_goal 1 => dsimp -zeta only [x]; clear x); (on_goal 2 => intro h; clear_value x; revert x; intro _ _))
    | (extract_lets +onlyGivenNames x; clear_value x; revert x; intro _)
    | (with_reducible apply Kept.after (State.setF_kept _ _ _))
    | (with_reducible apply Kept.after (State.setPart_kept _ _ _))
    | (with_reducible apply Kept.ite)
    | (intro _)

theorem State.replay_kept (s : State) (n : Int) : Kept s (State.replay s n) := by
  unfold State.replay
  repeat' first
    | (with_reducible exact Kept.refl _)
    | (with_reducible assumption)
    | (extract_lets +onlyGivenNames x; have e : TyOf x = State := (by with_reducible rfl); clear e; with_reducible apply Kept.use x; (on_goal 1 => dsimp -zeta only [x]; clear x); (on_goal 2 => intro h; clear_value x; revert x; intro _ _))
    | (extract_lets +onlyGivenNames x; clear_value x; revert x; intro _)
    | (with_reducible apply Kept.after (State.checkPart_kept _ _ _ _))
    | (with_reducible apply Kept.after (State.condDwell_kept _ _ _))
    | (with_reducible apply Kept.after (State.emit_kept _ _ _ _ _ _))
    | (with_reducible apply Kept.after (State.endReplay_kept _ _))
    | (with_reducible apply Kept.after (State.newBanks_kept _ _))
    | (with_reducible apply Kept.after (State.partStart_kept _ _ _))
    | (with_reducible apply Kept.after (State.pulse_kept _ _))
    | (with_reducible apply Kept.after (State.putBit_kept _ _ _ _))
    | (with_reducible apply Kept.after (State.raiseFor_kept _ _ _ _ _ _ _))
    | (with_reducible apply Kept.after (State.retireAll_kept _))
    | (with_reducible apply Kept.after (State.setF_kept _ _ _))
    | (with_reducible apply Kept.after (State.each_kept ?_ _ _))
    | (with_reducible apply Kept.ite)
    | (with_reducible rfl)
    | (with_reducible exact fun h => h)
    | (with_reducible exact fun h => ⟨h, rfl⟩)
    | (intro _)
    | (with_reducible apply Kept.after (Kept.parts _ ?_ ?_ ?_ ?_ ?_ ?_ ?_))

theorem State.feedStall_kept (s : State) (p : Nat) : Kept s (State.feedStall s p) := by
  unfold State.feedStall
  repeat' first
    | (with_reducible exact Kept.refl _)
    | (with_reducible assumption)
    | (extract_lets +onlyGivenNames x; have e : TyOf x = State := (by with_reducible rfl); clear e; with_reducible apply Kept.use x; (on_goal 1 => dsimp -zeta only [x]; clear x); (on_goal 2 => intro h; clear_value x; revert x; intro _ _))
    | (extract_lets +onlyGivenNames x; clear_value x; revert x; intro _)
    | (with_reducible apply Kept.after (State.incF_kept _ _ _))
    | (with_reducible apply Kept.after (State.setPart_kept _ _ _))

theorem State.readSlabs_kept (s : State) (im : Image) (n : Int) (l : List (Nat × Nat)) : Kept s (State.readSlabs s im n l) := by
  unfold State.readSlabs
  repeat' first
    | (with_reducible exact Kept.refl _)
    | (with_reducible apply Kept.after (State.awaitStore_kept _))
    | (with_reducible apply Kept.after (State.incF_kept _ _ _))
    | (with_reducible apply Kept.after (State.each_kept ?_ _ _))
    | (intro _)

theorem State.feedShare_kept (s : State) (p k : Nat) : Kept s (State.feedShare s p k) := by
  unfold State.feedShare
  repeat' first
    | (with_reducible exact Kept.refl _)
    | (extract_lets +onlyGivenNames x; clear_value x; revert x; intro _)
    | (with_reducible apply Kept.after (State.setPart_kept _ _ _))
    | (with_reducible apply Kept.ite)
    | (with_reducible rfl)
    | (with_reducible exact fun h => h)
    | (with_reducible exact fun h => ⟨h, rfl⟩)
    | (intro _)
    | (with_reducible apply Kept.after (Kept.parts _ ?_ ?_ ?_ ?_ ?_ ?_ ?_))

theorem State.feedOver_kept (s : State) (p : Nat) : Kept s (State.feedOver s p) := by
  unfold State.feedOver
  repeat' first
    | (with_reducible exact Kept.refl _)
    | (with_reducible assumption)
    | (extract_lets +onlyGivenNames x; have e : TyOf x = State := (by with_reducible rfl); clear e; with_reducible apply Kept.use x; (on_goal 1 => dsimp -zeta only [x]; clear x); (on_goal 2 => intro h; clear_value x; revert x; intro _ _))
    | (extract_lets +onlyGivenNames x; clear_value x; revert x; intro _)
    | (with_reducible apply Kept.after (State.drew_kept _))
    | (with_reducible apply Kept.after (State.incF_kept _ _ _))
    | (with_reducible apply Kept.after (State.setPart_kept _ _ _))
    | (with_reducible apply Kept.ite)
    | (intro _)

theorem State.corrBegin_kept (s : State) (p : Nat) (n : Int) (i e k : Nat) : Kept s (State.corrBegin s p n i e k) := by
  unfold State.corrBegin
  repeat' first
    | (with_reducible exact Kept.refl _)
    | (with_reducible assumption)
    | (extract_lets +onlyGivenNames x; have e : TyOf x = State := (by with_reducible rfl); clear e; with_reducible apply Kept.use x; (on_goal 1 => dsimp -zeta only [x]; clear x); (on_goal 2 => intro h; clear_value x; revert x; intro _ _))
    | (extract_lets +onlyGivenNames x; clear_value x; revert x; intro _)
    | (with_reducible apply Kept.after (State.feedShare_kept _ _ _))
    | (with_reducible apply Kept.after (State.readSlabs_kept _ _ _ _))
    | (with_reducible apply Kept.after (State.setPart_kept _ _ _))

theorem State.passOver_kept (s : State) (p : Nat) (n : Int) (i e : Nat) : Kept s (State.passOver s p n i e) := by
  unfold State.passOver
  repeat' first
    | (with_reducible exact Kept.refl _)
    | (extract_lets +onlyGivenNames x; clear_value x; revert x; intro _)
    | (with_reducible apply Kept.after (State.setPart_kept _ _ _))

theorem State.tallySat_kept (s : State) (p : Nat) (sl : Slot) (bad : List DrainEntry) : Kept s (State.tallySat s p sl bad) := by
  unfold State.tallySat
  repeat' first
    | (with_reducible exact Kept.refl _)
    | (with_reducible assumption)
    | (extract_lets +onlyGivenNames x; have e : TyOf x = State := (by with_reducible rfl); clear e; with_reducible apply Kept.use x; (on_goal 1 => dsimp -zeta only [x]; clear x); (on_goal 2 => intro h; clear_value x; revert x; intro _ _))
    | (extract_lets +onlyGivenNames x; clear_value x; revert x; intro _)
    | (with_reducible apply Kept.after (State.condDwell_kept _ _ _))
    | (with_reducible apply Kept.after (State.emit_kept _ _ _ _ _ _))
    | (with_reducible apply Kept.after (State.incF_kept _ _ _))
    | (with_reducible apply Kept.after (State.putBit_kept _ _ _ _))
    | (with_reducible apply Kept.after (State.raiseFor_kept _ _ _ _ _ _ _))
    | (with_reducible apply Kept.after (State.each_kept ?_ _ _))
    | (with_reducible apply Kept.ite)
    | (intro _)

theorem State.drainTo_kept (s : State) (n : Int) (adds : List AddLine) : Kept s (State.drainTo s n adds).1 := by
  unfold State.drainTo
  repeat' first
    | (with_reducible exact Kept.refl _)
    | (extract_lets +onlyGivenNames x; clear_value x; revert x; intro _)
    | (with_reducible apply Kept.after (State.accept_kept _ _))
    | (with_reducible apply Kept.after (State.bankAdd_kept _ _ _ _ _ _ _))
    | (with_reducible apply Kept.after (State.late_kept _ _ _ _))
    | (with_reducible apply Kept.after (State.sendAdds_kept _ _ _ _ _ _ _))
    | (with_reducible apply Kept.after (State.each_kept ?_ _ _))
    | (intro _)
    | split
    | (with_reducible apply Kept.of_pair (by assumption))

theorem State.slotFree_kept (s : State) (p : Nat) : Kept s (State.slotFree s p) := by
  unfold State.slotFree
  repeat' first
    | (with_reducible exact Kept.refl _)
    | (extract_lets +onlyGivenNames x; clear_value x; revert x; intro _)
    | (with_reducible apply Kept.after (State.setPart_kept _ _ _))
    | split

theorem State.drainOver_kept (s : State) (p : Nat) (sl : Slot) (w : Nat) (es : List (Nat × Nat × Nat × CellSlot)) : Kept s (State.drainOver s p sl w es) := by
  unfold State.drainOver
  repeat' first
    | (with_reducible exact Kept.refl _)
    | (with_reducible assumption)
    | (extract_lets +onlyGivenNames x; have e : TyOf x = State := (by with_reducible rfl); clear e; with_reducible apply Kept.use x; (on_goal 1 => dsimp -zeta only [x]; clear x); (on_goal 2 => intro h; clear_value x; revert x; intro _ _))
    | (extract_lets +onlyGivenNames x; clear_value x; revert x; intro _)
    | (with_reducible apply Kept.after (State.addF_kept _ _ _))
    | (with_reducible apply Kept.after (State.addSums_kept _ _ _ _))
    | (with_reducible apply Kept.after (State.slotFree_kept _ _))
    | (with_reducible apply Kept.after (State.tallySat_kept _ _ _ _))

theorem State.dwellOut_kept (s : State) (n : Int) : Kept s (State.dwellOut s n) := by
  unfold State.dwellOut
  repeat' first
    | (with_reducible exact Kept.refl _)
    | (with_reducible assumption)
    | (extract_lets +onlyGivenNames x; have e : TyOf x = State := (by with_reducible rfl); clear e; with_reducible apply Kept.use x; (on_goal 1 => dsimp -zeta only [x]; clear x); (on_goal 2 => intro h; clear_value x; revert x; intro _ _))
    | (extract_lets +onlyGivenNames x; clear_value x; revert x; intro _)
    | (with_reducible apply Kept.after (State.mark_kept _ _ _))
    | (with_reducible apply Kept.after (State.sendMark_kept _ _ _ _ _ _))
    | (with_reducible apply Kept.ite)
    | (with_reducible rfl)
    | (with_reducible exact fun h => h)
    | (with_reducible exact fun h => ⟨h, rfl⟩)
    | (intro _)
    | (with_reducible apply Kept.after (Kept.parts _ ?_ ?_ ?_ ?_ ?_ ?_ ?_))

theorem State.wloadStall_kept (s : State) (p : Nat) : Kept s (State.wloadStall s p) := by
  unfold State.wloadStall
  repeat' first
    | (with_reducible exact Kept.refl _)
    | (with_reducible assumption)
    | (extract_lets +onlyGivenNames x; have e : TyOf x = State := (by with_reducible rfl); clear e; with_reducible apply Kept.use x; (on_goal 1 => dsimp -zeta only [x]; clear x); (on_goal 2 => intro h; clear_value x; revert x; intro _ _))
    | (extract_lets +onlyGivenNames x; clear_value x; revert x; intro _)
    | (with_reducible apply Kept.after (State.incF_kept _ _ _))
    | (with_reducible apply Kept.after (State.setPart_kept _ _ _))

theorem State.stageStall_kept (s : State) (p : Nat) : Kept s (State.stageStall s p) := by
  unfold State.stageStall
  repeat' first
    | (with_reducible exact Kept.refl _)
    | (with_reducible assumption)
    | (extract_lets +onlyGivenNames x; have e : TyOf x = State := (by with_reducible rfl); clear e; with_reducible apply Kept.use x; (on_goal 1 => dsimp -zeta only [x]; clear x); (on_goal 2 => intro h; clear_value x; revert x; intro _ _))
    | (extract_lets +onlyGivenNames x; clear_value x; revert x; intro _)
    | (with_reducible apply Kept.after (State.incF_kept _ _ _))
    | (with_reducible apply Kept.after (State.setPart_kept _ _ _))

theorem State.outStall_kept (s : State) (p : Nat) : Kept s (State.outStall s p) := by
  unfold State.outStall
  repeat' first
    | (with_reducible exact Kept.refl _)
    | (with_reducible assumption)
    | (extract_lets +onlyGivenNames x; have e : TyOf x = State := (by with_reducible rfl); clear e; with_reducible apply Kept.use x; (on_goal 1 => dsimp -zeta only [x]; clear x); (on_goal 2 => intro h; clear_value x; revert x; intro _ _))
    | (extract_lets +onlyGivenNames x; clear_value x; revert x; intro _)
    | (with_reducible apply Kept.after (State.incF_kept _ _ _))
    | (with_reducible apply Kept.after (State.setPart_kept _ _ _))

theorem State.finisherShare_kept (s : State) (p k : Nat) : Kept s (State.finisherShare s p k) := by
  unfold State.finisherShare
  repeat' first
    | (with_reducible exact Kept.refl _)
    | (extract_lets +onlyGivenNames x; clear_value x; revert x; intro _)
    | (with_reducible apply Kept.after (State.setPart_kept _ _ _))
    | (with_reducible apply Kept.ite)
    | (with_reducible rfl)
    | (with_reducible exact fun h => h)
    | (with_reducible exact fun h => ⟨h, rfl⟩)
    | (intro _)
    | (with_reducible apply Kept.after (Kept.parts _ ?_ ?_ ?_ ?_ ?_ ?_ ?_))

theorem State.finisherOver_kept (s : State) (p : Nat) : Kept s (State.finisherOver s p) := by
  unfold State.finisherOver
  repeat' first
    | (with_reducible exact Kept.refl _)
    | (with_reducible assumption)
    | (extract_lets +onlyGivenNames x; have e : TyOf x = State := (by with_reducible rfl); clear e; with_reducible apply Kept.use x; (on_goal 1 => dsimp -zeta only [x]; clear x); (on_goal 2 => intro h; clear_value x; revert x; intro _ _))
    | (extract_lets +onlyGivenNames x; clear_value x; revert x; intro _)
    | (with_reducible apply Kept.after (State.drew_kept _))
    | (with_reducible apply Kept.after (State.incF_kept _ _ _))
    | (with_reducible apply Kept.after (State.setPart_kept _ _ _))
    | (with_reducible apply Kept.ite)
    | (intro _)

theorem State.beamBegin_kept (s : State) (p : Nat) (n : Int) (i e : Nat) : Kept s (State.beamBegin s p n i e) := by
  unfold State.beamBegin
  repeat' first
    | (with_reducible exact Kept.refl _)
    | (with_reducible assumption)
    | (extract_lets +onlyGivenNames x; have e : TyOf x = State := (by with_reducible rfl); clear e; with_reducible apply Kept.use x; (on_goal 1 => dsimp -zeta only [x]; clear x); (on_goal 2 => intro h; clear_value x; revert x; intro _ _))
    | (extract_lets +onlyGivenNames x; clear_value x; revert x; intro _)
    | (with_reducible apply Kept.after (State.feedShare_kept _ _ _))
    | (with_reducible apply Kept.after (State.finisherShare_kept _ _ _))
    | (with_reducible apply Kept.after (State.readSlabs_kept _ _ _ _))
    | (with_reducible apply Kept.after (State.recOpen_kept _ _ _))
    | (with_reducible apply Kept.after (State.setF_kept _ _ _))
    | (with_reducible apply Kept.after (State.setPart_kept _ _ _))
    | (with_reducible apply Kept.after (State.each_kept ?_ _ _))
    | (with_reducible apply Kept.ite)
    | (intro _)

theorem State.recTimeout_kept (s : State) (x : Nat) : Kept s (State.recTimeout s x) := by
  unfold State.recTimeout
  repeat' first
    | (with_reducible exact Kept.refl _)
    | (with_reducible assumption)
    | (extract_lets +onlyGivenNames x; have e : TyOf x = State := (by with_reducible rfl); clear e; with_reducible apply Kept.use x; (on_goal 1 => dsimp -zeta only [x]; clear x); (on_goal 2 => intro h; clear_value x; revert x; intro _ _))
    | (extract_lets +onlyGivenNames x; clear_value x; revert x; intro _)
    | (with_reducible apply Kept.after (State.dropMarks_kept _ _ _ _ _))
    | (with_reducible apply Kept.after (State.emit_kept _ _ _ _ _ _))
    | (with_reducible apply Kept.after (State.fillRec_kept _ _))
    | (with_reducible apply Kept.after (State.putBit_kept _ _ _ _))
    | (with_reducible apply Kept.after (State.setRec_kept _ _ _))

theorem State.recAccess_kept (s : State) (x k : Nat) : Kept s (State.recAccess s x k) := by
  unfold State.recAccess
  repeat' first
    | (with_reducible exact Kept.refl _)
    | (with_reducible assumption)
    | (extract_lets +onlyGivenNames x; obtain ⟨_, e⟩ : ∃ α, TyOf x = (State × α) := (by with_reducible exact ⟨_, rfl⟩); clear e; with_reducible apply Kept.use x.1; (on_goal 1 => dsimp -zeta only [x]; clear x); (on_goal 2 => intro h; clear_value x; revert x; intro _ _))
    | (extract_lets +onlyGivenNames x; clear_value x; revert x; intro _)
    | (with_reducible apply Kept.after (State.drew_kept _))
    | (with_reducible apply Kept.after (State.readSpan_kept _ _ _ _))
    | (with_reducible apply Kept.ite)
    | (intro _)

theorem State.releaseOne_kept (s : State) (x c route : Nat) : Kept s (State.releaseOne s x c route) := by
  unfold State.releaseOne
  repeat' first
    | (with_reducible exact Kept.refl _)
    | (with_reducible assumption)
    | (extract_lets +onlyGivenNames x; have e : TyOf x = State := (by with_reducible rfl); clear e; with_reducible apply Kept.use x; (on_goal 1 => dsimp -zeta only [x]; clear x); (on_goal 2 => intro h; clear_value x; revert x; intro _ _))
    | (extract_lets +onlyGivenNames x; clear_value x; revert x; intro _)
    | (with_reducible apply Kept.after (State.lostVect_kept _ _ _ _))
    | (with_reducible apply Kept.after (State.pushVect_kept _ _ _))
    | (with_reducible apply Kept.after (State.recAccess_kept _ _ _))
    | (with_reducible apply Kept.after (State.setRec_kept _ _ _))
    | (with_reducible apply Kept.ite)
    | (intro _)

theorem State.discardRec_kept (s : State) (x : Nat) : Kept s (State.discardRec s x) := by
  unfold State.discardRec
  repeat' first
    | (with_reducible exact Kept.refl _)
    | (extract_lets +onlyGivenNames x; clear_value x; revert x; intro _)
    | (with_reducible apply Kept.after (State.lostVect_kept _ _ _ _))
    | (with_reducible apply Kept.after (State.recAccess_kept _ _ _))
    | (with_reducible apply Kept.after (State.setRec_kept _ _ _))
    | (with_reducible apply Kept.after (State.each_kept ?_ _ _))
    | (intro _)

theorem State.releaseEnd_kept (s : State) (x : Nat) : Kept s (State.releaseEnd s x) := by
  unfold State.releaseEnd
  repeat' first
    | (with_reducible exact Kept.refl _)
    | (with_reducible assumption)
    | (extract_lets +onlyGivenNames x; have e : TyOf x = State := (by with_reducible rfl); clear e; with_reducible apply Kept.use x; (on_goal 1 => dsimp -zeta only [x]; clear x); (on_goal 2 => intro h; clear_value x; revert x; intro _ _))
    | (extract_lets +onlyGivenNames x; clear_value x; revert x; intro _)
    | (with_reducible apply Kept.after (State.addF_kept _ _ _))
    | (with_reducible apply Kept.after (State.emptyRec_kept _ _ _))
    | (with_reducible apply Kept.after (State.retryAdds_kept _))
    | (with_reducible apply Kept.after (State.zeroSpan_kept _ _ _))
    | (with_reducible apply Kept.ite)
    | (intro _)

theorem State.recRelease_kept (s : State) (x c route : Nat) : Kept s (State.recRelease s x c route) := by
  unfold State.recRelease
  repeat' first
    | (with_reducible exact Kept.refl _)
    | (with_reducible assumption)
    | (extract_lets +onlyGivenNames x; have e : TyOf x = State := (by with_reducible rfl); clear e; with_reducible apply Kept.use x; (on_goal 1 => dsimp -zeta only [x]; clear x); (on_goal 2 => intro h; clear_value x; revert x; intro _ _))
    | (extract_lets +onlyGivenNames x; clear_value x; revert x; intro _)
    | (with_reducible apply Kept.after (State.releaseEnd_kept _ _))
    | (with_reducible apply Kept.after (State.releaseOne_kept _ _ _ _))
    | (with_reducible apply Kept.after (State.setRec_kept _ _ _))
    | (with_reducible apply Kept.after (State.each_kept ?_ _ _))
    | (intro _)

/-! ## ScriptOps -/

theorem State.deviceBytes_kept (s : State) (n : Nat) : Kept s (State.deviceBytes s n) := by
  unfold State.deviceBytes
  repeat' first
    | (with_reducible exact Kept.refl _)
    | (with_reducible apply Kept.after (State.addF_kept _ _ _))

theorem State.copyObj_kept (s : State) (unc : Bool) (a n : Nat) : Kept s (State.copyObj s unc a n).1 := by
  unfold State.copyObj
  extract_lets r
  have h : Kept s r.1 :=
    foldl_pair_kept (fun q i => Kept.fst_mk (State.agentRead_kept q.1 8 (a + 64 * i) _)) _ s false
  exact Kept.fst_mk (h.trans (State.deviceBytes_kept _ _))

theorem State.copyProgs_kept (s : State) (unc : Bool) (old : Option Image) (recs : List (Nat × Nat)) : Kept s (State.copyProgs s unc old recs).1 := by
  unfold State.copyProgs
  repeat' first
    | (with_reducible exact Kept.refl _)
    | (with_reducible assumption)
    | (extract_lets +onlyGivenNames x; obtain ⟨_, e⟩ : ∃ α, TyOf x = (State × α) := (by with_reducible exact ⟨_, rfl⟩); clear e; with_reducible apply Kept.use x.1; (on_goal 1 => dsimp -zeta only [x]; clear x); (on_goal 2 => intro h; clear_value x; revert x; intro _ _))
    | (extract_lets +onlyGivenNames x; clear_value x; revert x; intro _)
    | (with_reducible apply Kept.after (State.copyObj_kept _ _ _ _))
    | (intro _)
    | split
    | (with_reducible apply Kept.after (foldl_fst_kept ?_ _ _))

theorem State.copyWeights_kept (s : State) (unc : Bool) (old : Option Image) (base im : Image) (recs : List (Nat × Nat)) : Kept s (State.copyWeights s unc old base im recs).1 := by
  unfold State.copyWeights
  repeat' first
    | (with_reducible exact Kept.refl _)
    | (extract_lets +onlyGivenNames x; clear_value x; revert x; intro _)
    | (with_reducible apply Kept.after (State.copyObj_kept _ _ _ _))
    | split

theorem State.buildPlan_kept (s : State) (unc : Bool) (old : Option Image) (base im : Image) (recs : List (Nat × Nat)) : Kept s (State.buildPlan s unc old base im recs).1 := by
  unfold State.buildPlan
  repeat' first
    | (with_reducible exact Kept.refl _)
    | (with_reducible assumption)
    | (extract_lets +onlyGivenNames x; obtain ⟨_, e⟩ : ∃ α, TyOf x = (State × α) := (by with_reducible exact ⟨_, rfl⟩); clear e; with_reducible apply Kept.use x.1; (on_goal 1 => dsimp -zeta only [x]; clear x); (on_goal 2 => intro h; clear_value x; revert x; intro _ _))
    | (extract_lets +onlyGivenNames x; clear_value x; revert x; intro _)
    | (with_reducible apply Kept.after (State.copyObj_kept _ _ _ _))
    | split

theorem State.buildImage_kept (s : State) (unc : Bool) (old : Option Image) (k : Int) (base : Image) (recs : List (Nat × Nat)) : Kept s (State.buildImage s unc old k base recs).1 := by
  unfold State.buildImage
  repeat' first
    | (with_reducible exact Kept.refl _)
    | (with_reducible assumption)
    | (extract_lets +onlyGivenNames x; have e : TyOf x = State := (by with_reducible rfl); clear e; with_reducible apply Kept.use x; (on_goal 1 => dsimp -zeta only [x]; clear x); (on_goal 2 => intro h; clear_value x; revert x; intro _ _))
    | (extract_lets +onlyGivenNames x; obtain ⟨_, e⟩ : ∃ α, TyOf x = (State × α) := (by with_reducible exact ⟨_, rfl⟩); clear e; with_reducible apply Kept.use x.1; (on_goal 1 => dsimp -zeta only [x]; clear x); (on_goal 2 => intro h; clear_value x; revert x; intro _ _))
    | (extract_lets +onlyGivenNames x; clear_value x; revert x; intro _)
    | (with_reducible apply Kept.after (State.buildPlan_kept _ _ _ _ _ _))
    | (with_reducible apply Kept.after (State.copyProgs_kept _ _ _ _))
    | (with_reducible apply Kept.after (State.copyWeights_kept _ _ _ _ _ _))

theorem State.clampReports_kept (s : State) (l : List Report) : Kept s (State.clampReports s l) := by
  unfold State.clampReports
  repeat' first
    | (with_reducible exact Kept.refl _)
    | (extract_lets +onlyGivenNames x; clear_value x; revert x; intro _)
    | (with_reducible apply Kept.after (State.emitScript_kept _ _ _ _))
    | (with_reducible apply Kept.after (State.pulse_kept _ _))
    | (with_reducible apply Kept.after (State.each_kept ?_ _ _))
    | (intro _)

theorem State.loadBank_kept (s : State) (im : Image) (k : Int) (c : Nat) : Kept s (State.loadBank s im k c) := by
  unfold State.loadBank
  repeat' first
    | (with_reducible exact Kept.refl _)
    | (extract_lets +onlyGivenNames x; clear_value x; revert x; intro _)
    | (with_reducible apply Kept.after (State.setCluster_kept _ _ _))
    | (with_reducible apply Kept.after (State.setF_kept _ _ _))

theorem State.dropSwap_kept (s : State) (c : Nat) : Kept s (State.dropSwap s c) := by
  unfold State.dropSwap
  repeat' first
    | (with_reducible exact Kept.refl _)
    | (extract_lets +onlyGivenNames x; clear_value x; revert x; intro _)
    | (with_reducible apply Kept.after (State.setCluster_kept _ _ _))
    | (with_reducible apply Kept.after (State.setF_kept _ _ _))

theorem State.idleFields_kept (s : State) : Kept s (State.idleFields s) := by
  unfold State.idleFields
  repeat' first
    | (with_reducible exact Kept.refl _)
    | (with_reducible assumption)
    | (extract_lets +onlyGivenNames x; have e : TyOf x = State := (by with_reducible rfl); clear e; with_reducible apply Kept.use x; (on_goal 1 => dsimp -zeta only [x]; clear x); (on_goal 2 => intro h; clear_value x; revert x; intro _ _))
    | (extract_lets +onlyGivenNames x; clear_value x; revert x; intro _)
    | (with_reducible apply Kept.after (State.idleEgq_kept _))
    | (with_reducible apply Kept.after (State.idleHalves_kept _))
    | (with_reducible rfl)
    | (with_reducible exact fun h => h)
    | (with_reducible exact fun h => ⟨h, rfl⟩)
    | (with_reducible apply Kept.after (Kept.parts _ ?_ ?_ ?_ ?_ ?_ ?_ ?_))

theorem State.applied_kept (s : State) (im : Image) (k : Int) : Kept s (State.applied s im k) := by
  unfold State.applied
  repeat' first
    | (with_reducible exact Kept.refl _)
    | (with_reducible apply Kept.after (State.attn_kept _ _))
    | (with_reducible apply Kept.after (State.emitScript_kept _ _ _ _))
    | (with_reducible apply Kept.after (State.idleFields_kept _))
    | (with_reducible apply Kept.after (State.pulse_kept _ _))

theorem State.applyNow_kept (s : State) (im : Image) (k : Int) : Kept s (State.applyNow s im k) := by
  unfold State.applyNow
  repeat' first
    | (with_reducible exact Kept.refl _)
    | (extract_lets +onlyGivenNames x; clear_value x; revert x; intro _)
    | (with_reducible apply Kept.after (State.applied_kept _ _ _))
    | (with_reducible apply Kept.after (State.cueRewire_kept _ _ _))
    | (with_reducible rfl)
    | (with_reducible exact fun h => h)
    | (with_reducible exact fun h => ⟨h, rfl⟩)
    | (with_reducible apply Kept.after (Kept.parts _ ?_ ?_ ?_ ?_ ?_ ?_ ?_))

theorem State.supersede_kept (s : State) (k : Int) : Kept s (State.supersede s k) := by
  unfold State.supersede
  repeat' first
    | (with_reducible exact Kept.refl _)
    | (with_reducible assumption)
    | (extract_lets +onlyGivenNames x; have e : TyOf x = State := (by with_reducible rfl); clear e; with_reducible apply Kept.use x; (on_goal 1 => dsimp -zeta only [x]; clear x); (on_goal 2 => intro h; clear_value x; revert x; intro _ _))
    | (extract_lets +onlyGivenNames x; clear_value x; revert x; intro _)
    | (with_reducible apply Kept.after (State.emitScript_kept _ _ _ _))
    | (with_reducible apply Kept.after (State.each_kept ?_ _ _))
    | (with_reducible rfl)
    | (with_reducible exact fun h => h)
    | (with_reducible exact fun h => ⟨h, rfl⟩)
    | (intro _)
    | (with_reducible apply Kept.after (Kept.parts _ ?_ ?_ ?_ ?_ ?_ ?_ ?_))

theorem State.retarget_kept (s : State) (k : Int) : Kept s (State.retarget s k) := by
  unfold State.retarget
  repeat' first
    | (with_reducible exact Kept.refl _)
    | (extract_lets +onlyGivenNames x; clear_value x; revert x; intro _)
    | (with_reducible apply Kept.after (State.setCluster_kept _ _ _))
    | (with_reducible apply Kept.after (State.each_kept ?_ _ _))
    | (with_reducible apply Kept.ite)
    | (intro _)
    | split

theorem State.lockIn_kept (s : State) (im : Image) (k : Int) : Kept s (State.lockIn s im k) := by
  unfold State.lockIn
  repeat' first
    | (with_reducible exact Kept.refl _)
    | (with_reducible assumption)
    | (extract_lets +onlyGivenNames x; have e : TyOf x = State := (by with_reducible rfl); clear e; with_reducible apply Kept.use x; (on_goal 1 => dsimp -zeta only [x]; clear x); (on_goal 2 => intro h; clear_value x; revert x; intro _ _))
    | (extract_lets +onlyGivenNames x; clear_value x; revert x; intro _)
    | (with_reducible apply Kept.after (State.applied_kept _ _ _))
    | (with_reducible apply Kept.after (State.retarget_kept _ _))
    | (with_reducible apply Kept.after (State.supersede_kept _ _))
    | (with_reducible rfl)
    | (with_reducible exact fun h => h)
    | (with_reducible exact fun h => ⟨h, rfl⟩)
    | (with_reducible apply Kept.after (Kept.parts _ ?_ ?_ ?_ ?_ ?_ ?_ ?_))

theorem State.dropCommit_kept (s : State) (p : Pending) (code : Nat) : Kept s (State.dropCommit s p code) := by
  unfold State.dropCommit
  repeat' first
    | (with_reducible exact Kept.refl _)
    | (with_reducible assumption)
    | (extract_lets +onlyGivenNames x; have e : TyOf x = State := (by with_reducible rfl); clear e; with_reducible apply Kept.use x; (on_goal 1 => dsimp -zeta only [x]; clear x); (on_goal 2 => intro h; clear_value x; revert x; intro _ _))
    | (extract_lets +onlyGivenNames x; clear_value x; revert x; intro _)
    | (with_reducible apply Kept.after (State.dropSwap_kept _ _))
    | (with_reducible apply Kept.after (State.emitScript_kept _ _ _ _))
    | (with_reducible apply Kept.after (State.each_kept ?_ _ _))
    | (with_reducible rfl)
    | (with_reducible exact fun h => h)
    | (with_reducible exact fun h => ⟨h, rfl⟩)
    | (intro _)
    | (with_reducible apply Kept.after (Kept.parts _ ?_ ?_ ?_ ?_ ?_ ?_ ?_))

theorem State.recheck_kept (s : State) (p : Pending) : Kept s (State.recheck s p) := by
  unfold State.recheck
  repeat' first
    | (with_reducible exact Kept.refl _)
    | (with_reducible assumption)
    | (extract_lets +onlyGivenNames x; have e : TyOf x = State := (by with_reducible rfl); clear e; with_reducible apply Kept.use x; (on_goal 1 => dsimp -zeta only [x]; clear x); (on_goal 2 => intro h; clear_value x; revert x; intro _ _))
    | (extract_lets +onlyGivenNames x; obtain ⟨_, e⟩ : ∃ α, TyOf x = (State × α) := (by with_reducible exact ⟨_, rfl⟩); clear e; with_reducible apply Kept.use x.1; (on_goal 1 => dsimp -zeta only [x]; clear x); (on_goal 2 => intro h; clear_value x; revert x; intro _ _))
    | (extract_lets +onlyGivenNames x; clear_value x; revert x; intro _)
    | (with_reducible apply Kept.after (State.buildImage_kept _ _ _ _ _ _))
    | (with_reducible apply Kept.after (State.clampReports_kept _ _))
    | (with_reducible apply Kept.after (State.dropCommit_kept _ _ _))
    | (with_reducible apply Kept.after (State.dropSwap_kept _ _))
    | (with_reducible apply Kept.after (State.loadBank_kept _ _ _ _))
    | (with_reducible apply Kept.after (State.lockIn_kept _ _ _))
    | (with_reducible apply Kept.after (State.each_kept ?_ _ _))
    | (with_reducible apply Kept.ite)
    | (intro _)

theorem State.stage_kept (s : State) (id v : Nat) : Kept s (State.stage s id v) := by
  unfold State.stage
  repeat' first
    | (with_reducible exact Kept.refl _)
    | (extract_lets +onlyGivenNames x; clear_value x; revert x; intro _)
    | (with_reducible rfl)
    | (with_reducible exact fun h => h)
    | (with_reducible exact fun h => ⟨h, rfl⟩)
    | (with_reducible apply Kept.after (Kept.parts _ ?_ ?_ ?_ ?_ ?_ ?_ ?_))

theorem State.loadRecords_kept (k : Nat) (s : State) (data : List Byte) (len pos n : Nat) :
    Kept s (State.loadRecords k s data len pos n).1 := by
  induction k generalizing s pos n with
  | zero => exact Kept.refl s
  | succ k ih =>
    rw [State.loadRecords]
    refine Kept.fst_ite (fun _ => Kept.refl s) (fun _ => ?_)
    refine Kept.fst_ite (fun _ => Kept.refl s) (fun _ => ?_)
    extract_lets h id l next
    refine Kept.fst_ite (fun _ => Kept.refl s) (fun _ => ?_)
    refine Kept.fst_ite (fun _ => Kept.refl s) (fun _ => ?_)
    split
    · exact (State.emitScript_kept s _ _ _).trans (ih _ _ _)
    · refine Kept.fst_ite (fun _ => (State.emitScript_kept s _ _ _).trans (ih _ _ _)) (fun _ => ?_)
      refine Kept.fst_ite (fun _ => Kept.refl s) (fun _ => ?_)
      refine Kept.fst_ite (fun _ => Kept.refl s) (fun _ => ?_)
      exact (State.stage_kept s _ _).trans (ih _ _ _)

theorem State.clearAttn_kept (s : State) : Kept s (State.clearAttn s) := by
  unfold State.clearAttn
  repeat' first
    | (with_reducible exact Kept.refl _)
    | (with_reducible apply Kept.after (State.drive_kept _ _ _))
    | (with_reducible apply Kept.after (State.setF_kept _ _ _))

theorem State.rollGo_kept (s : State) (code : Nat) : Kept s (State.rollGo s code) := by
  unfold State.rollGo
  repeat' first
    | (with_reducible exact Kept.refl _)
    | (with_reducible assumption)
    | (extract_lets +onlyGivenNames x; have e : TyOf x = State := (by with_reducible rfl); clear e; with_reducible apply Kept.use x; (on_goal 1 => dsimp -zeta only [x]; clear x); (on_goal 2 => intro h; clear_value x; revert x; intro _ _))
    | (extract_lets +onlyGivenNames x; clear_value x; revert x; intro _)
    | (with_reducible apply Kept.after (State.send_kept _ _))
    | (with_reducible apply Kept.after (State.setF_kept _ _ _))
    | (with_reducible apply Kept.ite)
    | (with_reducible rfl)
    | (with_reducible exact fun h => h)
    | (with_reducible exact fun h => ⟨h, rfl⟩)
    | (intro _)
    | (with_reducible apply Kept.after (Kept.parts _ ?_ ?_ ?_ ?_ ?_ ?_ ?_))

/-! ## Script -/

theorem State.commitTake_kept (s : State) (r : Nat) (e : Exec) (k : Int) (base im : Image) (reports : List (Nat × Nat × Nat × Nat))
    (cs : List Nat) : Kept s (State.commitTake s r e k base im reports cs) := by
  unfold State.commitTake
  repeat' first
    | (with_reducible exact Kept.refl _)
    | (with_reducible assumption)
    | (extract_lets +onlyGivenNames x; have e : TyOf x = State := (by with_reducible rfl); clear e; with_reducible apply Kept.use x; (on_goal 1 => dsimp -zeta only [x]; clear x); (on_goal 2 => intro h; clear_value x; revert x; intro _ _))
    | (extract_lets +onlyGivenNames x; clear_value x; revert x; intro _)
    | (with_reducible apply Kept.after (State.applyNow_kept _ _ _))
    | (with_reducible apply Kept.after (State.complete_kept _ _ _ _ _ _))
    | (with_reducible apply Kept.after (State.loadBank_kept _ _ _ _))
    | (with_reducible apply Kept.after (State.each_kept ?_ _ _))
    | (with_reducible apply Kept.ite)
    | (with_reducible rfl)
    | (with_reducible exact fun h => h)
    | (with_reducible exact fun h => ⟨h, rfl⟩)
    | (intro _)
    | (with_reducible apply Kept.after (Kept.parts _ ?_ ?_ ?_ ?_ ?_ ?_ ?_))

theorem State.commitBuild_kept (s : State) (r : Nat) (e : Exec) (k : Int) (sig : List Byte) (uncorrectable : Bool) : Kept s (State.commitBuild s r e k sig uncorrectable) := by
  unfold State.commitBuild
  repeat' first
    | (with_reducible exact Kept.refl _)
    | (with_reducible assumption)
    | (extract_lets +onlyGivenNames x; have e : TyOf x = State := (by with_reducible rfl); clear e; with_reducible apply Kept.use x; (on_goal 1 => dsimp -zeta only [x]; clear x); (on_goal 2 => intro h; clear_value x; revert x; intro _ _))
    | (extract_lets +onlyGivenNames x; obtain ⟨_, e⟩ : ∃ α, TyOf x = (State × α) := (by with_reducible exact ⟨_, rfl⟩); clear e; with_reducible apply Kept.use x.1; (on_goal 1 => dsimp -zeta only [x]; clear x); (on_goal 2 => intro h; clear_value x; revert x; intro _ _))
    | (extract_lets +onlyGivenNames x; clear_value x; revert x; intro _)
    | (with_reducible apply Kept.after (State.buildImage_kept _ _ _ _ _ _))
    | (with_reducible apply Kept.after (State.clampReports_kept _ _))
    | (with_reducible apply Kept.after (State.commitTake_kept _ _ _ _ _ _ _ _))
    | (with_reducible apply Kept.after (State.complete_kept _ _ _ _ _ _))
    | (with_reducible apply Kept.after (State.finish_kept _ _ _ _))
    | (with_reducible apply Kept.ite)
    | (intro _)

/-! ## Time -/

theorem State.setDom_kept (s : State) (d : Nat) (x : Dom) : Kept s (State.setDom s d x) := by
  unfold State.setDom
  repeat' first
    | (with_reducible exact Kept.refl _)
    | (extract_lets +onlyGivenNames x; clear_value x; revert x; intro _)
    | (with_reducible rfl)
    | (with_reducible exact fun h => h)
    | (with_reducible exact fun h => ⟨h, rfl⟩)
    | (with_reducible apply Kept.after (Kept.parts _ ?_ ?_ ?_ ?_ ?_ ?_ ?_))

theorem State.setFreq_kept (s : State) (f : Int) : Kept s (State.setFreq s f) := by
  unfold State.setFreq
  repeat' first
    | (with_reducible exact Kept.refl _)
    | (extract_lets +onlyGivenNames x; have e : TyOf x = Clk := (by with_reducible rfl); clear e; dsimp -zeta only [x]; clear x)
    | (extract_lets +onlyGivenNames x; clear_value x; revert x; intro _)
    | (with_reducible rfl)
    | (with_reducible exact fun h => h)
    | (with_reducible exact fun h => ⟨h, rfl⟩)
    | (with_reducible apply Kept.after (Kept.parts _ ?_ ?_ ?_ ?_ ?_ ?_ ?_))

theorem State.servoState_kept (s : State) (new : Nat) : Kept s (State.servoState s new) := by
  unfold State.servoState
  repeat' first
    | (with_reducible exact Kept.refl _)
    | (with_reducible assumption)
    | (extract_lets +onlyGivenNames x; have e : TyOf x = State := (by with_reducible rfl); clear e; with_reducible apply Kept.use x; (on_goal 1 => dsimp -zeta only [x]; clear x); (on_goal 2 => intro h; clear_value x; revert x; intro _ _))
    | (extract_lets +onlyGivenNames x; have e : TyOf x = Clk := (by with_reducible rfl); clear e; dsimp -zeta only [x]; clear x)
    | (extract_lets +onlyGivenNames x; clear_value x; revert x; intro _)
    | (with_reducible apply Kept.after (State.drive_kept _ _ _))
    | (with_reducible apply Kept.after (State.emit_kept _ _ _ _ _ _))
    | (with_reducible apply Kept.after (State.hckLinks_kept _))
    | (with_reducible apply Kept.after (State.putBit_kept _ _ _ _))
    | (with_reducible apply Kept.after (State.setF_kept _ _ _))
    | (with_reducible apply Kept.after (State.setFreq_kept _ _))
    | (with_reducible apply Kept.ite)
    | (with_reducible rfl)
    | (with_reducible exact fun h => h)
    | (with_reducible exact fun h => ⟨h, rfl⟩)
    | (intro _)
    | (with_reducible apply Kept.after (Kept.parts _ ?_ ?_ ?_ ?_ ?_ ?_ ?_))

theorem State.slewAway_kept (s : State) (o : Int) : Kept s (State.slewAway s o) := by
  unfold State.slewAway
  repeat' first
    | (with_reducible exact Kept.refl _)
    | (with_reducible assumption)
    | (extract_lets +onlyGivenNames x; have e : TyOf x = State := (by with_reducible rfl); clear e; with_reducible apply Kept.use x; (on_goal 1 => dsimp -zeta only [x]; clear x); (on_goal 2 => intro h; clear_value x; revert x; intro _ _))
    | (extract_lets +onlyGivenNames x; have e : TyOf x = Clk := (by with_reducible rfl); clear e; dsimp -zeta only [x]; clear x)
    | (extract_lets +onlyGivenNames x; clear_value x; revert x; intro _)
    | (with_reducible apply Kept.after (State.setF_kept _ _ _))
    | (with_reducible rfl)
    | (with_reducible exact fun h => h)
    | (with_reducible exact fun h => ⟨h, rfl⟩)
    | split
    | (with_reducible apply Kept.after (Kept.parts _ ?_ ?_ ?_ ?_ ?_ ?_ ?_))

theorem State.domainSwitch_kept (s : State) (d cause : Nat) : Kept s (State.domainSwitch s d cause) := by
  unfold State.domainSwitch
  repeat' first
    | (with_reducible exact Kept.refl _)
    | (with_reducible assumption)
    | (extract_lets +onlyGivenNames x; have e : TyOf x = State := (by with_reducible rfl); clear e; with_reducible apply Kept.use x; (on_goal 1 => dsimp -zeta only [x]; clear x); (on_goal 2 => intro h; clear_value x; revert x; intro _ _))
    | (extract_lets +onlyGivenNames x; clear_value x; revert x; intro _)
    | (with_reducible apply Kept.after (State.emit_kept _ _ _ _ _ _))
    | (with_reducible apply Kept.after (State.pulse_kept _ _))
    | (with_reducible apply Kept.after (State.putBit_kept _ _ _ _))
    | (with_reducible apply Kept.after (State.setF_kept _ _ _))
    | (with_reducible apply Kept.after (State.setS_kept _ _ _))
    | (with_reducible apply Kept.after (State.slewAway_kept _ _))
    | (with_reducible rfl)
    | (with_reducible exact fun h => h)
    | (with_reducible exact fun h => ⟨h, rfl⟩)
    | (with_reducible apply Kept.after (Kept.parts _ ?_ ?_ ?_ ?_ ?_ ?_ ?_))

theorem State.refreshDomains_kept (s : State) : Kept s (State.refreshDomains s) := by
  unfold State.refreshDomains
  repeat' first
    | (with_reducible exact Kept.refl _)
    | (with_reducible assumption)
    | (extract_lets +onlyGivenNames x; have e : TyOf x = State := (by with_reducible rfl); clear e; with_reducible apply Kept.use x; (on_goal 1 => dsimp -zeta only [x]; clear x); (on_goal 2 => intro h; clear_value x; revert x; intro _ _))
    | (extract_lets +onlyGivenNames x; clear_value x; revert x; intro _)
    | (with_reducible apply Kept.after (State.domainSwitch_kept _ _ _))
    | (with_reducible apply Kept.after (State.servoState_kept _ _))
    | (with_reducible apply Kept.after (State.setF_kept _ _ _))
    | (with_reducible apply Kept.after (State.startTimer_kept _ _))
    | (with_reducible apply Kept.after (State.each_kept ?_ _ _))
    | (with_reducible apply Kept.ite)
    | (intro _)

theorem State.taiStep_kept (s : State) (d : Int) : Kept s (State.taiStep s d) := by
  unfold State.taiStep
  repeat' first
    | (with_reducible exact Kept.refl _)
    | (with_reducible assumption)
    | (extract_lets +onlyGivenNames x; have e : TyOf x = State := (by with_reducible rfl); clear e; with_reducible apply Kept.use x; (on_goal 1 => dsimp -zeta only [x]; clear x); (on_goal 2 => intro h; clear_value x; revert x; intro _ _))
    | (extract_lets +onlyGivenNames x; have e : TyOf x = Clk := (by with_reducible rfl); clear e; dsimp -zeta only [x]; clear x)
    | (extract_lets +onlyGivenNames x; clear_value x; revert x; intro _)
    | (with_reducible apply Kept.after (State.pulse_kept _ _))
    | (with_reducible rfl)
    | (with_reducible exact fun h => h)
    | (with_reducible exact fun h => ⟨h, rfl⟩)
    | (with_reducible apply Kept.after (Kept.parts _ ?_ ?_ ?_ ?_ ?_ ?_ ?_))

theorem State.cmpNext_kept (s : State) (u : Nat) : Kept s (State.cmpNext s u) := by
  unfold State.cmpNext
  repeat' first
    | (with_reducible exact Kept.refl _)
    | (extract_lets +onlyGivenNames x; clear_value x; revert x; intro _)
    | (with_reducible apply Kept.after (State.setF_kept _ _ _))
    | (with_reducible apply Kept.ite)
    | (intro _)

theorem State.cmpFire_kept (s : State) (u : Nat) : Kept s (State.cmpFire s u) := by
  unfold State.cmpFire
  repeat' first
    | (with_reducible exact Kept.refl _)
    | (with_reducible assumption)
    | (extract_lets +onlyGivenNames x; have e : TyOf x = State := (by with_reducible rfl); clear e; with_reducible apply Kept.use x; (on_goal 1 => dsimp -zeta only [x]; clear x); (on_goal 2 => intro h; clear_value x; revert x; intro _ _))
    | (extract_lets +onlyGivenNames x; clear_value x; revert x; intro _)
    | (with_reducible apply Kept.after (State.advanceTo_kept _ _))
    | (with_reducible apply Kept.after (State.cmpNext_kept _ _))
    | (with_reducible apply Kept.after (State.cmpNote_kept _ _))
    | (with_reducible apply Kept.after (State.emit_kept _ _ _ _ _ _))
    | (with_reducible apply Kept.after (State.pulseWith_kept _ _ _))
    | (with_reducible apply Kept.after (State.putBit_kept _ _ _ _))
    | (with_reducible apply Kept.after (State.runCycles_kept _ _))
    | (with_reducible apply Kept.after (State.setF_kept _ _ _))
    | (with_reducible apply Kept.ite)
    | (with_reducible rfl)
    | (with_reducible exact fun h => h)
    | (with_reducible exact fun h => ⟨h, rfl⟩)
    | (intro _)
    | (with_reducible apply Kept.after (Kept.parts _ ?_ ?_ ?_ ?_ ?_ ?_ ?_))

theorem State.snapshot_kept (s : State) : Kept s (State.snapshot s) := by
  unfold State.snapshot
  repeat' first
    | (with_reducible exact Kept.refl _)
    | (with_reducible assumption)
    | (extract_lets +onlyGivenNames x; have e : TyOf x = State := (by with_reducible rfl); clear e; with_reducible apply Kept.use x; (on_goal 1 => dsimp -zeta only [x]; clear x); (on_goal 2 => intro h; clear_value x; revert x; intro _ _))
    | (extract_lets +onlyGivenNames x; have e : TyOf x = HostU := (by with_reducible rfl); clear e; dsimp -zeta only [x]; clear x)
    | (extract_lets +onlyGivenNames x; clear_value x; revert x; intro _)
    | (with_reducible apply Kept.after (State.setF_kept _ _ _))
    | (with_reducible rfl)
    | (with_reducible exact fun h => h)
    | (with_reducible exact fun h => ⟨h, rfl⟩)
    | (with_reducible apply Kept.after (Kept.parts _ ?_ ?_ ?_ ?_ ?_ ?_ ?_))

theorem State.epochLoad_kept (s : State) : Kept s (State.epochLoad s) := by
  unfold State.epochLoad
  repeat' first
    | (with_reducible exact Kept.refl _)
    | (with_reducible assumption)
    | (extract_lets +onlyGivenNames x; have e : TyOf x = State := (by with_reducible rfl); clear e; with_reducible apply Kept.use x; (on_goal 1 => dsimp -zeta only [x]; clear x); (on_goal 2 => intro h; clear_value x; revert x; intro _ _))
    | (extract_lets +onlyGivenNames x; have e : TyOf x = Clk := (by with_reducible rfl); clear e; dsimp -zeta only [x]; clear x)
    | (extract_lets +onlyGivenNames x; clear_value x; revert x; intro _)
    | (with_reducible apply Kept.after (State.setF_kept _ _ _))
    | (with_reducible apply Kept.after (State.setS_kept _ _ _))
    | (with_reducible rfl)
    | (with_reducible exact fun h => h)
    | (with_reducible exact fun h => ⟨h, rfl⟩)
    | (with_reducible apply Kept.after (Kept.parts _ ?_ ?_ ?_ ?_ ?_ ?_ ?_))

theorem State.epochBegin_kept (s : State) : Kept s (State.epochBegin s) := by
  unfold State.epochBegin
  repeat' first
    | (with_reducible exact Kept.refl _)
    | (with_reducible assumption)
    | (extract_lets +onlyGivenNames x; have e : TyOf x = State := (by with_reducible rfl); clear e; with_reducible apply Kept.use x; (on_goal 1 => dsimp -zeta only [x]; clear x); (on_goal 2 => intro h; clear_value x; revert x; intro _ _))
    | (with_reducible apply Kept.after (State.cmpNoteAll_kept _))
    | (with_reducible apply Kept.after (State.emit_kept _ _ _ _ _ _))
    | (with_reducible apply Kept.after (State.epochLoad_kept _))
    | (with_reducible apply Kept.after (State.hckMark_kept _))
    | (with_reducible apply Kept.after (State.pulse_kept _ _))
    | (with_reducible apply Kept.after (State.putBit_kept _ _ _ _))
    | (with_reducible rfl)
    | (with_reducible exact fun h => h)
    | (with_reducible exact fun h => ⟨h, rfl⟩)
    | (with_reducible apply Kept.after (Kept.parts _ ?_ ?_ ?_ ?_ ?_ ?_ ?_))

theorem State.epochClear_kept (s : State) : Kept s (State.epochClear s) := by
  unfold State.epochClear
  repeat' first
    | (with_reducible exact Kept.refl _)
    | (with_reducible apply Kept.after (State.putBit_kept _ _ _ _))
    | (with_reducible apply Kept.after (State.setF_kept _ _ _))
    | (with_reducible apply Kept.ite)
    | (intro _)

theorem State.epsRecord_kept (s : State) : Kept s (State.epsRecord s) := by
  unfold State.epsRecord
  repeat' first
    | (with_reducible exact Kept.refl _)
    | (with_reducible assumption)
    | (extract_lets +onlyGivenNames x; have e : TyOf x = State := (by with_reducible rfl); clear e; with_reducible apply Kept.use x; (on_goal 1 => dsimp -zeta only [x]; clear x); (on_goal 2 => intro h; clear_value x; revert x; intro _ _))
    | (extract_lets +onlyGivenNames x; clear_value x; revert x; intro _)
    | (with_reducible apply Kept.after (State.emit_kept _ _ _ _ _ _))
    | (with_reducible apply Kept.after (State.putBit_kept _ _ _ _))
    | (with_reducible apply Kept.ite)
    | (with_reducible rfl)
    | (with_reducible exact fun h => h)
    | (with_reducible exact fun h => ⟨h, rfl⟩)
    | (intro _)
    | (with_reducible apply Kept.after (Kept.parts _ ?_ ?_ ?_ ?_ ?_ ?_ ?_))

theorem State.armedStep_kept (s : State) (d : Nat) (o : Int) : Kept s (State.armedStep s d o) := by
  unfold State.armedStep
  repeat' first
    | (with_reducible exact Kept.refl _)
    | (with_reducible assumption)
    | (extract_lets +onlyGivenNames x; have e : TyOf x = State := (by with_reducible rfl); clear e; with_reducible apply Kept.use x; (on_goal 1 => dsimp -zeta only [x]; clear x); (on_goal 2 => intro h; clear_value x; revert x; intro _ _))
    | (with_reducible apply Kept.after (State.emit_kept _ _ _ _ _ _))
    | (with_reducible apply Kept.after (State.putBit_kept _ _ _ _))
    | (with_reducible apply Kept.after (State.raise_kept _ _ _ _ _))
    | (with_reducible apply Kept.after (State.setF_kept _ _ _))
    | (with_reducible apply Kept.after (State.taiStep_kept _ _))

theorem State.faultyDomain_kept (s : State) (d : Nat) (o : Int) : Kept s (State.faultyDomain s d o) := by
  unfold State.faultyDomain
  repeat' first
    | (with_reducible exact Kept.refl _)
    | (with_reducible apply Kept.after (State.emit_kept _ _ _ _ _ _))
    | (with_reducible apply Kept.after (State.putBit_kept _ _ _ _))

theorem State.judgeOffset_kept (s : State) (d : Nat) (o : Int) : Kept s (State.judgeOffset s d o) := by
  unfold State.judgeOffset
  repeat' first
    | (with_reducible exact Kept.refl _)
    | (with_reducible assumption)
    | (extract_lets +onlyGivenNames x; have e : TyOf x = State := (by with_reducible rfl); clear e; with_reducible apply Kept.use x; (on_goal 1 => dsimp -zeta only [x]; clear x); (on_goal 2 => intro h; clear_value x; revert x; intro _ _))
    | (extract_lets +onlyGivenNames x; clear_value x; revert x; intro _)
    | (with_reducible apply Kept.after (State.armedStep_kept _ _ _))
    | (with_reducible apply Kept.after (State.faultyDomain_kept _ _ _))
    | (with_reducible apply Kept.after (State.taiStep_kept _ _))
    | (with_reducible apply Kept.ite)
    | (with_reducible rfl)
    | (with_reducible exact fun h => h)
    | (with_reducible exact fun h => ⟨h, rfl⟩)
    | (intro _)
    | (with_reducible apply Kept.after (Kept.parts _ ?_ ?_ ?_ ?_ ?_ ?_ ?_))

theorem State.showDomOfs_kept (s : State) : Kept s (State.showDomOfs s) := by
  unfold State.showDomOfs
  repeat' first
    | (with_reducible exact Kept.refl _)
    | (with_reducible apply Kept.after (State.setS_kept _ _ _))
    | (with_reducible apply Kept.ite)
    | (intro _)

theorem State.steer_kept (s : State) (o : Int) (sync : Bool) : Kept s (State.steer s o sync) := by
  unfold State.steer
  repeat' first
    | (with_reducible exact Kept.refl _)
    | (with_reducible assumption)
    | (extract_lets +onlyGivenNames x; have e : TyOf x = State := (by with_reducible rfl); clear e; with_reducible apply Kept.use x; (on_goal 1 => dsimp -zeta only [x]; clear x); (on_goal 2 => intro h; clear_value x; revert x; intro _ _))
    | (extract_lets +onlyGivenNames x; clear_value x; revert x; intro _)
    | (with_reducible apply Kept.after (State.drew_kept _))
    | (with_reducible apply Kept.after (State.servoState_kept _ _))
    | (with_reducible apply Kept.after (State.setFreq_kept _ _))
    | (with_reducible apply Kept.after (State.setS_kept _ _ _))
    | (with_reducible apply Kept.ite)
    | (with_reducible rfl)
    | (with_reducible exact fun h => h)
    | (with_reducible exact fun h => ⟨h, rfl⟩)
    | (intro _)
    | (with_reducible apply Kept.after (Kept.parts _ ?_ ?_ ?_ ?_ ?_ ?_ ?_))

theorem State.followSlew_kept (s : State) (d : Nat) (o : Int) : Kept s (State.followSlew s d o) := by
  unfold State.followSlew
  repeat' first
    | (with_reducible exact Kept.refl _)
    | (extract_lets +onlyGivenNames x; clear_value x; revert x; intro _)
    | (with_reducible apply Kept.after (State.setDom_kept _ _ _))
    | (with_reducible apply Kept.after (State.slewAway_kept _ _))
    | (with_reducible apply Kept.ite)
    | (with_reducible rfl)
    | (with_reducible exact fun h => h)
    | (with_reducible exact fun h => ⟨h, rfl⟩)
    | (intro _)
    | (with_reducible apply Kept.after (Kept.parts _ ?_ ?_ ?_ ?_ ?_ ?_ ?_))

theorem State.withinLimit_kept (s : State) (d : Nat) (o : Int) : Kept s (State.withinLimit s d o) := by
  unfold State.withinLimit
  repeat' first
    | (with_reducible exact Kept.refl _)
    | (with_reducible apply Kept.after (State.startTimer_kept _ _))
    | (with_reducible apply Kept.after (State.stopTimer_kept _ _))
    | (with_reducible apply Kept.ite)
    | (intro _)

theorem State.measured_kept (s : State) (d : Nat) (o : Int) (sync : Bool) : Kept s (State.measured s d o sync) := by
  unfold State.measured
  repeat' first
    | (with_reducible exact Kept.refl _)
    | (with_reducible assumption)
    | (extract_lets +onlyGivenNames x; have e : TyOf x = State := (by with_reducible rfl); clear e; with_reducible apply Kept.use x; (on_goal 1 => dsimp -zeta only [x]; clear x); (on_goal 2 => intro h; clear_value x; revert x; intro _ _))
    | (extract_lets +onlyGivenNames x; clear_value x; revert x; intro _)
    | (with_reducible apply Kept.after (State.cmpNoteAll_kept _))
    | (with_reducible apply Kept.after (State.followSlew_kept _ _ _))
    | (with_reducible apply Kept.after (State.judgeOffset_kept _ _ _))
    | (with_reducible apply Kept.after (State.refreshDomains_kept _))
    | (with_reducible apply Kept.after (State.setDom_kept _ _ _))
    | (with_reducible apply Kept.after (State.showDomOfs_kept _))
    | (with_reducible apply Kept.after (State.steer_kept _ _ _))
    | (with_reducible apply Kept.after (State.withinLimit_kept _ _ _))
    | (with_reducible apply Kept.ite)
    | (intro _)

theorem State.useMeasure_kept (s : State) (d : Nat) (sync : Bool) : Kept s (State.useMeasure s d sync) := by
  unfold State.useMeasure
  repeat' first
    | (with_reducible exact Kept.refl _)
    | (with_reducible apply Kept.after (State.measured_kept _ _ _ _))
    | split

theorem State.tcSend_kept (s : State) (p : Nat) (frame : PortFrame) (added : Int) : Kept s (State.tcSend s p frame added) := by
  unfold State.tcSend
  repeat' first
    | (with_reducible exact Kept.refl _)
    | (with_reducible apply Kept.after (State.send_kept _ _))

theorem State.dropResidence_kept (s : State) (key : Nat × PtpHeader × Nat) : Kept s (State.dropResidence s key) := by
  unfold State.dropResidence
  repeat' first
    | (with_reducible exact Kept.refl _)
    | (extract_lets +onlyGivenNames x; clear_value x; revert x; intro _)
    | (with_reducible rfl)
    | (with_reducible exact fun h => h)
    | (with_reducible exact fun h => ⟨h, rfl⟩)
    | (with_reducible apply Kept.after (Kept.parts _ ?_ ?_ ?_ ?_ ?_ ?_ ?_))

theorem State.tcForward_kept (s : State) (p : Nat) (frame : PortFrame) : Kept s (State.tcForward s p frame) := by
  unfold State.tcForward
  repeat' first
    | (with_reducible exact Kept.refl _)
    | (with_reducible assumption)
    | (extract_lets +onlyGivenNames x; have e : TyOf x = State := (by with_reducible rfl); clear e; with_reducible apply Kept.use x; (on_goal 1 => dsimp -zeta only [x]; clear x); (on_goal 2 => intro h; clear_value x; revert x; intro _ _))
    | (extract_lets +onlyGivenNames x; clear_value x; revert x; intro _)
    | (with_reducible apply Kept.after (State.drew_kept _))
    | (with_reducible apply Kept.after (State.dropResidence_kept _ _))
    | (with_reducible apply Kept.after (State.tcSend_kept _ _ _ _))
    | (with_reducible apply Kept.ite)
    | (with_reducible rfl)
    | (with_reducible exact fun h => h)
    | (with_reducible exact fun h => ⟨h, rfl⟩)
    | (intro _)
    | split
    | (with_reducible apply Kept.after (Kept.parts _ ?_ ?_ ?_ ?_ ?_ ?_ ?_))

theorem State.eachDom_kept (s : State) (ok : State → Nat → Bool) (f : State → Nat → State) (h : ∀ s d, Kept s (f s d)) :
    Kept s (State.eachDom s ok f) :=
  State.each_kept (fun s d => Kept.ite (fun _ => h s d) (fun _ => Kept.refl s)) s _

theorem State.syncDone_kept (s : State) (d p : Nat) (t1 t2 corr : Int) : Kept s (State.syncDone s d p t1 t2 corr) := by
  unfold State.syncDone
  repeat' first
    | (with_reducible exact Kept.refl _)
    | (extract_lets +onlyGivenNames x; clear_value x; revert x; intro _)
    | (with_reducible apply Kept.after (State.setDom_kept _ _ _))
    | (with_reducible apply Kept.after (State.useMeasure_kept _ _ _))

theorem State.delayDone_kept (s : State) (d p : Nat) (t3 t4 corr : Int) : Kept s (State.delayDone s d p t3 t4 corr) := by
  unfold State.delayDone
  repeat' first
    | (with_reducible exact Kept.refl _)
    | (with_reducible assumption)
    | (extract_lets +onlyGivenNames x; have e : TyOf x = State := (by with_reducible rfl); clear e; with_reducible apply Kept.use x; (on_goal 1 => dsimp -zeta only [x]; clear x); (on_goal 2 => intro h; clear_value x; revert x; intro _ _))
    | (extract_lets +onlyGivenNames x; clear_value x; revert x; intro _)
    | (with_reducible apply Kept.after (State.setDom_kept _ _ _))
    | (with_reducible apply Kept.after (State.useMeasure_kept _ _ _))
    | (with_reducible apply Kept.ite)
    | (intro _)

/-! ## RegView -/

theorem State.rxNow_kept (s : State) (base : Nat) : Kept s (State.rxNow s base) := by
  unfold State.rxNow
  repeat' first
    | (with_reducible exact Kept.refl _)
    | (extract_lets +onlyGivenNames x; clear_value x; revert x; intro _)
    | (with_reducible apply Kept.after (State.adaptNow_kept _ _ _))
    | (with_reducible apply Kept.ite)
    | (intro _)
    | split

theorem State.bump_kept (s : State) (f : Fld) (v : Nat) : Kept s (State.bump s f v) := by
  unfold State.bump
  repeat' first
    | (with_reducible exact Kept.refl _)
    | (with_reducible apply Kept.after (State.incF_kept _ _ _))
    | (with_reducible apply Kept.after (State.setF_kept _ _ _))
    | (with_reducible apply Kept.ite)
    | (intro _)

theorem State.readClear_kept (s : State) (base k size same : Nat) : Kept s (State.readClear s base k size same) := by
  unfold State.readClear
  repeat' first
    | (with_reducible exact Kept.refl _)
    | (with_reducible apply Kept.after (State.bump_kept _ _ _))
    | (with_reducible apply Kept.after (State.setF_kept _ _ _))
    | (with_reducible apply Kept.after (State.each_kept ?_ _ _))
    | (with_reducible apply Kept.ite)
    | (intro _)

theorem State.readReg_kept (s : State) (off size same : Nat) : Kept s (State.readReg s off size same) := by
  unfold State.readReg
  repeat' first
    | (with_reducible exact Kept.refl _)
    | (with_reducible assumption)
    | (extract_lets +onlyGivenNames x; have e : TyOf x = State := (by with_reducible rfl); clear e; with_reducible apply Kept.use x; (on_goal 1 => dsimp -zeta only [x]; clear x); (on_goal 2 => intro h; clear_value x; revert x; intro _ _))
    | (extract_lets +onlyGivenNames x; have e : TyOf x = HostU := (by with_reducible rfl); clear e; dsimp -zeta only [x]; clear x)
    | (extract_lets +onlyGivenNames x; clear_value x; revert x; intro _)
    | (with_reducible apply Kept.after (State.badAccess_kept _))
    | (with_reducible apply Kept.after (State.readClear_kept _ _ _ _ _))
    | (with_reducible apply Kept.after (State.rxNow_kept _ _))
    | (with_reducible apply Kept.after (State.snapshot_kept _))
    | (with_reducible apply Kept.ite)
    | (with_reducible rfl)
    | (with_reducible exact fun h => h)
    | (with_reducible exact fun h => ⟨h, rfl⟩)
    | (intro _)
    | (with_reducible apply Kept.after (Kept.parts _ ?_ ?_ ?_ ?_ ?_ ?_ ?_))

/-! ## Doe -/

theorem State.doeAnswer_kept (s : State) (a : DoeAnswer) : Kept s (State.doeAnswer s a) := by
  unfold State.doeAnswer
  repeat' first
    | (with_reducible exact Kept.refl _)
    | (extract_lets +onlyGivenNames x; have e : TyOf x = HostU := (by with_reducible rfl); clear e; dsimp -zeta only [x]; clear x)
    | (with_reducible apply Kept.after (State.send_kept _ _))
    | (with_reducible rfl)
    | (with_reducible exact fun h => h)
    | (with_reducible exact fun h => ⟨h, rfl⟩)
    | (with_reducible apply Kept.after (Kept.parts _ ?_ ?_ ?_ ?_ ?_ ?_ ?_))

theorem State.doeHandle_kept (s : State) (p : DoeProtocol) (code : Nat) (f : State → List Byte → State)
    (h : ∀ s l, Kept s (f s l)) : Kept s (State.doeHandle s p code f) := by
  unfold State.doeHandle
  split
  · exact Kept.refl s
  · exact State.whenever_kept (fun s => h s _) _ _

theorem State.drew4_kept (s : State) : Kept s (State.drew4 s) := by
  unfold State.drew4
  repeat' first
    | (with_reducible exact Kept.refl _)
    | (with_reducible rfl)
    | (with_reducible exact fun h => h)
    | (with_reducible exact fun h => ⟨h, rfl⟩)
    | (with_reducible exact Nat.le_add_right _ _)
    | (with_reducible apply Kept.after (Kept.parts _ ?_ ?_ ?_ ?_ ?_ ?_ ?_))

theorem State.openSession_kept (s : State) (ek : List Byte) (nonce : BitVec 256) : Kept s (State.openSession s ek nonce) := by
  unfold State.openSession
  repeat' first
    | (with_reducible exact Kept.refl _)
    | (with_reducible assumption)
    | (extract_lets +onlyGivenNames x; have e : TyOf x = State := (by with_reducible rfl); clear e; with_reducible apply Kept.use x; (on_goal 1 => dsimp -zeta only [x]; clear x); (on_goal 2 => intro h; clear_value x; revert x; intro _ _))
    | (extract_lets +onlyGivenNames x; have e : TyOf x = HostU := (by with_reducible rfl); clear e; dsimp -zeta only [x]; clear x)
    | (extract_lets +onlyGivenNames x; clear_value x; revert x; intro _)
    | (with_reducible apply Kept.after (State.doeAnswer_kept _ _))
    | (with_reducible apply Kept.after (State.drew4_kept _))
    | (with_reducible rfl)
    | (with_reducible exact fun h => h)
    | (with_reducible exact fun h => ⟨h, rfl⟩)
    | (with_reducible apply Kept.after (Kept.parts _ ?_ ?_ ?_ ?_ ?_ ?_ ?_))

/-! ## Mover -/

theorem State.linePut_kept (s : State) (line : Nat) (v : OutVect) (w : Option OutVect) : Kept s (State.linePut s line v w) := by
  unfold State.linePut
  repeat' first
    | (with_reducible exact Kept.refl _)
    | (extract_lets +onlyGivenNames x; clear_value x; revert x; intro _)
    | (with_reducible apply Kept.after (State.freeUnits_kept _ _ _ _))
    | (with_reducible apply Kept.after (State.setCluster_kept _ _ _))
    | (with_reducible apply Kept.ite)
    | (with_reducible rfl)
    | (with_reducible exact fun h => h)
    | (with_reducible exact fun h => ⟨h, rfl⟩)
    | (intro _)
    | split
    | (with_reducible apply Kept.after (Kept.parts _ ?_ ?_ ?_ ?_ ?_ ?_ ?_))

theorem State.lineTaken_kept (s : State) (line : Nat) (v : OutVect) : Kept s (State.lineTaken s line v) := by
  unfold State.lineTaken
  repeat' first
    | (with_reducible exact Kept.refl _)
    | (with_reducible apply Kept.after (State.linePut_kept _ _ _ _))

theorem State.movLine_kept (s : State) (m port a : Nat) (data : List Byte) (mask : Nat) : Kept s (State.movLine s m port a data mask) := by
  unfold State.movLine
  repeat' first
    | (with_reducible exact Kept.refl _)
    | (with_reducible apply Kept.after (State.addF_kept _ _ _))
    | (with_reducible apply Kept.after (State.agentWrite_kept _ _ _ _ _))

theorem State.ringLine_kept (s : State) (m port a : Nat) (v : OutVect) (b : Nat) (wide high : Bool) : Kept s (State.ringLine s m port a v b wide high) := by
  unfold State.ringLine
  repeat' first
    | (with_reducible exact Kept.refl _)
    | (extract_lets +onlyGivenNames x; clear_value x; revert x; intro _)
    | (with_reducible apply Kept.after (State.movLine_kept _ _ _ _ _ _))
    | (with_reducible rfl)
    | (with_reducible exact fun h => h)
    | (with_reducible exact fun h => ⟨h, rfl⟩)
    | (with_reducible apply Kept.after (Kept.parts _ ?_ ?_ ?_ ?_ ?_ ?_ ?_))

theorem State.streamDrop_kept (s : State) (m line dest : Nat) (lines : List Nat) : Kept s (State.streamDrop s m line dest lines) := by
  unfold State.streamDrop
  repeat' first
    | (with_reducible exact Kept.refl _)
    | (with_reducible assumption)
    | (extract_lets +onlyGivenNames x; have e : TyOf x = State := (by with_reducible rfl); clear e; with_reducible apply Kept.use x; (on_goal 1 => dsimp -zeta only [x]; clear x); (on_goal 2 => intro h; clear_value x; revert x; intro _ _))
    | (extract_lets +onlyGivenNames x; clear_value x; revert x; intro _)
    | (with_reducible apply Kept.after (State.emit_kept _ _ _ _ _ _))
    | (with_reducible apply Kept.after (State.incF_kept _ _ _))
    | (with_reducible apply Kept.after (State.raise_kept _ _ _ _ _))
    | (with_reducible apply Kept.after (State.each_kept ?_ _ _))
    | (with_reducible rfl)
    | (with_reducible exact fun h => h)
    | (with_reducible exact fun h => ⟨h, rfl⟩)
    | (intro _)
    | (with_reducible apply Kept.after (Kept.parts _ ?_ ?_ ?_ ?_ ?_ ?_ ?_))

theorem State.streamRetry_kept (s : State) (m n : Nat) : Kept s (State.streamRetry s m n).1 := by
  unfold State.streamRetry
  repeat' first
    | (with_reducible exact Kept.refl _)
    | (with_reducible apply Kept.after (State.incF_kept _ _ _))

theorem State.ringWritten_kept (s : State) (v : OutVect) : Kept s (State.ringWritten s v) := by
  unfold State.ringWritten
  repeat' first
    | (with_reducible exact Kept.refl _)
    | (extract_lets +onlyGivenNames x; clear_value x; revert x; intro _)
    | (with_reducible rfl)
    | (with_reducible exact fun h => h)
    | (with_reducible exact fun h => ⟨h, rfl⟩)
    | split
    | (with_reducible apply Kept.after (Kept.parts _ ?_ ?_ ?_ ?_ ?_ ?_ ?_))

theorem State.streamRing_kept (s : State) (m line : Nat) (v : OutVect) (failures : Nat) : Kept s (State.streamRing s m line v failures) := by
  unfold State.streamRing
  repeat' first
    | (with_reducible exact Kept.refl _)
    | (with_reducible assumption)
    | (extract_lets +onlyGivenNames x; have e : TyOf x = State := (by with_reducible rfl); clear e; with_reducible apply Kept.use x; (on_goal 1 => dsimp -zeta only [x]; clear x); (on_goal 2 => intro h; clear_value x; revert x; intro _ _))
    | (extract_lets +onlyGivenNames x; clear_value x; revert x; intro _)
    | (with_reducible apply Kept.after (State.incF_kept _ _ _))
    | (with_reducible apply Kept.after (State.linePut_kept _ _ _ _))
    | (with_reducible apply Kept.after (State.lineTaken_kept _ _ _))
    | (with_reducible apply Kept.after (State.raiseFor_kept _ _ _ _ _ _ _))
    | (with_reducible apply Kept.after (State.ringLine_kept _ _ _ _ _ _ _ _))
    | (with_reducible apply Kept.after (State.ringWritten_kept _ _))
    | (with_reducible apply Kept.after (State.streamDrop_kept _ _ _ _ _))
    | (with_reducible apply Kept.after (State.streamRetry_kept _ _ _))
    | (with_reducible apply Kept.after (State.takePage_kept _ _ _ _ _))
    | (with_reducible apply Kept.ite)
    | (with_reducible rfl)
    | (with_reducible exact fun h => h)
    | (with_reducible exact fun h => ⟨h, rfl⟩)
    | (intro _)
    | split
    | (with_reducible apply Kept.of_pair (by assumption))
    | (with_reducible apply Kept.after (Kept.parts _ ?_ ?_ ?_ ?_ ?_ ?_ ?_))

theorem State.bufReopen_kept (s : State) (j : Nat) (n : Int) : Kept s (State.bufReopen s j n) := by
  unfold State.bufReopen
  repeat' first
    | (with_reducible exact Kept.refl _)
    | (extract_lets +onlyGivenNames x; clear_value x; revert x; intro _)
    | (with_reducible apply Kept.after (State.orHeader_kept _ _ _))
    | (with_reducible apply Kept.ite)
    | (intro _)

theorem State.streamWindow_kept (s : State) (m line port : Nat) (v : OutVect) (failures : Nat) : Kept s (State.streamWindow s m line port v failures) := by
  unfold State.streamWindow
  repeat' first
    | (with_reducible exact Kept.refl _)
    | (with_reducible assumption)
    | (extract_lets +onlyGivenNames x; have e : TyOf x = State := (by with_reducible rfl); clear e; with_reducible apply Kept.use x; (on_goal 1 => dsimp -zeta only [x]; clear x); (on_goal 2 => intro h; clear_value x; revert x; intro _ _))
    | (extract_lets +onlyGivenNames x; clear_value x; revert x; intro _)
    | (with_reducible apply Kept.after (State.bufReopen_kept _ _ _))
    | (with_reducible apply Kept.after (State.incF_kept _ _ _))
    | (with_reducible apply Kept.after (State.linePut_kept _ _ _ _))
    | (with_reducible apply Kept.after (State.lineTaken_kept _ _ _))
    | (with_reducible apply Kept.after (State.movLine_kept _ _ _ _ _ _))
    | (with_reducible apply Kept.after (State.streamDrop_kept _ _ _ _ _))
    | (with_reducible apply Kept.after (State.streamRetry_kept _ _ _))
    | (with_reducible apply Kept.ite)
    | (intro _)
    | split
    | (with_reducible apply Kept.of_pair (by assumption))

theorem State.surplusEvent_kept (s : State) (m line a : Nat) : Kept s (State.surplusEvent s m line a) := by
  unfold State.surplusEvent
  repeat' first
    | (with_reducible exact Kept.refl _)
    | (with_reducible assumption)
    | (extract_lets +onlyGivenNames x; have e : TyOf x = State := (by with_reducible rfl); clear e; with_reducible apply Kept.use x; (on_goal 1 => dsimp -zeta only [x]; clear x); (on_goal 2 => intro h; clear_value x; revert x; intro _ _))
    | (extract_lets +onlyGivenNames x; clear_value x; revert x; intro _)
    | (with_reducible apply Kept.after (State.emitFor_kept _ _ _ _ _ _ _))
    | (with_reducible apply Kept.after (State.incF_kept _ _ _))
    | (with_reducible apply Kept.ite)
    | (with_reducible rfl)
    | (with_reducible exact fun h => h)
    | (with_reducible exact fun h => ⟨h, rfl⟩)
    | (intro _)
    | (with_reducible apply Kept.after (Kept.parts _ ?_ ?_ ?_ ?_ ?_ ?_ ?_))

theorem State.streamSurplus_kept (s : State) (m line : Nat) (v : OutVect) : Kept s (State.streamSurplus s m line v) := by
  unfold State.streamSurplus
  repeat' first
    | (with_reducible exact Kept.refl _)
    | (with_reducible assumption)
    | (extract_lets +onlyGivenNames x; have e : TyOf x = State := (by with_reducible rfl); clear e; with_reducible apply Kept.use x; (on_goal 1 => dsimp -zeta only [x]; clear x); (on_goal 2 => intro h; clear_value x; revert x; intro _ _))
    | (extract_lets +onlyGivenNames x; clear_value x; revert x; intro _)
    | (with_reducible apply Kept.after (State.drew_kept _))
    | (with_reducible apply Kept.after (State.linePut_kept _ _ _ _))
    | (with_reducible apply Kept.after (State.surplusEvent_kept _ _ _ _))
    | (with_reducible apply Kept.ite)
    | (intro _)

theorem State.streamServe_kept (s : State) (m line : Nat) (withdrawn : Bool) (failures : Nat) : Kept s (State.streamServe s m line withdrawn failures) := by
  unfold State.streamServe
  repeat' first
    | (with_reducible exact Kept.refl _)
    | (with_reducible assumption)
    | (extract_lets +onlyGivenNames x; have e : TyOf x = State := (by with_reducible rfl); clear e; with_reducible apply Kept.use x; (on_goal 1 => dsimp -zeta only [x]; clear x); (on_goal 2 => intro h; clear_value x; revert x; intro _ _))
    | (extract_lets +onlyGivenNames x; clear_value x; revert x; intro _)
    | (with_reducible apply Kept.after (State.linePut_kept _ _ _ _))
    | (with_reducible apply Kept.after (State.setMover_kept _ _ _))
    | (with_reducible apply Kept.after (State.streamRing_kept _ _ _ _ _))
    | (with_reducible apply Kept.after (State.streamSurplus_kept _ _ _ _))
    | (with_reducible apply Kept.after (State.streamWindow_kept _ _ _ _ _ _))
    | (with_reducible apply Kept.ite)
    | (intro _)
    | split

theorem State.purgeLine_kept (s : State) (line : Nat) : Kept s (State.purgeLine s line) := by
  unfold State.purgeLine
  repeat' first
    | (with_reducible exact Kept.refl _)
    | (extract_lets +onlyGivenNames x; clear_value x; revert x; intro _)
    | (with_reducible apply Kept.after (State.incF_kept _ _ _))
    | (with_reducible apply Kept.after (State.setCluster_kept _ _ _))
    | (with_reducible apply Kept.ite)
    | (intro _)

theorem State.purgeUnbound_kept (s : State) : Kept s (State.purgeUnbound s) := by
  unfold State.purgeUnbound
  repeat' first
    | (with_reducible exact Kept.refl _)
    | (with_reducible apply Kept.after (State.purgeLine_kept _ _))
    | (with_reducible apply Kept.after (State.each_kept ?_ _ _))
    | (intro _)

theorem State.passMarker_kept (s : State) (n : Int) (owner : Nat) : Kept s (State.passMarker s n owner) := by
  unfold State.passMarker
  repeat' first
    | (with_reducible exact Kept.refl _)
    | (extract_lets +onlyGivenNames x; clear_value x; revert x; intro _)
    | (with_reducible apply Kept.ite)
    | (with_reducible rfl)
    | (with_reducible exact fun h => h)
    | (with_reducible exact fun h => ⟨h, rfl⟩)
    | (intro _)
    | (with_reducible apply Kept.after (Kept.parts _ ?_ ?_ ?_ ?_ ?_ ?_ ?_))

theorem State.readLate_kept (s : State) (n : Int) (p : Nat) : Kept s (State.readLate s n p) := by
  unfold State.readLate
  repeat' first
    | (with_reducible exact Kept.refl _)
    | (extract_lets +onlyGivenNames x; clear_value x; revert x; intro _)
    | (with_reducible apply Kept.after (State.emit_kept _ _ _ _ _ _))
    | (with_reducible rfl)
    | (with_reducible exact fun h => h)
    | (with_reducible exact fun h => ⟨h, rfl⟩)
    | split
    | (with_reducible apply Kept.after (Kept.parts _ ?_ ?_ ?_ ?_ ?_ ?_ ?_))

theorem State.movFetch_kept (s : State) (addr : Nat) (host : BitVec 512) : Kept s (State.movFetch s addr host).1 := by
  unfold State.movFetch
  repeat' first
    | (with_reducible exact Kept.refl _)
    | (with_reducible assumption)
    | (extract_lets +onlyGivenNames x; obtain ⟨_, e⟩ : ∃ α, TyOf x = (State × α) := (by with_reducible exact ⟨_, rfl⟩); clear e; with_reducible apply Kept.use x.1; (on_goal 1 => dsimp -zeta only [x]; clear x); (on_goal 2 => intro h; clear_value x; revert x; intro _ _))
    | (extract_lets +onlyGivenNames x; clear_value x; revert x; intro _)
    | (with_reducible apply Kept.after (State.readSpan_kept _ _ _ _))
    | split

theorem State.movGo_kept (s : State) (m addr : Nat) (host : BitVec 512) : Kept s (State.movGo s m addr host) := by
  unfold State.movGo
  repeat' first
    | (with_reducible exact Kept.refl _)
    | (with_reducible assumption)
    | (extract_lets +onlyGivenNames x; have e : TyOf x = State := (by with_reducible rfl); clear e; with_reducible apply Kept.use x; (on_goal 1 => dsimp -zeta only [x]; clear x); (on_goal 2 => intro h; clear_value x; revert x; intro _ _))
    | (with_reducible apply Kept.after (State.movBegin_kept _ _ _ _))
    | (with_reducible apply Kept.after (State.movFail_kept _ _ _))
    | (with_reducible apply Kept.after (State.movFetch_kept _ _ _))
    | (with_reducible apply Kept.ite)
    | (intro _)
    | split
    | (with_reducible apply Kept.of_pair (by assumption))

theorem State.lineBurst_kept (s : State) (line : Nat) : Kept s (State.lineBurst s line).1 := by
  unfold State.lineBurst
  repeat' first
    | (with_reducible exact Kept.refl _)
    | (extract_lets +onlyGivenNames x; clear_value x; revert x; intro _)
    | (with_reducible apply Kept.after (State.lineTaken_kept _ _ _))
    | (with_reducible apply Kept.after (State.setPort_kept _ _ _))
    | split

theorem State.movReadStore_kept (s : State) (b n : Nat) (data : List Byte) : Kept s (State.movReadStore s b n data).1 := by
  unfold State.movReadStore
  repeat' first
    | (with_reducible exact Kept.refl _)
    | (with_reducible assumption)
    | (extract_lets +onlyGivenNames x; obtain ⟨_, e⟩ : ∃ α, TyOf x = (State × α) := (by with_reducible exact ⟨_, rfl⟩); clear e; with_reducible apply Kept.use x.1; (on_goal 1 => dsimp -zeta only [x]; clear x); (on_goal 2 => intro h; clear_value x; revert x; intro _ _))
    | (with_reducible apply Kept.after (State.readSpan_kept _ _ _ _))
    | split

theorem State.movRead_kept (s : State) (line a n : Nat) (data : List Byte) : Kept s (State.movRead s line a n data).1 := by
  have hl : Kept s ((List.range (cdiv n 64)).foldl (fun (q : State × List Byte) _ =>
      let t := q.1.lineBurst line
      (t.1, q.2 ++ t.2)) (s, [])).1 :=
    foldl_pair_kept (fun q _ => Kept.fst_mk (State.lineBurst_kept q.1 line)) _ s _
  rw [State.movRead]
  refine Kept.fst_ite (fun _ => State.movReadStore_kept s _ n data) (fun _ => Kept.fst_ite (fun _ => hl) (fun _ => ?_))
  exact Kept.fst_ite (fun _ => Kept.refl s) (fun _ => Kept.refl s)

theorem State.movPut_kept (s : State) (m a : Nat) (bytes : List Byte) : Kept s (State.movPut s m a bytes).1 := by
  unfold State.movPut
  refine Kept.fst_ite (fun _ => Kept.fst_ite (fun _ => State.movLine_kept _ _ _ _ _ _) (fun _ => State.deny_kept _ _ _)) (fun _ => ?_)
  refine Kept.fst_ite (fun _ => (State.hostPut_kept _ _ _).trans (State.addF_kept _ _ _)) (fun _ => ?_)
  refine Kept.fst_ite (fun _ => Kept.refl s) (fun _ => ?_)
  exact (((State.setMover_kept s _ _).trans (State.startTimer_kept _ _)).trans (State.sendFab_kept _ _ _ _)).trans
    (State.addF_kept _ _ _)

theorem State.triWord_kept (s : State) (a : Nat) : Kept s (State.triWord s a).1 := by
  unfold State.triWord
  repeat' first
    | (with_reducible exact Kept.refl _)
    | (with_reducible assumption)
    | (extract_lets +onlyGivenNames x; obtain ⟨_, e⟩ : ∃ α, TyOf x = (State × α) := (by with_reducible exact ⟨_, rfl⟩); clear e; with_reducible apply Kept.use x.1; (on_goal 1 => dsimp -zeta only [x]; clear x); (on_goal 2 => intro h; clear_value x; revert x; intro _ _))
    | (with_reducible apply Kept.after (State.readSpan_kept _ _ _ _))
    | split

theorem State.triFetch_kept (s : State) (m : Nat) (x : Mover) (he : Nat × Nat) (data : List Byte) :
    Kept s (State.triFetch s m x he data).1 := by
  have h := State.triWord_kept s (x.bits 256 38 + 4 * he.2)
  rw [State.triFetch]
  generalize s.triWord (x.bits 256 38 + 4 * he.2) = q at h
  obtain ⟨t, o⟩ := q
  cases o with
  | none => exact h
  | some p =>
    dsimp only
    rw [Option.elim_some]
    exact Kept.fst_ite (fun _ => Kept.trans h (State.incF_kept t _ _)) (fun _ => Kept.trans h (State.movRead_kept t _ _ _ _))

theorem State.burstGet_kept (s : State) (m : Nat) (src : BurstSrc) (data : List Byte) : Kept s (State.burstGet s m src data).1 := by
  unfold State.burstGet
  cases src with
  | fixed b => exact Kept.refl s
  | at_ a n => exact State.movRead_kept _ _ _ _ _
  | tri es =>
    refine foldl_pair_kept (fun q he => ?_) es s (some ([] : List Byte), data)
    obtain ⟨t, o, d⟩ := q
    cases o with
    | none => exact Kept.refl t
    | some l => exact Kept.fst_mk (State.triFetch_kept t m _ he d)

theorem State.wholeLine_kept (s : State) (a : Nat) (b : List Byte) : Kept s (State.wholeLine s a b).1 := by
  unfold State.wholeLine
  repeat' first
    | (with_reducible exact Kept.refl _)
    | (extract_lets +onlyGivenNames x; clear_value x; revert x; intro _)
    | (with_reducible apply Kept.after (State.drew_kept _))
    | split

theorem State.burstTry_kept (s : State) (m : Nat) (g : DescBurst) (data : List Byte) : Kept s (State.burstTry s m g data).1 := by
  have h := State.burstGet_kept s m g.src data
  unfold State.burstTry
  generalize s.burstGet m g.src data = r at h
  obtain ⟨t, o, d⟩ := r
  cases o with
  | none => exact h
  | some b =>
    refine Kept.fst_mk (Kept.trans h (foldl_pair_kept (fun q ab => ?_) (g.puts b) t true))
    exact Kept.fst_ite (fun _ => Kept.refl _) (fun _ => (State.wholeLine_kept q.1 _ _).trans (State.movPut_kept _ _ _ _))

theorem State.burstDone_kept (s : State) (m : Nat) (g : DescBurst) (retries : Nat) : Kept s (State.burstDone s m g retries) := by
  unfold State.burstDone
  repeat' first
    | (with_reducible exact Kept.refl _)
    | (with_reducible assumption)
    | (extract_lets +onlyGivenNames x; have e : TyOf x = State := (by with_reducible rfl); clear e; with_reducible apply Kept.use x; (on_goal 1 => dsimp -zeta only [x]; clear x); (on_goal 2 => intro h; clear_value x; revert x; intro _ _))
    | (extract_lets +onlyGivenNames x; clear_value x; revert x; intro _)
    | (with_reducible apply Kept.after (State.incF_kept _ _ _))
    | (with_reducible apply Kept.after (State.setMover_kept _ _ _))
    | (with_reducible apply Kept.ite)
    | (intro _)

theorem State.descSurplus_kept (s : State) (m : Nat) (g : DescBurst) : Kept s (State.descSurplus s m g).1 := by
  unfold State.descSurplus
  repeat' first
    | (with_reducible exact Kept.refl _)
    | (with_reducible assumption)
    | (extract_lets +onlyGivenNames x; have e : TyOf x = State := (by with_reducible rfl); clear e; with_reducible apply Kept.use x; (on_goal 1 => dsimp -zeta only [x]; clear x); (on_goal 2 => intro h; clear_value x; revert x; intro _ _))
    | (extract_lets +onlyGivenNames x; clear_value x; revert x; intro _)
    | (with_reducible apply Kept.after (State.burstDone_kept _ _ _ _))
    | (with_reducible apply Kept.after (State.linePut_kept _ _ _ _))
    | (with_reducible apply Kept.after (State.setMover_kept _ _ _))
    | (with_reducible apply Kept.after (State.surplusEvent_kept _ _ _ _))
    | (with_reducible apply Kept.ite)
    | (intro _)
    | split

theorem State.burstTries_kept (m : Nat) (g : DescBurst) (data : List Byte) (n : Nat) (s : State) :
    Kept s (State.burstTries m g data n s).1 := by
  induction n generalizing s with
  | zero => exact Kept.refl s
  | succ k ih =>
    rw [State.burstTries]
    exact Kept.fst_ite (fun _ => State.burstTry_kept s m g data) (fun _ => (State.burstTry_kept s m g data).trans (ih _))

theorem DescRun.burst_kept (q : DescRun) (m : Nat) (g : DescBurst) (fails : Nat) : Kept q.s (DescRun.burst q m g fails).s := by
  unfold DescRun.burst
  extract_lets retry r n
  by_cases hr : retry < fails
  · rw [if_pos hr]
    exact State.incF_kept _ _ _
  · rw [if_neg hr]
    have h : Kept q.s r.1 := State.burstTries_kept m g q.data _ q.s
    clear_value n r
    by_cases hb : r.2.1 = true
    · rw [if_pos hb]
      exact h.trans (State.burstDone_kept _ _ _ _)
    · rw [if_neg hb]
      exact h.trans (State.incF_kept _ _ _)

theorem DescRun.step_kept (m : Nat) (failures withdrawn : List Nat) (q : DescRun) (g : DescBurst) :
    Kept q.s (DescRun.step m failures withdrawn q g).s := by
  unfold DescRun.step
  extract_lets x
  split
  · exact Kept.refl _
  · split
    · exact Kept.refl _
    · split
      · have h := State.descSurplus_kept q.s m g
        generalize q.s.descSurplus m g = r at h
        obtain ⟨t, b⟩ := r
        cases b with
        | true => exact h
        | false => exact Kept.trans h (DescRun.burst_kept { q with s := t } m g _)
      · exact DescRun.burst_kept q m g _

theorem DescRun.fold_kept (m : Nat) (failures withdrawn : List Nat) (l : List DescBurst) (q : DescRun) :
    Kept q.s (l.foldl (DescRun.step m failures withdrawn) q).s := by
  induction l generalizing q with
  | nil => exact Kept.refl _
  | cons g r ih => exact (DescRun.step_kept m failures withdrawn q g).trans (ih _)

theorem State.movRun_kept (s : State) (m : Nat) (data : List Byte) (failures withdrawn : List Nat) (l : List DescBurst) :
    Kept s (State.movRun s m data failures withdrawn l) := by
  unfold State.movRun
  extract_lets left q x
  have h : Kept s q.s := (State.setF_kept s _ _).trans (DescRun.fold_kept m failures withdrawn left ⟨_, data, 0, 0⟩)
  clear_value q
  refine Kept.ite (fun _ => (h.trans (State.setF_kept _ _ _)).trans (State.startTimer_kept _ _)) (fun _ => ?_)
  refine Kept.ite (fun _ => (h.trans (State.setMover_kept _ _ _)).trans (State.movFail_kept _ _ _)) (fun _ => ?_)
  exact h.trans (State.setMover_kept _ _ _)

theorem State.movComplete_kept (s : State) (m : Nat) (next : BitVec 512) : Kept s (State.movComplete s m next) := by
  unfold State.movComplete
  extract_lets a nx stop r x s1 s2
  have h1 : Kept s s1 := (State.movEnd_kept s m).trans (State.setMover_kept _ _ _)
  have h2 : Kept s s2 := Kept.ite (fun _ => h1.trans (State.emitFor_kept _ _ _ _ _ _ _)) (fun _ => h1)
  clear_value s2 s1
  refine Kept.ite (fun _ => h1.trans (State.movHalt_kept _ _)) (fun _ => ?_)
  refine Kept.ite (fun _ => (h2.trans (State.emitFor_kept _ _ _ _ _ _ _)).trans (State.movIdle_kept _ _ _)) (fun _ => ?_)
  exact Kept.ite (fun _ => h2.trans (State.movIdle_kept _ _ _)) (fun _ => h2.trans (State.movGo_kept _ _ _ _))

/-! ## Power -/

theorem State.clkStep_kept (s : State) (new : Nat) : Kept s (State.clkStep s new) := by
  unfold State.clkStep
  repeat' first
    | (with_reducible exact Kept.refl _)
    | (extract_lets +onlyGivenNames x; clear_value x; revert x; intro _)
    | (with_reducible apply Kept.after (State.emit_kept _ _ _ _ _ _))
    | (with_reducible apply Kept.after (State.setF_kept _ _ _))
    | (with_reducible apply Kept.ite)
    | (intro _)

theorem State.avsMove_kept (s : State) : Kept s (State.avsMove s) := by
  unfold State.avsMove
  repeat' first
    | (with_reducible exact Kept.refl _)
    | (with_reducible assumption)
    | (extract_lets +onlyGivenNames x; have e : TyOf x = State := (by with_reducible rfl); clear e; with_reducible apply Kept.use x; (on_goal 1 => dsimp -zeta only [x]; clear x); (on_goal 2 => intro h; clear_value x; revert x; intro _ _))
    | (extract_lets +onlyGivenNames x; clear_value x; revert x; intro _)
    | (with_reducible apply Kept.after (State.setF_kept _ _ _))
    | (with_reducible apply Kept.after (State.startTimer_kept _ _))
    | (with_reducible apply Kept.ite)
    | (with_reducible rfl)
    | (with_reducible exact fun h => h)
    | (with_reducible exact fun h => ⟨h, rfl⟩)
    | (intro _)
    | (with_reducible apply Kept.after (Kept.parts _ ?_ ?_ ?_ ?_ ?_ ?_ ?_))

theorem State.thermal_kept (s : State) (t : Int) : Kept s (State.thermal s t) := by
  unfold State.thermal
  extract_lets hot cool h c p s1 s2 step s3 s4
  have h1 : Kept s s1 := Kept.lit s rfl rfl rfl
  have h2 : Kept s s2 := h1.trans (State.drive_kept _ _ _)
  have h3 : Kept s s3 := Kept.ite (fun _ => h2.trans (State.clkStep_kept _ _)) (fun _ => h2)
  have h4 : Kept s s4 := Kept.ite (fun _ => h3.trans (State.clkStep_kept _ _)) (fun _ => h3)
  exact Kept.ite (fun _ => h4.trans (State.raise_kept _ _ _ _ _)) (fun _ => h4)

theorem State.sample_kept (s : State) (die hbm : List Int) : Kept s (State.sample s die hbm) := by
  unfold State.sample
  repeat' first
    | (with_reducible exact Kept.refl _)
    | (with_reducible assumption)
    | (extract_lets +onlyGivenNames x; have e : TyOf x = State := (by with_reducible rfl); clear e; with_reducible apply Kept.use x; (on_goal 1 => dsimp -zeta only [x]; clear x); (on_goal 2 => intro h; clear_value x; revert x; intro _ _))
    | (extract_lets +onlyGivenNames x; clear_value x; revert x; intro _)
    | (with_reducible apply Kept.after (State.setF_kept _ _ _))
    | (with_reducible apply Kept.after (State.setFlag_kept _ _ _))
    | (with_reducible apply Kept.after (State.setS_kept _ _ _))
    | (with_reducible apply Kept.after (State.thermal_kept _ _))
    | (with_reducible rfl)
    | (with_reducible exact fun h => h)
    | (with_reducible exact fun h => ⟨h, rfl⟩)
    | (with_reducible apply Kept.after (Kept.parts _ ?_ ?_ ?_ ?_ ?_ ?_ ?_))

theorem State.clkMin_kept (s : State) : Kept s (State.clkMin s) := by
  unfold State.clkMin
  repeat' first
    | (with_reducible exact Kept.refl _)
    | (with_reducible apply Kept.after (State.clkStep_kept _ _))
    | (with_reducible apply Kept.after (State.setF_kept _ _ _))

theorem State.pwrBegin_kept (s : State) (target : Nat) (k : Int) : Kept s (State.pwrBegin s target k) := by
  unfold State.pwrBegin
  repeat' first
    | (with_reducible exact Kept.refl _)
    | (with_reducible assumption)
    | (extract_lets +onlyGivenNames x; have e : TyOf x = State := (by with_reducible rfl); clear e; with_reducible apply Kept.use x; (on_goal 1 => dsimp -zeta only [x]; clear x); (on_goal 2 => intro h; clear_value x; revert x; intro _ _))
    | (extract_lets +onlyGivenNames x; clear_value x; revert x; intro _)
    | (with_reducible apply Kept.after (State.setF_kept _ _ _))
    | (with_reducible rfl)
    | (with_reducible exact fun h => h)
    | (with_reducible exact fun h => ⟨h, rfl⟩)
    | (with_reducible apply Kept.after (Kept.parts _ ?_ ?_ ?_ ?_ ?_ ?_ ?_))

theorem State.pwrEnd_kept (s : State) : Kept s (State.pwrEnd s) := by
  unfold State.pwrEnd
  repeat' first
    | (with_reducible exact Kept.refl _)
    | (with_reducible assumption)
    | (extract_lets +onlyGivenNames x; have e : TyOf x = State := (by with_reducible rfl); clear e; with_reducible apply Kept.use x; (on_goal 1 => dsimp -zeta only [x]; clear x); (on_goal 2 => intro h; clear_value x; revert x; intro _ _))
    | (extract_lets +onlyGivenNames x; clear_value x; revert x; intro _)
    | (with_reducible apply Kept.after (State.setF_kept _ _ _))
    | (with_reducible rfl)
    | (with_reducible exact fun h => h)
    | (with_reducible exact fun h => ⟨h, rfl⟩)
    | (with_reducible apply Kept.after (Kept.parts _ ?_ ?_ ?_ ?_ ?_ ?_ ?_))

theorem State.pwrEnter_kept (s : State) (new : Nat) : Kept s (State.pwrEnter s new) := by
  unfold State.pwrEnter
  repeat' first
    | (with_reducible exact Kept.refl _)
    | (with_reducible assumption)
    | (extract_lets +onlyGivenNames x; have e : TyOf x = State := (by with_reducible rfl); clear e; with_reducible apply Kept.use x; (on_goal 1 => dsimp -zeta only [x]; clear x); (on_goal 2 => intro h; clear_value x; revert x; intro _ _))
    | (extract_lets +onlyGivenNames x; clear_value x; revert x; intro _)
    | (with_reducible apply Kept.after (State.emit_kept _ _ _ _ _ _))
    | (with_reducible apply Kept.after (State.pulse_kept _ _))
    | (with_reducible apply Kept.after (State.setF_kept _ _ _))

theorem State.gate_kept (s : State) : Kept s (State.gate s) := by
  unfold State.gate
  repeat' first
    | (with_reducible exact Kept.refl _)
    | (with_reducible assumption)
    | (extract_lets +onlyGivenNames x; have e : TyOf x = State := (by with_reducible rfl); clear e; with_reducible apply Kept.use x; (on_goal 1 => dsimp -zeta only [x]; clear x); (on_goal 2 => intro h; clear_value x; revert x; intro _ _))
    | (extract_lets +onlyGivenNames x; clear_value x; revert x; intro _)
    | (with_reducible apply Kept.after (State.freeSlots_kept _))
    | (with_reducible apply Kept.after (State.setF_kept _ _ _))
    | (with_reducible rfl)
    | (with_reducible exact fun h => h)
    | (with_reducible exact fun h => ⟨h, rfl⟩)
    | (with_reducible apply Kept.after (Kept.parts _ ?_ ?_ ?_ ?_ ?_ ?_ ?_))

theorem State.startPorts_kept (s : State) : Kept s (State.startPorts s) := by
  unfold State.startPorts
  repeat' first
    | (with_reducible exact Kept.refl _)
    | (with_reducible apply Kept.after (State.portRefresh_kept _ _))
    | (with_reducible apply Kept.after (State.each_kept ?_ _ _))
    | (intro _)

theorem State.wake_kept (s : State) : Kept s (State.wake s) := by
  unfold State.wake
  repeat' first
    | (with_reducible exact Kept.refl _)
    | (with_reducible assumption)
    | (extract_lets +onlyGivenNames x; have e : TyOf x = State := (by with_reducible rfl); clear e; with_reducible apply Kept.use x; (on_goal 1 => dsimp -zeta only [x]; clear x); (on_goal 2 => intro h; clear_value x; revert x; intro _ _))
    | (extract_lets +onlyGivenNames x; clear_value x; revert x; intro _)
    | (with_reducible apply Kept.after (State.setF_kept _ _ _))
    | (with_reducible apply Kept.after (State.startBoot_kept _ _))
    | (with_reducible apply Kept.after (State.startPorts_kept _))
    | (with_reducible apply Kept.after (State.whenever_kept ?_ _ _))
    | (with_reducible rfl)
    | (with_reducible exact fun h => h)
    | (with_reducible exact fun h => ⟨h, rfl⟩)
    | (intro _)
    | (with_reducible apply Kept.after (Kept.parts _ ?_ ?_ ?_ ?_ ?_ ?_ ?_))

theorem State.holdNow_kept (s : State) : Kept s (State.holdNow s) := by
  unfold State.holdNow
  repeat' first
    | (with_reducible exact Kept.refl _)
    | (with_reducible assumption)
    | (extract_lets +onlyGivenNames x; have e : TyOf x = State := (by with_reducible rfl); clear e; with_reducible apply Kept.use x; (on_goal 1 => dsimp -zeta only [x]; clear x); (on_goal 2 => intro h; clear_value x; revert x; intro _ _))
    | (extract_lets +onlyGivenNames x; clear_value x; revert x; intro _)
    | (with_reducible apply Kept.after (State.pwrBegin_kept _ _ _))
    | (with_reducible apply Kept.after (State.setF_kept _ _ _))
    | (with_reducible apply Kept.after (State.whenever_kept ?_ _ _))
    | (with_reducible apply Kept.ite)
    | (intro _)
    | split

theorem State.blockReset_kept (s : State) (b : Nat) (f : State → State) (h : ∀ s, Kept s (f s)) :
    Kept s (State.blockReset s b f) :=
  State.whenever_kept (fun s => (State.putBit_kept s _ _ _).trans (h _)) _ _

theorem State.resetPit_kept (s : State) : Kept s (State.resetPit s) := by
  unfold State.resetPit
  repeat' first
    | (with_reducible exact Kept.refl _)
    | (with_reducible assumption)
    | (extract_lets +onlyGivenNames x; have e : TyOf x = State := (by with_reducible rfl); clear e; with_reducible apply Kept.use x; (on_goal 1 => dsimp -zeta only [x]; clear x); (on_goal 2 => intro h; clear_value x; revert x; intro _ _))
    | (extract_lets +onlyGivenNames x; clear_value x; revert x; intro _)
    | (with_reducible apply Kept.after (State.finish_kept _ _ _ _))
    | (with_reducible apply Kept.after (State.resetRegs_kept _ _ _ _))
    | (with_reducible apply Kept.after (State.each_kept ?_ _ _))
    | (with_reducible rfl)
    | (with_reducible exact fun h => h)
    | (with_reducible exact fun h => ⟨h, rfl⟩)
    | (intro _)
    | split
    | (with_reducible apply Kept.after (Kept.parts _ ?_ ?_ ?_ ?_ ?_ ?_ ?_))

theorem State.resetMov_kept (s : State) : Kept s (State.resetMov s) := by
  unfold State.resetMov
  repeat' first
    | (with_reducible exact Kept.refl _)
    | (with_reducible assumption)
    | (extract_lets +onlyGivenNames x; have e : TyOf x = State := (by with_reducible rfl); clear e; with_reducible apply Kept.use x; (on_goal 1 => dsimp -zeta only [x]; clear x); (on_goal 2 => intro h; clear_value x; revert x; intro _ _))
    | (extract_lets +onlyGivenNames x; clear_value x; revert x; intro _)
    | (with_reducible apply Kept.after (State.ironSleep_kept _))
    | (with_reducible apply Kept.after (State.matrixReset_kept _ _))
    | (with_reducible apply Kept.after (State.movStopped_kept _ _))
    | (with_reducible apply Kept.after (State.resetRegs_kept _ _ _ _))
    | (with_reducible apply Kept.after (State.each_kept ?_ _ _))
    | (with_reducible rfl)
    | (with_reducible exact fun h => h)
    | (with_reducible exact fun h => ⟨h, rfl⟩)
    | (intro _)
    | (with_reducible apply Kept.after (Kept.parts _ ?_ ?_ ?_ ?_ ?_ ?_ ?_))

theorem State.resetStg_kept (s : State) : Kept s (State.resetStg s) := by
  unfold State.resetStg
  repeat' first
    | (with_reducible exact Kept.refl _)
    | (with_reducible assumption)
    | (extract_lets +onlyGivenNames x; have e : TyOf x = State := (by with_reducible rfl); clear e; with_reducible apply Kept.use x; (on_goal 1 => dsimp -zeta only [x]; clear x); (on_goal 2 => intro h; clear_value x; revert x; intro _ _))
    | (extract_lets +onlyGivenNames x; clear_value x; revert x; intro _)
    | (with_reducible apply Kept.after (State.resetRegs_kept _ _ _ _))
    | (with_reducible apply Kept.after (State.returnPages_kept _ _ _))
    | (with_reducible apply Kept.after (State.setF_kept _ _ _))
    | (with_reducible apply Kept.after (State.stopStage_kept _ _))
    | (with_reducible rfl)
    | (with_reducible exact fun h => h)
    | (with_reducible exact fun h => ⟨h, rfl⟩)
    | split
    | (with_reducible apply Kept.after (Kept.parts _ ?_ ?_ ?_ ?_ ?_ ?_ ?_))

theorem State.resetCue_kept (s : State) : Kept s (State.resetCue s) := by
  unfold State.resetCue
  repeat' first
    | (with_reducible exact Kept.refl _)
    | (with_reducible assumption)
    | (extract_lets +onlyGivenNames x; have e : TyOf x = State := (by with_reducible rfl); clear e; with_reducible apply Kept.use x; (on_goal 1 => dsimp -zeta only [x]; clear x); (on_goal 2 => intro h; clear_value x; revert x; intro _ _))
    | (extract_lets +onlyGivenNames x; clear_value x; revert x; intro _)
    | (with_reducible apply Kept.after (State.blankStop_kept _ _ _))
    | (with_reducible apply Kept.after (State.filtRestart_kept _ _))
    | (with_reducible apply Kept.after (State.pushEdge_kept _ _ _ _ _ _ _))
    | (with_reducible apply Kept.after (State.resetRegs_kept _ _ _ _))
    | (with_reducible apply Kept.after (State.setFilt_kept _ _ _))
    | (with_reducible apply Kept.after (State.each_kept ?_ _ _))
    | (with_reducible apply Kept.ite)
    | (with_reducible rfl)
    | (with_reducible exact fun h => h)
    | (with_reducible exact fun h => ⟨h, rfl⟩)
    | (intro _)
    | (with_reducible apply Kept.after (Kept.parts _ ?_ ?_ ?_ ?_ ?_ ?_ ?_))

theorem State.resetHst_kept (s : State) : Kept s (State.resetHst s) := by
  unfold State.resetHst
  repeat' first
    | (with_reducible exact Kept.refl _)
    | (with_reducible apply Kept.after (State.matrixReset_kept _ _))
    | (with_reducible apply Kept.after (State.resetConfig_kept _))
    | (with_reducible apply Kept.after (State.resetRegs_kept _ _ _ _))

/-! ## Dwell -/

theorem State.anchorAt_kept (s : State) (n : Int) : Kept s (State.anchorAt s n) := by
  unfold State.anchorAt
  repeat' first
    | (with_reducible exact Kept.refl _)
    | (extract_lets +onlyGivenNames x; clear_value x; revert x; intro _)
    | (with_reducible apply Kept.ite)
    | (with_reducible rfl)
    | (with_reducible exact fun h => h)
    | (with_reducible exact fun h => ⟨h, rfl⟩)
    | (intro _)
    | (with_reducible apply Kept.after (Kept.parts _ ?_ ?_ ?_ ?_ ?_ ?_ ?_))

theorem State.bankMoved_kept (s : State) (n : Int) : Kept s (State.bankMoved s n) := by
  unfold State.bankMoved
  repeat' first
    | (with_reducible exact Kept.refl _)
    | (with_reducible apply Kept.after (State.setF_kept _ _ _))
    | (with_reducible apply Kept.after (State.each_kept ?_ _ _))
    | (with_reducible apply Kept.ite)
    | (intro _)

theorem State.portsMark_kept (s : State) (n : Int) : Kept s (State.portsMark s n) := by
  unfold State.portsMark
  repeat' first
    | (with_reducible exact Kept.refl _)
    | (extract_lets +onlyGivenNames x; clear_value x; revert x; intro _)
    | (with_reducible apply Kept.after (State.condFor_kept _ _ _ _))
    | (with_reducible apply Kept.after (State.each_kept ?_ _ _))
    | (with_reducible apply Kept.ite)
    | (intro _)

theorem State.pwrAt_kept (s : State) (n : Int) : Kept s (State.pwrAt s n) := by
  unfold State.pwrAt
  repeat' first
    | (with_reducible exact Kept.refl _)
    | (with_reducible assumption)
    | (extract_lets +onlyGivenNames x; have e : TyOf x = State := (by with_reducible rfl); clear e; with_reducible apply Kept.use x; (on_goal 1 => dsimp -zeta only [x]; clear x); (on_goal 2 => intro h; clear_value x; revert x; intro _ _))
    | (extract_lets +onlyGivenNames x; clear_value x; revert x; intro _)
    | (with_reducible apply Kept.after (State.pwrEnd_kept _))
    | (with_reducible apply Kept.after (State.pwrEnter_kept _ _))
    | (with_reducible apply Kept.ite)
    | (with_reducible rfl)
    | (with_reducible exact fun h => h)
    | (with_reducible exact fun h => ⟨h, rfl⟩)
    | (intro _)
    | split
    | (with_reducible apply Kept.after (Kept.parts _ ?_ ?_ ?_ ?_ ?_ ?_ ?_))

theorem State.dwellBegins_kept (s : State) (n : Int) : Kept s (State.dwellBegins s n) := by
  unfold State.dwellBegins
  repeat' first
    | (with_reducible exact Kept.refl _)
    | (with_reducible assumption)
    | (extract_lets +onlyGivenNames x; have e : TyOf x = State := (by with_reducible rfl); clear e; with_reducible apply Kept.use x; (on_goal 1 => dsimp -zeta only [x]; clear x); (on_goal 2 => intro h; clear_value x; revert x; intro _ _))
    | (extract_lets +onlyGivenNames x; clear_value x; revert x; intro _)
    | (with_reducible apply Kept.after (State.anchorAt_kept _ _))
    | (with_reducible apply Kept.after (State.bankMoved_kept _ _))
    | (with_reducible apply Kept.after (State.claimBoundary_kept _))
    | (with_reducible apply Kept.after (State.condDwell_kept _ _ _))
    | (with_reducible apply Kept.after (State.cueRewire_kept _ _ _))
    | (with_reducible apply Kept.after (State.hckMark_kept _))
    | (with_reducible apply Kept.after (State.joinAlone_kept _))
    | (with_reducible apply Kept.after (State.portsMark_kept _ _))
    | (with_reducible apply Kept.after (State.pulse_kept _ _))
    | (with_reducible apply Kept.after (State.purgeUnbound_kept _))
    | (with_reducible apply Kept.after (State.pwrAt_kept _ _))
    | (with_reducible apply Kept.after (State.swapApply_kept _ _))
    | (with_reducible apply Kept.ite)
    | (with_reducible rfl)
    | (with_reducible exact fun h => h)
    | (with_reducible exact fun h => ⟨h, rfl⟩)
    | (intro _)
    | (with_reducible apply Kept.after (Kept.parts _ ?_ ?_ ?_ ?_ ?_ ?_ ?_))

theorem State.idleMarker_kept (s : State) (n : Int) (c : Nat) : Kept s (State.idleMarker s n c) := by
  unfold State.idleMarker
  repeat' first
    | (with_reducible exact Kept.refl _)
    | (extract_lets +onlyGivenNames x; clear_value x; revert x; intro _)
    | (with_reducible apply Kept.after (State.passMarker_kept _ _ _))
    | (with_reducible apply Kept.ite)
    | (intro _)

theorem State.dwellCloses_kept (s : State) (n : Int) : Kept s (State.dwellCloses s n) := by
  unfold State.dwellCloses
  repeat' first
    | (with_reducible exact Kept.refl _)
    | (with_reducible assumption)
    | (extract_lets +onlyGivenNames x; have e : TyOf x = State := (by with_reducible rfl); clear e; with_reducible apply Kept.use x; (on_goal 1 => dsimp -zeta only [x]; clear x); (on_goal 2 => intro h; clear_value x; revert x; intro _ _))
    | (extract_lets +onlyGivenNames x; clear_value x; revert x; intro _)
    | (with_reducible apply Kept.after (State.advanceTo_kept _ _))
    | (with_reducible apply Kept.after (State.idleMarker_kept _ _ _))
    | (with_reducible apply Kept.after (State.pulse_kept _ _))
    | (with_reducible apply Kept.after (State.each_kept ?_ _ _))
    | (with_reducible apply Kept.ite)
    | (with_reducible rfl)
    | (with_reducible exact fun h => h)
    | (with_reducible exact fun h => ⟨h, rfl⟩)
    | (intro _)
    | (with_reducible apply Kept.after (Kept.parts _ ?_ ?_ ?_ ?_ ?_ ?_ ?_))

/-! ## HdmOps -/

theorem State.windowRead_kept (s : State) (addr : Nat) (errs : List Nat) : Kept s (State.windowRead s addr errs) := by
  unfold State.windowRead
  exact Kept.ite (fun _ => State.answer_kept _ _ _) (fun _ => State.request_kept _ _)

theorem State.hdmRead_kept (s : State) (addr : Nat) (errs : List Nat) : Kept s (State.hdmRead s addr errs) := by
  unfold State.hdmRead
  refine Kept.ite (fun _ => (State.freeLine_kept s).trans (State.answer_kept _ _ _)) (fun _ => ?_)
  exact Kept.ite (fun _ => State.windowRead_kept _ _ _) (fun _ => State.request_kept _ _)

theorem State.hdmWrite_kept (s : State) (addr : Nat) (data : BitVec 512) (bytes : BitVec 64) (errs : List Nat) : Kept s (State.hdmWrite s addr data bytes errs) := by
  unfold State.hdmWrite
  repeat' first
    | (with_reducible exact Kept.refl _)
    | (with_reducible apply Kept.after (State.request_kept _ _))

/-! ## Pit -/

theorem State.putOut_kept (s : State) (c : Nat) (o : OutVect) : Kept s (State.putOut s c o) := by
  unfold State.putOut
  repeat' first
    | (with_reducible exact Kept.refl _)
    | (with_reducible assumption)
    | (extract_lets +onlyGivenNames x; have e : TyOf x = State := (by with_reducible rfl); clear e; with_reducible apply Kept.use x; (on_goal 1 => dsimp -zeta only [x]; clear x); (on_goal 2 => intro h; clear_value x; revert x; intro _ _))
    | (extract_lets +onlyGivenNames x; clear_value x; revert x; intro _)
    | (with_reducible apply Kept.after (State.incF_kept _ _ _))
    | (with_reducible apply Kept.after (State.outDrain_kept _ _))
    | (with_reducible apply Kept.after (State.setCluster_kept _ _ _))
    | (with_reducible apply Kept.ite)
    | (intro _)

theorem State.pitOutOp_kept (s : State) (c : Nat) : Kept s (State.pitOutOp s c) := by
  unfold State.pitOutOp
  repeat' first
    | (with_reducible exact Kept.refl _)
    | (extract_lets +onlyGivenNames x; clear_value x; revert x; intro _)
    | (with_reducible apply Kept.after (State.incF_kept _ _ _))
    | (with_reducible apply Kept.after (State.issue_kept _ _ _ _))
    | (with_reducible apply Kept.after (State.putOut_kept _ _ _))
    | (with_reducible apply Kept.after (State.stall_kept _ _ _))
    | (with_reducible apply Kept.ite)
    | (intro _)
    | split

theorem State.cueEnter_kept (s : State) (c q : Nat) : Kept s (State.cueEnter s c q) := by
  unfold State.cueEnter
  repeat' first
    | (with_reducible exact Kept.refl _)
    | (with_reducible assumption)
    | (extract_lets +onlyGivenNames x; have e : TyOf x = State := (by with_reducible rfl); clear e; with_reducible apply Kept.use x; (on_goal 1 => dsimp -zeta only [x]; clear x); (on_goal 2 => intro h; clear_value x; revert x; intro _ _))
    | (extract_lets +onlyGivenNames x; clear_value x; revert x; intro _)
    | (with_reducible apply Kept.after (State.cycleEnd_kept _ _ _ _))
    | (with_reducible apply Kept.after (State.setF_kept _ _ _))

/-! ## House -/

theorem State.tickEntry_kept (s : State) (v : List Member) (y : List (Option Int)) (e : Nat) : Kept s (State.tickEntry s v y e) := by
  unfold State.tickEntry
  repeat' first
    | (with_reducible exact Kept.refl _)
    | (with_reducible assumption)
    | (extract_lets +onlyGivenNames x; have e : TyOf x = State := (by with_reducible rfl); clear e; with_reducible apply Kept.use x; (on_goal 1 => dsimp -zeta only [x]; clear x); (on_goal 2 => intro h; clear_value x; revert x; intro _ _))
    | (extract_lets +onlyGivenNames x; clear_value x; revert x; intro _)
    | (with_reducible apply Kept.after (State.emit_kept _ _ _ _ _ _))
    | (with_reducible apply Kept.after (State.putBit_kept _ _ _ _))
    | (with_reducible apply Kept.after (State.setEntState_kept _ _ _))
    | (with_reducible apply Kept.after (State.setF_kept _ _ _))
    | (with_reducible apply Kept.after (State.setS_kept _ _ _))
    | (with_reducible apply Kept.ite)
    | (with_reducible rfl)
    | (with_reducible exact fun h => h)
    | (with_reducible exact fun h => ⟨h, rfl⟩)
    | (intro _)
    | split
    | (with_reducible apply Kept.after (Kept.parts _ ?_ ?_ ?_ ?_ ?_ ?_ ?_))

theorem State.tickExcess_kept (s : State) (hard : Nat) (v : List Member) (e : Nat) : Kept s (State.tickExcess s hard v e) := by
  unfold State.tickExcess
  repeat' first
    | (with_reducible exact Kept.refl _)
    | (with_reducible apply Kept.after (State.incF_kept _ _ _))
    | (with_reducible apply Kept.after (State.setF_kept _ _ _))
    | (with_reducible apply Kept.ite)
    | (intro _)
    | split

theorem State.tickXo_kept (s : State) (hard : Nat) (v : List Member) : Kept s (State.tickXo s hard v) := by
  unfold State.tickXo
  repeat' first
    | (with_reducible exact Kept.refl _)
    | (with_reducible assumption)
    | (extract_lets +onlyGivenNames x; have e : TyOf x = State := (by with_reducible rfl); clear e; with_reducible apply Kept.use x; (on_goal 1 => dsimp -zeta only [x]; clear x); (on_goal 2 => intro h; clear_value x; revert x; intro _ _))
    | (extract_lets +onlyGivenNames x; clear_value x; revert x; intro _)
    | (with_reducible apply Kept.after (State.setF_kept _ _ _))
    | (with_reducible apply Kept.ite)
    | (with_reducible rfl)
    | (with_reducible exact fun h => h)
    | (with_reducible exact fun h => ⟨h, rfl⟩)
    | (intro _)
    | split
    | (with_reducible apply Kept.after (Kept.parts _ ?_ ?_ ?_ ?_ ?_ ?_ ?_))

theorem State.tickDispute_kept (s : State) (hard : Nat) (v : List Member) : Kept s (State.tickDispute s hard v) := by
  unfold State.tickDispute
  repeat' first
    | (with_reducible exact Kept.refl _)
    | (extract_lets +onlyGivenNames x; clear_value x; revert x; intro _)
    | (with_reducible apply Kept.after (State.emit_kept _ _ _ _ _ _))
    | (with_reducible apply Kept.after (State.putBit_kept _ _ _ _))
    | (with_reducible apply Kept.after (State.setFlag_kept _ _ _))
    | (with_reducible apply Kept.ite)
    | (intro _)

theorem State.tickDco_kept (s : State) : Kept s (State.tickDco s) := by
  unfold State.tickDco
  repeat' first
    | (with_reducible exact Kept.refl _)
    | (with_reducible assumption)
    | (extract_lets +onlyGivenNames x; have e : TyOf x = State := (by with_reducible rfl); clear e; with_reducible apply Kept.use x; (on_goal 1 => dsimp -zeta only [x]; clear x); (on_goal 2 => intro h; clear_value x; revert x; intro _ _))
    | (extract_lets +onlyGivenNames x; clear_value x; revert x; intro _)
    | (with_reducible apply Kept.after (State.drew_kept _))
    | (with_reducible apply Kept.after (State.setS_kept _ _ _))
    | (with_reducible apply Kept.ite)
    | (with_reducible rfl)
    | (with_reducible exact fun h => h)
    | (with_reducible exact fun h => ⟨h, rfl⟩)
    | (intro _)
    | (with_reducible apply Kept.after (Kept.parts _ ?_ ?_ ?_ ?_ ?_ ?_ ?_))

theorem State.fitXo_kept (s : State) : Kept s (State.fitXo s) := by
  unfold State.fitXo
  repeat' first
    | (with_reducible exact Kept.refl _)
    | (with_reducible assumption)
    | (extract_lets +onlyGivenNames x; have e : TyOf x = State := (by with_reducible rfl); clear e; with_reducible apply Kept.use x; (on_goal 1 => dsimp -zeta only [x]; clear x); (on_goal 2 => intro h; clear_value x; revert x; intro _ _))
    | (extract_lets +onlyGivenNames x; clear_value x; revert x; intro _)
    | (with_reducible apply Kept.after (State.drew_kept _))
    | (with_reducible rfl)
    | (with_reducible exact fun h => h)
    | (with_reducible exact fun h => ⟨h, rfl⟩)
    | (with_reducible apply Kept.after (Kept.parts _ ?_ ?_ ?_ ?_ ?_ ?_ ?_))

theorem State.tickModel_kept (s : State) : Kept s (State.tickModel s) := by
  unfold State.tickModel
  repeat' first
    | (with_reducible exact Kept.refl _)
    | (with_reducible assumption)
    | (extract_lets +onlyGivenNames x; have e : TyOf x = State := (by with_reducible rfl); clear e; with_reducible apply Kept.use x; (on_goal 1 => dsimp -zeta only [x]; clear x); (on_goal 2 => intro h; clear_value x; revert x; intro _ _))
    | (extract_lets +onlyGivenNames x; clear_value x; revert x; intro _)
    | (with_reducible apply Kept.after (State.fitXo_kept _))
    | (with_reducible apply Kept.ite)
    | (with_reducible rfl)
    | (with_reducible exact fun h => h)
    | (with_reducible exact fun h => ⟨h, rfl⟩)
    | (intro _)
    | (with_reducible apply Kept.after (Kept.parts _ ?_ ?_ ?_ ?_ ?_ ?_ ?_))

theorem State.unusedInputs_kept (s : State) : Kept s (State.unusedInputs s) := by
  unfold State.unusedInputs
  repeat' first
    | (with_reducible exact Kept.refl _)
    | (with_reducible assumption)
    | (extract_lets +onlyGivenNames x; have e : TyOf x = State := (by with_reducible rfl); clear e; with_reducible apply Kept.use x; (on_goal 1 => dsimp -zeta only [x]; clear x); (on_goal 2 => intro h; clear_value x; revert x; intro _ _))
    | (extract_lets +onlyGivenNames x; clear_value x; revert x; intro _)
    | (with_reducible apply Kept.after (State.setF_kept _ _ _))
    | (with_reducible apply Kept.after (State.each_kept ?_ _ _))
    | (with_reducible apply Kept.ite)
    | (with_reducible rfl)
    | (with_reducible exact fun h => h)
    | (with_reducible exact fun h => ⟨h, rfl⟩)
    | (intro _)
    | (with_reducible apply Kept.after (Kept.parts _ ?_ ?_ ?_ ?_ ?_ ?_ ?_))

theorem State.tickConfig_kept (s : State) (ps : Int) : Kept s (State.tickConfig s ps) := by
  unfold State.tickConfig
  repeat' first
    | (with_reducible exact Kept.refl _)
    | (with_reducible assumption)
    | (extract_lets +onlyGivenNames x; have e : TyOf x = State := (by with_reducible rfl); clear e; with_reducible apply Kept.use x; (on_goal 1 => dsimp -zeta only [x]; clear x); (on_goal 2 => intro h; clear_value x; revert x; intro _ _))
    | (extract_lets +onlyGivenNames x; clear_value x; revert x; intro _)
    | (with_reducible apply Kept.after (State.entSignals_kept _))
    | (with_reducible apply Kept.after (State.hckApply_kept _))
    | (with_reducible apply Kept.after (State.hckSelect_kept _ _ _ _))
    | (with_reducible apply Kept.after (State.setEntState_kept _ _ _))
    | (with_reducible apply Kept.after (State.takeBw_kept _))
    | (with_reducible apply Kept.after (State.unusedInputs_kept _))
    | (with_reducible apply Kept.ite)
    | (intro _)

theorem State.measure_kept (s : State) (y : List (Option Int)) (phasePs : Int) : Kept s (State.measure s y phasePs) := by
  unfold State.measure
  repeat' first
    | (with_reducible exact Kept.refl _)
    | (with_reducible assumption)
    | (extract_lets +onlyGivenNames x; have e : TyOf x = State := (by with_reducible rfl); clear e; with_reducible apply Kept.use x; (on_goal 1 => dsimp -zeta only [x]; clear x); (on_goal 2 => intro h; clear_value x; revert x; intro _ _))
    | (extract_lets +onlyGivenNames x; clear_value x; revert x; intro _)
    | (with_reducible apply Kept.after (State.entSignals_kept _))
    | (with_reducible apply Kept.after (State.hckSelect_kept _ _ _ _))
    | (with_reducible apply Kept.after (State.showHckSt_kept _))
    | (with_reducible apply Kept.after (State.tickConfig_kept _ _))
    | (with_reducible apply Kept.after (State.tickDco_kept _))
    | (with_reducible apply Kept.after (State.tickDispute_kept _ _ _))
    | (with_reducible apply Kept.after (State.tickEntry_kept _ _ _ _))
    | (with_reducible apply Kept.after (State.tickExcess_kept _ _ _ _))
    | (with_reducible apply Kept.after (State.tickModel_kept _))
    | (with_reducible apply Kept.after (State.tickXo_kept _ _ _))
    | (with_reducible apply Kept.after (State.each_kept ?_ _ _))
    | (with_reducible rfl)
    | (with_reducible exact fun h => h)
    | (with_reducible exact fun h => ⟨h, rfl⟩)
    | (intro _)
    | (with_reducible apply Kept.after (Kept.parts _ ?_ ?_ ?_ ?_ ?_ ?_ ?_))

theorem State.disqualify_kept (s : State) (e : Nat) (phasePs : Int) : Kept s (State.disqualify s e phasePs) := by
  unfold State.disqualify
  repeat' first
    | (with_reducible exact Kept.refl _)
    | (with_reducible assumption)
    | (extract_lets +onlyGivenNames x; have e : TyOf x = State := (by with_reducible rfl); clear e; with_reducible apply Kept.use x; (on_goal 1 => dsimp -zeta only [x]; clear x); (on_goal 2 => intro h; clear_value x; revert x; intro _ _))
    | (with_reducible apply Kept.after (State.emit_kept _ _ _ _ _ _))
    | (with_reducible apply Kept.after (State.hckSelect_kept _ _ _ _))
    | (with_reducible apply Kept.after (State.putBit_kept _ _ _ _))
    | (with_reducible apply Kept.after (State.setEntState_kept _ _ _))
    | (with_reducible apply Kept.after (State.setF_kept _ _ _))
    | (with_reducible apply Kept.ite)
    | (intro _)

theorem State.ppsEdge_kept (s : State) (i : Nat) : Kept s (State.ppsEdge s i) := by
  unfold State.ppsEdge
  repeat' first
    | (with_reducible exact Kept.refl _)
    | (with_reducible assumption)
    | (extract_lets +onlyGivenNames x; have e : TyOf x = State := (by with_reducible rfl); clear e; with_reducible apply Kept.use x; (on_goal 1 => dsimp -zeta only [x]; clear x); (on_goal 2 => intro h; clear_value x; revert x; intro _ _))
    | (extract_lets +onlyGivenNames x; clear_value x; revert x; intro _)
    | (with_reducible apply Kept.after (State.pulse_kept _ _))
    | (with_reducible apply Kept.after (State.setFlag_kept _ _ _))
    | (with_reducible apply Kept.after (State.setS_kept _ _ _))
    | (with_reducible rfl)
    | (with_reducible exact fun h => h)
    | (with_reducible exact fun h => ⟨h, rfl⟩)
    | (with_reducible apply Kept.after (Kept.parts _ ?_ ?_ ?_ ?_ ?_ ?_ ?_))

theorem State.loopOpen_kept (s : State) : Kept s (State.loopOpen s) := by
  unfold State.loopOpen
  repeat' first
    | (with_reducible exact Kept.refl _)
    | (with_reducible assumption)
    | (extract_lets +onlyGivenNames x; have e : TyOf x = State := (by with_reducible rfl); clear e; with_reducible apply Kept.use x; (on_goal 1 => dsimp -zeta only [x]; clear x); (on_goal 2 => intro h; clear_value x; revert x; intro _ _))
    | (extract_lets +onlyGivenNames x; clear_value x; revert x; intro _)
    | (with_reducible apply Kept.after (State.hckState_kept _ _))
    | (with_reducible apply Kept.after (State.setF_kept _ _ _))
    | (with_reducible apply Kept.after (State.whenever_kept ?_ _ _))
    | (with_reducible rfl)
    | (with_reducible exact fun h => h)
    | (with_reducible exact fun h => ⟨h, rfl⟩)
    | (intro _)
    | (with_reducible apply Kept.after (Kept.parts _ ?_ ?_ ?_ ?_ ?_ ?_ ?_))

theorem State.loopClose_kept (s : State) (phasePs : Int) : Kept s (State.loopClose s phasePs) := by
  unfold State.loopClose
  repeat' first
    | (with_reducible exact Kept.refl _)
    | (with_reducible assumption)
    | (extract_lets +onlyGivenNames x; have e : TyOf x = State := (by with_reducible rfl); clear e; with_reducible apply Kept.use x; (on_goal 1 => dsimp -zeta only [x]; clear x); (on_goal 2 => intro h; clear_value x; revert x; intro _ _))
    | (with_reducible apply Kept.after (State.hckState_kept _ _))
    | (with_reducible apply Kept.after (State.hckSwitch_kept _ _ _ _))
    | (with_reducible apply Kept.after (State.setF_kept _ _ _))
    | (with_reducible apply Kept.after (State.whenever_kept ?_ _ _))
    | (intro _)
    | split

theorem State.fowSet_kept (s : State) (fow : Nat) : Kept s (State.fowSet s fow) := by
  unfold State.fowSet
  repeat' first
    | (with_reducible exact Kept.refl _)
    | (with_reducible assumption)
    | (extract_lets +onlyGivenNames x; have e : TyOf x = State := (by with_reducible rfl); clear e; with_reducible apply Kept.use x; (on_goal 1 => dsimp -zeta only [x]; clear x); (on_goal 2 => intro h; clear_value x; revert x; intro _ _))
    | (extract_lets +onlyGivenNames x; clear_value x; revert x; intro _)
    | (with_reducible apply Kept.after (State.goAtOnce_kept _))
    | (with_reducible apply Kept.after (State.hckState_kept _ _))
    | (with_reducible apply Kept.after (State.setS_kept _ _ _))
    | (with_reducible apply Kept.after (State.startTimer_kept _ _))
    | (with_reducible apply Kept.after (State.whenever_kept ?_ _ _))
    | (with_reducible rfl)
    | (with_reducible exact fun h => h)
    | (with_reducible exact fun h => ⟨h, rfl⟩)
    | (intro _)
    | (with_reducible apply Kept.after (Kept.parts _ ?_ ?_ ?_ ?_ ?_ ?_ ?_))

/-! ## Reset -/

theorem State.warmReset_kept (s : State) : Kept s (State.warmReset s) := by
  unfold State.warmReset
  repeat' first
    | (with_reducible exact Kept.refl _)
    | (with_reducible assumption)
    | (extract_lets +onlyGivenNames x; have e : TyOf x = State := (by with_reducible rfl); clear e; with_reducible apply Kept.use x; (on_goal 1 => dsimp -zeta only [x]; clear x); (on_goal 2 => intro h; clear_value x; revert x; intro _ _))
    | (extract_lets +onlyGivenNames x; have e : TyOf x = HostU := (by with_reducible rfl); clear e; dsimp -zeta only [x]; clear x)
    | (extract_lets +onlyGivenNames x; clear_value x; revert x; intro _)
    | (with_reducible apply Kept.after (State.disable_kept _))
    | (with_reducible apply Kept.after (State.ironOver_kept _))
    | (with_reducible apply Kept.after (State.matrixReset_kept _ _))
    | (with_reducible apply Kept.after (State.pushEdge_kept _ _ _ _ _ _ _))
    | (with_reducible apply Kept.after (State.startBoot_kept _ _))
    | (with_reducible apply Kept.after (State.each_kept ?_ _ _))
    | (with_reducible apply Kept.ite)
    | (with_reducible rfl)
    | (with_reducible exact fun h => h)
    | (with_reducible exact fun h => ⟨h, rfl⟩)
    | (intro _)
    | (with_reducible apply Kept.after (Kept.parts _ ?_ ?_ ?_ ?_ ?_ ?_ ?_))

/-! ## RegWrite -/

theorem State.storeField_kept (s : State) (w : RegWr) (f : Fld) : Kept s (State.storeField s w f) := by
  unfold State.storeField
  repeat' first
    | (with_reducible exact Kept.refl _)
    | (extract_lets +onlyGivenNames x; clear_value x; revert x; intro _)
    | (with_reducible apply Kept.after (State.setF_kept _ _ _))
    | (with_reducible apply Kept.ite)
    | (intro _)
    | split

theorem State.clampF_kept (s : State) (f : Fld) (lo hi : Nat) : Kept s (State.clampF s f lo hi) := by
  unfold State.clampF
  repeat' first
    | (with_reducible exact Kept.refl _)
    | (with_reducible apply Kept.after (State.setF_kept _ _ _))

theorem State.hckClamp_kept (s : State) (base : Nat) : Kept s (State.hckClamp s base) := by
  unfold State.hckClamp
  repeat' first
    | (with_reducible exact Kept.refl _)
    | (with_reducible assumption)
    | (extract_lets +onlyGivenNames x; have e : TyOf x = State := (by with_reducible rfl); clear e; with_reducible apply Kept.use x; (on_goal 1 => dsimp -zeta only [x]; clear x); (on_goal 2 => intro h; clear_value x; revert x; intro _ _))
    | (with_reducible apply Kept.after (State.clampF_kept _ _ _ _))
    | (with_reducible apply Kept.ite)
    | (intro _)

theorem State.writeHck_kept (s : State) (base : Nat) (w : RegWr) : Kept s (State.writeHck s base w) := by
  unfold State.writeHck
  repeat' first
    | (with_reducible exact Kept.refl _)
    | (with_reducible apply Kept.after (State.drew_kept _))
    | (with_reducible apply Kept.after (State.fowSet_kept _ _))
    | (with_reducible apply Kept.after (State.hckClamp_kept _ _))
    | (with_reducible apply Kept.after (State.loopClose_kept _ _))
    | (with_reducible apply Kept.after (State.loopOpen_kept _))
    | (with_reducible apply Kept.ite)
    | (intro _)

theorem State.clampS_kept (s : State) (f : Fld) (lo hi : Int) : Kept s (State.clampS s f lo hi) := by
  unfold State.clampS
  repeat' first
    | (with_reducible exact Kept.refl _)
    | (with_reducible apply Kept.after (State.setS_kept _ _ _))

theorem State.timClamp_kept (s : State) (base : Nat) : Kept s (State.timClamp s base) := by
  unfold State.timClamp
  extract_lets dom
  have h : ∀ (s : State) (a b c : Fld), Kept s (dom s a b c) := fun s a b c =>
    ((State.clampF_kept s _ _ _).trans (State.clampF_kept _ _ _ _)).trans (State.clampS_kept _ _ _ _)
  clear_value dom
  refine Kept.ite (fun _ => State.clampF_kept _ _ _ _) (fun _ => Kept.ite (fun _ => h _ _ _ _) (fun _ => ?_))
  refine Kept.ite (fun _ => h _ _ _ _) (fun _ => Kept.ite (fun _ => State.clampS_kept _ _ _ _) (fun _ => ?_))
  refine Kept.ite (fun _ => State.clampS_kept _ _ _ _) (fun _ => Kept.ite (fun _ => ?_) (fun _ => Kept.refl s))
  exact (State.clampF_kept s _ _ _).trans (State.clampF_kept _ _ _ _)

theorem State.writeTim_kept (s old : State) (base : Nat) (w : RegWr) : Kept s (State.writeTim s old base w) := by
  unfold State.writeTim
  extract_lets s1
  have h1 : Kept s s1 := State.timClamp_kept s base
  clear_value s1
  refine Kept.ite (fun _ => ?_) (fun _ => Kept.ite (fun _ => h1.trans (State.refreshDomains_kept _)) (fun _ => ?_))
  · exact h1.trans (Kept.trans (Kept.trans (Kept.ite (fun _ => State.epochClear_kept _) (fun _ => Kept.refl _))
      (State.refreshDomains_kept _)) (State.setF_kept _ _ _))
  · exact Kept.ite (fun _ => h1.trans (State.cmpArm_kept _ _)) (fun _ => h1)

theorem State.txClamp_kept (s : State) (pre post amp : Fld) : Kept s (State.txClamp s pre post amp) := by
  unfold State.txClamp
  repeat' first
    | (with_reducible exact Kept.refl _)
    | (with_reducible assumption)
    | (extract_lets +onlyGivenNames x; have e : TyOf x = State := (by with_reducible rfl); clear e; with_reducible apply Kept.use x; (on_goal 1 => dsimp -zeta only [x]; clear x); (on_goal 2 => intro h; clear_value x; revert x; intro _ _))
    | (with_reducible apply Kept.after (State.clampF_kept _ _ _ _))

theorem State.tapsWait_kept (s : State) (p l : Nat) : Kept s (State.tapsWait s p l) := by
  unfold State.tapsWait
  repeat' first
    | (with_reducible exact Kept.refl _)
    | (with_reducible assumption)
    | (extract_lets +onlyGivenNames x; have e : TyOf x = State := (by with_reducible rfl); clear e; with_reducible apply Kept.use x; (on_goal 1 => dsimp -zeta only [x]; clear x); (on_goal 2 => intro h; clear_value x; revert x; intro _ _))
    | (extract_lets +onlyGivenNames x; clear_value x; revert x; intro _)
    | (with_reducible apply Kept.after (State.drew_kept _))
    | (with_reducible rfl)
    | (with_reducible exact fun h => h)
    | (with_reducible exact fun h => ⟨h, rfl⟩)
    | (with_reducible apply Kept.after (Kept.parts _ ?_ ?_ ?_ ?_ ?_ ?_ ?_))

theorem State.freezeRx_kept (s old : State) (p : Nat) : Kept s (State.freezeRx s old p) := by
  unfold State.freezeRx
  repeat' first
    | (with_reducible exact Kept.refl _)
    | (with_reducible apply Kept.after (State.adapt_kept _ _ _))
    | (with_reducible apply Kept.after (State.each_kept ?_ _ _))
    | (with_reducible apply Kept.ite)
    | (intro _)

theorem State.writeIng_kept (s old : State) (base : Nat) : Kept s (State.writeIng s old base) := by
  unfold State.writeIng
  repeat' first
    | (with_reducible exact Kept.refl _)
    | (extract_lets +onlyGivenNames x; clear_value x; revert x; intro _)
    | (with_reducible apply Kept.after (State.freezeRx_kept _ _ _))
    | (with_reducible apply Kept.after (State.portModeChanged_kept _ _))
    | (with_reducible apply Kept.after (State.portRefresh_kept _ _))
    | (with_reducible apply Kept.after (State.tapsWait_kept _ _ _))
    | (with_reducible apply Kept.after (State.txClamp_kept _ _ _ _))
    | (with_reducible apply Kept.ite)
    | (intro _)

theorem State.writeFab_kept (s old : State) (base : Nat) : Kept s (State.writeFab s old base) := by
  unfold State.writeFab
  repeat' first
    | (with_reducible exact Kept.refl _)
    | (extract_lets +onlyGivenNames x; clear_value x; revert x; intro _)
    | (with_reducible apply Kept.after (State.freezeRx_kept _ _ _))
    | (with_reducible apply Kept.after (State.portRefresh_kept _ _))
    | (with_reducible apply Kept.after (State.tapsWait_kept _ _ _))
    | (with_reducible apply Kept.after (State.txClamp_kept _ _ _ _))
    | (with_reducible apply Kept.ite)
    | (intro _)

theorem State.writePit_kept (s : State) (base : Nat) (w : RegWr) : Kept s (State.writePit s base w) := by
  unfold State.writePit
  repeat' first
    | (with_reducible exact Kept.refl _)
    | (extract_lets +onlyGivenNames x; clear_value x; revert x; intro _)
    | (with_reducible apply Kept.after (State.setCluster_kept _ _ _))
    | (with_reducible apply Kept.ite)
    | (intro _)

theorem State.writeCue_kept (s : State) (base : Nat) (w : RegWr) : Kept s (State.writeCue s base w) := by
  unfold State.writeCue
  repeat' first
    | (with_reducible exact Kept.refl _)
    | (with_reducible assumption)
    | (extract_lets +onlyGivenNames x; have e : TyOf x = State := (by with_reducible rfl); clear e; with_reducible apply Kept.use x; (on_goal 1 => dsimp -zeta only [x]; clear x); (on_goal 2 => intro h; clear_value x; revert x; intro _ _))
    | (extract_lets +onlyGivenNames x; clear_value x; revert x; intro _)
    | (with_reducible apply Kept.after (State.chanEnable_kept _ _))
    | (with_reducible apply Kept.after (State.cueFire_kept _ _ _ ?_))
    | (with_reducible apply Kept.after (State.filtEnable_kept _ _))
    | (with_reducible apply Kept.after (State.pulseOn_kept _ _ _))
    | (with_reducible apply Kept.after (State.setF_kept _ _ _))
    | (with_reducible apply Kept.after (State.softLevel_kept _ _ _))
    | (with_reducible apply Kept.after (State.each_kept ?_ _ _))
    | (with_reducible apply Kept.ite)
    | (intro _)

theorem State.writeFlt_kept (s : State) (base : Nat) (w : RegWr) : Kept s (State.writeFlt s base w) := by
  unfold State.writeFlt
  repeat' first
    | (with_reducible exact Kept.refl _)
    | (with_reducible assumption)
    | (extract_lets +onlyGivenNames x; have e : TyOf x = State := (by with_reducible rfl); clear e; with_reducible apply Kept.use x; (on_goal 1 => dsimp -zeta only [x]; clear x); (on_goal 2 => intro h; clear_value x; revert x; intro _ _))
    | (with_reducible apply Kept.after (State.ackReact_kept _ _))
    | (with_reducible apply Kept.after (State.drew_kept _))
    | (with_reducible apply Kept.after (State.enterService_kept _ _ _))
    | (with_reducible apply Kept.after (State.ironExit_kept _ _))
    | (with_reducible apply Kept.after (State.leaveService_kept _ _))
    | (with_reducible apply Kept.after (State.raise_kept _ _ _ _ _))
    | (with_reducible apply Kept.after (State.setF_kept _ _ _))
    | (with_reducible apply Kept.after (State.whenever_kept ?_ _ _))
    | (with_reducible apply Kept.ite)
    | (intro _)

theorem State.writePwr_kept (s old : State) (base : Nat) (w : RegWr) : Kept s (State.writePwr s old base w) := by
  unfold State.writePwr
  split
  · extract_lets b go
    have hg : ∀ (s : State) (i : Nat) (f : State → State), (∀ s, Kept s (f s)) → Kept s (go s i f) := fun s i f h =>
      Kept.ite (fun _ => State.blockReset_kept s i f h) (fun _ => Kept.refl s)
    clear_value go
    exact ((((hg s 0 _ State.resetPit_kept).trans (hg _ 1 _ State.resetMov_kept)).trans (hg _ 2 _ State.resetStg_kept)).trans
      (hg _ 3 _ State.resetCue_kept)).trans (hg _ 4 _ State.resetHst_kept)
  · split
    · extract_lets u
      have hu : Kept s u := Kept.ite (fun _ => State.holdNow_kept s) (fun _ => Kept.refl s)
      exact Kept.ite (fun _ => hu.trans (State.clkMin_kept _)) (fun _ => hu)
    · exact Kept.refl s

theorem State.writeScp_kept (s : State) (base : Nat) (w : RegWr) : Kept s (State.writeScp s base w) := by
  unfold State.writeScp
  repeat' first
    | (with_reducible exact Kept.refl _)
    | (with_reducible apply Kept.after (State.clearAttn_kept _))
    | (with_reducible apply Kept.after (State.rollGo_kept _ _))
    | (with_reducible apply Kept.after (State.setAttn_kept _))
    | (with_reducible apply Kept.ite)
    | (intro _)

theorem State.writeHst_kept (s : State) (base : Nat) (w : RegWr) : Kept s (State.writeHst s base w) := by
  unfold State.writeHst
  repeat' first
    | (with_reducible exact Kept.refl _)
    | (with_reducible apply Kept.after (State.disable_kept _))
    | (with_reducible apply Kept.after (State.enable_kept _))
    | (with_reducible apply Kept.ite)
    | (intro _)

theorem State.actOn_kept (s old : State) (base : Nat) (w : RegWr) : Kept s (State.actOn s old base w) := by
  unfold State.actOn
  repeat' first
    | (with_reducible exact Kept.refl _)
    | (extract_lets +onlyGivenNames x; clear_value x; revert x; intro _)
    | (with_reducible apply Kept.after (State.pushGo_kept _))
    | (with_reducible apply Kept.after (State.writeCue_kept _ _ _))
    | (with_reducible apply Kept.after (State.writeFab_kept _ _ _))
    | (with_reducible apply Kept.after (State.writeFlt_kept _ _ _))
    | (with_reducible apply Kept.after (State.writeHck_kept _ _ _))
    | (with_reducible apply Kept.after (State.writeHst_kept _ _ _))
    | (with_reducible apply Kept.after (State.writeIng_kept _ _ _))
    | (with_reducible apply Kept.after (State.writePit_kept _ _ _))
    | (with_reducible apply Kept.after (State.writePwr_kept _ _ _ _))
    | (with_reducible apply Kept.after (State.writeScp_kept _ _ _))
    | (with_reducible apply Kept.after (State.writeTim_kept _ _ _ _))
    | (with_reducible apply Kept.ite)
    | (intro _)

theorem State.writeWindow_kept (s : State) (base : Nat) (w : RegWr) : Kept s (State.writeWindow s base w) := by
  unfold State.writeWindow
  repeat' first
    | (with_reducible exact Kept.refl _)
    | (extract_lets +onlyGivenNames x; clear_value x; revert x; intro _)
    | (with_reducible apply Kept.after (State.setF_kept _ _ _))
    | (with_reducible apply Kept.ite)
    | (intro _)

theorem State.writeMsix_kept (s : State) (base : Nat) (w : RegWr) : Kept s (State.writeMsix s base w) := by
  unfold State.writeMsix
  repeat' first
    | (with_reducible exact Kept.refl _)
    | (with_reducible assumption)
    | (extract_lets +onlyGivenNames x; have e : TyOf x = State := (by with_reducible rfl); clear e; with_reducible apply Kept.use x; (on_goal 1 => dsimp -zeta only [x]; clear x); (on_goal 2 => intro h; clear_value x; revert x; intro _ _))
    | (extract_lets +onlyGivenNames x; have e : TyOf x = HostU := (by with_reducible rfl); clear e; dsimp -zeta only [x]; clear x)
    | (extract_lets +onlyGivenNames x; clear_value x; revert x; intro _)
    | (with_reducible apply Kept.after (State.raiseVector_kept _ _))
    | (with_reducible apply Kept.ite)
    | (with_reducible rfl)
    | (with_reducible exact fun h => h)
    | (with_reducible exact fun h => ⟨h, rfl⟩)
    | (intro _)
    | (with_reducible apply Kept.after (Kept.parts _ ?_ ?_ ?_ ?_ ?_ ?_ ?_))

theorem State.writeReg_kept (s : State) (off size val same : Nat) : Kept s (State.writeReg s off size val same) := by
  unfold State.writeReg
  split
  · exact State.badAccess_kept _
  · extract_lets base k w
    refine Kept.ite (fun _ => State.writeMsix_kept _ _ _) (fun _ => ?_)
    refine Kept.ite (fun _ => State.badAccess_kept _) (fun _ => ?_)
    refine Kept.ite (fun _ => Kept.refl _) (fun _ => ?_)
    refine Kept.ite (fun _ => State.badAccess_kept _) (fun _ => ?_)
    refine Kept.ite (fun _ => State.writeWindow_kept _ _ _) (fun _ => ?_)
    refine Kept.ite (fun _ => State.setF_kept _ _ _) (fun _ => ?_)
    exact (State.each_kept (fun s f => State.storeField_kept s w f) s _).trans (State.actOn_kept _ _ _ _)

/-! ## Ingest -/

theorem State.discard_kept (s : State) (p reason first last : Nat) : Kept s (State.discard s p reason first last) := by
  unfold State.discard
  repeat' first
    | (with_reducible exact Kept.refl _)
    | (with_reducible assumption)
    | (extract_lets +onlyGivenNames x; have e : TyOf x = State := (by with_reducible rfl); clear e; with_reducible apply Kept.use x; (on_goal 1 => dsimp -zeta only [x]; clear x); (on_goal 2 => intro h; clear_value x; revert x; intro _ _))
    | (extract_lets +onlyGivenNames x; clear_value x; revert x; intro _)
    | (with_reducible apply Kept.after (State.incF_kept _ _ _))
    | (with_reducible apply Kept.after (State.setPort_kept _ _ _))

theorem State.discardCrc_kept (s : State) (p : Nat) : Kept s (State.discardCrc s p) := by
  unfold State.discardCrc
  repeat' first
    | (with_reducible exact Kept.refl _)
    | (extract_lets +onlyGivenNames x; clear_value x; revert x; intro _)
    | (with_reducible apply Kept.after (State.incF_kept _ _ _))
    | (with_reducible apply Kept.after (State.setPort_kept _ _ _))

theorem State.lossEnds_kept (s : State) (p : Nat) : Kept s (State.lossEnds s p) := by
  unfold State.lossEnds
  repeat' first
    | (with_reducible exact Kept.refl _)
    | (with_reducible assumption)
    | (extract_lets +onlyGivenNames x; have e : TyOf x = State := (by with_reducible rfl); clear e; with_reducible apply Kept.use x; (on_goal 1 => dsimp -zeta only [x]; clear x); (on_goal 2 => intro h; clear_value x; revert x; intro _ _))
    | (extract_lets +onlyGivenNames x; clear_value x; revert x; intro _)
    | (with_reducible apply Kept.after (State.drew_kept _))
    | (with_reducible apply Kept.after (State.emitFor_kept _ _ _ _ _ _ _))
    | (with_reducible apply Kept.after (State.setPort_kept _ _ _))
    | (with_reducible apply Kept.ite)
    | (intro _)
    | split

theorem State.acceptPart_kept (s : State) (p : Nat) (k : Packet) (q : Part120) : Kept s (State.acceptPart s p k q) := by
  unfold State.acceptPart
  repeat' first
    | (with_reducible exact Kept.refl _)
    | (with_reducible assumption)
    | (extract_lets +onlyGivenNames x; have e : TyOf x = State := (by with_reducible rfl); clear e; with_reducible apply Kept.use x; (on_goal 1 => dsimp -zeta only [x]; clear x); (on_goal 2 => intro h; clear_value x; revert x; intro _ _))
    | (extract_lets +onlyGivenNames x; clear_value x; revert x; intro _)
    | (with_reducible apply Kept.after (State.lostVect_kept _ _ _ _))
    | (with_reducible apply Kept.after (State.setPort_kept _ _ _))
    | (with_reducible apply Kept.after (State.each_kept ?_ _ _))
    | (with_reducible rfl)
    | (with_reducible exact fun h => h)
    | (with_reducible exact fun h => ⟨h, rfl⟩)
    | (intro _)
    | (with_reducible apply Kept.after (Kept.parts _ ?_ ?_ ?_ ?_ ?_ ?_ ?_))

theorem State.judgePart_kept (s : State) (p : Nat) (k : Packet) (q : Part120) : Kept s (State.judgePart s p k q).1 := by
  unfold State.judgePart
  repeat' first
    | (with_reducible exact Kept.refl _)
    | (with_reducible assumption)
    | (extract_lets +onlyGivenNames x; have e : TyOf x = State := (by with_reducible rfl); clear e; with_reducible apply Kept.use x; (on_goal 1 => dsimp -zeta only [x]; clear x); (on_goal 2 => intro h; clear_value x; revert x; intro _ _))
    | (extract_lets +onlyGivenNames x; clear_value x; revert x; intro _)
    | (with_reducible apply Kept.after (State.acceptPart_kept _ _ _ _))
    | (with_reducible apply Kept.after (State.discard_kept _ _ _ _ _))
    | (with_reducible apply Kept.after (State.lossEnds_kept _ _))
    | (with_reducible apply Kept.after (State.windowPulse_kept _ _))
    | (with_reducible apply Kept.ite)
    | (intro _)
    | split

theorem State.judge_kept (s : State) (p : Nat) (k : Packet) (lenBad : Bool) : Kept s (State.judge s p k lenBad) := by
  unfold State.judge
  repeat' first
    | (with_reducible exact Kept.refl _)
    | (with_reducible assumption)
    | (extract_lets +onlyGivenNames x; have e : TyOf x = State := (by with_reducible rfl); clear e; with_reducible apply Kept.use x; (on_goal 1 => dsimp -zeta only [x]; clear x); (on_goal 2 => intro h; clear_value x; revert x; intro _ _))
    | (extract_lets +onlyGivenNames x; obtain ⟨_, e⟩ : ∃ α, TyOf x = (State × α) := (by with_reducible exact ⟨_, rfl⟩); clear e; with_reducible apply Kept.use x.1; (on_goal 1 => dsimp -zeta only [x]; clear x); (on_goal 2 => intro h; clear_value x; revert x; intro _ _))
    | (extract_lets +onlyGivenNames x; clear_value x; revert x; intro _)
    | (with_reducible apply Kept.after (State.addF_kept _ _ _))
    | (with_reducible apply Kept.after (State.discard_kept _ _ _ _ _))
    | (with_reducible apply Kept.after (State.judgePart_kept _ _ _ _))
    | (with_reducible apply Kept.after (State.pumpPort_kept _ _))
    | (with_reducible apply Kept.after (State.showFlow_kept _ _ _))
    | (with_reducible apply Kept.after (State.windowPulse_kept _ _))
    | (with_reducible apply Kept.ite)
    | (intro _)
    | (with_reducible apply Kept.after (foldl_fst_kept ?_ _ _))

theorem State.followSeq_kept (s : State) (p src seq : Nat) : Kept s (State.followSeq s p src seq) := by
  unfold State.followSeq
  repeat' first
    | (with_reducible exact Kept.refl _)
    | (with_reducible assumption)
    | (extract_lets +onlyGivenNames x; have e : TyOf x = State := (by with_reducible rfl); clear e; with_reducible apply Kept.use x; (on_goal 1 => dsimp -zeta only [x]; clear x); (on_goal 2 => intro h; clear_value x; revert x; intro _ _))
    | (extract_lets +onlyGivenNames x; clear_value x; revert x; intro _)
    | (with_reducible apply Kept.after (State.incF_kept _ _ _))
    | (with_reducible apply Kept.after (State.setPort_kept _ _ _))
    | (with_reducible apply Kept.ite)
    | (intro _)

theorem State.keepRaw_kept (s old : State) (p : Nat) (bytes : List Byte) : Kept s (State.keepRaw s old p bytes) := by
  unfold State.keepRaw
  repeat' first
    | (with_reducible exact Kept.refl _)
    | (extract_lets +onlyGivenNames x; clear_value x; revert x; intro _)
    | (with_reducible apply Kept.after (State.setPort_kept _ _ _))
    | (with_reducible apply Kept.ite)
    | (intro _)

/-! ## Lane -/

theorem State.blockLost_kept (s : State) (p l : Nat) : Kept s (State.blockLost s p l) := by
  unfold State.blockLost
  repeat' first
    | (with_reducible exact Kept.refl _)
    | (with_reducible assumption)
    | (extract_lets +onlyGivenNames x; have e : TyOf x = State := (by with_reducible rfl); clear e; with_reducible apply Kept.use x; (on_goal 1 => dsimp -zeta only [x]; clear x); (on_goal 2 => intro h; clear_value x; revert x; intro _ _))
    | (with_reducible apply Kept.after (State.hckLinks_kept _))
    | (with_reducible apply Kept.after (State.lockEvent_kept _ _ _ _ _))
    | (with_reducible apply Kept.after (State.putBit_kept _ _ _ _))
    | (with_reducible apply Kept.after (State.setPortState_kept _ _ _))
    | (with_reducible apply Kept.ite)
    | (intro _)

/-! ## PitCmd -/

theorem State.askFlip_kept (s : State) (c r six : Nat) : Kept s (State.askFlip s c r six) := by
  unfold State.askFlip
  repeat' first
    | (with_reducible exact Kept.refl _)
    | (extract_lets +onlyGivenNames x; clear_value x; revert x; intro _)
    | (with_reducible apply Kept.after (State.setCluster_kept _ _ _))
    | (with_reducible apply Kept.after (State.setF_kept _ _ _))

/-! ## Prod -/

theorem State.holdOver_kept (s : State) (x : Nat) : Kept s (State.holdOver s x) := by
  unfold State.holdOver
  repeat' first
    | (with_reducible exact Kept.refl _)
    | (with_reducible assumption)
    | (extract_lets +onlyGivenNames x; have e : TyOf x = State := (by with_reducible rfl); clear e; with_reducible apply Kept.use x; (on_goal 1 => dsimp -zeta only [x]; clear x); (on_goal 2 => intro h; clear_value x; revert x; intro _ _))
    | (extract_lets +onlyGivenNames x; clear_value x; revert x; intro _)
    | (with_reducible apply Kept.after (State.emitFor_kept _ _ _ _ _ _ _))
    | (with_reducible apply Kept.after (State.freeFrame_kept _ _))
    | (with_reducible apply Kept.after (State.putBit_kept _ _ _ _))
    | (with_reducible apply Kept.after (State.retryAdds_kept _))

theorem State.bufNotice_kept (s : State) (j : Nat) (n : Int) : Kept s (State.bufNotice s j n) := by
  unfold State.bufNotice
  repeat' first
    | (with_reducible exact Kept.refl _)
    | (with_reducible assumption)
    | (extract_lets +onlyGivenNames x; have e : TyOf x = State := (by with_reducible rfl); clear e; with_reducible apply Kept.use x; (on_goal 1 => dsimp -zeta only [x]; clear x); (on_goal 2 => intro h; clear_value x; revert x; intro _ _))
    | (extract_lets +onlyGivenNames x; clear_value x; revert x; intro _)
    | (with_reducible apply Kept.after (State.addF_kept _ _ _))
    | (with_reducible apply Kept.after (State.productNotice_kept _ _ _ _ _ _))
    | (with_reducible apply Kept.after (State.pulse_kept _ _))
    | (with_reducible apply Kept.after (State.writeHeader_kept _ _ _))
    | (with_reducible apply Kept.ite)
    | (with_reducible rfl)
    | (with_reducible exact fun h => h)
    | (with_reducible exact fun h => ⟨h, rfl⟩)
    | (intro _)
    | (with_reducible apply Kept.after (Kept.parts _ ?_ ?_ ?_ ?_ ?_ ?_ ?_))

/-! ## Ring -/

theorem State.dbDrop_kept (s : State) (f : Fld) (r code v d1 : Nat) : Kept s (State.dbDrop s f r code v d1) := by
  unfold State.dbDrop
  repeat' first
    | (with_reducible exact Kept.refl _)
    | (with_reducible apply Kept.after (State.hstEvent_kept _ _ _ _ _))
    | (with_reducible apply Kept.after (State.incF_kept _ _ _))
    | (with_reducible apply Kept.after (State.setF_kept _ _ _))

theorem State.dbAccept_kept (s : State) (r : Nat) (x : Ring) (pidx : Nat) : Kept s (State.dbAccept s r x pidx) := by
  unfold State.dbAccept
  repeat' first
    | (with_reducible exact Kept.refl _)
    | (with_reducible apply Kept.after (State.setRing_kept _ _ _))
    | (with_reducible apply Kept.after (State.spaceBack_kept _ _))
    | (with_reducible apply Kept.ite)
    | (intro _)

theorem State.doorbell_kept (s : State) (off v : Nat) (ctxBad : Bool) : Kept s (State.doorbell s off v ctxBad) := by
  unfold State.doorbell
  repeat' first
    | (with_reducible exact Kept.refl _)
    | (with_reducible assumption)
    | (extract_lets +onlyGivenNames x; have e : TyOf x = State := (by with_reducible rfl); clear e; with_reducible apply Kept.use x; (on_goal 1 => dsimp -zeta only [x]; clear x); (on_goal 2 => intro h; clear_value x; revert x; intro _ _))
    | (extract_lets +onlyGivenNames x; clear_value x; revert x; intro _)
    | (with_reducible apply Kept.after (State.ctxError_kept _ _ _))
    | (with_reducible apply Kept.after (State.dbAccept_kept _ _ _ _))
    | (with_reducible apply Kept.after (State.dbDrop_kept _ _ _ _ _ _))
    | (with_reducible apply Kept.after (State.incF_kept _ _ _))
    | (with_reducible apply Kept.after (State.setRing_kept _ _ _))
    | (with_reducible apply Kept.after (State.touchCtx_kept _ _))
    | (with_reducible apply Kept.ite)
    | (intro _)
    | split

theorem State.ringDoorbell_kept (s : State) (off size val : Nat) (ctxBad : Bool) : Kept s (State.ringDoorbell s off size val ctxBad) := by
  unfold State.ringDoorbell
  repeat' first
    | (with_reducible exact Kept.refl _)
    | (with_reducible apply Kept.after (State.badAccess_kept _))
    | (with_reducible apply Kept.after (State.doorbell_kept _ _ _ _))
    | (with_reducible apply Kept.ite)
    | (intro _)

theorem State.cacheDesc_kept (s : State) (x : Ring) (d : BitVec 512) : Kept s (State.cacheDesc s x d) := by
  unfold State.cacheDesc
  repeat' first
    | (with_reducible exact Kept.refl _)
    | (extract_lets +onlyGivenNames x; have e : TyOf x = HostU := (by with_reducible rfl); clear e; dsimp -zeta only [x]; clear x)
    | (extract_lets +onlyGivenNames x; clear_value x; revert x; intro _)
    | (with_reducible apply Kept.ite)
    | (with_reducible rfl)
    | (with_reducible exact fun h => h)
    | (with_reducible exact fun h => ⟨h, rfl⟩)
    | (intro _)
    | (with_reducible apply Kept.after (Kept.parts _ ?_ ?_ ?_ ?_ ?_ ?_ ?_))

theorem State.fetch_kept (s : State) (r : Nat) (x : Ring) (desc : BitVec 512) : Kept s (State.fetch s r x desc) := by
  unfold State.fetch
  repeat' first
    | (with_reducible exact Kept.refl _)
    | (with_reducible assumption)
    | (extract_lets +onlyGivenNames x; have e : TyOf x = State := (by with_reducible rfl); clear e; with_reducible apply Kept.use x; (on_goal 1 => dsimp -zeta only [x]; clear x); (on_goal 2 => intro h; clear_value x; revert x; intro _ _))
    | (extract_lets +onlyGivenNames x; clear_value x; revert x; intro _)
    | (with_reducible apply Kept.after (State.cacheDesc_kept _ _ _))
    | (with_reducible apply Kept.after (State.finish_kept _ _ _ _))
    | (with_reducible apply Kept.after (State.setRing_kept _ _ _))
    | (with_reducible apply Kept.after (State.touchCtx_kept _ _))
    | (with_reducible apply Kept.ite)
    | (intro _)

/-! ## Host -/

theorem State.snooped_kept (s : State) (q : CacheLine) : Kept s (State.snooped s q) := by
  unfold State.snooped
  repeat' first
    | (with_reducible exact Kept.refl _)
    | (with_reducible assumption)
    | (extract_lets +onlyGivenNames x; have e : TyOf x = State := (by with_reducible rfl); clear e; with_reducible apply Kept.use x; (on_goal 1 => dsimp -zeta only [x]; clear x); (on_goal 2 => intro h; clear_value x; revert x; intro _ _))
    | (extract_lets +onlyGivenNames x; have e : TyOf x = HostU := (by with_reducible rfl); clear e; dsimp -zeta only [x]; clear x)
    | (with_reducible apply Kept.after (State.hostPut_kept _ _ _))
    | (with_reducible apply Kept.after (State.send_kept _ _))
    | (with_reducible apply Kept.ite)
    | (with_reducible rfl)
    | (with_reducible exact fun h => h)
    | (with_reducible exact fun h => ⟨h, rfl⟩)
    | (intro _)
    | (with_reducible apply Kept.after (Kept.parts _ ?_ ?_ ?_ ?_ ?_ ?_ ?_))

/-! ## StoreCmd -/

theorem State.storeRead_kept (s : State) (port a : Nat) (errs : List Nat) (wait : Nat) :
    Kept s (State.storeRead s port a errs wait) := by
  unfold State.storeRead
  exact State.request_kept _ _

theorem State.storeWrite_kept (s : State) (port a : Nat) (data : BitVec 512) (bytes : BitVec 64) (errs : List Nat) (wait : Nat) : Kept s (State.storeWrite s port a data bytes errs wait) := by
  unfold State.storeWrite
  repeat' first
    | (with_reducible exact Kept.refl _)
    | (with_reducible apply Kept.after (State.request_kept _ _))

theorem State.storeAdd_kept (s : State) (port a : Nat) (fmt : Fin 3) (mask : BitVec 16) (data : BitVec 512) (errs : List Nat) : Kept s (State.storeAdd s port a fmt mask data errs) := by
  unfold State.storeAdd
  repeat' first
    | (with_reducible exact Kept.refl _)
    | (with_reducible apply Kept.after (State.request_kept _ _))

theorem State.scrub_kept (s : State) (n : Nat) (errs : List Nat) : Kept s (State.scrub s n errs) := by
  unfold State.scrub
  repeat' first
    | (with_reducible exact Kept.refl _)
    | (with_reducible assumption)
    | (extract_lets +onlyGivenNames x; have e : TyOf x = State := (by with_reducible rfl); clear e; with_reducible apply Kept.use x; (on_goal 1 => dsimp -zeta only [x]; clear x); (on_goal 2 => intro h; clear_value x; revert x; intro _ _))
    | (extract_lets +onlyGivenNames x; clear_value x; revert x; intro _)
    | (with_reducible apply Kept.after (State.request_kept _ _))
    | (with_reducible apply Kept.after (State.setPch_kept _ _ _))
    | (with_reducible apply Kept.ite)
    | (intro _)

theorem State.refreshDue_kept (s : State) (n b : Nat) (queued : Bool) : Kept s (State.refreshDue s n b queued) := by
  unfold State.refreshDue
  repeat' first
    | (with_reducible exact Kept.refl _)
    | (with_reducible assumption)
    | (extract_lets +onlyGivenNames x; have e : TyOf x = State := (by with_reducible rfl); clear e; with_reducible apply Kept.use x; (on_goal 1 => dsimp -zeta only [x]; clear x); (on_goal 2 => intro h; clear_value x; revert x; intro _ _))
    | (extract_lets +onlyGivenNames x; clear_value x; revert x; intro _)
    | (with_reducible apply Kept.after (State.drew_kept _))
    | (with_reducible apply Kept.after (State.setF_kept _ _ _))
    | (with_reducible apply Kept.after (State.setPch_kept _ _ _))
    | (with_reducible apply Kept.ite)
    | (intro _)

theorem State.startFence_kept (s : State) (n : Nat) : Kept s (State.startFence s n) := by
  unfold State.startFence
  repeat' first
    | (with_reducible exact Kept.refl _)
    | (with_reducible assumption)
    | (extract_lets +onlyGivenNames x; have e : TyOf x = State := (by with_reducible rfl); clear e; with_reducible apply Kept.use x; (on_goal 1 => dsimp -zeta only [x]; clear x); (on_goal 2 => intro h; clear_value x; revert x; intro _ _))
    | (with_reducible apply Kept.after (State.addF_kept _ _ _))
    | (with_reducible apply Kept.after (State.fenceCap_kept _))
    | (with_reducible apply Kept.after (State.journal_kept _ _))
    | (with_reducible apply Kept.after (State.putBit_kept _ _ _ _))
    | (with_reducible apply Kept.after (State.setF_kept _ _ _))
    | (with_reducible apply Kept.after (State.setReplace_kept _ _))
    | (with_reducible apply Kept.ite)
    | (intro _)

theorem State.trained_kept (s : State) (n : Nat) : Kept s (State.trained s n) := by
  unfold State.trained
  repeat' first
    | (with_reducible exact Kept.refl _)
    | (with_reducible assumption)
    | (extract_lets +onlyGivenNames x; have e : TyOf x = State := (by with_reducible rfl); clear e; with_reducible apply Kept.use x; (on_goal 1 => dsimp -zeta only [x]; clear x); (on_goal 2 => intro h; clear_value x; revert x; intro _ _))
    | (extract_lets +onlyGivenNames x; clear_value x; revert x; intro _)
    | (with_reducible apply Kept.after (State.drew_kept _))
    | (with_reducible apply Kept.after (State.setF_kept _ _ _))
    | (with_reducible apply Kept.after (State.setPch_kept _ _ _))

theorem State.firstTraining_kept (s : State) (bad : List Nat) : Kept s (State.firstTraining s bad) := by
  unfold State.firstTraining
  repeat' first
    | (with_reducible exact Kept.refl _)
    | (with_reducible assumption)
    | (extract_lets +onlyGivenNames x; have e : TyOf x = State := (by with_reducible rfl); clear e; with_reducible apply Kept.use x; (on_goal 1 => dsimp -zeta only [x]; clear x); (on_goal 2 => intro h; clear_value x; revert x; intro _ _))
    | (with_reducible apply Kept.after (State.setF_kept _ _ _))
    | (with_reducible apply Kept.after (State.startFence_kept _ _))
    | (with_reducible apply Kept.after (State.trained_kept _ _))
    | (with_reducible apply Kept.after (State.each_kept ?_ _ _))
    | (intro _)

theorem State.retrained_kept (s : State) (n readPs writePs vref : Nat) (newOk lastOk : Bool) : Kept s (State.retrained s n readPs writePs vref newOk lastOk) := by
  unfold State.retrained
  repeat' first
    | (with_reducible exact Kept.refl _)
    | (with_reducible assumption)
    | (extract_lets +onlyGivenNames x; have e : TyOf x = State := (by with_reducible rfl); clear e; with_reducible apply Kept.use x; (on_goal 1 => dsimp -zeta only [x]; clear x); (on_goal 2 => intro h; clear_value x; revert x; intro _ _))
    | (extract_lets +onlyGivenNames x; clear_value x; revert x; intro _)
    | (with_reducible apply Kept.after (State.emit_kept _ _ _ _ _ _))
    | (with_reducible apply Kept.after (State.fence_kept _ _))
    | (with_reducible apply Kept.after (State.incF_kept _ _ _))
    | (with_reducible apply Kept.after (State.retrainOver_kept _ _))
    | (with_reducible apply Kept.after (State.setF_kept _ _ _))
    | (with_reducible apply Kept.after (State.setFlag_kept _ _ _))
    | (with_reducible apply Kept.after (State.setPch_kept _ _ _))
    | (with_reducible apply Kept.ite)
    | (intro _)

/-! ## Matrix -/

theorem State.ctlPut_kept (s : State) (a : Nat) (v : BitVec 64) : Kept s (State.ctlPut s a v) := by
  unfold State.ctlPut
  repeat' first
    | (with_reducible exact Kept.refl _)
    | (extract_lets +onlyGivenNames x; clear_value x; revert x; intro _)
    | (with_reducible rfl)
    | (with_reducible exact fun h => h)
    | (with_reducible exact fun h => ⟨h, rfl⟩)
    | (with_reducible apply Kept.after (Kept.parts _ ?_ ?_ ?_ ?_ ?_ ?_ ?_))

theorem State.ctlWriteReg_kept (s : State) (m : Master) (off val : Nat) : Kept s (State.ctlWriteReg s m off val) := by
  unfold State.ctlWriteReg
  repeat' first
    | (with_reducible exact Kept.refl _)
    | (with_reducible apply Kept.after (State.setF_kept _ _ _))
    | (with_reducible apply Kept.after (State.writeReg_kept _ _ _ _ _))
    | (with_reducible apply Kept.after (State.whenever_kept ?_ _ _))
    | (with_reducible apply Kept.ite)
    | (intro _)

theorem State.writeBeat_kept (s : State) (m : Master) (t : CtlTarget) (off : Nat) (v : BitVec 64) : Kept s (State.writeBeat s m t off v) := by
  unfold State.writeBeat
  repeat' first
    | (with_reducible exact Kept.refl _)
    | (with_reducible apply Kept.after (State.ctlPut_kept _ _ _))
    | (with_reducible apply Kept.after (State.ctlWriteReg_kept _ _ _ _))
    | (with_reducible apply Kept.ite)
    | (intro _)
    | split

theorem State.readBeat_kept (s : State) (t : CtlTarget) (off : Nat) : Kept s (State.readBeat s t off).1 := by
  unfold State.readBeat
  repeat' first
    | (with_reducible exact Kept.refl _)
    | (with_reducible assumption)
    | (extract_lets +onlyGivenNames x; have e : TyOf x = State := (by with_reducible rfl); clear e; with_reducible apply Kept.use x; (on_goal 1 => dsimp -zeta only [x]; clear x); (on_goal 2 => intro h; clear_value x; revert x; intro _ _))
    | (extract_lets +onlyGivenNames x; have e : TyOf x = HostU := (by with_reducible rfl); clear e; dsimp -zeta only [x]; clear x)
    | (with_reducible apply Kept.after (State.readReg_kept _ _ _ _))
    | (with_reducible apply Kept.ite)
    | (with_reducible rfl)
    | (with_reducible exact fun h => h)
    | (with_reducible exact fun h => ⟨h, rfl⟩)
    | (intro _)
    | split
    | (dsimp -zeta only)
    | (with_reducible apply Kept.after (Kept.parts _ ?_ ?_ ?_ ?_ ?_ ?_ ?_))

theorem State.issueBeat_kept (s : State) (t : CtlTarget) (h : HeldBurst) : Kept s (State.issueBeat s t h) := by
  unfold State.issueBeat
  repeat' first
    | (with_reducible exact Kept.refl _)
    | (with_reducible assumption)
    | (extract_lets +onlyGivenNames x; obtain ⟨_, e⟩ : ∃ α, TyOf x = (State × α) := (by with_reducible exact ⟨_, rfl⟩); clear e; with_reducible apply Kept.use x.1; (on_goal 1 => dsimp -zeta only [x]; clear x); (on_goal 2 => intro h; clear_value x; revert x; intro _ _))
    | (extract_lets +onlyGivenNames x; clear_value x; revert x; intro _)
    | (with_reducible apply Kept.after (State.readBeat_kept _ _ _))
    | (with_reducible apply Kept.after (State.send_kept _ _))
    | (with_reducible apply Kept.after (State.writeBeat_kept _ _ _ _ _))
    | (with_reducible apply Kept.ite)
    | (intro _)
    | split

theorem State.ctlRequest_kept (s : State) (b : Burst) : Kept s (State.ctlRequest s b) := by
  unfold State.ctlRequest
  repeat' first
    | (with_reducible exact Kept.refl _)
    | (extract_lets +onlyGivenNames x; clear_value x; revert x; intro _)
    | (with_reducible apply Kept.after (State.send_kept _ _))
    | (with_reducible apply Kept.ite)
    | (with_reducible rfl)
    | (with_reducible exact fun h => h)
    | (with_reducible exact fun h => ⟨h, rfl⟩)
    | (intro _)
    | split
    | (with_reducible apply Kept.after (Kept.parts _ ?_ ?_ ?_ ?_ ?_ ?_ ?_))

theorem State.ctlGrant_kept (s : State) (t : CtlTarget) : Kept s (State.ctlGrant s t) := by
  unfold State.ctlGrant
  repeat' first
    | (with_reducible exact Kept.refl _)
    | (extract_lets +onlyGivenNames x; clear_value x; revert x; intro _)
    | (with_reducible rfl)
    | (with_reducible exact fun h => h)
    | (with_reducible exact fun h => ⟨h, rfl⟩)
    | split
    | (with_reducible apply Kept.after (Kept.parts _ ?_ ?_ ?_ ?_ ?_ ?_ ?_))

theorem State.ctlFree_kept (s : State) (t : CtlTarget) (h : HeldBurst) : Kept s (State.ctlFree s t h) := by
  unfold State.ctlFree
  repeat' first
    | (with_reducible exact Kept.refl _)
    | (with_reducible assumption)
    | (extract_lets +onlyGivenNames x; have e : TyOf x = State := (by with_reducible rfl); clear e; with_reducible apply Kept.use x; (on_goal 1 => dsimp -zeta only [x]; clear x); (on_goal 2 => intro h; clear_value x; revert x; intro _ _))
    | (extract_lets +onlyGivenNames x; clear_value x; revert x; intro _)
    | (with_reducible apply Kept.after (State.emit_kept _ _ _ _ _ _))
    | (with_reducible apply Kept.after (State.incF_kept _ _ _))
    | (with_reducible rfl)
    | (with_reducible exact fun h => h)
    | (with_reducible exact fun h => ⟨h, rfl⟩)
    | split
    | (with_reducible apply Kept.after (Kept.parts _ ?_ ?_ ?_ ?_ ?_ ?_ ?_))

theorem State.ctlBeat_kept (s : State) (t : CtlTarget) : Kept s (State.ctlBeat s t) := by
  unfold State.ctlBeat
  repeat' first
    | (with_reducible exact Kept.refl _)
    | (with_reducible assumption)
    | (extract_lets +onlyGivenNames x; have e : TyOf x = State := (by with_reducible rfl); clear e; with_reducible apply Kept.use x; (on_goal 1 => dsimp -zeta only [x]; clear x); (on_goal 2 => intro h; clear_value x; revert x; intro _ _))
    | (extract_lets +onlyGivenNames x; clear_value x; revert x; intro _)
    | (with_reducible apply Kept.after (State.ctlFree_kept _ _ _))
    | (with_reducible apply Kept.after (State.ctlGrant_kept _ _))
    | (with_reducible apply Kept.after (State.issueBeat_kept _ _ _))
    | (with_reducible apply Kept.ite)
    | (with_reducible rfl)
    | (with_reducible exact fun h => h)
    | (with_reducible exact fun h => ⟨h, rfl⟩)
    | (intro _)
    | split
    | (with_reducible apply Kept.after (Kept.parts _ ?_ ?_ ?_ ?_ ?_ ?_ ?_))

theorem State.matrixCycle_kept (s : State) : Kept s (State.matrixCycle s) := by
  unfold State.matrixCycle
  repeat' first
    | (with_reducible exact Kept.refl _)
    | (with_reducible apply Kept.after (State.ctlBeat_kept _ _))
    | (with_reducible apply Kept.after (State.each_kept ?_ _ _))
    | (with_reducible apply Kept.ite)
    | (intro _)

theorem State.idle_kept (s : State) : Kept s (State.idle s) := by
  unfold State.idle
  repeat' first
    | (with_reducible exact Kept.refl _)
    | (with_reducible apply Kept.after (State.settle_kept _))
    | (with_reducible apply Kept.after (State.matrixCycle_kept _))
    | (with_reducible apply Kept.after (tick_kept _))

theorem State.matrixRun_kept (s : State) (bursts : List Burst) (cycles : Nat) : Kept s (State.matrixRun s bursts cycles) := by
  unfold State.matrixRun
  repeat' first
    | (with_reducible exact Kept.refl _)
    | (with_reducible apply Kept.after (State.ctlRequest_kept _ _))
    | (with_reducible apply Kept.after (State.matrixCycle_kept _))
    | (with_reducible apply Kept.after (State.each_kept ?_ _ _))
    | (intro _)

theorem State.matrixLate_kept (s : State) (m : Master) : Kept s (State.matrixLate s m) := by
  unfold State.matrixLate
  repeat' first
    | (with_reducible exact Kept.refl _)
    | (with_reducible assumption)
    | (extract_lets +onlyGivenNames x; have e : TyOf x = State := (by with_reducible rfl); clear e; with_reducible apply Kept.use x; (on_goal 1 => dsimp -zeta only [x]; clear x); (on_goal 2 => intro h; clear_value x; revert x; intro _ _))
    | (extract_lets +onlyGivenNames x; clear_value x; revert x; intro _)
    | (with_reducible apply Kept.after (State.incF_kept _ _ _))
    | (with_reducible apply Kept.after (State.matrixReset_kept _ _))
    | (with_reducible apply Kept.after (State.raise_kept _ _ _ _ _))
    | (with_reducible apply Kept.after (State.send_kept _ _))
    | (with_reducible rfl)
    | (with_reducible exact fun h => h)
    | (with_reducible exact fun h => ⟨h, rfl⟩)
    | (with_reducible apply Kept.after (Kept.parts _ ?_ ?_ ?_ ?_ ?_ ?_ ?_))

end Sys2Proof.Machine
end

