-- ==== Sys2Proof/Laws/State.lean ====
section
/-!
SUPPORT. One lemma per field and update of the state: what each update leaves alone, and what it leaves behind.
-/

namespace Sys2Proof.Machine

/-! ## setF -/

@[simp] theorem State.setF_pending (s : State) (f : Fld) (v : Nat) : (s.setF f v).pending = s.pending := rfl
@[simp] theorem State.setF_freeCount (s : State) (f : Fld) (v : Nat) : (s.setF f v).freeCount = s.freeCount := rfl
@[simp] theorem State.setF_outbox (s : State) (f : Fld) (v : Nat) : (s.setF f v).outbox = s.outbox := rfl
@[simp] theorem State.setF_nextSeq (s : State) (f : Fld) (v : Nat) : (s.setF f v).nextSeq = s.nextSeq := rfl
@[simp] theorem State.setF_sent (s : State) (f : Fld) (v : Nat) : (s.setF f v).sent = s.sent := rfl
@[simp] theorem State.setF_mem (s : State) (f : Fld) (v : Nat) : (s.setF f v).mem = s.mem := rfl
@[simp] theorem State.setF_clu (s : State) (f : Fld) (v : Nat) : (s.setF f v).clu = s.clu := rfl
@[simp] theorem State.setF_mov (s : State) (f : Fld) (v : Nat) : (s.setF f v).mov = s.mov := rfl
@[simp] theorem State.setF_clk (s : State) (f : Fld) (v : Nat) : (s.setF f v).clk = s.clk := rfl
@[simp] theorem State.setF_host (s : State) (f : Fld) (v : Nat) : (s.setF f v).host = s.host := rfl
@[simp] theorem State.setF_scr (s : State) (f : Fld) (v : Nat) : (s.setF f v).scr = s.scr := rfl
@[simp] theorem State.setF_hck (s : State) (f : Fld) (v : Nat) : (s.setF f v).hck = s.hck := rfl
@[simp] theorem State.setF_tim (s : State) (f : Fld) (v : Nat) : (s.setF f v).tim = s.tim := rfl
@[simp] theorem State.setF_ing (s : State) (f : Fld) (v : Nat) : (s.setF f v).ing = s.ing := rfl
@[simp] theorem State.setF_sto (s : State) (f : Fld) (v : Nat) : (s.setF f v).sto = s.sto := rfl
@[simp] theorem State.setF_seq (s : State) (f : Fld) (v : Nat) : (s.setF f v).seq = s.seq := rfl
@[simp] theorem State.setF_bem (s : State) (f : Fld) (v : Nat) : (s.setF f v).bem = s.bem := rfl
@[simp] theorem State.setF_prd (s : State) (f : Fld) (v : Nat) : (s.setF f v).prd = s.prd := rfl
@[simp] theorem State.setF_fab (s : State) (f : Fld) (v : Nat) : (s.setF f v).fab = s.fab := rfl
@[simp] theorem State.setF_cue (s : State) (f : Fld) (v : Nat) : (s.setF f v).cue = s.cue := rfl
@[simp] theorem State.setF_flt (s : State) (f : Fld) (v : Nat) : (s.setF f v).flt = s.flt := rfl
@[simp] theorem State.setF_duo (s : State) (f : Fld) (v : Nat) : (s.setF f v).duo = s.duo := rfl
@[simp] theorem State.setF_ctl (s : State) (f : Fld) (v : Nat) : (s.setF f v).ctl = s.ctl := rfl
@[simp] theorem State.setF_matrix (s : State) (f : Fld) (v : Nat) : (s.setF f v).matrix = s.matrix := rfl
@[simp] theorem State.setF_pwr (s : State) (f : Fld) (v : Nat) : (s.setF f v).pwr = s.pwr := rfl

/-! ## setFlag -/

@[simp] theorem State.setFlag_pending (s : State) (f : Fld) (b : Bool) : (s.setFlag f b).pending = s.pending := rfl
@[simp] theorem State.setFlag_freeCount (s : State) (f : Fld) (b : Bool) : (s.setFlag f b).freeCount = s.freeCount := rfl
@[simp] theorem State.setFlag_outbox (s : State) (f : Fld) (b : Bool) : (s.setFlag f b).outbox = s.outbox := rfl
@[simp] theorem State.setFlag_nextSeq (s : State) (f : Fld) (b : Bool) : (s.setFlag f b).nextSeq = s.nextSeq := rfl
@[simp] theorem State.setFlag_sent (s : State) (f : Fld) (b : Bool) : (s.setFlag f b).sent = s.sent := rfl
@[simp] theorem State.setFlag_mem (s : State) (f : Fld) (b : Bool) : (s.setFlag f b).mem = s.mem := rfl
@[simp] theorem State.setFlag_clu (s : State) (f : Fld) (b : Bool) : (s.setFlag f b).clu = s.clu := rfl
@[simp] theorem State.setFlag_mov (s : State) (f : Fld) (b : Bool) : (s.setFlag f b).mov = s.mov := rfl
@[simp] theorem State.setFlag_clk (s : State) (f : Fld) (b : Bool) : (s.setFlag f b).clk = s.clk := rfl
@[simp] theorem State.setFlag_host (s : State) (f : Fld) (b : Bool) : (s.setFlag f b).host = s.host := rfl
@[simp] theorem State.setFlag_scr (s : State) (f : Fld) (b : Bool) : (s.setFlag f b).scr = s.scr := rfl
@[simp] theorem State.setFlag_hck (s : State) (f : Fld) (b : Bool) : (s.setFlag f b).hck = s.hck := rfl
@[simp] theorem State.setFlag_tim (s : State) (f : Fld) (b : Bool) : (s.setFlag f b).tim = s.tim := rfl
@[simp] theorem State.setFlag_ing (s : State) (f : Fld) (b : Bool) : (s.setFlag f b).ing = s.ing := rfl
@[simp] theorem State.setFlag_sto (s : State) (f : Fld) (b : Bool) : (s.setFlag f b).sto = s.sto := rfl
@[simp] theorem State.setFlag_seq (s : State) (f : Fld) (b : Bool) : (s.setFlag f b).seq = s.seq := rfl
@[simp] theorem State.setFlag_bem (s : State) (f : Fld) (b : Bool) : (s.setFlag f b).bem = s.bem := rfl
@[simp] theorem State.setFlag_prd (s : State) (f : Fld) (b : Bool) : (s.setFlag f b).prd = s.prd := rfl
@[simp] theorem State.setFlag_fab (s : State) (f : Fld) (b : Bool) : (s.setFlag f b).fab = s.fab := rfl
@[simp] theorem State.setFlag_cue (s : State) (f : Fld) (b : Bool) : (s.setFlag f b).cue = s.cue := rfl
@[simp] theorem State.setFlag_flt (s : State) (f : Fld) (b : Bool) : (s.setFlag f b).flt = s.flt := rfl
@[simp] theorem State.setFlag_duo (s : State) (f : Fld) (b : Bool) : (s.setFlag f b).duo = s.duo := rfl
@[simp] theorem State.setFlag_ctl (s : State) (f : Fld) (b : Bool) : (s.setFlag f b).ctl = s.ctl := rfl
@[simp] theorem State.setFlag_matrix (s : State) (f : Fld) (b : Bool) : (s.setFlag f b).matrix = s.matrix := rfl
@[simp] theorem State.setFlag_pwr (s : State) (f : Fld) (b : Bool) : (s.setFlag f b).pwr = s.pwr := rfl

/-! ## putBit -/

@[simp] theorem State.putBit_pending (s : State) (f : Fld) (i : Nat) (b : Bool) : (s.putBit f i b).pending = s.pending := rfl
@[simp] theorem State.putBit_freeCount (s : State) (f : Fld) (i : Nat) (b : Bool) : (s.putBit f i b).freeCount = s.freeCount := rfl
@[simp] theorem State.putBit_outbox (s : State) (f : Fld) (i : Nat) (b : Bool) : (s.putBit f i b).outbox = s.outbox := rfl
@[simp] theorem State.putBit_nextSeq (s : State) (f : Fld) (i : Nat) (b : Bool) : (s.putBit f i b).nextSeq = s.nextSeq := rfl
@[simp] theorem State.putBit_sent (s : State) (f : Fld) (i : Nat) (b : Bool) : (s.putBit f i b).sent = s.sent := rfl
@[simp] theorem State.putBit_mem (s : State) (f : Fld) (i : Nat) (b : Bool) : (s.putBit f i b).mem = s.mem := rfl
@[simp] theorem State.putBit_clu (s : State) (f : Fld) (i : Nat) (b : Bool) : (s.putBit f i b).clu = s.clu := rfl
@[simp] theorem State.putBit_mov (s : State) (f : Fld) (i : Nat) (b : Bool) : (s.putBit f i b).mov = s.mov := rfl
@[simp] theorem State.putBit_clk (s : State) (f : Fld) (i : Nat) (b : Bool) : (s.putBit f i b).clk = s.clk := rfl
@[simp] theorem State.putBit_host (s : State) (f : Fld) (i : Nat) (b : Bool) : (s.putBit f i b).host = s.host := rfl
@[simp] theorem State.putBit_scr (s : State) (f : Fld) (i : Nat) (b : Bool) : (s.putBit f i b).scr = s.scr := rfl
@[simp] theorem State.putBit_hck (s : State) (f : Fld) (i : Nat) (b : Bool) : (s.putBit f i b).hck = s.hck := rfl
@[simp] theorem State.putBit_tim (s : State) (f : Fld) (i : Nat) (b : Bool) : (s.putBit f i b).tim = s.tim := rfl
@[simp] theorem State.putBit_ing (s : State) (f : Fld) (i : Nat) (b : Bool) : (s.putBit f i b).ing = s.ing := rfl
@[simp] theorem State.putBit_sto (s : State) (f : Fld) (i : Nat) (b : Bool) : (s.putBit f i b).sto = s.sto := rfl
@[simp] theorem State.putBit_seq (s : State) (f : Fld) (i : Nat) (b : Bool) : (s.putBit f i b).seq = s.seq := rfl
@[simp] theorem State.putBit_bem (s : State) (f : Fld) (i : Nat) (b : Bool) : (s.putBit f i b).bem = s.bem := rfl
@[simp] theorem State.putBit_prd (s : State) (f : Fld) (i : Nat) (b : Bool) : (s.putBit f i b).prd = s.prd := rfl
@[simp] theorem State.putBit_fab (s : State) (f : Fld) (i : Nat) (b : Bool) : (s.putBit f i b).fab = s.fab := rfl
@[simp] theorem State.putBit_cue (s : State) (f : Fld) (i : Nat) (b : Bool) : (s.putBit f i b).cue = s.cue := rfl
@[simp] theorem State.putBit_flt (s : State) (f : Fld) (i : Nat) (b : Bool) : (s.putBit f i b).flt = s.flt := rfl
@[simp] theorem State.putBit_duo (s : State) (f : Fld) (i : Nat) (b : Bool) : (s.putBit f i b).duo = s.duo := rfl
@[simp] theorem State.putBit_ctl (s : State) (f : Fld) (i : Nat) (b : Bool) : (s.putBit f i b).ctl = s.ctl := rfl
@[simp] theorem State.putBit_matrix (s : State) (f : Fld) (i : Nat) (b : Bool) : (s.putBit f i b).matrix = s.matrix := rfl
@[simp] theorem State.putBit_pwr (s : State) (f : Fld) (i : Nat) (b : Bool) : (s.putBit f i b).pwr = s.pwr := rfl

/-! ## incF -/

@[simp] theorem State.incF_pending (s : State) (f : Fld) (n : Nat) : (s.incF f n).pending = s.pending := rfl
@[simp] theorem State.incF_freeCount (s : State) (f : Fld) (n : Nat) : (s.incF f n).freeCount = s.freeCount := rfl
@[simp] theorem State.incF_outbox (s : State) (f : Fld) (n : Nat) : (s.incF f n).outbox = s.outbox := rfl
@[simp] theorem State.incF_nextSeq (s : State) (f : Fld) (n : Nat) : (s.incF f n).nextSeq = s.nextSeq := rfl
@[simp] theorem State.incF_sent (s : State) (f : Fld) (n : Nat) : (s.incF f n).sent = s.sent := rfl
@[simp] theorem State.incF_mem (s : State) (f : Fld) (n : Nat) : (s.incF f n).mem = s.mem := rfl
@[simp] theorem State.incF_clu (s : State) (f : Fld) (n : Nat) : (s.incF f n).clu = s.clu := rfl
@[simp] theorem State.incF_mov (s : State) (f : Fld) (n : Nat) : (s.incF f n).mov = s.mov := rfl
@[simp] theorem State.incF_clk (s : State) (f : Fld) (n : Nat) : (s.incF f n).clk = s.clk := rfl
@[simp] theorem State.incF_host (s : State) (f : Fld) (n : Nat) : (s.incF f n).host = s.host := rfl
@[simp] theorem State.incF_scr (s : State) (f : Fld) (n : Nat) : (s.incF f n).scr = s.scr := rfl
@[simp] theorem State.incF_hck (s : State) (f : Fld) (n : Nat) : (s.incF f n).hck = s.hck := rfl
@[simp] theorem State.incF_tim (s : State) (f : Fld) (n : Nat) : (s.incF f n).tim = s.tim := rfl
@[simp] theorem State.incF_ing (s : State) (f : Fld) (n : Nat) : (s.incF f n).ing = s.ing := rfl
@[simp] theorem State.incF_sto (s : State) (f : Fld) (n : Nat) : (s.incF f n).sto = s.sto := rfl
@[simp] theorem State.incF_seq (s : State) (f : Fld) (n : Nat) : (s.incF f n).seq = s.seq := rfl
@[simp] theorem State.incF_bem (s : State) (f : Fld) (n : Nat) : (s.incF f n).bem = s.bem := rfl
@[simp] theorem State.incF_prd (s : State) (f : Fld) (n : Nat) : (s.incF f n).prd = s.prd := rfl
@[simp] theorem State.incF_fab (s : State) (f : Fld) (n : Nat) : (s.incF f n).fab = s.fab := rfl
@[simp] theorem State.incF_cue (s : State) (f : Fld) (n : Nat) : (s.incF f n).cue = s.cue := rfl
@[simp] theorem State.incF_flt (s : State) (f : Fld) (n : Nat) : (s.incF f n).flt = s.flt := rfl
@[simp] theorem State.incF_duo (s : State) (f : Fld) (n : Nat) : (s.incF f n).duo = s.duo := rfl
@[simp] theorem State.incF_ctl (s : State) (f : Fld) (n : Nat) : (s.incF f n).ctl = s.ctl := rfl
@[simp] theorem State.incF_matrix (s : State) (f : Fld) (n : Nat) : (s.incF f n).matrix = s.matrix := rfl
@[simp] theorem State.incF_pwr (s : State) (f : Fld) (n : Nat) : (s.incF f n).pwr = s.pwr := rfl

/-! ## addF -/

@[simp] theorem State.addF_pending (s : State) (f : Fld) (n : Nat) : (s.addF f n).pending = s.pending := rfl
@[simp] theorem State.addF_freeCount (s : State) (f : Fld) (n : Nat) : (s.addF f n).freeCount = s.freeCount := rfl
@[simp] theorem State.addF_outbox (s : State) (f : Fld) (n : Nat) : (s.addF f n).outbox = s.outbox := rfl
@[simp] theorem State.addF_nextSeq (s : State) (f : Fld) (n : Nat) : (s.addF f n).nextSeq = s.nextSeq := rfl
@[simp] theorem State.addF_sent (s : State) (f : Fld) (n : Nat) : (s.addF f n).sent = s.sent := rfl
@[simp] theorem State.addF_mem (s : State) (f : Fld) (n : Nat) : (s.addF f n).mem = s.mem := rfl
@[simp] theorem State.addF_clu (s : State) (f : Fld) (n : Nat) : (s.addF f n).clu = s.clu := rfl
@[simp] theorem State.addF_mov (s : State) (f : Fld) (n : Nat) : (s.addF f n).mov = s.mov := rfl
@[simp] theorem State.addF_clk (s : State) (f : Fld) (n : Nat) : (s.addF f n).clk = s.clk := rfl
@[simp] theorem State.addF_host (s : State) (f : Fld) (n : Nat) : (s.addF f n).host = s.host := rfl
@[simp] theorem State.addF_scr (s : State) (f : Fld) (n : Nat) : (s.addF f n).scr = s.scr := rfl
@[simp] theorem State.addF_hck (s : State) (f : Fld) (n : Nat) : (s.addF f n).hck = s.hck := rfl
@[simp] theorem State.addF_tim (s : State) (f : Fld) (n : Nat) : (s.addF f n).tim = s.tim := rfl
@[simp] theorem State.addF_ing (s : State) (f : Fld) (n : Nat) : (s.addF f n).ing = s.ing := rfl
@[simp] theorem State.addF_sto (s : State) (f : Fld) (n : Nat) : (s.addF f n).sto = s.sto := rfl
@[simp] theorem State.addF_seq (s : State) (f : Fld) (n : Nat) : (s.addF f n).seq = s.seq := rfl
@[simp] theorem State.addF_bem (s : State) (f : Fld) (n : Nat) : (s.addF f n).bem = s.bem := rfl
@[simp] theorem State.addF_prd (s : State) (f : Fld) (n : Nat) : (s.addF f n).prd = s.prd := rfl
@[simp] theorem State.addF_fab (s : State) (f : Fld) (n : Nat) : (s.addF f n).fab = s.fab := rfl
@[simp] theorem State.addF_cue (s : State) (f : Fld) (n : Nat) : (s.addF f n).cue = s.cue := rfl
@[simp] theorem State.addF_flt (s : State) (f : Fld) (n : Nat) : (s.addF f n).flt = s.flt := rfl
@[simp] theorem State.addF_duo (s : State) (f : Fld) (n : Nat) : (s.addF f n).duo = s.duo := rfl
@[simp] theorem State.addF_ctl (s : State) (f : Fld) (n : Nat) : (s.addF f n).ctl = s.ctl := rfl
@[simp] theorem State.addF_matrix (s : State) (f : Fld) (n : Nat) : (s.addF f n).matrix = s.matrix := rfl
@[simp] theorem State.addF_pwr (s : State) (f : Fld) (n : Nat) : (s.addF f n).pwr = s.pwr := rfl

/-! ## setS -/

@[simp] theorem State.setS_pending (s : State) (f : Fld) (v : Int) : (s.setS f v).pending = s.pending := rfl
@[simp] theorem State.setS_freeCount (s : State) (f : Fld) (v : Int) : (s.setS f v).freeCount = s.freeCount := rfl
@[simp] theorem State.setS_outbox (s : State) (f : Fld) (v : Int) : (s.setS f v).outbox = s.outbox := rfl
@[simp] theorem State.setS_nextSeq (s : State) (f : Fld) (v : Int) : (s.setS f v).nextSeq = s.nextSeq := rfl
@[simp] theorem State.setS_sent (s : State) (f : Fld) (v : Int) : (s.setS f v).sent = s.sent := rfl
@[simp] theorem State.setS_mem (s : State) (f : Fld) (v : Int) : (s.setS f v).mem = s.mem := rfl
@[simp] theorem State.setS_clu (s : State) (f : Fld) (v : Int) : (s.setS f v).clu = s.clu := rfl
@[simp] theorem State.setS_mov (s : State) (f : Fld) (v : Int) : (s.setS f v).mov = s.mov := rfl
@[simp] theorem State.setS_clk (s : State) (f : Fld) (v : Int) : (s.setS f v).clk = s.clk := rfl
@[simp] theorem State.setS_host (s : State) (f : Fld) (v : Int) : (s.setS f v).host = s.host := rfl
@[simp] theorem State.setS_scr (s : State) (f : Fld) (v : Int) : (s.setS f v).scr = s.scr := rfl
@[simp] theorem State.setS_hck (s : State) (f : Fld) (v : Int) : (s.setS f v).hck = s.hck := rfl
@[simp] theorem State.setS_tim (s : State) (f : Fld) (v : Int) : (s.setS f v).tim = s.tim := rfl
@[simp] theorem State.setS_ing (s : State) (f : Fld) (v : Int) : (s.setS f v).ing = s.ing := rfl
@[simp] theorem State.setS_sto (s : State) (f : Fld) (v : Int) : (s.setS f v).sto = s.sto := rfl
@[simp] theorem State.setS_seq (s : State) (f : Fld) (v : Int) : (s.setS f v).seq = s.seq := rfl
@[simp] theorem State.setS_bem (s : State) (f : Fld) (v : Int) : (s.setS f v).bem = s.bem := rfl
@[simp] theorem State.setS_prd (s : State) (f : Fld) (v : Int) : (s.setS f v).prd = s.prd := rfl
@[simp] theorem State.setS_fab (s : State) (f : Fld) (v : Int) : (s.setS f v).fab = s.fab := rfl
@[simp] theorem State.setS_cue (s : State) (f : Fld) (v : Int) : (s.setS f v).cue = s.cue := rfl
@[simp] theorem State.setS_flt (s : State) (f : Fld) (v : Int) : (s.setS f v).flt = s.flt := rfl
@[simp] theorem State.setS_duo (s : State) (f : Fld) (v : Int) : (s.setS f v).duo = s.duo := rfl
@[simp] theorem State.setS_ctl (s : State) (f : Fld) (v : Int) : (s.setS f v).ctl = s.ctl := rfl
@[simp] theorem State.setS_matrix (s : State) (f : Fld) (v : Int) : (s.setS f v).matrix = s.matrix := rfl
@[simp] theorem State.setS_pwr (s : State) (f : Fld) (v : Int) : (s.setS f v).pwr = s.pwr := rfl

/-! ## resetRegs -/

@[simp] theorem State.resetRegs_pending (s : State) (lo hi : Nat) (keep : Nat → Bool) : (s.resetRegs lo hi keep).pending = s.pending := rfl
@[simp] theorem State.resetRegs_freeCount (s : State) (lo hi : Nat) (keep : Nat → Bool) : (s.resetRegs lo hi keep).freeCount = s.freeCount := rfl
@[simp] theorem State.resetRegs_outbox (s : State) (lo hi : Nat) (keep : Nat → Bool) : (s.resetRegs lo hi keep).outbox = s.outbox := rfl
@[simp] theorem State.resetRegs_nextSeq (s : State) (lo hi : Nat) (keep : Nat → Bool) : (s.resetRegs lo hi keep).nextSeq = s.nextSeq := rfl
@[simp] theorem State.resetRegs_sent (s : State) (lo hi : Nat) (keep : Nat → Bool) : (s.resetRegs lo hi keep).sent = s.sent := rfl
@[simp] theorem State.resetRegs_mem (s : State) (lo hi : Nat) (keep : Nat → Bool) : (s.resetRegs lo hi keep).mem = s.mem := rfl
@[simp] theorem State.resetRegs_clu (s : State) (lo hi : Nat) (keep : Nat → Bool) : (s.resetRegs lo hi keep).clu = s.clu := rfl
@[simp] theorem State.resetRegs_mov (s : State) (lo hi : Nat) (keep : Nat → Bool) : (s.resetRegs lo hi keep).mov = s.mov := rfl
@[simp] theorem State.resetRegs_clk (s : State) (lo hi : Nat) (keep : Nat → Bool) : (s.resetRegs lo hi keep).clk = s.clk := rfl
@[simp] theorem State.resetRegs_host (s : State) (lo hi : Nat) (keep : Nat → Bool) : (s.resetRegs lo hi keep).host = s.host := rfl
@[simp] theorem State.resetRegs_scr (s : State) (lo hi : Nat) (keep : Nat → Bool) : (s.resetRegs lo hi keep).scr = s.scr := rfl
@[simp] theorem State.resetRegs_hck (s : State) (lo hi : Nat) (keep : Nat → Bool) : (s.resetRegs lo hi keep).hck = s.hck := rfl
@[simp] theorem State.resetRegs_tim (s : State) (lo hi : Nat) (keep : Nat → Bool) : (s.resetRegs lo hi keep).tim = s.tim := rfl
@[simp] theorem State.resetRegs_ing (s : State) (lo hi : Nat) (keep : Nat → Bool) : (s.resetRegs lo hi keep).ing = s.ing := rfl
@[simp] theorem State.resetRegs_sto (s : State) (lo hi : Nat) (keep : Nat → Bool) : (s.resetRegs lo hi keep).sto = s.sto := rfl
@[simp] theorem State.resetRegs_seq (s : State) (lo hi : Nat) (keep : Nat → Bool) : (s.resetRegs lo hi keep).seq = s.seq := rfl
@[simp] theorem State.resetRegs_bem (s : State) (lo hi : Nat) (keep : Nat → Bool) : (s.resetRegs lo hi keep).bem = s.bem := rfl
@[simp] theorem State.resetRegs_prd (s : State) (lo hi : Nat) (keep : Nat → Bool) : (s.resetRegs lo hi keep).prd = s.prd := rfl
@[simp] theorem State.resetRegs_fab (s : State) (lo hi : Nat) (keep : Nat → Bool) : (s.resetRegs lo hi keep).fab = s.fab := rfl
@[simp] theorem State.resetRegs_cue (s : State) (lo hi : Nat) (keep : Nat → Bool) : (s.resetRegs lo hi keep).cue = s.cue := rfl
@[simp] theorem State.resetRegs_flt (s : State) (lo hi : Nat) (keep : Nat → Bool) : (s.resetRegs lo hi keep).flt = s.flt := rfl
@[simp] theorem State.resetRegs_duo (s : State) (lo hi : Nat) (keep : Nat → Bool) : (s.resetRegs lo hi keep).duo = s.duo := rfl
@[simp] theorem State.resetRegs_ctl (s : State) (lo hi : Nat) (keep : Nat → Bool) : (s.resetRegs lo hi keep).ctl = s.ctl := rfl
@[simp] theorem State.resetRegs_matrix (s : State) (lo hi : Nat) (keep : Nat → Bool) : (s.resetRegs lo hi keep).matrix = s.matrix := rfl
@[simp] theorem State.resetRegs_pwr (s : State) (lo hi : Nat) (keep : Nat → Bool) : (s.resetRegs lo hi keep).pwr = s.pwr := rfl

/-! ## drew -/

@[simp] theorem State.drew_pending (s : State)  : (s.drew).pending = s.pending := rfl
@[simp] theorem State.drew_regs (s : State)  : (s.drew).regs = s.regs := rfl
@[simp] theorem State.drew_outbox (s : State)  : (s.drew).outbox = s.outbox := rfl
@[simp] theorem State.drew_nextSeq (s : State)  : (s.drew).nextSeq = s.nextSeq := rfl
@[simp] theorem State.drew_sent (s : State)  : (s.drew).sent = s.sent := rfl
@[simp] theorem State.drew_mem (s : State)  : (s.drew).mem = s.mem := rfl
@[simp] theorem State.drew_clu (s : State)  : (s.drew).clu = s.clu := rfl
@[simp] theorem State.drew_mov (s : State)  : (s.drew).mov = s.mov := rfl
@[simp] theorem State.drew_clk (s : State)  : (s.drew).clk = s.clk := rfl
@[simp] theorem State.drew_host (s : State)  : (s.drew).host = s.host := rfl
@[simp] theorem State.drew_scr (s : State)  : (s.drew).scr = s.scr := rfl
@[simp] theorem State.drew_hck (s : State)  : (s.drew).hck = s.hck := rfl
@[simp] theorem State.drew_tim (s : State)  : (s.drew).tim = s.tim := rfl
@[simp] theorem State.drew_ing (s : State)  : (s.drew).ing = s.ing := rfl
@[simp] theorem State.drew_sto (s : State)  : (s.drew).sto = s.sto := rfl
@[simp] theorem State.drew_seq (s : State)  : (s.drew).seq = s.seq := rfl
@[simp] theorem State.drew_bem (s : State)  : (s.drew).bem = s.bem := rfl
@[simp] theorem State.drew_prd (s : State)  : (s.drew).prd = s.prd := rfl
@[simp] theorem State.drew_fab (s : State)  : (s.drew).fab = s.fab := rfl
@[simp] theorem State.drew_cue (s : State)  : (s.drew).cue = s.cue := rfl
@[simp] theorem State.drew_flt (s : State)  : (s.drew).flt = s.flt := rfl
@[simp] theorem State.drew_duo (s : State)  : (s.drew).duo = s.duo := rfl
@[simp] theorem State.drew_ctl (s : State)  : (s.drew).ctl = s.ctl := rfl
@[simp] theorem State.drew_matrix (s : State)  : (s.drew).matrix = s.matrix := rfl
@[simp] theorem State.drew_pwr (s : State)  : (s.drew).pwr = s.pwr := rfl
@[simp] theorem State.drew_getF (s : State)  (g : Fld) : (s.drew).getF g = s.getF g := rfl

/-! ## send -/

@[simp] theorem State.send_pending (s : State) (x : Sent) : (s.send x).pending = s.pending := rfl
@[simp] theorem State.send_freeCount (s : State) (x : Sent) : (s.send x).freeCount = s.freeCount := rfl
@[simp] theorem State.send_regs (s : State) (x : Sent) : (s.send x).regs = s.regs := rfl
@[simp] theorem State.send_outbox (s : State) (x : Sent) : (s.send x).outbox = s.outbox := rfl
@[simp] theorem State.send_nextSeq (s : State) (x : Sent) : (s.send x).nextSeq = s.nextSeq := rfl
@[simp] theorem State.send_mem (s : State) (x : Sent) : (s.send x).mem = s.mem := rfl
@[simp] theorem State.send_clu (s : State) (x : Sent) : (s.send x).clu = s.clu := rfl
@[simp] theorem State.send_mov (s : State) (x : Sent) : (s.send x).mov = s.mov := rfl
@[simp] theorem State.send_clk (s : State) (x : Sent) : (s.send x).clk = s.clk := rfl
@[simp] theorem State.send_host (s : State) (x : Sent) : (s.send x).host = s.host := rfl
@[simp] theorem State.send_scr (s : State) (x : Sent) : (s.send x).scr = s.scr := rfl
@[simp] theorem State.send_hck (s : State) (x : Sent) : (s.send x).hck = s.hck := rfl
@[simp] theorem State.send_tim (s : State) (x : Sent) : (s.send x).tim = s.tim := rfl
@[simp] theorem State.send_ing (s : State) (x : Sent) : (s.send x).ing = s.ing := rfl
@[simp] theorem State.send_sto (s : State) (x : Sent) : (s.send x).sto = s.sto := rfl
@[simp] theorem State.send_seq (s : State) (x : Sent) : (s.send x).seq = s.seq := rfl
@[simp] theorem State.send_bem (s : State) (x : Sent) : (s.send x).bem = s.bem := rfl
@[simp] theorem State.send_prd (s : State) (x : Sent) : (s.send x).prd = s.prd := rfl
@[simp] theorem State.send_fab (s : State) (x : Sent) : (s.send x).fab = s.fab := rfl
@[simp] theorem State.send_cue (s : State) (x : Sent) : (s.send x).cue = s.cue := rfl
@[simp] theorem State.send_flt (s : State) (x : Sent) : (s.send x).flt = s.flt := rfl
@[simp] theorem State.send_duo (s : State) (x : Sent) : (s.send x).duo = s.duo := rfl
@[simp] theorem State.send_ctl (s : State) (x : Sent) : (s.send x).ctl = s.ctl := rfl
@[simp] theorem State.send_matrix (s : State) (x : Sent) : (s.send x).matrix = s.matrix := rfl
@[simp] theorem State.send_pwr (s : State) (x : Sent) : (s.send x).pwr = s.pwr := rfl
@[simp] theorem State.send_getF (s : State) (x : Sent) (g : Fld) : (s.send x).getF g = s.getF g := rfl

/-! ## markDwell -/

@[simp] theorem State.markDwell_pending (s : State) (n : Int) (flags subs : Nat) : (s.markDwell n flags subs).pending = s.pending := rfl
@[simp] theorem State.markDwell_freeCount (s : State) (n : Int) (flags subs : Nat) : (s.markDwell n flags subs).freeCount = s.freeCount := rfl
@[simp] theorem State.markDwell_regs (s : State) (n : Int) (flags subs : Nat) : (s.markDwell n flags subs).regs = s.regs := rfl
@[simp] theorem State.markDwell_outbox (s : State) (n : Int) (flags subs : Nat) : (s.markDwell n flags subs).outbox = s.outbox := rfl
@[simp] theorem State.markDwell_nextSeq (s : State) (n : Int) (flags subs : Nat) : (s.markDwell n flags subs).nextSeq = s.nextSeq := rfl
@[simp] theorem State.markDwell_sent (s : State) (n : Int) (flags subs : Nat) : (s.markDwell n flags subs).sent = s.sent := rfl
@[simp] theorem State.markDwell_mem (s : State) (n : Int) (flags subs : Nat) : (s.markDwell n flags subs).mem = s.mem := rfl
@[simp] theorem State.markDwell_clu (s : State) (n : Int) (flags subs : Nat) : (s.markDwell n flags subs).clu = s.clu := rfl
@[simp] theorem State.markDwell_mov (s : State) (n : Int) (flags subs : Nat) : (s.markDwell n flags subs).mov = s.mov := rfl
@[simp] theorem State.markDwell_clk (s : State) (n : Int) (flags subs : Nat) : (s.markDwell n flags subs).clk = s.clk := rfl
@[simp] theorem State.markDwell_host (s : State) (n : Int) (flags subs : Nat) : (s.markDwell n flags subs).host = s.host := rfl
@[simp] theorem State.markDwell_scr (s : State) (n : Int) (flags subs : Nat) : (s.markDwell n flags subs).scr = s.scr := rfl
@[simp] theorem State.markDwell_hck (s : State) (n : Int) (flags subs : Nat) : (s.markDwell n flags subs).hck = s.hck := rfl
@[simp] theorem State.markDwell_tim (s : State) (n : Int) (flags subs : Nat) : (s.markDwell n flags subs).tim = s.tim := rfl
@[simp] theorem State.markDwell_ing (s : State) (n : Int) (flags subs : Nat) : (s.markDwell n flags subs).ing = s.ing := rfl
@[simp] theorem State.markDwell_sto (s : State) (n : Int) (flags subs : Nat) : (s.markDwell n flags subs).sto = s.sto := rfl
@[simp] theorem State.markDwell_seq_started (s : State) (n : Int) (flags subs : Nat) : (s.markDwell n flags subs).seq.started = s.seq.started := rfl
@[simp] theorem State.markDwell_seq_closed (s : State) (n : Int) (flags subs : Nat) : (s.markDwell n flags subs).seq.closed = s.seq.closed := rfl
@[simp] theorem State.markDwell_seq_ringWait (s : State) (n : Int) (flags subs : Nat) : (s.markDwell n flags subs).seq.ringWait = s.seq.ringWait := rfl
@[simp] theorem State.markDwell_seq_gone (s : State) (n : Int) (flags subs : Nat) : (s.markDwell n flags subs).seq.gone = s.seq.gone := rfl
@[simp] theorem State.markDwell_seq_skipped (s : State) (n : Int) (flags subs : Nat) : (s.markDwell n flags subs).seq.skipped = s.seq.skipped := rfl
@[simp] theorem State.markDwell_seq_replay (s : State) (n : Int) (flags subs : Nat) : (s.markDwell n flags subs).seq.replay = s.seq.replay := rfl
@[simp] theorem State.markDwell_seq_replayed (s : State) (n : Int) (flags subs : Nat) : (s.markDwell n flags subs).seq.replayed = s.seq.replayed := rfl
@[simp] theorem State.markDwell_seq_pool (s : State) (n : Int) (flags subs : Nat) : (s.markDwell n flags subs).seq.pool = s.seq.pool := rfl
@[simp] theorem State.markDwell_seq_poolMax (s : State) (n : Int) (flags subs : Nat) : (s.markDwell n flags subs).seq.poolMax = s.seq.poolMax := rfl
@[simp] theorem State.markDwell_seq_pages (s : State) (n : Int) (flags subs : Nat) : (s.markDwell n flags subs).seq.pages = s.seq.pages := rfl
@[simp] theorem State.markDwell_seq_lineMap (s : State) (n : Int) (flags subs : Nat) : (s.markDwell n flags subs).seq.lineMap = s.seq.lineMap := rfl
@[simp] theorem State.markDwell_seq_written (s : State) (n : Int) (flags subs : Nat) : (s.markDwell n flags subs).seq.written = s.seq.written := rfl
@[simp] theorem State.markDwell_seq_markers (s : State) (n : Int) (flags subs : Nat) : (s.markDwell n flags subs).seq.markers = s.seq.markers := rfl
@[simp] theorem State.markDwell_seq_lateReads (s : State) (n : Int) (flags subs : Nat) : (s.markDwell n flags subs).seq.lateReads = s.seq.lateReads := rfl
@[simp] theorem State.markDwell_seq_part (s : State) (n : Int) (flags subs : Nat) : (s.markDwell n flags subs).seq.part = s.seq.part := rfl
@[simp] theorem State.markDwell_seq_surplusSeen (s : State) (n : Int) (flags subs : Nat) : (s.markDwell n flags subs).seq.surplusSeen = s.seq.surplusSeen := rfl
@[simp] theorem State.markDwell_seq_halted (s : State) (n : Int) (flags subs : Nat) : (s.markDwell n flags subs).seq.halted = s.seq.halted := rfl
@[simp] theorem State.markDwell_seq_fmtHeld (s : State) (n : Int) (flags subs : Nat) : (s.markDwell n flags subs).seq.fmtHeld = s.seq.fmtHeld := rfl
@[simp] theorem State.markDwell_bem (s : State) (n : Int) (flags subs : Nat) : (s.markDwell n flags subs).bem = s.bem := rfl
@[simp] theorem State.markDwell_prd (s : State) (n : Int) (flags subs : Nat) : (s.markDwell n flags subs).prd = s.prd := rfl
@[simp] theorem State.markDwell_fab (s : State) (n : Int) (flags subs : Nat) : (s.markDwell n flags subs).fab = s.fab := rfl
@[simp] theorem State.markDwell_cue (s : State) (n : Int) (flags subs : Nat) : (s.markDwell n flags subs).cue = s.cue := rfl
@[simp] theorem State.markDwell_flt (s : State) (n : Int) (flags subs : Nat) : (s.markDwell n flags subs).flt = s.flt := rfl
@[simp] theorem State.markDwell_duo (s : State) (n : Int) (flags subs : Nat) : (s.markDwell n flags subs).duo = s.duo := rfl
@[simp] theorem State.markDwell_ctl (s : State) (n : Int) (flags subs : Nat) : (s.markDwell n flags subs).ctl = s.ctl := rfl
@[simp] theorem State.markDwell_matrix (s : State) (n : Int) (flags subs : Nat) : (s.markDwell n flags subs).matrix = s.matrix := rfl
@[simp] theorem State.markDwell_pwr (s : State) (n : Int) (flags subs : Nat) : (s.markDwell n flags subs).pwr = s.pwr := rfl
@[simp] theorem State.markDwell_getF (s : State) (n : Int) (flags subs : Nat) (g : Fld) : (s.markDwell n flags subs).getF g = s.getF g := rfl

/-! ## setRing -/

@[simp] theorem State.setRing_pending (s : State) (r : Nat) (x : Option Ring) : (s.setRing r x).pending = s.pending := rfl
@[simp] theorem State.setRing_freeCount (s : State) (r : Nat) (x : Option Ring) : (s.setRing r x).freeCount = s.freeCount := rfl
@[simp] theorem State.setRing_regs (s : State) (r : Nat) (x : Option Ring) : (s.setRing r x).regs = s.regs := rfl
@[simp] theorem State.setRing_outbox (s : State) (r : Nat) (x : Option Ring) : (s.setRing r x).outbox = s.outbox := rfl
@[simp] theorem State.setRing_nextSeq (s : State) (r : Nat) (x : Option Ring) : (s.setRing r x).nextSeq = s.nextSeq := rfl
@[simp] theorem State.setRing_sent (s : State) (r : Nat) (x : Option Ring) : (s.setRing r x).sent = s.sent := rfl
@[simp] theorem State.setRing_mem (s : State) (r : Nat) (x : Option Ring) : (s.setRing r x).mem = s.mem := rfl
@[simp] theorem State.setRing_clu (s : State) (r : Nat) (x : Option Ring) : (s.setRing r x).clu = s.clu := rfl
@[simp] theorem State.setRing_mov (s : State) (r : Nat) (x : Option Ring) : (s.setRing r x).mov = s.mov := rfl
@[simp] theorem State.setRing_clk (s : State) (r : Nat) (x : Option Ring) : (s.setRing r x).clk = s.clk := rfl
@[simp] theorem State.setRing_host_orphans (s : State) (r : Nat) (x : Option Ring) : (s.setRing r x).host.orphans = s.host.orphans := rfl
@[simp] theorem State.setRing_host_notices (s : State) (r : Nat) (x : Option Ring) : (s.setRing r x).host.notices = s.host.notices := rfl
@[simp] theorem State.setRing_host_ctxCache (s : State) (r : Nat) (x : Option Ring) : (s.setRing r x).host.ctxCache = s.host.ctxCache := rfl
@[simp] theorem State.setRing_host_hostMem (s : State) (r : Nat) (x : Option Ring) : (s.setRing r x).host.hostMem = s.host.hostMem := rfl
@[simp] theorem State.setRing_host_lastRead (s : State) (r : Nat) (x : Option Ring) : (s.setRing r x).host.lastRead = s.host.lastRead := rfl
@[simp] theorem State.setRing_host_lastPoison (s : State) (r : Nat) (x : Option Ring) : (s.setRing r x).host.lastPoison = s.host.lastPoison := rfl
@[simp] theorem State.setRing_host_snoop (s : State) (r : Nat) (x : Option Ring) : (s.setRing r x).host.snoop = s.host.snoop := rfl
@[simp] theorem State.setRing_host_devCache (s : State) (r : Nat) (x : Option Ring) : (s.setRing r x).host.devCache = s.host.devCache := rfl
@[simp] theorem State.setRing_host_viral (s : State) (r : Nat) (x : Option Ring) : (s.setRing r x).host.viral = s.host.viral := rfl
@[simp] theorem State.setRing_host_msix (s : State) (r : Nat) (x : Option Ring) : (s.setRing r x).host.msix = s.host.msix := rfl
@[simp] theorem State.setRing_host_msixPba (s : State) (r : Nat) (x : Option Ring) : (s.setRing r x).host.msixPba = s.host.msixPba := rfl
@[simp] theorem State.setRing_host_msixLast (s : State) (r : Nat) (x : Option Ring) : (s.setRing r x).host.msixLast = s.host.msixLast := rfl
@[simp] theorem State.setRing_host_msixHeld (s : State) (r : Nat) (x : Option Ring) : (s.setRing r x).host.msixHeld = s.host.msixHeld := rfl
@[simp] theorem State.setRing_host_doeIn (s : State) (r : Nat) (x : Option Ring) : (s.setRing r x).host.doeIn = s.host.doeIn := rfl
@[simp] theorem State.setRing_host_doeBusy (s : State) (r : Nat) (x : Option Ring) : (s.setRing r x).host.doeBusy = s.host.doeBusy := rfl
@[simp] theorem State.setRing_host_doeError (s : State) (r : Nat) (x : Option Ring) : (s.setRing r x).host.doeError = s.host.doeError := rfl
@[simp] theorem State.setRing_host_ideKeys (s : State) (r : Nat) (x : Option Ring) : (s.setRing r x).host.ideKeys = s.host.ideKeys := rfl
@[simp] theorem State.setRing_host_sessionKey (s : State) (r : Nat) (x : Option Ring) : (s.setRing r x).host.sessionKey = s.host.sessionKey := rfl
@[simp] theorem State.setRing_scr (s : State) (r : Nat) (x : Option Ring) : (s.setRing r x).scr = s.scr := rfl
@[simp] theorem State.setRing_hck (s : State) (r : Nat) (x : Option Ring) : (s.setRing r x).hck = s.hck := rfl
@[simp] theorem State.setRing_tim (s : State) (r : Nat) (x : Option Ring) : (s.setRing r x).tim = s.tim := rfl
@[simp] theorem State.setRing_ing (s : State) (r : Nat) (x : Option Ring) : (s.setRing r x).ing = s.ing := rfl
@[simp] theorem State.setRing_sto (s : State) (r : Nat) (x : Option Ring) : (s.setRing r x).sto = s.sto := rfl
@[simp] theorem State.setRing_seq (s : State) (r : Nat) (x : Option Ring) : (s.setRing r x).seq = s.seq := rfl
@[simp] theorem State.setRing_bem (s : State) (r : Nat) (x : Option Ring) : (s.setRing r x).bem = s.bem := rfl
@[simp] theorem State.setRing_prd (s : State) (r : Nat) (x : Option Ring) : (s.setRing r x).prd = s.prd := rfl
@[simp] theorem State.setRing_fab (s : State) (r : Nat) (x : Option Ring) : (s.setRing r x).fab = s.fab := rfl
@[simp] theorem State.setRing_cue (s : State) (r : Nat) (x : Option Ring) : (s.setRing r x).cue = s.cue := rfl
@[simp] theorem State.setRing_flt (s : State) (r : Nat) (x : Option Ring) : (s.setRing r x).flt = s.flt := rfl
@[simp] theorem State.setRing_duo (s : State) (r : Nat) (x : Option Ring) : (s.setRing r x).duo = s.duo := rfl
@[simp] theorem State.setRing_ctl (s : State) (r : Nat) (x : Option Ring) : (s.setRing r x).ctl = s.ctl := rfl
@[simp] theorem State.setRing_matrix (s : State) (r : Nat) (x : Option Ring) : (s.setRing r x).matrix = s.matrix := rfl
@[simp] theorem State.setRing_pwr (s : State) (r : Nat) (x : Option Ring) : (s.setRing r x).pwr = s.pwr := rfl
@[simp] theorem State.setRing_getF (s : State) (r : Nat) (x : Option Ring) (g : Fld) : (s.setRing r x).getF g = s.getF g := rfl

/-! ## setCluster -/

@[simp] theorem State.setCluster_pending (s : State) (c : Nat) (x : Cluster) : (s.setCluster c x).pending = s.pending := rfl
@[simp] theorem State.setCluster_freeCount (s : State) (c : Nat) (x : Cluster) : (s.setCluster c x).freeCount = s.freeCount := rfl
@[simp] theorem State.setCluster_regs (s : State) (c : Nat) (x : Cluster) : (s.setCluster c x).regs = s.regs := rfl
@[simp] theorem State.setCluster_outbox (s : State) (c : Nat) (x : Cluster) : (s.setCluster c x).outbox = s.outbox := rfl
@[simp] theorem State.setCluster_nextSeq (s : State) (c : Nat) (x : Cluster) : (s.setCluster c x).nextSeq = s.nextSeq := rfl
@[simp] theorem State.setCluster_sent (s : State) (c : Nat) (x : Cluster) : (s.setCluster c x).sent = s.sent := rfl
@[simp] theorem State.setCluster_mem (s : State) (c : Nat) (x : Cluster) : (s.setCluster c x).mem = s.mem := rfl
@[simp] theorem State.setCluster_mov (s : State) (c : Nat) (x : Cluster) : (s.setCluster c x).mov = s.mov := rfl
@[simp] theorem State.setCluster_clk (s : State) (c : Nat) (x : Cluster) : (s.setCluster c x).clk = s.clk := rfl
@[simp] theorem State.setCluster_host (s : State) (c : Nat) (x : Cluster) : (s.setCluster c x).host = s.host := rfl
@[simp] theorem State.setCluster_scr (s : State) (c : Nat) (x : Cluster) : (s.setCluster c x).scr = s.scr := rfl
@[simp] theorem State.setCluster_hck (s : State) (c : Nat) (x : Cluster) : (s.setCluster c x).hck = s.hck := rfl
@[simp] theorem State.setCluster_tim (s : State) (c : Nat) (x : Cluster) : (s.setCluster c x).tim = s.tim := rfl
@[simp] theorem State.setCluster_ing (s : State) (c : Nat) (x : Cluster) : (s.setCluster c x).ing = s.ing := rfl
@[simp] theorem State.setCluster_sto (s : State) (c : Nat) (x : Cluster) : (s.setCluster c x).sto = s.sto := rfl
@[simp] theorem State.setCluster_seq (s : State) (c : Nat) (x : Cluster) : (s.setCluster c x).seq = s.seq := rfl
@[simp] theorem State.setCluster_bem (s : State) (c : Nat) (x : Cluster) : (s.setCluster c x).bem = s.bem := rfl
@[simp] theorem State.setCluster_prd (s : State) (c : Nat) (x : Cluster) : (s.setCluster c x).prd = s.prd := rfl
@[simp] theorem State.setCluster_fab (s : State) (c : Nat) (x : Cluster) : (s.setCluster c x).fab = s.fab := rfl
@[simp] theorem State.setCluster_cue (s : State) (c : Nat) (x : Cluster) : (s.setCluster c x).cue = s.cue := rfl
@[simp] theorem State.setCluster_flt (s : State) (c : Nat) (x : Cluster) : (s.setCluster c x).flt = s.flt := rfl
@[simp] theorem State.setCluster_duo (s : State) (c : Nat) (x : Cluster) : (s.setCluster c x).duo = s.duo := rfl
@[simp] theorem State.setCluster_ctl (s : State) (c : Nat) (x : Cluster) : (s.setCluster c x).ctl = s.ctl := rfl
@[simp] theorem State.setCluster_matrix (s : State) (c : Nat) (x : Cluster) : (s.setCluster c x).matrix = s.matrix := rfl
@[simp] theorem State.setCluster_pwr (s : State) (c : Nat) (x : Cluster) : (s.setCluster c x).pwr = s.pwr := rfl
@[simp] theorem State.setCluster_getF (s : State) (c : Nat) (x : Cluster) (g : Fld) : (s.setCluster c x).getF g = s.getF g := rfl

/-! ## setMover -/

@[simp] theorem State.setMover_pending (s : State) (m : Nat) (x : Mover) : (s.setMover m x).pending = s.pending := rfl
@[simp] theorem State.setMover_freeCount (s : State) (m : Nat) (x : Mover) : (s.setMover m x).freeCount = s.freeCount := rfl
@[simp] theorem State.setMover_regs (s : State) (m : Nat) (x : Mover) : (s.setMover m x).regs = s.regs := rfl
@[simp] theorem State.setMover_outbox (s : State) (m : Nat) (x : Mover) : (s.setMover m x).outbox = s.outbox := rfl
@[simp] theorem State.setMover_nextSeq (s : State) (m : Nat) (x : Mover) : (s.setMover m x).nextSeq = s.nextSeq := rfl
@[simp] theorem State.setMover_sent (s : State) (m : Nat) (x : Mover) : (s.setMover m x).sent = s.sent := rfl
@[simp] theorem State.setMover_mem (s : State) (m : Nat) (x : Mover) : (s.setMover m x).mem = s.mem := rfl
@[simp] theorem State.setMover_clu (s : State) (m : Nat) (x : Mover) : (s.setMover m x).clu = s.clu := rfl
@[simp] theorem State.setMover_clk (s : State) (m : Nat) (x : Mover) : (s.setMover m x).clk = s.clk := rfl
@[simp] theorem State.setMover_host (s : State) (m : Nat) (x : Mover) : (s.setMover m x).host = s.host := rfl
@[simp] theorem State.setMover_scr (s : State) (m : Nat) (x : Mover) : (s.setMover m x).scr = s.scr := rfl
@[simp] theorem State.setMover_hck (s : State) (m : Nat) (x : Mover) : (s.setMover m x).hck = s.hck := rfl
@[simp] theorem State.setMover_tim (s : State) (m : Nat) (x : Mover) : (s.setMover m x).tim = s.tim := rfl
@[simp] theorem State.setMover_ing (s : State) (m : Nat) (x : Mover) : (s.setMover m x).ing = s.ing := rfl
@[simp] theorem State.setMover_sto (s : State) (m : Nat) (x : Mover) : (s.setMover m x).sto = s.sto := rfl
@[simp] theorem State.setMover_seq (s : State) (m : Nat) (x : Mover) : (s.setMover m x).seq = s.seq := rfl
@[simp] theorem State.setMover_bem (s : State) (m : Nat) (x : Mover) : (s.setMover m x).bem = s.bem := rfl
@[simp] theorem State.setMover_prd (s : State) (m : Nat) (x : Mover) : (s.setMover m x).prd = s.prd := rfl
@[simp] theorem State.setMover_fab (s : State) (m : Nat) (x : Mover) : (s.setMover m x).fab = s.fab := rfl
@[simp] theorem State.setMover_cue (s : State) (m : Nat) (x : Mover) : (s.setMover m x).cue = s.cue := rfl
@[simp] theorem State.setMover_flt (s : State) (m : Nat) (x : Mover) : (s.setMover m x).flt = s.flt := rfl
@[simp] theorem State.setMover_duo (s : State) (m : Nat) (x : Mover) : (s.setMover m x).duo = s.duo := rfl
@[simp] theorem State.setMover_ctl (s : State) (m : Nat) (x : Mover) : (s.setMover m x).ctl = s.ctl := rfl
@[simp] theorem State.setMover_matrix (s : State) (m : Nat) (x : Mover) : (s.setMover m x).matrix = s.matrix := rfl
@[simp] theorem State.setMover_pwr (s : State) (m : Nat) (x : Mover) : (s.setMover m x).pwr = s.pwr := rfl
@[simp] theorem State.setMover_getF (s : State) (m : Nat) (x : Mover) (g : Fld) : (s.setMover m x).getF g = s.getF g := rfl

/-! ## setBank -/

@[simp] theorem State.setBank_pending (s : State) (b : Nat) (k : Bank) : (s.setBank b k).pending = s.pending := rfl
@[simp] theorem State.setBank_freeCount (s : State) (b : Nat) (k : Bank) : (s.setBank b k).freeCount = s.freeCount := rfl
@[simp] theorem State.setBank_regs (s : State) (b : Nat) (k : Bank) : (s.setBank b k).regs = s.regs := rfl
@[simp] theorem State.setBank_outbox (s : State) (b : Nat) (k : Bank) : (s.setBank b k).outbox = s.outbox := rfl
@[simp] theorem State.setBank_nextSeq (s : State) (b : Nat) (k : Bank) : (s.setBank b k).nextSeq = s.nextSeq := rfl
@[simp] theorem State.setBank_sent (s : State) (b : Nat) (k : Bank) : (s.setBank b k).sent = s.sent := rfl
@[simp] theorem State.setBank_mem (s : State) (b : Nat) (k : Bank) : (s.setBank b k).mem = s.mem := rfl
@[simp] theorem State.setBank_clu (s : State) (b : Nat) (k : Bank) : (s.setBank b k).clu = s.clu := rfl
@[simp] theorem State.setBank_mov (s : State) (b : Nat) (k : Bank) : (s.setBank b k).mov = s.mov := rfl
@[simp] theorem State.setBank_clk (s : State) (b : Nat) (k : Bank) : (s.setBank b k).clk = s.clk := rfl
@[simp] theorem State.setBank_host (s : State) (b : Nat) (k : Bank) : (s.setBank b k).host = s.host := rfl
@[simp] theorem State.setBank_scr (s : State) (b : Nat) (k : Bank) : (s.setBank b k).scr = s.scr := rfl
@[simp] theorem State.setBank_hck (s : State) (b : Nat) (k : Bank) : (s.setBank b k).hck = s.hck := rfl
@[simp] theorem State.setBank_tim (s : State) (b : Nat) (k : Bank) : (s.setBank b k).tim = s.tim := rfl
@[simp] theorem State.setBank_ing (s : State) (b : Nat) (k : Bank) : (s.setBank b k).ing = s.ing := rfl
@[simp] theorem State.setBank_sto (s : State) (b : Nat) (k : Bank) : (s.setBank b k).sto = s.sto := rfl
@[simp] theorem State.setBank_seq (s : State) (b : Nat) (k : Bank) : (s.setBank b k).seq = s.seq := rfl
@[simp] theorem State.setBank_bem (s : State) (b : Nat) (k : Bank) : (s.setBank b k).bem = s.bem := rfl
@[simp] theorem State.setBank_prd_anchors (s : State) (b : Nat) (k : Bank) : (s.setBank b k).prd.anchors = s.prd.anchors := rfl
@[simp] theorem State.setBank_prd_marksEarly (s : State) (b : Nat) (k : Bank) : (s.setBank b k).prd.marksEarly = s.prd.marksEarly := rfl
@[simp] theorem State.setBank_prd_bufFlags (s : State) (b : Nat) (k : Bank) : (s.setBank b k).prd.bufFlags = s.prd.bufFlags := rfl
@[simp] theorem State.setBank_fab (s : State) (b : Nat) (k : Bank) : (s.setBank b k).fab = s.fab := rfl
@[simp] theorem State.setBank_cue (s : State) (b : Nat) (k : Bank) : (s.setBank b k).cue = s.cue := rfl
@[simp] theorem State.setBank_flt (s : State) (b : Nat) (k : Bank) : (s.setBank b k).flt = s.flt := rfl
@[simp] theorem State.setBank_duo (s : State) (b : Nat) (k : Bank) : (s.setBank b k).duo = s.duo := rfl
@[simp] theorem State.setBank_ctl (s : State) (b : Nat) (k : Bank) : (s.setBank b k).ctl = s.ctl := rfl
@[simp] theorem State.setBank_matrix (s : State) (b : Nat) (k : Bank) : (s.setBank b k).matrix = s.matrix := rfl
@[simp] theorem State.setBank_pwr (s : State) (b : Nat) (k : Bank) : (s.setBank b k).pwr = s.pwr := rfl
@[simp] theorem State.setBank_getF (s : State) (b : Nat) (k : Bank) (g : Fld) : (s.setBank b k).getF g = s.getF g := rfl

/-! ## setRec -/

@[simp] theorem State.setRec_pending (s : State) (x : Nat) (r : Rec) : (s.setRec x r).pending = s.pending := rfl
@[simp] theorem State.setRec_freeCount (s : State) (x : Nat) (r : Rec) : (s.setRec x r).freeCount = s.freeCount := rfl
@[simp] theorem State.setRec_regs (s : State) (x : Nat) (r : Rec) : (s.setRec x r).regs = s.regs := rfl
@[simp] theorem State.setRec_outbox (s : State) (x : Nat) (r : Rec) : (s.setRec x r).outbox = s.outbox := rfl
@[simp] theorem State.setRec_nextSeq (s : State) (x : Nat) (r : Rec) : (s.setRec x r).nextSeq = s.nextSeq := rfl
@[simp] theorem State.setRec_sent (s : State) (x : Nat) (r : Rec) : (s.setRec x r).sent = s.sent := rfl
@[simp] theorem State.setRec_mem (s : State) (x : Nat) (r : Rec) : (s.setRec x r).mem = s.mem := rfl
@[simp] theorem State.setRec_clu (s : State) (x : Nat) (r : Rec) : (s.setRec x r).clu = s.clu := rfl
@[simp] theorem State.setRec_mov (s : State) (x : Nat) (r : Rec) : (s.setRec x r).mov = s.mov := rfl
@[simp] theorem State.setRec_clk (s : State) (x : Nat) (r : Rec) : (s.setRec x r).clk = s.clk := rfl
@[simp] theorem State.setRec_host (s : State) (x : Nat) (r : Rec) : (s.setRec x r).host = s.host := rfl
@[simp] theorem State.setRec_scr (s : State) (x : Nat) (r : Rec) : (s.setRec x r).scr = s.scr := rfl
@[simp] theorem State.setRec_hck (s : State) (x : Nat) (r : Rec) : (s.setRec x r).hck = s.hck := rfl
@[simp] theorem State.setRec_tim (s : State) (x : Nat) (r : Rec) : (s.setRec x r).tim = s.tim := rfl
@[simp] theorem State.setRec_ing (s : State) (x : Nat) (r : Rec) : (s.setRec x r).ing = s.ing := rfl
@[simp] theorem State.setRec_sto (s : State) (x : Nat) (r : Rec) : (s.setRec x r).sto = s.sto := rfl
@[simp] theorem State.setRec_seq (s : State) (x : Nat) (r : Rec) : (s.setRec x r).seq = s.seq := rfl
@[simp] theorem State.setRec_bem_wbank (s : State) (x : Nat) (r : Rec) : (s.setRec x r).bem.wbank = s.bem.wbank := rfl
@[simp] theorem State.setRec_bem_wload (s : State) (x : Nat) (r : Rec) : (s.setRec x r).bem.wload = s.bem.wload := rfl
@[simp] theorem State.setRec_bem_recCount (s : State) (x : Nat) (r : Rec) : (s.setRec x r).bem.recCount = s.bem.recCount := rfl
@[simp] theorem State.setRec_bem_satSeen (s : State) (x : Nat) (r : Rec) : (s.setRec x r).bem.satSeen = s.bem.satSeen := rfl
@[simp] theorem State.setRec_prd (s : State) (x : Nat) (r : Rec) : (s.setRec x r).prd = s.prd := rfl
@[simp] theorem State.setRec_fab (s : State) (x : Nat) (r : Rec) : (s.setRec x r).fab = s.fab := rfl
@[simp] theorem State.setRec_cue (s : State) (x : Nat) (r : Rec) : (s.setRec x r).cue = s.cue := rfl
@[simp] theorem State.setRec_flt (s : State) (x : Nat) (r : Rec) : (s.setRec x r).flt = s.flt := rfl
@[simp] theorem State.setRec_duo (s : State) (x : Nat) (r : Rec) : (s.setRec x r).duo = s.duo := rfl
@[simp] theorem State.setRec_ctl (s : State) (x : Nat) (r : Rec) : (s.setRec x r).ctl = s.ctl := rfl
@[simp] theorem State.setRec_matrix (s : State) (x : Nat) (r : Rec) : (s.setRec x r).matrix = s.matrix := rfl
@[simp] theorem State.setRec_pwr (s : State) (x : Nat) (r : Rec) : (s.setRec x r).pwr = s.pwr := rfl
@[simp] theorem State.setRec_getF (s : State) (x : Nat) (r : Rec) (g : Fld) : (s.setRec x r).getF g = s.getF g := rfl

/-! ## setPch -/

@[simp] theorem State.setPch_pending (s : State) (n : Nat) (p : PChan) : (s.setPch n p).pending = s.pending := rfl
@[simp] theorem State.setPch_freeCount (s : State) (n : Nat) (p : PChan) : (s.setPch n p).freeCount = s.freeCount := rfl
@[simp] theorem State.setPch_regs (s : State) (n : Nat) (p : PChan) : (s.setPch n p).regs = s.regs := rfl
@[simp] theorem State.setPch_outbox (s : State) (n : Nat) (p : PChan) : (s.setPch n p).outbox = s.outbox := rfl
@[simp] theorem State.setPch_nextSeq (s : State) (n : Nat) (p : PChan) : (s.setPch n p).nextSeq = s.nextSeq := rfl
@[simp] theorem State.setPch_sent (s : State) (n : Nat) (p : PChan) : (s.setPch n p).sent = s.sent := rfl
@[simp] theorem State.setPch_mem (s : State) (n : Nat) (p : PChan) : (s.setPch n p).mem = s.mem := rfl
@[simp] theorem State.setPch_clu (s : State) (n : Nat) (p : PChan) : (s.setPch n p).clu = s.clu := rfl
@[simp] theorem State.setPch_mov (s : State) (n : Nat) (p : PChan) : (s.setPch n p).mov = s.mov := rfl
@[simp] theorem State.setPch_clk (s : State) (n : Nat) (p : PChan) : (s.setPch n p).clk = s.clk := rfl
@[simp] theorem State.setPch_host (s : State) (n : Nat) (p : PChan) : (s.setPch n p).host = s.host := rfl
@[simp] theorem State.setPch_scr (s : State) (n : Nat) (p : PChan) : (s.setPch n p).scr = s.scr := rfl
@[simp] theorem State.setPch_hck (s : State) (n : Nat) (p : PChan) : (s.setPch n p).hck = s.hck := rfl
@[simp] theorem State.setPch_tim (s : State) (n : Nat) (p : PChan) : (s.setPch n p).tim = s.tim := rfl
@[simp] theorem State.setPch_ing (s : State) (n : Nat) (p : PChan) : (s.setPch n p).ing = s.ing := rfl
@[simp] theorem State.setPch_sto_poison (s : State) (n : Nat) (p : PChan) : (s.setPch n p).sto.poison = s.sto.poison := rfl
@[simp] theorem State.setPch_sto_line (s : State) (n : Nat) (p : PChan) : (s.setPch n p).sto.line = s.sto.line := rfl
@[simp] theorem State.setPch_sto_linePsn (s : State) (n : Nat) (p : PChan) : (s.setPch n p).sto.linePsn = s.sto.linePsn := rfl
@[simp] theorem State.setPch_sto_late (s : State) (n : Nat) (p : PChan) : (s.setPch n p).sto.late = s.sto.late := rfl
@[simp] theorem State.setPch_seq (s : State) (n : Nat) (p : PChan) : (s.setPch n p).seq = s.seq := rfl
@[simp] theorem State.setPch_bem (s : State) (n : Nat) (p : PChan) : (s.setPch n p).bem = s.bem := rfl
@[simp] theorem State.setPch_prd (s : State) (n : Nat) (p : PChan) : (s.setPch n p).prd = s.prd := rfl
@[simp] theorem State.setPch_fab (s : State) (n : Nat) (p : PChan) : (s.setPch n p).fab = s.fab := rfl
@[simp] theorem State.setPch_cue (s : State) (n : Nat) (p : PChan) : (s.setPch n p).cue = s.cue := rfl
@[simp] theorem State.setPch_flt (s : State) (n : Nat) (p : PChan) : (s.setPch n p).flt = s.flt := rfl
@[simp] theorem State.setPch_duo (s : State) (n : Nat) (p : PChan) : (s.setPch n p).duo = s.duo := rfl
@[simp] theorem State.setPch_ctl (s : State) (n : Nat) (p : PChan) : (s.setPch n p).ctl = s.ctl := rfl
@[simp] theorem State.setPch_matrix (s : State) (n : Nat) (p : PChan) : (s.setPch n p).matrix = s.matrix := rfl
@[simp] theorem State.setPch_pwr (s : State) (n : Nat) (p : PChan) : (s.setPch n p).pwr = s.pwr := rfl
@[simp] theorem State.setPch_getF (s : State) (n : Nat) (p : PChan) (g : Fld) : (s.setPch n p).getF g = s.getF g := rfl

/-! ## setPort -/

@[simp] theorem State.setPort_pending (s : State) (p : Nat) (x : Port) : (s.setPort p x).pending = s.pending := rfl
@[simp] theorem State.setPort_freeCount (s : State) (p : Nat) (x : Port) : (s.setPort p x).freeCount = s.freeCount := rfl
@[simp] theorem State.setPort_regs (s : State) (p : Nat) (x : Port) : (s.setPort p x).regs = s.regs := rfl
@[simp] theorem State.setPort_outbox (s : State) (p : Nat) (x : Port) : (s.setPort p x).outbox = s.outbox := rfl
@[simp] theorem State.setPort_nextSeq (s : State) (p : Nat) (x : Port) : (s.setPort p x).nextSeq = s.nextSeq := rfl
@[simp] theorem State.setPort_sent (s : State) (p : Nat) (x : Port) : (s.setPort p x).sent = s.sent := rfl
@[simp] theorem State.setPort_mem (s : State) (p : Nat) (x : Port) : (s.setPort p x).mem = s.mem := rfl
@[simp] theorem State.setPort_clu (s : State) (p : Nat) (x : Port) : (s.setPort p x).clu = s.clu := rfl
@[simp] theorem State.setPort_mov (s : State) (p : Nat) (x : Port) : (s.setPort p x).mov = s.mov := rfl
@[simp] theorem State.setPort_clk (s : State) (p : Nat) (x : Port) : (s.setPort p x).clk = s.clk := rfl
@[simp] theorem State.setPort_host (s : State) (p : Nat) (x : Port) : (s.setPort p x).host = s.host := rfl
@[simp] theorem State.setPort_scr (s : State) (p : Nat) (x : Port) : (s.setPort p x).scr = s.scr := rfl
@[simp] theorem State.setPort_hck (s : State) (p : Nat) (x : Port) : (s.setPort p x).hck = s.hck := rfl
@[simp] theorem State.setPort_tim (s : State) (p : Nat) (x : Port) : (s.setPort p x).tim = s.tim := rfl
@[simp] theorem State.setPort_ing_lane (s : State) (p : Nat) (x : Port) : (s.setPort p x).ing.lane = s.ing.lane := rfl
@[simp] theorem State.setPort_ing_taps (s : State) (p : Nat) (x : Port) : (s.setPort p x).ing.taps = s.ing.taps := rfl
@[simp] theorem State.setPort_ing_tapsDue (s : State) (p : Nat) (x : Port) : (s.setPort p x).ing.tapsDue = s.ing.tapsDue := rfl
@[simp] theorem State.setPort_ing_accepted (s : State) (p : Nat) (x : Port) : (s.setPort p x).ing.accepted = s.ing.accepted := rfl
@[simp] theorem State.setPort_ing_blanks (s : State) (p : Nat) (x : Port) : (s.setPort p x).ing.blanks = s.ing.blanks := rfl
@[simp] theorem State.setPort_ing_noRouteSeen (s : State) (p : Nat) (x : Port) : (s.setPort p x).ing.noRouteSeen = s.ing.noRouteSeen := rfl
@[simp] theorem State.setPort_sto (s : State) (p : Nat) (x : Port) : (s.setPort p x).sto = s.sto := rfl
@[simp] theorem State.setPort_seq (s : State) (p : Nat) (x : Port) : (s.setPort p x).seq = s.seq := rfl
@[simp] theorem State.setPort_bem (s : State) (p : Nat) (x : Port) : (s.setPort p x).bem = s.bem := rfl
@[simp] theorem State.setPort_prd (s : State) (p : Nat) (x : Port) : (s.setPort p x).prd = s.prd := rfl
@[simp] theorem State.setPort_fab (s : State) (p : Nat) (x : Port) : (s.setPort p x).fab = s.fab := rfl
@[simp] theorem State.setPort_cue (s : State) (p : Nat) (x : Port) : (s.setPort p x).cue = s.cue := rfl
@[simp] theorem State.setPort_flt (s : State) (p : Nat) (x : Port) : (s.setPort p x).flt = s.flt := rfl
@[simp] theorem State.setPort_duo (s : State) (p : Nat) (x : Port) : (s.setPort p x).duo = s.duo := rfl
@[simp] theorem State.setPort_ctl (s : State) (p : Nat) (x : Port) : (s.setPort p x).ctl = s.ctl := rfl
@[simp] theorem State.setPort_matrix (s : State) (p : Nat) (x : Port) : (s.setPort p x).matrix = s.matrix := rfl
@[simp] theorem State.setPort_pwr (s : State) (p : Nat) (x : Port) : (s.setPort p x).pwr = s.pwr := rfl
@[simp] theorem State.setPort_getF (s : State) (p : Nat) (x : Port) (g : Fld) : (s.setPort p x).getF g = s.getF g := rfl

/-! ## setLane -/

@[simp] theorem State.setLane_pending (s : State) (p l : Nat) (x : Lane) : (s.setLane p l x).pending = s.pending := rfl
@[simp] theorem State.setLane_freeCount (s : State) (p l : Nat) (x : Lane) : (s.setLane p l x).freeCount = s.freeCount := rfl
@[simp] theorem State.setLane_regs (s : State) (p l : Nat) (x : Lane) : (s.setLane p l x).regs = s.regs := rfl
@[simp] theorem State.setLane_outbox (s : State) (p l : Nat) (x : Lane) : (s.setLane p l x).outbox = s.outbox := rfl
@[simp] theorem State.setLane_nextSeq (s : State) (p l : Nat) (x : Lane) : (s.setLane p l x).nextSeq = s.nextSeq := rfl
@[simp] theorem State.setLane_sent (s : State) (p l : Nat) (x : Lane) : (s.setLane p l x).sent = s.sent := rfl
@[simp] theorem State.setLane_mem (s : State) (p l : Nat) (x : Lane) : (s.setLane p l x).mem = s.mem := rfl
@[simp] theorem State.setLane_clu (s : State) (p l : Nat) (x : Lane) : (s.setLane p l x).clu = s.clu := rfl
@[simp] theorem State.setLane_mov (s : State) (p l : Nat) (x : Lane) : (s.setLane p l x).mov = s.mov := rfl
@[simp] theorem State.setLane_clk (s : State) (p l : Nat) (x : Lane) : (s.setLane p l x).clk = s.clk := rfl
@[simp] theorem State.setLane_host (s : State) (p l : Nat) (x : Lane) : (s.setLane p l x).host = s.host := rfl
@[simp] theorem State.setLane_scr (s : State) (p l : Nat) (x : Lane) : (s.setLane p l x).scr = s.scr := rfl
@[simp] theorem State.setLane_hck (s : State) (p l : Nat) (x : Lane) : (s.setLane p l x).hck = s.hck := rfl
@[simp] theorem State.setLane_tim (s : State) (p l : Nat) (x : Lane) : (s.setLane p l x).tim = s.tim := rfl
@[simp] theorem State.setLane_ing_port (s : State) (p l : Nat) (x : Lane) : (s.setLane p l x).ing.port = s.ing.port := rfl
@[simp] theorem State.setLane_ing_taps (s : State) (p l : Nat) (x : Lane) : (s.setLane p l x).ing.taps = s.ing.taps := rfl
@[simp] theorem State.setLane_ing_tapsDue (s : State) (p l : Nat) (x : Lane) : (s.setLane p l x).ing.tapsDue = s.ing.tapsDue := rfl
@[simp] theorem State.setLane_ing_accepted (s : State) (p l : Nat) (x : Lane) : (s.setLane p l x).ing.accepted = s.ing.accepted := rfl
@[simp] theorem State.setLane_ing_blanks (s : State) (p l : Nat) (x : Lane) : (s.setLane p l x).ing.blanks = s.ing.blanks := rfl
@[simp] theorem State.setLane_ing_noRouteSeen (s : State) (p l : Nat) (x : Lane) : (s.setLane p l x).ing.noRouteSeen = s.ing.noRouteSeen := rfl
@[simp] theorem State.setLane_sto (s : State) (p l : Nat) (x : Lane) : (s.setLane p l x).sto = s.sto := rfl
@[simp] theorem State.setLane_seq (s : State) (p l : Nat) (x : Lane) : (s.setLane p l x).seq = s.seq := rfl
@[simp] theorem State.setLane_bem (s : State) (p l : Nat) (x : Lane) : (s.setLane p l x).bem = s.bem := rfl
@[simp] theorem State.setLane_prd (s : State) (p l : Nat) (x : Lane) : (s.setLane p l x).prd = s.prd := rfl
@[simp] theorem State.setLane_fab (s : State) (p l : Nat) (x : Lane) : (s.setLane p l x).fab = s.fab := rfl
@[simp] theorem State.setLane_cue (s : State) (p l : Nat) (x : Lane) : (s.setLane p l x).cue = s.cue := rfl
@[simp] theorem State.setLane_flt (s : State) (p l : Nat) (x : Lane) : (s.setLane p l x).flt = s.flt := rfl
@[simp] theorem State.setLane_duo (s : State) (p l : Nat) (x : Lane) : (s.setLane p l x).duo = s.duo := rfl
@[simp] theorem State.setLane_ctl (s : State) (p l : Nat) (x : Lane) : (s.setLane p l x).ctl = s.ctl := rfl
@[simp] theorem State.setLane_matrix (s : State) (p l : Nat) (x : Lane) : (s.setLane p l x).matrix = s.matrix := rfl
@[simp] theorem State.setLane_pwr (s : State) (p l : Nat) (x : Lane) : (s.setLane p l x).pwr = s.pwr := rfl
@[simp] theorem State.setLane_getF (s : State) (p l : Nat) (x : Lane) (g : Fld) : (s.setLane p l x).getF g = s.getF g := rfl

/-! ## setDom -/

@[simp] theorem State.setDom_pending (s : State) (d : Nat) (x : Dom) : (s.setDom d x).pending = s.pending := rfl
@[simp] theorem State.setDom_freeCount (s : State) (d : Nat) (x : Dom) : (s.setDom d x).freeCount = s.freeCount := rfl
@[simp] theorem State.setDom_regs (s : State) (d : Nat) (x : Dom) : (s.setDom d x).regs = s.regs := rfl
@[simp] theorem State.setDom_outbox (s : State) (d : Nat) (x : Dom) : (s.setDom d x).outbox = s.outbox := rfl
@[simp] theorem State.setDom_nextSeq (s : State) (d : Nat) (x : Dom) : (s.setDom d x).nextSeq = s.nextSeq := rfl
@[simp] theorem State.setDom_sent (s : State) (d : Nat) (x : Dom) : (s.setDom d x).sent = s.sent := rfl
@[simp] theorem State.setDom_mem (s : State) (d : Nat) (x : Dom) : (s.setDom d x).mem = s.mem := rfl
@[simp] theorem State.setDom_clu (s : State) (d : Nat) (x : Dom) : (s.setDom d x).clu = s.clu := rfl
@[simp] theorem State.setDom_mov (s : State) (d : Nat) (x : Dom) : (s.setDom d x).mov = s.mov := rfl
@[simp] theorem State.setDom_clk (s : State) (d : Nat) (x : Dom) : (s.setDom d x).clk = s.clk := rfl
@[simp] theorem State.setDom_host (s : State) (d : Nat) (x : Dom) : (s.setDom d x).host = s.host := rfl
@[simp] theorem State.setDom_scr (s : State) (d : Nat) (x : Dom) : (s.setDom d x).scr = s.scr := rfl
@[simp] theorem State.setDom_hck (s : State) (d : Nat) (x : Dom) : (s.setDom d x).hck = s.hck := rfl
@[simp] theorem State.setDom_tim_servoRun (s : State) (d : Nat) (x : Dom) : (s.setDom d x).tim.servoRun = s.tim.servoRun := rfl
@[simp] theorem State.setDom_tim_freqs (s : State) (d : Nat) (x : Dom) : (s.setDom d x).tim.freqs = s.tim.freqs := rfl
@[simp] theorem State.setDom_tim_slewFrom (s : State) (d : Nat) (x : Dom) : (s.setDom d x).tim.slewFrom = s.tim.slewFrom := rfl
@[simp] theorem State.setDom_tim_slewAt (s : State) (d : Nat) (x : Dom) : (s.setDom d x).tim.slewAt = s.tim.slewAt := rfl
@[simp] theorem State.setDom_tim_residence (s : State) (d : Nat) (x : Dom) : (s.setDom d x).tim.residence = s.tim.residence := rfl
@[simp] theorem State.setDom_tim_stepped (s : State) (d : Nat) (x : Dom) : (s.setDom d x).tim.stepped = s.tim.stepped := rfl
@[simp] theorem State.setDom_tim_epsAbove (s : State) (d : Nat) (x : Dom) : (s.setDom d x).tim.epsAbove = s.tim.epsAbove := rfl
@[simp] theorem State.setDom_tim_cmpLate (s : State) (d : Nat) (x : Dom) : (s.setDom d x).tim.cmpLate = s.tim.cmpLate := rfl
@[simp] theorem State.setDom_ing (s : State) (d : Nat) (x : Dom) : (s.setDom d x).ing = s.ing := rfl
@[simp] theorem State.setDom_sto (s : State) (d : Nat) (x : Dom) : (s.setDom d x).sto = s.sto := rfl
@[simp] theorem State.setDom_seq (s : State) (d : Nat) (x : Dom) : (s.setDom d x).seq = s.seq := rfl
@[simp] theorem State.setDom_bem (s : State) (d : Nat) (x : Dom) : (s.setDom d x).bem = s.bem := rfl
@[simp] theorem State.setDom_prd (s : State) (d : Nat) (x : Dom) : (s.setDom d x).prd = s.prd := rfl
@[simp] theorem State.setDom_fab (s : State) (d : Nat) (x : Dom) : (s.setDom d x).fab = s.fab := rfl
@[simp] theorem State.setDom_cue (s : State) (d : Nat) (x : Dom) : (s.setDom d x).cue = s.cue := rfl
@[simp] theorem State.setDom_flt (s : State) (d : Nat) (x : Dom) : (s.setDom d x).flt = s.flt := rfl
@[simp] theorem State.setDom_duo (s : State) (d : Nat) (x : Dom) : (s.setDom d x).duo = s.duo := rfl
@[simp] theorem State.setDom_ctl (s : State) (d : Nat) (x : Dom) : (s.setDom d x).ctl = s.ctl := rfl
@[simp] theorem State.setDom_matrix (s : State) (d : Nat) (x : Dom) : (s.setDom d x).matrix = s.matrix := rfl
@[simp] theorem State.setDom_pwr (s : State) (d : Nat) (x : Dom) : (s.setDom d x).pwr = s.pwr := rfl
@[simp] theorem State.setDom_getF (s : State) (d : Nat) (x : Dom) (g : Fld) : (s.setDom d x).getF g = s.getF g := rfl

/-! ## setFilt -/

@[simp] theorem State.setFilt_pending (s : State) (f : Nat) (x : Filt) : (s.setFilt f x).pending = s.pending := rfl
@[simp] theorem State.setFilt_freeCount (s : State) (f : Nat) (x : Filt) : (s.setFilt f x).freeCount = s.freeCount := rfl
@[simp] theorem State.setFilt_regs (s : State) (f : Nat) (x : Filt) : (s.setFilt f x).regs = s.regs := rfl
@[simp] theorem State.setFilt_outbox (s : State) (f : Nat) (x : Filt) : (s.setFilt f x).outbox = s.outbox := rfl
@[simp] theorem State.setFilt_nextSeq (s : State) (f : Nat) (x : Filt) : (s.setFilt f x).nextSeq = s.nextSeq := rfl
@[simp] theorem State.setFilt_sent (s : State) (f : Nat) (x : Filt) : (s.setFilt f x).sent = s.sent := rfl
@[simp] theorem State.setFilt_mem (s : State) (f : Nat) (x : Filt) : (s.setFilt f x).mem = s.mem := rfl
@[simp] theorem State.setFilt_clu (s : State) (f : Nat) (x : Filt) : (s.setFilt f x).clu = s.clu := rfl
@[simp] theorem State.setFilt_mov (s : State) (f : Nat) (x : Filt) : (s.setFilt f x).mov = s.mov := rfl
@[simp] theorem State.setFilt_clk (s : State) (f : Nat) (x : Filt) : (s.setFilt f x).clk = s.clk := rfl
@[simp] theorem State.setFilt_host (s : State) (f : Nat) (x : Filt) : (s.setFilt f x).host = s.host := rfl
@[simp] theorem State.setFilt_scr (s : State) (f : Nat) (x : Filt) : (s.setFilt f x).scr = s.scr := rfl
@[simp] theorem State.setFilt_hck (s : State) (f : Nat) (x : Filt) : (s.setFilt f x).hck = s.hck := rfl
@[simp] theorem State.setFilt_tim (s : State) (f : Nat) (x : Filt) : (s.setFilt f x).tim = s.tim := rfl
@[simp] theorem State.setFilt_ing (s : State) (f : Nat) (x : Filt) : (s.setFilt f x).ing = s.ing := rfl
@[simp] theorem State.setFilt_sto (s : State) (f : Nat) (x : Filt) : (s.setFilt f x).sto = s.sto := rfl
@[simp] theorem State.setFilt_seq (s : State) (f : Nat) (x : Filt) : (s.setFilt f x).seq = s.seq := rfl
@[simp] theorem State.setFilt_bem (s : State) (f : Nat) (x : Filt) : (s.setFilt f x).bem = s.bem := rfl
@[simp] theorem State.setFilt_prd (s : State) (f : Nat) (x : Filt) : (s.setFilt f x).prd = s.prd := rfl
@[simp] theorem State.setFilt_fab (s : State) (f : Nat) (x : Filt) : (s.setFilt f x).fab = s.fab := rfl
@[simp] theorem State.setFilt_cue_swLevel (s : State) (f : Nat) (x : Filt) : (s.setFilt f x).cue.swLevel = s.cue.swLevel := rfl
@[simp] theorem State.setFilt_cue_chLevel (s : State) (f : Nat) (x : Filt) : (s.setFilt f x).cue.chLevel = s.cue.chLevel := rfl
@[simp] theorem State.setFilt_cue_prodLevel (s : State) (f : Nat) (x : Filt) : (s.setFilt f x).cue.prodLevel = s.cue.prodLevel := rfl
@[simp] theorem State.setFilt_cue_edges (s : State) (f : Nat) (x : Filt) : (s.setFilt f x).cue.edges = s.cue.edges := rfl
@[simp] theorem State.setFilt_cue_chan (s : State) (f : Nat) (x : Filt) : (s.setFilt f x).cue.chan = s.cue.chan := rfl
@[simp] theorem State.setFilt_cue_ff (s : State) (f : Nat) (x : Filt) : (s.setFilt f x).cue.ff = s.cue.ff := rfl
@[simp] theorem State.setFilt_cue_lut (s : State) (f : Nat) (x : Filt) : (s.setFilt f x).cue.lut = s.cue.lut := rfl
@[simp] theorem State.setFilt_cue_taskLevel (s : State) (f : Nat) (x : Filt) : (s.setFilt f x).cue.taskLevel = s.cue.taskLevel := rfl
@[simp] theorem State.setFilt_cue_ovrSeen (s : State) (f : Nat) (x : Filt) : (s.setFilt f x).cue.ovrSeen = s.cue.ovrSeen := rfl
@[simp] theorem State.setFilt_cue_rises (s : State) (f : Nat) (x : Filt) : (s.setFilt f x).cue.rises = s.cue.rises := rfl
@[simp] theorem State.setFilt_cue_cellEdges (s : State) (f : Nat) (x : Filt) : (s.setFilt f x).cue.cellEdges = s.cue.cellEdges := rfl
@[simp] theorem State.setFilt_flt (s : State) (f : Nat) (x : Filt) : (s.setFilt f x).flt = s.flt := rfl
@[simp] theorem State.setFilt_duo (s : State) (f : Nat) (x : Filt) : (s.setFilt f x).duo = s.duo := rfl
@[simp] theorem State.setFilt_ctl (s : State) (f : Nat) (x : Filt) : (s.setFilt f x).ctl = s.ctl := rfl
@[simp] theorem State.setFilt_matrix (s : State) (f : Nat) (x : Filt) : (s.setFilt f x).matrix = s.matrix := rfl
@[simp] theorem State.setFilt_pwr (s : State) (f : Nat) (x : Filt) : (s.setFilt f x).pwr = s.pwr := rfl
@[simp] theorem State.setFilt_getF (s : State) (f : Nat) (x : Filt) (g : Fld) : (s.setFilt f x).getF g = s.getF g := rfl

/-! ## setChan -/

@[simp] theorem State.setChan_pending (s : State) (c : Nat) (x : Chan) : (s.setChan c x).pending = s.pending := rfl
@[simp] theorem State.setChan_freeCount (s : State) (c : Nat) (x : Chan) : (s.setChan c x).freeCount = s.freeCount := rfl
@[simp] theorem State.setChan_regs (s : State) (c : Nat) (x : Chan) : (s.setChan c x).regs = s.regs := rfl
@[simp] theorem State.setChan_outbox (s : State) (c : Nat) (x : Chan) : (s.setChan c x).outbox = s.outbox := rfl
@[simp] theorem State.setChan_nextSeq (s : State) (c : Nat) (x : Chan) : (s.setChan c x).nextSeq = s.nextSeq := rfl
@[simp] theorem State.setChan_sent (s : State) (c : Nat) (x : Chan) : (s.setChan c x).sent = s.sent := rfl
@[simp] theorem State.setChan_mem (s : State) (c : Nat) (x : Chan) : (s.setChan c x).mem = s.mem := rfl
@[simp] theorem State.setChan_clu (s : State) (c : Nat) (x : Chan) : (s.setChan c x).clu = s.clu := rfl
@[simp] theorem State.setChan_mov (s : State) (c : Nat) (x : Chan) : (s.setChan c x).mov = s.mov := rfl
@[simp] theorem State.setChan_clk (s : State) (c : Nat) (x : Chan) : (s.setChan c x).clk = s.clk := rfl
@[simp] theorem State.setChan_host (s : State) (c : Nat) (x : Chan) : (s.setChan c x).host = s.host := rfl
@[simp] theorem State.setChan_scr (s : State) (c : Nat) (x : Chan) : (s.setChan c x).scr = s.scr := rfl
@[simp] theorem State.setChan_hck (s : State) (c : Nat) (x : Chan) : (s.setChan c x).hck = s.hck := rfl
@[simp] theorem State.setChan_tim (s : State) (c : Nat) (x : Chan) : (s.setChan c x).tim = s.tim := rfl
@[simp] theorem State.setChan_ing (s : State) (c : Nat) (x : Chan) : (s.setChan c x).ing = s.ing := rfl
@[simp] theorem State.setChan_sto (s : State) (c : Nat) (x : Chan) : (s.setChan c x).sto = s.sto := rfl
@[simp] theorem State.setChan_seq (s : State) (c : Nat) (x : Chan) : (s.setChan c x).seq = s.seq := rfl
@[simp] theorem State.setChan_bem (s : State) (c : Nat) (x : Chan) : (s.setChan c x).bem = s.bem := rfl
@[simp] theorem State.setChan_prd (s : State) (c : Nat) (x : Chan) : (s.setChan c x).prd = s.prd := rfl
@[simp] theorem State.setChan_fab (s : State) (c : Nat) (x : Chan) : (s.setChan c x).fab = s.fab := rfl
@[simp] theorem State.setChan_cue_swLevel (s : State) (c : Nat) (x : Chan) : (s.setChan c x).cue.swLevel = s.cue.swLevel := rfl
@[simp] theorem State.setChan_cue_chLevel (s : State) (c : Nat) (x : Chan) : (s.setChan c x).cue.chLevel = s.cue.chLevel := rfl
@[simp] theorem State.setChan_cue_prodLevel (s : State) (c : Nat) (x : Chan) : (s.setChan c x).cue.prodLevel = s.cue.prodLevel := rfl
@[simp] theorem State.setChan_cue_edges (s : State) (c : Nat) (x : Chan) : (s.setChan c x).cue.edges = s.cue.edges := rfl
@[simp] theorem State.setChan_cue_filt (s : State) (c : Nat) (x : Chan) : (s.setChan c x).cue.filt = s.cue.filt := rfl
@[simp] theorem State.setChan_cue_ff (s : State) (c : Nat) (x : Chan) : (s.setChan c x).cue.ff = s.cue.ff := rfl
@[simp] theorem State.setChan_cue_lut (s : State) (c : Nat) (x : Chan) : (s.setChan c x).cue.lut = s.cue.lut := rfl
@[simp] theorem State.setChan_cue_taskLevel (s : State) (c : Nat) (x : Chan) : (s.setChan c x).cue.taskLevel = s.cue.taskLevel := rfl
@[simp] theorem State.setChan_cue_ovrSeen (s : State) (c : Nat) (x : Chan) : (s.setChan c x).cue.ovrSeen = s.cue.ovrSeen := rfl
@[simp] theorem State.setChan_cue_rises (s : State) (c : Nat) (x : Chan) : (s.setChan c x).cue.rises = s.cue.rises := rfl
@[simp] theorem State.setChan_cue_cellEdges (s : State) (c : Nat) (x : Chan) : (s.setChan c x).cue.cellEdges = s.cue.cellEdges := rfl
@[simp] theorem State.setChan_flt (s : State) (c : Nat) (x : Chan) : (s.setChan c x).flt = s.flt := rfl
@[simp] theorem State.setChan_duo (s : State) (c : Nat) (x : Chan) : (s.setChan c x).duo = s.duo := rfl
@[simp] theorem State.setChan_ctl (s : State) (c : Nat) (x : Chan) : (s.setChan c x).ctl = s.ctl := rfl
@[simp] theorem State.setChan_matrix (s : State) (c : Nat) (x : Chan) : (s.setChan c x).matrix = s.matrix := rfl
@[simp] theorem State.setChan_pwr (s : State) (c : Nat) (x : Chan) : (s.setChan c x).pwr = s.pwr := rfl
@[simp] theorem State.setChan_getF (s : State) (c : Nat) (x : Chan) (g : Fld) : (s.setChan c x).getF g = s.getF g := rfl

/-! ## setCredit -/

@[simp] theorem State.setCredit_pending (s : State) (p q v : Nat) : (s.setCredit p q v).pending = s.pending := rfl
@[simp] theorem State.setCredit_freeCount (s : State) (p q v : Nat) : (s.setCredit p q v).freeCount = s.freeCount := rfl
@[simp] theorem State.setCredit_regs (s : State) (p q v : Nat) : (s.setCredit p q v).regs = s.regs := rfl
@[simp] theorem State.setCredit_outbox (s : State) (p q v : Nat) : (s.setCredit p q v).outbox = s.outbox := rfl
@[simp] theorem State.setCredit_nextSeq (s : State) (p q v : Nat) : (s.setCredit p q v).nextSeq = s.nextSeq := rfl
@[simp] theorem State.setCredit_sent (s : State) (p q v : Nat) : (s.setCredit p q v).sent = s.sent := rfl
@[simp] theorem State.setCredit_mem (s : State) (p q v : Nat) : (s.setCredit p q v).mem = s.mem := rfl
@[simp] theorem State.setCredit_clu (s : State) (p q v : Nat) : (s.setCredit p q v).clu = s.clu := rfl
@[simp] theorem State.setCredit_mov (s : State) (p q v : Nat) : (s.setCredit p q v).mov = s.mov := rfl
@[simp] theorem State.setCredit_clk (s : State) (p q v : Nat) : (s.setCredit p q v).clk = s.clk := rfl
@[simp] theorem State.setCredit_host (s : State) (p q v : Nat) : (s.setCredit p q v).host = s.host := rfl
@[simp] theorem State.setCredit_scr (s : State) (p q v : Nat) : (s.setCredit p q v).scr = s.scr := rfl
@[simp] theorem State.setCredit_hck (s : State) (p q v : Nat) : (s.setCredit p q v).hck = s.hck := rfl
@[simp] theorem State.setCredit_tim (s : State) (p q v : Nat) : (s.setCredit p q v).tim = s.tim := rfl
@[simp] theorem State.setCredit_ing (s : State) (p q v : Nat) : (s.setCredit p q v).ing = s.ing := rfl
@[simp] theorem State.setCredit_sto (s : State) (p q v : Nat) : (s.setCredit p q v).sto = s.sto := rfl
@[simp] theorem State.setCredit_seq (s : State) (p q v : Nat) : (s.setCredit p q v).seq = s.seq := rfl
@[simp] theorem State.setCredit_bem (s : State) (p q v : Nat) : (s.setCredit p q v).bem = s.bem := rfl
@[simp] theorem State.setCredit_prd (s : State) (p q v : Nat) : (s.setCredit p q v).prd = s.prd := rfl
@[simp] theorem State.setCredit_fab_freed (s : State) (p q v : Nat) : (s.setCredit p q v).fab.freed = s.fab.freed := rfl
@[simp] theorem State.setCredit_fab_txq (s : State) (p q v : Nat) : (s.setCredit p q v).fab.txq = s.fab.txq := rfl
@[simp] theorem State.setCredit_fab_fabSeq (s : State) (p q v : Nat) : (s.setCredit p q v).fab.fabSeq = s.fab.fabSeq := rfl
@[simp] theorem State.setCredit_fab_rxq (s : State) (p q v : Nat) : (s.setCredit p q v).fab.rxq = s.fab.rxq := rfl
@[simp] theorem State.setCredit_fab_addsSeen (s : State) (p q v : Nat) : (s.setCredit p q v).fab.addsSeen = s.fab.addsSeen := rfl
@[simp] theorem State.setCredit_fab_addsSent (s : State) (p q v : Nat) : (s.setCredit p q v).fab.addsSent = s.fab.addsSent := rfl
@[simp] theorem State.setCredit_fab_waitMarks (s : State) (p q v : Nat) : (s.setCredit p q v).fab.waitMarks = s.fab.waitMarks := rfl
@[simp] theorem State.setCredit_fab_addWait (s : State) (p q v : Nat) : (s.setCredit p q v).fab.addWait = s.fab.addWait := rfl
@[simp] theorem State.setCredit_fab_turn (s : State) (p q v : Nat) : (s.setCredit p q v).fab.turn = s.fab.turn := rfl
@[simp] theorem State.setCredit_fab_claims (s : State) (p q v : Nat) : (s.setCredit p q v).fab.claims = s.fab.claims := rfl
@[simp] theorem State.setCredit_fab_choice (s : State) (p q v : Nat) : (s.setCredit p q v).fab.choice = s.fab.choice := rfl
@[simp] theorem State.setCredit_fab_beaconDwell (s : State) (p q v : Nat) : (s.setCredit p q v).fab.beaconDwell = s.fab.beaconDwell := rfl
@[simp] theorem State.setCredit_fab_routeSeen (s : State) (p q v : Nat) : (s.setCredit p q v).fab.routeSeen = s.fab.routeSeen := rfl
@[simp] theorem State.setCredit_cue (s : State) (p q v : Nat) : (s.setCredit p q v).cue = s.cue := rfl
@[simp] theorem State.setCredit_flt (s : State) (p q v : Nat) : (s.setCredit p q v).flt = s.flt := rfl
@[simp] theorem State.setCredit_duo (s : State) (p q v : Nat) : (s.setCredit p q v).duo = s.duo := rfl
@[simp] theorem State.setCredit_ctl (s : State) (p q v : Nat) : (s.setCredit p q v).ctl = s.ctl := rfl
@[simp] theorem State.setCredit_matrix (s : State) (p q v : Nat) : (s.setCredit p q v).matrix = s.matrix := rfl
@[simp] theorem State.setCredit_pwr (s : State) (p q v : Nat) : (s.setCredit p q v).pwr = s.pwr := rfl
@[simp] theorem State.setCredit_getF (s : State) (p q v : Nat) (g : Fld) : (s.setCredit p q v).getF g = s.getF g := rfl

/-! ## startTimer -/

@[simp] theorem State.startTimer_pending (s : State) (k : Timer) : (s.startTimer k).pending = s.pending := rfl
@[simp] theorem State.startTimer_freeCount (s : State) (k : Timer) : (s.startTimer k).freeCount = s.freeCount := rfl
@[simp] theorem State.startTimer_regs (s : State) (k : Timer) : (s.startTimer k).regs = s.regs := rfl
@[simp] theorem State.startTimer_outbox (s : State) (k : Timer) : (s.startTimer k).outbox = s.outbox := rfl
@[simp] theorem State.startTimer_nextSeq (s : State) (k : Timer) : (s.startTimer k).nextSeq = s.nextSeq := rfl
@[simp] theorem State.startTimer_sent (s : State) (k : Timer) : (s.startTimer k).sent = s.sent := rfl
@[simp] theorem State.startTimer_mem (s : State) (k : Timer) : (s.startTimer k).mem = s.mem := rfl
@[simp] theorem State.startTimer_clu (s : State) (k : Timer) : (s.startTimer k).clu = s.clu := rfl
@[simp] theorem State.startTimer_mov (s : State) (k : Timer) : (s.startTimer k).mov = s.mov := rfl
@[simp] theorem State.startTimer_clk_cycles (s : State) (k : Timer) : (s.startTimer k).clk.cycles = s.clk.cycles := rfl
@[simp] theorem State.startTimer_clk_six (s : State) (k : Timer) : (s.startTimer k).clk.six = s.clk.six := rfl
@[simp] theorem State.startTimer_clk_acc (s : State) (k : Timer) : (s.startTimer k).clk.acc = s.clk.acc := rfl
@[simp] theorem State.startTimer_clk_tai (s : State) (k : Timer) : (s.startTimer k).clk.tai = s.clk.tai := rfl
@[simp] theorem State.startTimer_clk_freq (s : State) (k : Timer) : (s.startTimer k).clk.freq = s.clk.freq := rfl
@[simp] theorem State.startTimer_clk_slew (s : State) (k : Timer) : (s.startTimer k).clk.slew = s.clk.slew := rfl
@[simp] theorem State.startTimer_host (s : State) (k : Timer) : (s.startTimer k).host = s.host := rfl
@[simp] theorem State.startTimer_scr (s : State) (k : Timer) : (s.startTimer k).scr = s.scr := rfl
@[simp] theorem State.startTimer_hck (s : State) (k : Timer) : (s.startTimer k).hck = s.hck := rfl
@[simp] theorem State.startTimer_tim (s : State) (k : Timer) : (s.startTimer k).tim = s.tim := rfl
@[simp] theorem State.startTimer_ing (s : State) (k : Timer) : (s.startTimer k).ing = s.ing := rfl
@[simp] theorem State.startTimer_sto (s : State) (k : Timer) : (s.startTimer k).sto = s.sto := rfl
@[simp] theorem State.startTimer_seq (s : State) (k : Timer) : (s.startTimer k).seq = s.seq := rfl
@[simp] theorem State.startTimer_bem (s : State) (k : Timer) : (s.startTimer k).bem = s.bem := rfl
@[simp] theorem State.startTimer_prd (s : State) (k : Timer) : (s.startTimer k).prd = s.prd := rfl
@[simp] theorem State.startTimer_fab (s : State) (k : Timer) : (s.startTimer k).fab = s.fab := rfl
@[simp] theorem State.startTimer_cue (s : State) (k : Timer) : (s.startTimer k).cue = s.cue := rfl
@[simp] theorem State.startTimer_flt (s : State) (k : Timer) : (s.startTimer k).flt = s.flt := rfl
@[simp] theorem State.startTimer_duo (s : State) (k : Timer) : (s.startTimer k).duo = s.duo := rfl
@[simp] theorem State.startTimer_ctl (s : State) (k : Timer) : (s.startTimer k).ctl = s.ctl := rfl
@[simp] theorem State.startTimer_matrix (s : State) (k : Timer) : (s.startTimer k).matrix = s.matrix := rfl
@[simp] theorem State.startTimer_pwr (s : State) (k : Timer) : (s.startTimer k).pwr = s.pwr := rfl
@[simp] theorem State.startTimer_getF (s : State) (k : Timer) (g : Fld) : (s.startTimer k).getF g = s.getF g := rfl

/-! ## stopTimer -/

@[simp] theorem State.stopTimer_pending (s : State) (k : Timer) : (s.stopTimer k).pending = s.pending := rfl
@[simp] theorem State.stopTimer_freeCount (s : State) (k : Timer) : (s.stopTimer k).freeCount = s.freeCount := rfl
@[simp] theorem State.stopTimer_regs (s : State) (k : Timer) : (s.stopTimer k).regs = s.regs := rfl
@[simp] theorem State.stopTimer_outbox (s : State) (k : Timer) : (s.stopTimer k).outbox = s.outbox := rfl
@[simp] theorem State.stopTimer_nextSeq (s : State) (k : Timer) : (s.stopTimer k).nextSeq = s.nextSeq := rfl
@[simp] theorem State.stopTimer_sent (s : State) (k : Timer) : (s.stopTimer k).sent = s.sent := rfl
@[simp] theorem State.stopTimer_mem (s : State) (k : Timer) : (s.stopTimer k).mem = s.mem := rfl
@[simp] theorem State.stopTimer_clu (s : State) (k : Timer) : (s.stopTimer k).clu = s.clu := rfl
@[simp] theorem State.stopTimer_mov (s : State) (k : Timer) : (s.stopTimer k).mov = s.mov := rfl
@[simp] theorem State.stopTimer_clk_cycles (s : State) (k : Timer) : (s.stopTimer k).clk.cycles = s.clk.cycles := rfl
@[simp] theorem State.stopTimer_clk_six (s : State) (k : Timer) : (s.stopTimer k).clk.six = s.clk.six := rfl
@[simp] theorem State.stopTimer_clk_acc (s : State) (k : Timer) : (s.stopTimer k).clk.acc = s.clk.acc := rfl
@[simp] theorem State.stopTimer_clk_tai (s : State) (k : Timer) : (s.stopTimer k).clk.tai = s.clk.tai := rfl
@[simp] theorem State.stopTimer_clk_freq (s : State) (k : Timer) : (s.stopTimer k).clk.freq = s.clk.freq := rfl
@[simp] theorem State.stopTimer_clk_slew (s : State) (k : Timer) : (s.stopTimer k).clk.slew = s.clk.slew := rfl
@[simp] theorem State.stopTimer_host (s : State) (k : Timer) : (s.stopTimer k).host = s.host := rfl
@[simp] theorem State.stopTimer_scr (s : State) (k : Timer) : (s.stopTimer k).scr = s.scr := rfl
@[simp] theorem State.stopTimer_hck (s : State) (k : Timer) : (s.stopTimer k).hck = s.hck := rfl
@[simp] theorem State.stopTimer_tim (s : State) (k : Timer) : (s.stopTimer k).tim = s.tim := rfl
@[simp] theorem State.stopTimer_ing (s : State) (k : Timer) : (s.stopTimer k).ing = s.ing := rfl
@[simp] theorem State.stopTimer_sto (s : State) (k : Timer) : (s.stopTimer k).sto = s.sto := rfl
@[simp] theorem State.stopTimer_seq (s : State) (k : Timer) : (s.stopTimer k).seq = s.seq := rfl
@[simp] theorem State.stopTimer_bem (s : State) (k : Timer) : (s.stopTimer k).bem = s.bem := rfl
@[simp] theorem State.stopTimer_prd (s : State) (k : Timer) : (s.stopTimer k).prd = s.prd := rfl
@[simp] theorem State.stopTimer_fab (s : State) (k : Timer) : (s.stopTimer k).fab = s.fab := rfl
@[simp] theorem State.stopTimer_cue (s : State) (k : Timer) : (s.stopTimer k).cue = s.cue := rfl
@[simp] theorem State.stopTimer_flt (s : State) (k : Timer) : (s.stopTimer k).flt = s.flt := rfl
@[simp] theorem State.stopTimer_duo (s : State) (k : Timer) : (s.stopTimer k).duo = s.duo := rfl
@[simp] theorem State.stopTimer_ctl (s : State) (k : Timer) : (s.stopTimer k).ctl = s.ctl := rfl
@[simp] theorem State.stopTimer_matrix (s : State) (k : Timer) : (s.stopTimer k).matrix = s.matrix := rfl
@[simp] theorem State.stopTimer_pwr (s : State) (k : Timer) : (s.stopTimer k).pwr = s.pwr := rfl
@[simp] theorem State.stopTimer_getF (s : State) (k : Timer) (g : Fld) : (s.stopTimer k).getF g = s.getF g := rfl

/-! ## Reading back -/

/-- A field written is read back, modulo its width (R6). -/
@[simp] theorem State.getF_setF_self (s : State) (f : Fld) (v : Nat) (h : f.w ≤ 64) : (s.setF f v).getF f = v % 2 ^ f.w := by
  have hp : 2 ^ f.w ≤ 2 ^ 64 := Nat.pow_le_pow_right (by decide) h
  have hl : v % 2 ^ f.w < 2 ^ 64 := lt_of_lt_of_le (Nat.mod_lt _ (Nat.two_pow_pos _)) hp
  simp only [State.getF, State.setF, Tbl.get_set_self, BitVec.toNat_ofNat]
  exact Nat.mod_eq_of_lt hl

/-- Writing a field leaves every field at another place alone. -/
theorem State.getF_setF_other (s : State) (f g : Fld) (v : Nat) (h : g.key ≠ f.key) : (s.setF f v).getF g = s.getF g := by
  have hg : ∀ d, Tbl.get (Tbl.set s.regs (BitVec.ofNat 64 f.rst) f.key (BitVec.ofNat 64 (v % 2 ^ f.w))) d g.key =
      Tbl.get s.regs d g.key := fun d => by
    unfold Tbl.set
    split
    · exact Tbl.get_drop_other d _ _ _ h
    · rw [Tbl.get_insertSorted_other d _ _ _ _ h, Tbl.get_drop_other d _ _ _ h]
  simp only [State.getF, State.setF, hg]

@[simp] theorem State.setRing_ring (s : State) (r : Nat) (x : Option Ring) : (s.setRing r x).ring r = x :=
  Tbl.get_set_self s.host.rings none r x

theorem State.setRing_ring_other (s : State) (r q : Nat) (x : Option Ring) (h : q ≠ r) : (s.setRing r x).ring q = s.ring q :=
  Tbl.get_set_other s.host.rings none r q x h

@[simp] theorem State.setCluster_cluster (s : State) (c : Nat) (x : Cluster) : (s.setCluster c x).cluster c = x := by
  simp [State.cluster, State.setCluster]

theorem State.setCluster_cluster_other (s : State) (c d : Nat) (x : Cluster) (h : d ≠ c) :
    (s.setCluster c x).cluster d = s.cluster d := by
  simp [State.cluster, State.setCluster, Tbl.get_set_other _ _ _ _ _ h]

@[simp] theorem State.setMover_mover (s : State) (m : Nat) (x : Mover) : (s.setMover m x).mover m = x := by
  simp [State.mover, State.setMover]

/-! ## How a command ends -/

/-- With no class 4 fault arrived, a command ends as its meaning leaves it (R320). -/
theorem State.settle_none (s : State) (h : s.flt.c4 = []) : s.settle = s := by
  unfold State.settle
  rw [h]

/-- A command leaves no class 4 fault unanswered (R320). -/
theorem State.settle_c4 (s : State) : s.settle.flt.c4 = [] := by
  unfold State.settle
  split
  · assumption
  · rfl

theorem State.whenever_pos (s : State) (b : Bool) (f : State → State) (h : b = true) : s.whenever b f = f s := if_pos h

theorem State.whenever_neg (s : State) (b : Bool) (f : State → State) (h : b = false) : s.whenever b f = s := by
  simp [State.whenever, h]

/-- A ring command that its ring executes, and that no missing core holds up, is carried out (R355). -/
theorem withCmd_run (s : State) (r op : Nat) (f : State → Exec → State) (e : Exec) (h : s.running r op = some e)
    (hc : 4 < op → s.coreRuns = true) : withCmd s r op f = .next (f s e).settle := by
  unfold withCmd done
  rw [h]
  by_cases h4 : 4 < op
  · simp [h4, hc h4]
  · simp [h4]

end Sys2Proof.Machine
end

