-- ==== Sys2Proof/WellFormed.lean ====
section
/-!
DEFINITION. Which commands are well formed: the operands an outside agent can bring at all. A value fits the bytes that
carry it, a store line begins at a multiple of 64 bytes (R159), a line has 8 code words and a code word 64 bits (R165),
a payload has the bytes its packet can carry (R119, R126, R277), a temperature list has one value per sensor (R390), a register
and a doorbell lie in their BAR (R31).
-/

namespace Sys2Proof

/-- `b` fits `n` bytes. -/
def fits (v n : Nat) : Bool := decide (v < 256 ^ n)

/-- An address that begins a line. -/
def lineStart (a : Nat) : Bool := decide (a % 64 = 0)

/-- One number of wrong bits per code word, each at most 64. -/
def errsOk (errs : List Nat) : Bool := decide (errs.length ≤ 8) && errs.all (fun e => decide (e ≤ 64))

/-- A payload fits the longest its packet can state (R119, R126, R277). -/
def payloadOk (n : Nat) (p : List Byte) : Bool := decide (p.length ≤ n)

/-- Bytes of a BAR (R31). -/
def barSize : Bar → Nat
  | .registers => 2 ^ 26
  | .doorbells => 2 ^ 20
  | .component => 2 ^ 16

/-- The command's operands are ones an outside agent can bring. -/
def Instr.wf : Instr → Bool
  | .registerWrite bar off size val same => decide (off < barSize bar) && fits val size && decide (same < 2 ^ 64)
  | .registerReadClear bar off _ same => decide (off < barSize bar) && decide (same < 2 ^ 64)
  | .doorbell off size val _ => decide (off < 2 ^ 20) && fits val size
  | .hdmRead addr errs => lineStart addr && errsOk errs
  | .hdmWrite addr _ _ errs => lineStart addr && errsOk errs
  | .hostSnoop line => lineStart line
  | .storeRead _ addr errs _ => lineStart addr && errsOk errs
  | .storeWrite _ addr _ _ errs _ => lineStart addr && errsOk errs
  | .atomicAdd _ addr _ _ _ errs => lineStart addr && errsOk errs
  | .patrolScrub _ errs => errsOk errs
  | .ingestPacket _ _ _ payload => payloadOk (255 * 4095 * 127 * 2) payload
  | .gk4Packet _ bytes => payloadOk 262144 bytes
  | .fabricInput _ _ _ payload => payloadOk (255 * 32) payload
  | .fabricAdd _ _ _ payload => payloadOk (255 * 32) payload
  | .fabricWrite _ _ _ payload => payloadOk (255 * 32) payload
  | .measurementTick y _ => decide (y.length = 8)
  | .thermalSample die hbm => decide (die.length = 16) && decide (hbm.length = 8)
  | .masterReset _ bursts _ => bursts.all Burst.ok
  | .matrixTimeout _ bursts _ => bursts.all Burst.ok
  | .cxlLinkTrained width _ _ => decide (width ≤ 16)
  | _ => true

end Sys2Proof
end

