-- ==== Sys2Proof/Tests/Slice0.lean ====
section
/-!
SUPPORT. Tests: an ill-formed term for each check of well-formedness, the spec's worked examples, one step of each family, and for each
statement a state and operands that meet all its hypotheses, clause by clause.
-/

namespace Sys2Proof.Machine.T

set_option Elab.async false

/-- The state after reset, brought to SHOW. -/
def show_ : State := State.reset.setF PWR_STATUS.STATE 0

/-- An image for every dwell with given field values. -/
def img (vals : Tbl Nat) : Image := { Image.boot with vals := vals }

/-- SHOW under one image, with the epoch running. -/
def run (vals : Tbl Nat) : State := { show_.setF TIM_STATUS.EPOCH 1 with scr.images := [img vals] }

/-- Four pages from 1 GiB on that every access right holds for. -/
def region : Tbl Nat := [(0x0500, 1 + 2 ^ 10 * 7 + 2 ^ 16 * 512 + 2 ^ 33 * 4)]

/-- SHOW with the control cores running and admin rings of 16 entries; ring 0 executes a descriptor. -/
def ring0 (d : BitVec 512) : State :=
  (((show_.setF CTL_CORES.STATE 0xAA).setRing 0 (some { Ring.fresh 0 4 4096 with exec := some ⟨d, 0, true, 0⟩ })).setRing 1
    (some (Ring.fresh 1 4 8192))).setRing 2 (some (Ring.fresh 3 4 12288))

/-- The descriptor of an opcode and further bits. -/
def desc (op rest : Nat) : BitVec 512 := BitVec.ofNat 512 (op + rest)

/-- What ring 0 of that state executes. -/
def cmd (op rest : Nat) : Exec := ⟨desc op rest, 0, true, 0⟩

/-- SHOW with a domain instance 0 as given, enabled. -/
def dom0 (x : Dom) : State := { show_.setF TIM_DOM0.EN 1 with tim.dom := [x, Dom.fresh] }

/-- A domain that hears port 0. -/
def heard : Dom := { Dom.fresh with master := some ⟨⟨1, 6, 0x20, 0, 1, 7, 0, 0⟩, 7, 0⟩ }

/-- SHOW with domain instance 1 as given, enabled beside a fresh instance 0. -/
def dom1 (x : Dom) : State := { (show_.setF TIM_DOM1.EN 1).setF TIM_DOM1.DOMAIN 0 with tim.dom := [Dom.fresh, x] }

/-- The header of a PTP message from that master. -/
def ptp : PtpHeader := ⟨false, 0, 0, 0, 7⟩

/-- Ingest port 0 in a state of the lane machine, with its lanes locked. -/
def port0 (s : State) (st : Nat) : State := (s.setF (portStateF 0) st).setF (portLockF 0) 15

/-- A header with its check over the bits given (R118, R120). -/
def checked (h : Nat) : BitVec 256 := BitVec.ofNat 256 (h + 2 ^ 240 * hcrcOf h)

/-- A Forerunner message with its check (R129). -/
def gk (b : List Byte) : List Byte := b ++ leBytes 4 (crc32 b)

/-- SHOW, the epoch running, port 0 in UP, every port open to the sub-bands and input 0. -/
def open0 (mode : Nat) : State :=
  port0 ((run [(0x0300, 2 ^ 16), (0x0302, 1)]).setF (ING_P_CTRL.MODE 0) mode) 3

/-- SHOW with cluster 127 running a program that begins with an operation code and further bits. -/
def pit (op rest : Nat) (x : Cluster) : State :=
  { show_.setF (PIT_C_STATUS.RUN 127) 1 with
    clu := [(127, some { x with prog := [(0, BitVec.ofNat 64 (2 ^ 58 * op + rest))] })] }

/-- A vector of one sample. -/
def vect : Vect := ⟨some 0, 0, 0, 0, 0, 0, 0, 1, 1, false, [7], []⟩

/-- A pair is its first part with what its second part is. -/
theorem pair_of {α β : Type} {x : α × β} {b : β} (h : x.2 = b) : x = (x.1, b) := Prod.ext rfl h

/-- SHOW with fabric port 7 in UP and its credit known, under given field values. -/
def fab7 (vals : Tbl Nat) : State :=
  ((({ run vals with seq.closed := 0 } : State).setF (FAB_P_STATUS.STATE 7) 2).setF (FAB_P_STATUS.CRED_OK 7) 1).setF CTL_CAP1.STO_CAP 12288

/-- The header of a fabric packet of a class and operation from chip 0 to chip 0, with further bits. -/
def fabHdr (cls op rest : Nat) : BitVec 256 := checked (1 + 16 * cls + 256 * op + rest)

/-- The state after port 7 has taken a packet. -/
def arrived (s : State) (h : BitVec 256) (cls op : Nat) : State := (s.fabArrive (7 : Fin 8).val false h [] cls op).1

/-- The state an outcome goes on in. -/
def nextOf (r : Res) : State := match r with | .next t => t | _ => State.reset

/-- An outcome that goes on is its next state. -/
theorem next_of {r : Res} (h : (match r with | .next _ => true | _ => false) = true) : r = .next (nextOf r) := by
  cases r <;> first | rfl | cases h

/-! ## Well-formedness: an ill-formed term for each check -/

theorem test_wf_register : Instr.wf (.registerWrite .registers (2 ^ 26) 8 0 0) = false := by decide
theorem test_wf_registerValue : Instr.wf (.registerWrite .registers 0 4 (2 ^ 32) 0) = false := by decide
theorem test_wf_read : Instr.wf (.registerReadClear .component (2 ^ 16) 8 0) = false := by decide
theorem test_wf_doorbell : Instr.wf (.doorbell (2 ^ 20) 8 0 false) = false := by decide
theorem test_wf_hdmRead : Instr.wf (.hdmRead 32 []) = false := by decide
theorem test_wf_hdmErrs : Instr.wf (.hdmWrite 0 0 0 [65]) = false := by decide
theorem test_wf_snoop : Instr.wf (.hostSnoop 8) = false := by decide
theorem test_wf_storeRead : Instr.wf (.storeRead 0 0 [0, 0, 0, 0, 0, 0, 0, 0, 1] 0) = false := by decide
theorem test_wf_storeWrite : Instr.wf (.storeWrite 0 1 0 0 [] 0) = false := by decide
theorem test_wf_atomicAdd : Instr.wf (.atomicAdd 0 63 0 0 0 []) = false := by decide
theorem test_wf_scrub : Instr.wf (.patrolScrub 0 [65]) = false := by decide
theorem test_wf_gk4 (p : List Byte) (h : 262144 < p.length) : Instr.wf (.gk4Packet 0 p) = false := by
  simpa [Instr.wf, payloadOk] using h
theorem test_wf_packet (p : List Byte) (h : 255 * 4095 * 127 * 2 < p.length) : Instr.wf (.ingestPacket 0 false 0 p) = false := by
  simpa [Instr.wf, payloadOk] using h
theorem test_wf_fabric (p : List Byte) (h : 255 * 32 < p.length) : Instr.wf (.fabricInput 0 false 0 p) = false := by
  simpa [Instr.wf, payloadOk] using h
theorem test_wf_fabricAdd (p : List Byte) (h : 255 * 32 < p.length) : Instr.wf (.fabricAdd 0 false 0 p) = false := by
  simpa [Instr.wf, payloadOk] using h
theorem test_wf_fabricWrite (p : List Byte) (h : 255 * 32 < p.length) : Instr.wf (.fabricWrite 0 false 0 p) = false := by
  simpa [Instr.wf, payloadOk] using h
theorem test_wf_tick : Instr.wf (.measurementTick [none] 0) = false := by decide
theorem test_wf_thermal : Instr.wf (.thermalSample (List.replicate 16 0) []) = false := by decide
theorem test_wf_reset : Instr.wf (.masterReset .debug [⟨.debug, 8, 16, none⟩] 0) = false := by decide
theorem test_wf_timeout : Instr.wf (.matrixTimeout .debug [⟨.debug, 0, 0, none⟩] 0) = false := by decide
theorem test_wf_link : Instr.wf (.cxlLinkTrained 32 0 false) = false := by decide

/-! ## The spec's worked examples and the checks' known values -/

/-- R145, the worked example: SH = 4, SAT = 2, width 4. -/
theorem test_round_half_up : (([-24, 24, 120] : List Int).map (fun v => reduce 4 2 (biased v false 0 4)) = [(-2, false), (1, false), (7, false)]) ∧
    ([-24, 24, 120] : List Int).map (fun v => reduce 4 2 (biased v true 8 4)) = [(-1, false), (2, false), (7, true)] := by decide

/-- R147, the worked example: L0 written 40, then 20, from offset 48. -/
theorem test_ln_write : circWrite 0x130 0x100 40 = (0x108, false) ∧ circWrite 0x130 0x100 20 = (0x100, true) := by decide

/-- R95, the worked example of a non-integer period: the first spectrum takes 569 cycles, nine take 5,120. -/
theorem test_nine_spectra : (run [(0x0202, 20480), (0x0203, 9)]).cyclesTo 1 = 569 ∧
    (run [(0x0202, 20480), (0x0203, 9)]).cyclesTo 9 = 5120 := by decide +kernel

/-- R255, the worked example: inputs 2,100 and 37, channel 200 of 4,096 inputs. -/
theorem test_entry_index : (img [(0x0701, 4096)]).entryIndex 2100 37 200 = 1680297109 := by decide +kernel

/-- R247, the worked example of Q16: the finisher's stored values. -/
theorem test_q16 : biased (-1234567) false 0 8 = -4823 ∧ biased 1234567 false 0 8 = 4822 := by decide

/-- R48, the worked example: ring 0x2C05 lies on page 11. -/
theorem test_page : pageOfRing 0x2C05 = 11 := by decide

/-- R354, the worked example: ING_P3_DISC0 at control address 0x8031_3040. -/
theorem test_control_address : ctlMap false 0x80313040 = some (.registers, 0x313040) := by decide

/-- R327, the worked example: of (0x0041, 0xA) and (0x0041, 0x3) the first is the greater. -/
theorem test_claims : claimGreater (0x41, 0xA) (0x41, 3) = true ∧ claimGreater (0x41, 3) (0x41, 0xA) = false := by decide

/-- R94: a tally counts a wrap of the field upward (R214). -/
theorem test_wrap : wrapAdd 32 (2 ^ 31 - 1) 0 3 = (-2 ^ 31 + 2, 1) := by decide

/-- The catalogued check value of CRC-32 (R129) over the digits 1 to 9. -/
theorem test_crc32 : crc32 [0x31, 0x32, 0x33, 0x34, 0x35, 0x36, 0x37, 0x38, 0x39] = 0xCBF43926 := by decide +kernel

/-- The catalogued check value of CRC-16/CCITT-FALSE (R118) over the digits 1 to 9. -/
theorem test_hcrc : crcBytes 16 0x1021 0xFFFF [0x31, 0x32, 0x33, 0x34, 0x35, 0x36, 0x37, 0x38, 0x39] = 0x29B1 := by decide +kernel

/-- SHA3-256 of the empty message (FIPS 202), its first bytes a7 ff c6 f8. -/
theorem test_sha3 : sha3 [] % 2 ^ 32 = 0xF8C6FFA7 := by decide +kernel

/-! ## One step each -/

/-- The state after one step with a command at the front of the queue. -/
def after (c : Instr) (s : State) : State := nextOf (step { s with pending := [c] })

theorem test_step_takes_front : (after .doeAbort State.reset).pending = [] := by decide +kernel
theorem test_conventional_reset : (after .cxlConventionalReset { State.reset with host.viral := true }).host.viral = false := by decide +kernel
theorem test_register_write : (after (.registerWrite .registers 0x200018 8 2 0) show_).getF TIM_DOM1.DOMAIN = 2 := by decide +kernel
theorem test_bad_access : (after (.registerWrite .registers 0x200018 2 2 0) show_).getF HST_ERR.BADACC = 1 := by decide +kernel
theorem test_doorbell : ((after (.doorbell 0 8 (2 ^ 18 * 3) false) (ring0 0)).ring 0).map (fun x => x.prod) = some 3 := by decide +kernel
theorem test_nop_ends : ((after (.nop 0) (ring0 (desc 0 0))).ring 0).map (fun x => x.exec) = some none := by decide +kernel
theorem test_load_stages : ((after (.scriptLoad 0 [2, 0, 1, 0, 0, 0, 0, 0, 1, 0, 0, 0, 0, 0, 0, 0])
    (ring0 (desc 0x10 (2 ^ 128 * 16)))).scr.staging).length = 1 := by decide +kernel
theorem test_lock : (after (.lockAcquired 0) { State.reset.setF HCK_STATUS.STATE 1 with clk.cycles := 10 ^ 15 }).getF
    HCK_STATUS.STATE = 2 := by decide +kernel
theorem test_epoch : (after .epochStart (State.reset.setF TIM_CTRL.FREE_EPOCH 1)).epoch = true := by decide +kernel
theorem test_packet : ((after (.ingestPacket 0 false (checked (0x11 + 2 ^ 32 + 2 ^ 52 + 2 ^ 128 + 2 ^ 192)) [5]) (open0 0)).getF
    (ING_P_PKT.COUNT 0)) = 1 := by decide +kernel
theorem test_packet_hcrc : ((after (.ingestPacket 0 false 0 [5]) (open0 0)).getF (ING_P_DISC.COUNT 0 1)) = 1 := by decide +kernel
/-- R140, R143: MVI D1, 7 writes every lane. -/
theorem test_mvi : ((after (.mvi 127) (pit 0x24 (2 ^ 54 + 2 ^ 34 * 7) Cluster.idle)).cluster 127).dreg 0 63 1 = 7 := by decide +kernel
theorem test_ill : ((after (.illegalOp 127) (pit 0x3F 0 Cluster.idle)).cluster 127).ill = true := by decide +kernel
/-- The store under a region that every right holds for. -/
def sto : State := { show_.setF CTL_CAP1.STO_CAP 12288 with scr.images := [img region] }
theorem test_store_write : Memory.read (after (.storeWrite 7 (2 ^ 30) 0xAB 3 [] 0) sto).mem (2 ^ 30) = 0xAB := by decide +kernel
theorem test_store_denied : (after (.atomicAdd 0 0 0 1 5 []) sto).getF STO_DENY.COUNT = 1 := by decide +kernel
theorem test_desc_nop : ((after (.descNop 59) { sto.setF (MOV_M_STATE.STATE 59) 1 with
    mov := [(59, some Mover.fresh)] }).mover 59).work = true := by decide +kernel
theorem test_weight_load : (after .weightLoadComplete { run [] with bem.wload := some 1 }).bem.wload = none := by decide +kernel
theorem test_integration_timeout : ((after (.integrationTimeout 1) { (run []).setF PRD_STATUS.B1_STATE 1 with
    seq.closed := 0 }).bank 1).closing = true := by decide +kernel
theorem test_credit : ((after (.creditSend 7) (fab7 [])).sent).length = 1 := by decide +kernel
theorem test_cue_pulse : ((after (.cueFirePulse 63) State.reset).cue.edges).length = 2 := by decide +kernel
theorem test_iron : (after .ironReq (State.reset.setF FLT_STATUS.SERVICE 1)).iron = true := by decide +kernel
theorem test_out_of_service : (after .ironReq State.reset).iron = false := by decide +kernel
theorem test_withdraw : (after (.duoWithdraw 0) (ring0 (desc 0x61 0))).flag DUO_STATUS.WITHDRAWN = true := by decide +kernel
theorem test_remap : (after (.remapWrite (.core 0) true) State.reset).flag CTL_MATRIX.REMAP = true := by decide +kernel
theorem test_block_reset : (after .cueBlockReset show_).bit PWR_BLKRST.BITS 3 = true := by decide +kernel

/-! ## What meets the hypotheses of each statement, clause by clause -/

theorem witness_ResetsAndLinkComplete :
  (∃ (s : State), ∃ n, 64 ≤ n ∧ s.power ≠ 3) ∧
  (∃ (s : State), s.power = 3) ∧
  (∃ (s : State), ∃ w, ∃ (r : Fin 4), ∃ f, linkOk w r.val f = true ∧ s.power ≠ 3) :=
  ⟨⟨State.reset, 64, by decide +kernel, by decide +kernel⟩,
   ⟨State.reset.setF PWR_STATUS.STATE 3, by decide +kernel⟩,
   ⟨State.reset, 16, 3, true, by decide +kernel, by decide +kernel⟩⟩

theorem witness_HostAccessesComplete :
  (∃ (s : State), s.power ≠ 3) ∧
  (∃ (s : State), s.power ≠ 3) ∧
  (∃ (s : State), s.flag HST_STATUS.READY = true ∧ s.flag HST_CTRL.ENABLE = true ∧ s.power ≠ 3) ∧
  (∃ (s : State), ∃ o, ∃ v, ∃ x, s.power ≠ 3 ∧ o % 8 = 0 ∧ pageOfRing (bitsOf (v % 2 ^ 64) 0 18) = o / 4096 ∧
    s.ring (bitsOf (v % 2 ^ 64) 0 18) = some x ∧ s.pageValid (o / 4096) = true ∧
    (if x.kind = 0 then ofSigned 32 ((bitsOf (v % 2 ^ 64) 18 32 : Int) - x.cons) else ofSigned 32 ((x.prod : Int) - bitsOf (v % 2 ^ 64) 18 32)) ≤ x.size ∧
    0 ≤ toSigned 32 (bitsOf (v % 2 ^ 64) 18 32 + (2 ^ 32 - (if x.kind = 0 then x.prod else x.cons) % 2 ^ 32))) ∧
  (∃ (s : State), ∃ a, a < hdmSize ∧ s.memOn = true) ∧
  (∃ (s : State), ∃ a, a < hdmSize ∧ s.memOn = true ∧ s.hostMayWrite a = true) ∧
  (∃ (s : State), ∃ l, ∃ q, s.power ≠ 3 ∧ s.host.devCache.find? (fun e => e.addr == l) = some q) ∧
  (∃ (s : State), ∃ l, s.power ≠ 3 ∧ s.host.devCache.find? (fun e => e.addr == l) = none) :=
  ⟨⟨State.reset, by decide +kernel⟩,
   ⟨State.reset, by decide +kernel⟩,
   ⟨(State.reset.setF HST_STATUS.READY 1).setF HST_CTRL.ENABLE 1, by decide +kernel, by decide +kernel, by decide +kernel⟩,
   ⟨ring0 0, 0, 16 * 2 ^ 18, { Ring.fresh 0 4 4096 with exec := some ⟨0, 0, true, 0⟩ }, by decide +kernel, by decide +kernel,
     by decide +kernel, by decide +kernel, by decide +kernel, by decide +kernel, by decide +kernel⟩,
   ⟨State.reset.setF HST_STATUS.MEM_ON 1, hdmSize - 64, by decide +kernel, by decide +kernel⟩,
   ⟨(run region).setF HST_STATUS.MEM_ON 1, 2 ^ 30, by decide +kernel, by decide +kernel, by decide +kernel⟩,
   ⟨({ State.reset with host.devCache := [⟨0, 0, true⟩] } : State), 0, ⟨0, 0, true⟩, by decide +kernel, by decide +kernel⟩,
   ⟨State.reset, 0, by decide +kernel, by decide +kernel⟩⟩

theorem witness_RingCommandsComplete :
  (∃ (s : State), ∃ (r : Fin 262144), ∃ (x : Ring), ∃ desc, ∃ (d : BitVec 512), s.ring r.val = some x ∧
    s.mayFetch r.val x = true ∧ s.power ≠ 3 ∧ d = s.descRead x desc ∧ opcodes.contains (bitsOf d.toNat 0 8) = true ∧ (⟨d,
    x.cons, s.pageAdmin (pageOfRing r.val), s.pageSub (pageOfRing r.val)⟩ : Exec).denied = false) ∧
  (∃ (s : State), ∃ (r : Fin 262144), ∃ e, s.serves r.val 0x00 e) ∧
  (∃ (s : State), ∃ (r : Fin 262144), ∃ e, ∃ (u : State), ∃ pin, s.serves r.val 0x01 e ∧
    u = { s with scr.ctxPinned := s.newest.val Scr.HST_CTX_PINNED } ∧ e.mayName r.val e.target = true ∧ ((e.arg 278 1 = 1 →
    e.admin = true)) ∧ s.ring e.target = none ∧ u.createBad e = false ∧
    pin = (e.arg 90 1 == 1 && decide (u.pinnedRings < u.scr.ctxPinned))) ∧
  (∃ (s : State), ∃ (r : Fin 262144), ∃ e, ∃ y, s.serves r.val 0x02 e ∧ 3 ≤ e.target ∧ e.mayName r.val e.target = true ∧
    s.ring e.target = some y ∧ s.named e.target = false ∧ ((e.target = r.val ∨ (y.exec = none ∧ (y.kind = 0 →
    s.owesCompletion e.target y.cplRing = false))))) ∧
  (∃ (s : State), ∃ (r : Fin 262144), ∃ e, ∃ y, s.serves r.val 0x03 e ∧ 3 ≤ e.target ∧ e.mayName r.val e.target = true ∧
    s.ring e.target = some y ∧ 4 ≤ e.arg 84 5 ∧ e.arg 84 5 ≤ 24 ∧ e.arg 128 64 % 4096 = 0) ∧
  (∃ (s : State), ∃ (r : Fin 262144), ∃ e, ∃ x, s.serves r.val 0x04 e ∧ s.ring e.target = some x) ∧
  (∃ (s : State), ∃ (r : Fin 262144), ∃ x, ∃ l, ∃ b, s.ring r.val = some x ∧ x.resize = some (l, b) ∧ x.empty = true ∧
    s.power ≠ 3) ∧
  (∃ (s : State), ∃ (r : Fin 262144), ∃ x, s.ring r.val = some x ∧ x.kind ≠ 0 ∧ x.irqEn = true ∧ x.modTime ≠ 0 ∧
    x.sinceMsg ≠ 0 ∧ x.used ≠ 0) ∧
  (∃ (s : State), ∃ (v : Fin 2048), ∃ (u : State), s.host.msixHeld.contains v.val = true ∧
    u = s.runCycles (Tbl.get s.host.msixLast 0 v.val - 1 + cdiv (s.sv Scr.HST_MSIX_HOLDOFF) 4 - s.clk.cycles)) :=
  ⟨⟨(ring0 0).setRing 0 (some { Ring.fresh 0 4 4096 with prod := 1 }), 0, { Ring.fresh 0 4 4096 with prod := 1 }, 0, _,
    by decide +kernel, by decide +kernel, by decide +kernel, rfl, by decide +kernel, by decide +kernel⟩,
   ⟨ring0 (desc 0 0), 0, cmd 0 0, by unfold State.serves; and_intros <;> decide +kernel⟩,
   ⟨ring0 (desc 1 (2 ^ 64 * 5 + 2 ^ 82 + 2 ^ 84 * 4)), 0, cmd 1 (2 ^ 64 * 5 + 2 ^ 82 + 2 ^ 84 * 4), _, _,
     by unfold State.serves; and_intros <;> decide +kernel, rfl, by decide +kernel, by decide +kernel, by decide +kernel,
     by decide +kernel, rfl⟩,
   ⟨(ring0 (desc 2 (2 ^ 64 * 5))).setRing 5 (some (Ring.fresh 3 4 4096)), 0, cmd 2 (2 ^ 64 * 5), Ring.fresh 3 4 4096,
     by unfold State.serves; and_intros <;> decide +kernel, by decide +kernel, by decide +kernel, by decide +kernel,
     by decide +kernel, by decide +kernel⟩,
   ⟨(ring0 (desc 3 (2 ^ 64 * 5 + 2 ^ 84 * 24))).setRing 5 (some (Ring.fresh 3 4 4096)), 0, cmd 3 (2 ^ 64 * 5 + 2 ^ 84 * 24),
     Ring.fresh 3 4 4096, by unfold State.serves; and_intros <;> decide +kernel, by decide +kernel, by decide +kernel,
     by decide +kernel, by decide +kernel, by decide +kernel, by decide +kernel⟩,
   ⟨ring0 (desc 4 (2 ^ 64)), 0, cmd 4 (2 ^ 64), Ring.fresh 1 4 8192, by unfold State.serves; and_intros <;> decide +kernel,
     by decide +kernel⟩,
   ⟨State.reset.setRing 5 (some { Ring.fresh 0 4 4096 with resize := some (5, 0) }), 5,
     { Ring.fresh 0 4 4096 with resize := some (5, 0) }, 5, 0, by decide +kernel, by decide +kernel, by decide +kernel,
     by decide +kernel⟩,
   ⟨State.reset.setRing 5 (some { Ring.fresh 1 4 4096 with prod := 1, sinceMsg := 1, modTime := 1 }), 5,
     { Ring.fresh 1 4 4096 with prod := 1, sinceMsg := 1, modTime := 1 }, by decide +kernel, by decide +kernel,
     by decide +kernel, by decide +kernel, by decide +kernel, by decide +kernel⟩,
   ⟨({ State.reset with host.msixHeld := [7] } : State), 7, _, by decide +kernel, rfl⟩⟩

theorem witness_MailboxComplete :
  (∃ (s : State), ∃ p, ∃ b, s.power ≠ 3 ∧ b.length ≤ 65536 ∧ s.host.doeIn.length < 2 ∧ doeSupported (some p) b = true) ∧
  (∃ (s : State), ∃ o, ∃ rest, s.power ≠ 3 ∧ s.host.doeIn = o :: rest ∧ s.coreRuns = true ∧ o.protocol = .discovery) ∧
  (∃ (s : State), ∃ o, ∃ rest, s.power ≠ 3 ∧ s.host.doeIn = o :: rest ∧ s.coreRuns = true ∧ o.protocol = .tableAccess) ∧
  (∃ (s : State), ∃ o, ∃ rest, ∃ k, s.power ≠ 3 ∧ s.host.doeIn = o :: rest ∧ s.coreRuns = true ∧ o.protocol = .ideKm ∧
    s.host.sessionKey = some k) ∧
  (∃ (s : State), ∃ o, ∃ rest, s.power ≠ 3 ∧ s.host.doeIn = o :: rest ∧ s.coreRuns = true ∧ o.protocol = .attestation ∧
    leNat (o.body.take 1) = 1) ∧
  (∃ (s : State), ∃ o, ∃ rest, ∃ m, s.power ≠ 3 ∧ s.host.doeIn = o :: rest ∧ s.coreRuns = true ∧ o.protocol = .attestation ∧
    m = s.report (BitVec.ofNat 256 (leNat ((o.body.drop 4).take 32))) ∧ leNat (o.body.take 1) = 2) ∧
  (∃ (s : State), ∃ o, ∃ rest, s.power ≠ 3 ∧ s.host.doeIn = o :: rest ∧ s.coreRuns = true ∧ o.protocol = .attestation ∧
    leNat (o.body.take 1) = 3) ∧
  (∃ (s : State), ∃ o, ∃ rest, ∃ k, s.power ≠ 3 ∧ s.host.doeIn = o :: rest ∧ s.coreRuns = true ∧ o.protocol = .attestation ∧
    leNat (o.body.take 1) = 5 ∧ s.host.sessionKey = some k) :=
  ⟨⟨State.reset, .attestation, [1, 1], by decide +kernel, by decide +kernel, by decide +kernel, by decide +kernel⟩,
   ⟨({ State.reset.setF CTL_CORES.STATE 2 with host.doeIn := [⟨.discovery, []⟩], host.sessionKey := some 0 } : State),
     ⟨.discovery, []⟩, [], by decide +kernel, by decide +kernel, by decide +kernel, by decide +kernel⟩,
   ⟨({ State.reset.setF CTL_CORES.STATE 2 with host.doeIn := [⟨.tableAccess, []⟩], host.sessionKey := some 0 } : State),
     ⟨.tableAccess, []⟩, [], by decide +kernel, by decide +kernel, by decide +kernel, by decide +kernel⟩,
   ⟨({ State.reset.setF CTL_CORES.STATE 2 with host.doeIn := [⟨.ideKm, []⟩], host.sessionKey := some 0 } : State), ⟨.ideKm, []⟩,
     [], 0, by decide +kernel, by decide +kernel, by decide +kernel, by decide +kernel, by decide +kernel⟩,
   ⟨({ State.reset.setF CTL_CORES.STATE 2 with host.doeIn := [⟨.attestation, [1, 1]⟩], host.sessionKey := some 0 } : State),
     ⟨.attestation, [1, 1]⟩, [], by decide +kernel, by decide +kernel, by decide +kernel, by decide +kernel, by decide +kernel⟩,
   ⟨({ State.reset.setF CTL_CORES.STATE 2 with host.doeIn := [⟨.attestation, [2, 1]⟩], host.sessionKey := some 0 } : State),
     ⟨.attestation, [2, 1]⟩, [], _, by decide +kernel, by decide +kernel, by decide +kernel, by decide +kernel, rfl,
     by decide +kernel⟩,
   ⟨({ State.reset.setF CTL_CORES.STATE 2 with host.doeIn := [⟨.attestation, [3, 1]⟩], host.sessionKey := some 0 } : State),
     ⟨.attestation, [3, 1]⟩, [], by decide +kernel, by decide +kernel, by decide +kernel, by decide +kernel, by decide +kernel⟩,
   ⟨({ State.reset.setF CTL_CORES.STATE 2 with host.doeIn := [⟨.attestation, [5, 1]⟩], host.sessionKey := some 0 } : State),
     ⟨.attestation, [5, 1]⟩, [], 0, by decide +kernel, by decide +kernel, by decide +kernel, by decide +kernel,
     by decide +kernel, by decide +kernel⟩⟩

theorem witness_ScriptCommandsComplete :
  (∃ (s : State), ∃ (r : Fin 262144), ∃ d, ∃ e, ∃ u, ∃ q, s.serves r.val 0x10 e ∧ e.arg 64 64 % 8 = 0 ∧ e.arg 128 32 % 8 = 0 ∧
    u = (if e.arg 160 1 = 1 then { s with scr.staging := [] } else s) ∧
    q = State.loadRecords (d.length / 8 + 1) u d (e.arg 128 32) 0 0 ∧ q.2.2.2 = 0) ∧
  (∃ (s : State), ∃ (r : Fin 262144), ∃ sig, ∃ e, ∃ k, ∃ b, ∃ u, s.serves r.val 0x11 e ∧ k = toSigned 64 (e.arg 64 64) ∧
    s.iron = false ∧ ((s.epoch = true → s.commitLate k = false ∧ k - s.houseDwell ≤ 2 ^ 24)) ∧ s.scr.pend = none ∧
    s.heldImages.length < 6 ∧ b = s.buildImage false none k s.newest s.scr.staging ∧ b.2.2.2 = false ∧
    u = b.1.clampReports b.2.2.1 ∧ u.commitSigned b.2.1 sig = true ∧ ((e.arg 128 1 = 1 → e.arg 192 64 = s.newest.tag)) ∧
    ((e.arg 129 1 = 1 → e.arg 256 64 = b.2.1.tag)) ∧
    (u.cluChanged s.newest b.2.1).all (fun c => (u.cluster c).swapDwell.isNone) = true) ∧
  (∃ (s : State), ∃ (r : Fin 262144), ∃ e, s.serves r.val 0x12 e ∧ s.scr.pend = none) ∧
  (∃ (s : State), ∃ (r : Fin 262144), ∃ e, ∃ p, s.serves r.val 0x12 e ∧ s.scr.pend = some p ∧ ((s.epoch = true →
    sixDiff s.houseSix (p.base.lockSix p.image.first) < 0))) ∧
  (∃ (s : State), ∃ (r : Fin 262144), ∃ e, ∃ (im : Image), ∃ data, s.serves r.val 0x13 e ∧ (((e.arg 160 1 = 0 ∧ im = s.newest) ∨
    (e.arg 160 1 ≠ 0 ∧ ∃ p, s.scr.pend = some p ∧ im = p.image))) ∧ data = (im.canonical false).take (e.arg 128 32)) ∧
  (∃ (s : State), ∃ p, ∃ u, s.scr.pend = some p ∧ s.epoch = true ∧ s.power ≠ 3 ∧
    u = s.advanceTo (p.base.lockSix p.image.first) ∧ u.getF CTL_CAP3.CAP_SEQ = p.capSeq) ∧
  (∃ (s : State), ∃ (i : Fin 6), s.imageIdle i.val = true) ∧
  (∃ (s : State), s.power ≠ 3) ∧
  (∃ (s : State), ∃ (c : BitVec 8), ∃ (u : State), s.flag SCP_RC_CTRL.ENABLE = true ∧ s.power ≠ 3 ∧
    u = ({ s with scr.rcSnap := (s.rollAnswer c.toNat).2.1 } : State).send (.rollAnswer (s.rollAnswer c.toNat).2.1 (s.rollAnswer c.toNat).2.2)) ∧
  (∃ (s : State), ∃ (n : Nat), s.flag SCP_RC_QUERY.BUSY = true ∧ s.power ≠ 3 ∧ n = (s.rollAnswer s.scr.rcCode).1) :=
  ⟨⟨ring0 (desc 0x10 0), 0, [], cmd 0x10 0, _, _, by unfold State.serves; and_intros <;> decide +kernel, by decide +kernel,
    by decide +kernel, rfl, rfl, by decide +kernel⟩,
   ⟨ring0 (desc 0x11 0), 0, [], cmd 0x11 0, 0, _, _, by unfold State.serves; and_intros <;> decide +kernel, by decide +kernel,
     by decide +kernel, by decide +kernel, by decide +kernel, by decide +kernel, rfl, by decide +kernel, rfl, by decide +kernel,
     by decide +kernel, by decide +kernel, by decide +kernel⟩,
   ⟨ring0 (desc 0x12 0), 0, cmd 0x12 0, by unfold State.serves; and_intros <;> decide +kernel, by decide +kernel⟩,
   ⟨({ ring0 (desc 0x12 0) with scr.pend := some ⟨img [], img [], [], [], true, 0, []⟩, scr.images := [img []] } : State), 0,
     cmd 0x12 0, ⟨img [], img [], [], [], true, 0, []⟩, by unfold State.serves; and_intros <;> decide +kernel,
     by decide +kernel, by decide +kernel⟩,
   ⟨ring0 (desc 0x13 0), 0, cmd 0x13 0, (ring0 (desc 0x13 0)).newest, _, by unfold State.serves; and_intros <;> decide +kernel,
     by decide +kernel, rfl⟩,
   ⟨({ show_.setF TIM_STATUS.EPOCH 1 with scr.pend := some ⟨img [], img [], [], [], true, 0, []⟩, scr.images := [img []] } : State),
     ⟨img [], img [], [], [], true, 0, []⟩, _, by decide +kernel, by decide +kernel, by decide +kernel, rfl, by decide +kernel⟩,
   ⟨({ State.reset with scr.images := [img [], { img [] with whole := true }] } : State), 0, by decide +kernel⟩,
   ⟨State.reset, by decide +kernel⟩,
   ⟨State.reset.setF SCP_RC_CTRL.ENABLE 1, 0x31, _, by decide +kernel, by decide +kernel, rfl⟩,
   ⟨State.reset.setF SCP_RC_QUERY.BUSY 1, _, by decide +kernel, by decide +kernel, rfl⟩⟩

theorem witness_HouseClockComplete :
  (∃ (s : State), ∃ (e : Fin 8), s.entUsable e.val = true ∧ s.flag HCK_STATUS.DISPUTE = false ∧
    s.hcfg HCK_TIMING.VALID_WIN ≤ s.getF (HCK_ENT.EXCESS e.val)) ∧
  (∃ (s : State), ∃ (e : Fin 8), s.wtrOver e.val = true) ∧
  (∃ (s : State), s.getF HCK_STATUS.STATE = 2 ∧ s.flag HCK_CTRL.OPEN = false ∧ 3600 ≤ s.hck.lockedFor) ∧
  (∃ (s : State), ∃ (i : Fin 2), (if i.val = 0 then s.hcfg HCK_CTRL.REFA_FREQ else s.hcfg HCK_CTRL.REFB_FREQ) ≠ 3) ∧
  (∃ (s : State), ∃ m, s.getF HCK_STATUS.STATE = 1 ∧ m ≤ s.hcfg HCK_TIMING.LOCK_PS ∧
    s.hck.closedAt + tenTimeConstants s.activeBw.1 ≤ s.clk.cycles) ∧
  (∃ (s : State), s.getF HCK_STATUS.STATE = 3 ∧ s.hcfg HCK_HOLD.HOLD_MAX ≠ 0) ∧
  (∃ (s : State), ∃ (i : Fin 2), s.hcfg (ppsEnF i.val) = 1) ∧
  (∃ (s : State), s.flag HCK_CTRL.OPEN = true ∧ s.getF HCK_STATUS.STATE = 2) ∧
  (∃ (s : State), s.flag HCK_STATUS.SER_LOCK = true) :=
  ⟨⟨(State.reset.setEntState 7 3).setF (HCK_ENT.EXCESS 7) 60, 7, by decide +kernel, by decide +kernel, by decide +kernel⟩,
   ⟨State.reset.setEntState 7 2, 7, by decide +kernel⟩,
   ⟨({ State.reset.setF HCK_STATUS.STATE 2 with hck.lockedFor := 3600 } : State), by decide +kernel, by decide +kernel,
     by decide +kernel⟩,
   ⟨State.reset, 1, by decide +kernel⟩,
   ⟨({ State.reset.setF HCK_STATUS.STATE 1 with clk.cycles := 10 ^ 15 } : State), 0, by decide +kernel, by decide +kernel,
     by decide +kernel⟩,
   ⟨State.reset.setF HCK_STATUS.STATE 3, by decide +kernel, by decide +kernel⟩,
   ⟨({ State.reset with hck.cfg := [(HCK_CTRL.PPSA_EN.key, 1)] } : State), 0, by decide +kernel⟩,
   ⟨(State.reset.setF HCK_CTRL.OPEN 1).setF HCK_STATUS.STATE 2, by decide +kernel, by decide +kernel⟩,
   ⟨State.reset.setF HCK_STATUS.SER_LOCK 1, by decide +kernel⟩⟩

theorem witness_EpochAndDwellsComplete :
  (∃ (s : State), s.epoch = false ∧ ((s.flag TIM_STATUS.TAI_VALID = true ∨ s.flag TIM_CTRL.FREE_EPOCH = true))) ∧
  (∃ (s : State), s.epoch = true ∧ s.power ≠ 3 ∧ s.seq.closed < s.seq.started) ∧
  (∃ (s : State), ∃ (u : Fin 8), s.cmpLive u.val = true) :=
  ⟨⟨State.reset.setF TIM_CTRL.FREE_EPOCH 1, by decide +kernel, by decide +kernel⟩,
   ⟨({ run [] with seq.started := 0 } : State), by decide +kernel, by decide +kernel, by decide +kernel⟩,
   ⟨(run []).setF (TIM_CMP_CTRL.ARM 7) 1, 7, by decide +kernel⟩⟩

theorem witness_TimePortsComplete :
  (∃ (s : State), ∃ (p : Fin 2), ∃ h, ∃ q, ∃ u, ∃ t2, ∃ c2, u = s.tcForward p.val (.followUp h q) ∧ u.hears 0 p.val h = false ∧
    u.hears 1 p.val h = true ∧ (u.dom 1).twoStep = some (q, t2, c2)) ∧
  (∃ (s : State), ∃ (p : Fin 2), ∃ h, ∃ t1, ∃ c, ∃ q, ∃ u, ∃ t2, ∃ c2, ∃ v, u = s.tcForward p.val (.followUp h q) ∧
    u.hears 0 p.val h = true ∧ (u.dom 0).twoStep = some (q, t2, c2) ∧ v = u.syncDone 0 p.val t1 t2 (c2 + c) ∧
    v.hears 1 p.val h = false) ∧
  (∃ (s : State), ∃ (p : Fin 2), ∃ h, ∃ u, ∃ t3, u = s.tcForward p.val (.other h) ∧ u.hears 0 p.val h = false ∧
    u.hears 1 p.val h = true ∧ (u.dom 1).t3 = some t3) ∧
  (∃ (s : State), ∃ (p : Fin 2), ∃ h, ∃ t4, ∃ c, ∃ u, ∃ t3, ∃ v, u = s.tcForward p.val (.other h) ∧ u.hears 0 p.val h = true ∧
    (u.dom 0).t3 = some t3 ∧ v = u.delayDone 0 p.val t3 t4 c ∧ v.hears 1 p.val h = false) ∧
  (∃ (p : Fin 2), ∃ (h : PtpHeader), ∃ (a : AnnounceData), ∃ m, m = (⟨a, h.sender, p.val⟩ : PtpMaster)) ∧
  (∃ (s : State), ∃ (d : Fin 2), ∃ m, s.flag (domEnF d.val) = true ∧ (s.dom d.val).master = some m) ∧
  (∃ (s : State), ∃ (d : Fin 2), ∃ o, s.bit TIM_STATUS.FAULTY d.val = true ∧ (s.dom d.val).offset = some o ∧
    (o.natAbs : Int) ≤ nsTicks (s.getF TIM_LIMITS.STEP_LIM)) ∧
  (∃ (s : State), s.flag TIM_CTRL.REVERT = true ∧ s.getF TIM_STATUS.ACT_DOM ≠ s.getF TIM_CTRL.PREF_DOM ∧
    s.usable (s.getF TIM_CTRL.PREF_DOM) = true) ∧
  (∃ (s : State), s.flag TIM_STATUS.SLEWING = true ∧ s.slewOver = true) ∧
  (∃ f, f ≠ PortFrame.notPtp) :=
  ⟨⟨dom1 { heard with twoStep := some (5, 0, 0) }, 0, ptp, 5, _, 0, 0, rfl, by decide +kernel, by decide +kernel,
    by decide +kernel⟩,
   ⟨dom0 { heard with twoStep := some (5, 0, 0) }, 0, ptp, 0, 0, 5, _, 0, 0, _, rfl, by decide +kernel, by decide +kernel, rfl,
     by decide +kernel⟩,
   ⟨dom1 { heard with t3 := some 0 }, 0, ptp, _, 0, rfl, by decide +kernel, by decide +kernel, by decide +kernel⟩,
   ⟨dom0 { heard with t3 := some 0 }, 0, ptp, 0, 0, _, 0, _, rfl, by decide +kernel, by decide +kernel, rfl, by decide +kernel⟩,
   ⟨1, ptp, default, _, rfl⟩,
   ⟨dom0 heard, 0, ⟨⟨1, 6, 0x20, 0, 1, 7, 0, 0⟩, 7, 0⟩, by decide +kernel, by decide +kernel⟩,
   ⟨(dom0 { heard with offset := some 0 }).setF TIM_STATUS.FAULTY 1, 0, 0, by decide +kernel, by decide +kernel,
     by decide +kernel⟩,
   ⟨((dom0 { heard with announced := true, synced := true }).setF TIM_STATUS.ACT_DOM 1).setF TIM_CTRL.REVERT 1,
     by decide +kernel, by decide +kernel, by decide +kernel⟩,
   ⟨State.reset.setF TIM_STATUS.SLEWING 1, by decide +kernel, by decide +kernel⟩,
   ⟨.other ptp, by decide +kernel⟩⟩

theorem witness_LanesComplete :
  (∃ (s : State), ∃ (p : Fin 32), ∃ (l : Fin 4), ∃ u, s.portLive p.val = true ∧ s.forerunner p.val = false ∧
    u = s.portRefresh p.val ∧ u.bit (portLockF p.val) l.val = true) ∧
  (∃ (s : State), ∃ (p : Fin 32), ∃ (l : Fin 4), ∃ u, s.portLive p.val = true ∧ s.forerunner p.val = false ∧
    u = s.portRefresh p.val ∧ u.bit (portLockF p.val) l.val = true) ∧
  (∃ (s : State), ∃ (p : Fin 32), ∃ (l : Fin 4), ∃ (w : BitVec 64), ∃ v, s.portLive p.val = true ∧ s.forerunner p.val = false ∧
    v = s.received p.val l.val w) ∧
  (∃ (s : State), ∃ (p : Fin 32), s.portLive p.val = true ∧ s.forerunner p.val = false) ∧
  (∃ (s : State), ∃ (p : Fin 32), ∃ (l : Fin 4), s.bit (portDropF p.val) l.val = true ∧ s.bit (portLockF p.val) l.val = true) ∧
  (∃ (s : State), ∃ (p : Fin 32), s.getF (portDropF p.val) ≠ 0 ∧ s.getF (portStateF p.val) = 2) ∧
  (∃ (s : State), ∃ (p : Fin 24), ∃ (l : Fin 4), ∃ u, s.portLive p.val = true ∧ s.forerunner p.val = true ∧
    u = (s.portRefresh p.val).laneLocked p.val l.val 2) ∧
  (∃ (s : State), ∃ (p : Fin 24), ∃ (l : Fin 4), s.portLive p.val = true ∧ s.forerunner p.val = true ∧
    s.bit (portLockF p.val) l.val = true) ∧
  (∃ (s : State), ∃ (p : Fin 24), s.portLive p.val = true) :=
  ⟨⟨port0 show_ 2, 0, 3, _, by decide +kernel, by decide +kernel, rfl, by decide +kernel⟩,
   ⟨port0 show_ 2, 0, 3, _, by decide +kernel, by decide +kernel, rfl, by decide +kernel⟩,
   ⟨show_, 0, 3, BitVec.ofNat 64 (0x4D2BE178 + 2 ^ 56 * commaCrc 0x4D2BE178), _, by decide +kernel, by decide +kernel, rfl⟩,
   ⟨show_, 31, by decide +kernel, by decide +kernel⟩,
   ⟨(port0 show_ 2).setF (portDropF 0) 8, 0, 3, by decide +kernel, by decide +kernel⟩,
   ⟨(port0 show_ 2).setF (portDropF 0) 8, 0, by decide +kernel, by decide +kernel⟩,
   ⟨show_.setF (ING_P_CTRL.MODE 0) 1, 0, 3, _, by decide +kernel, by decide +kernel, rfl⟩,
   ⟨port0 (show_.setF (ING_P_CTRL.MODE 0) 1) 2, 0, 3, by decide +kernel, by decide +kernel, by decide +kernel⟩,
   ⟨show_, 23, by decide +kernel⟩⟩

theorem witness_PacketsComplete :
  (∃ (s : State), ∃ (p : Fin 24), ∃ h, ∃ pay, ∃ k, ∃ u, s.portLive p.val = true ∧ s.forerunner p.val = false ∧
    (s.port p.val).seeking = false ∧ k = Packet.ofHeader h pay ∧
    u = (s.portRefresh p.val).followSeq p.val (hdr h 200 16) (hdr h 216 8) ∧ hcrcOf (h.toNat % 2 ^ 240) = hdr h 240 16 ∧
    hdr h 0 4 = 1 ∧ ((hdr h 4 4 = 1 ∨ hdr h 4 4 = 2)) ∧ k.inputs ≠ 0 ∧ k.chans ≠ 0 ∧ k.spectra ≠ 0 ∧ ((k.null = true ∨
    k.len ≤ 8192)) ∧ ((∀ q ∈ u.packetParts k, u.failing p.val k false q = none))) ∧
  (∃ (s : State), ∃ (p : Fin 24), ∃ m, ∃ k, ∃ u, s.portLive p.val = true ∧ s.forerunner p.val = true ∧ u = s.portRefresh p.val ∧
    k = u.gk4 p.val m ∧ 20 ≤ m.length ∧ crc32 (m.take (m.length - 4)) = leNat (m.drop (m.length - 4)) ∧
    k.len = k.payload.length ∧ k.inputs ≠ 0 ∧ k.chans ≠ 0 ∧ k.chans ≤ 4095 ∧ k.len ≤ 8192 ∧ ((∀ q ∈ u.packetParts k,
    u.failing p.val k false q = none))) :=
  ⟨⟨open0 0, 0, checked (0x11 + 2 ^ 32 + 2 ^ 52 + 2 ^ 128 + 2 ^ 192), [5], _, _, by decide +kernel, by decide +kernel,
    by decide +kernel, rfl, rfl, by decide +kernel, by decide +kernel, by decide +kernel, by decide +kernel, by decide +kernel,
    by decide +kernel, by decide +kernel, by decide +kernel⟩,
   ⟨open0 1, 0, gk [0, 0, 0, 0, 0, 0, 0, 0, 1, 0, 0, 0, 1, 0, 0, 0, 9], _, _, by decide +kernel, by decide +kernel, rfl, rfl,
     by decide +kernel, by decide +kernel, by decide +kernel, by decide +kernel, by decide +kernel, by decide +kernel,
     by decide +kernel, by decide +kernel⟩⟩

theorem witness_PitDataWordsComplete :
  (∃ (s : State), ∃ (c : Fin 128), ∃ (q : Ctx), q = s.ctx c.val ∧ s.pitIssues c.val 0x00 = true) ∧
  (∃ (s : State), ∃ (c : Fin 128), ∃ (q : Ctx), q = s.ctx c.val ∧ s.pitIssues c.val 0x01 = true) ∧
  (∃ (s : State), ∃ (c : Fin 128), ∃ (q : Ctx), q = s.ctx c.val ∧ s.pitIssues c.val 0x02 = true) ∧
  (∃ (s : State), ∃ (c : Fin 128), ∃ (q : Ctx), q = s.ctx c.val ∧ s.pitIssues c.val 0x03 = true) ∧
  (∃ (s : State), ∃ (c : Fin 128), ∃ (q : Ctx), q = s.ctx c.val ∧ s.pitIssues c.val 0x04 = true) ∧
  (∃ (s : State), ∃ (c : Fin 128), ∃ (q : Ctx), q = s.ctx c.val ∧ s.pitIssues c.val 0x05 = true) ∧
  (∃ (s : State), ∃ (c : Fin 128), ∃ (q : Ctx), q = s.ctx c.val ∧ s.pitIssues c.val 0x06 = true) ∧
  (∃ (s : State), ∃ (c : Fin 128), ∃ (q : Ctx), q = s.ctx c.val ∧ s.pitIssues c.val 0x07 = true) ∧
  (∃ (s : State), ∃ (c : Fin 128), ∃ (q : Ctx), q = s.ctx c.val ∧ s.pitIssues c.val 0x08 = true) ∧
  (∃ (s : State), ∃ (c : Fin 128), ∃ (q : Ctx), q = s.ctx c.val ∧ s.pitIssues c.val 0x09 = true) ∧
  (∃ (s : State), ∃ (c : Fin 128), ∃ (q : Ctx), q = s.ctx c.val ∧ s.pitIssues c.val 0x0A = true) ∧
  (∃ (s : State), ∃ (c : Fin 128), ∃ (q : Ctx), q = s.ctx c.val ∧ s.pitIssues c.val 0x10 = true) ∧
  (∃ (s : State), ∃ (c : Fin 128), ∃ (q : Ctx), q = s.ctx c.val ∧ s.pitIssues c.val 0x11 = true) ∧
  (∃ (s : State), ∃ (c : Fin 128), ∃ (q : Ctx), q = s.ctx c.val ∧ s.pitIssues c.val 0x12 = true) ∧
  (∃ (s : State), ∃ (c : Fin 128), ∃ (q : Ctx), q = s.ctx c.val ∧ s.pitIssues c.val 0x13 = true) ∧
  (∃ (s : State), ∃ (c : Fin 128), ∃ (q : Ctx), q = s.ctx c.val ∧ s.pitIssues c.val 0x14 = true) ∧
  (∃ (s : State), ∃ (c : Fin 128), ∃ (q : Ctx), q = s.ctx c.val ∧ s.pitIssues c.val 0x15 = true) ∧
  (∃ (s : State), ∃ (c : Fin 128), ∃ (q : Ctx), q = s.ctx c.val ∧ s.pitIssues c.val 0x16 = true) ∧
  (∃ (s : State), ∃ (c : Fin 128), ∃ (q : Ctx), q = s.ctx c.val ∧ s.pitIssues c.val 0x17 = true) ∧
  (∃ (s : State), ∃ (c : Fin 128), ∃ (q : Ctx), q = s.ctx c.val ∧ s.pitIssues c.val 0x18 = true) ∧
  (∃ (s : State), ∃ (c : Fin 128), ∃ (q : Ctx), q = s.ctx c.val ∧ s.pitIssues c.val 0x19 = true) ∧
  (∃ (s : State), ∃ (c : Fin 128), ∃ (q : Ctx), q = s.ctx c.val ∧ s.pitIssues c.val 0x1A = true) :=
  ⟨⟨pit 0 0 Cluster.idle, 127, _, rfl, by decide +kernel⟩,
   ⟨pit 1 0 Cluster.idle, 127, _, rfl, by decide +kernel⟩,
   ⟨pit 2 0 Cluster.idle, 127, _, rfl, by decide +kernel⟩,
   ⟨pit 3 0 Cluster.idle, 127, _, rfl, by decide +kernel⟩,
   ⟨pit 4 0 Cluster.idle, 127, _, rfl, by decide +kernel⟩,
   ⟨pit 5 0 Cluster.idle, 127, _, rfl, by decide +kernel⟩,
   ⟨pit 6 0 Cluster.idle, 127, _, rfl, by decide +kernel⟩,
   ⟨pit 7 0 Cluster.idle, 127, _, rfl, by decide +kernel⟩,
   ⟨pit 8 0 Cluster.idle, 127, _, rfl, by decide +kernel⟩,
   ⟨pit 9 0 Cluster.idle, 127, _, rfl, by decide +kernel⟩,
   ⟨pit 10 0 Cluster.idle, 127, _, rfl, by decide +kernel⟩,
   ⟨pit 16 0 Cluster.idle, 127, _, rfl, by decide +kernel⟩,
   ⟨pit 17 0 Cluster.idle, 127, _, rfl, by decide +kernel⟩,
   ⟨pit 18 0 Cluster.idle, 127, _, rfl, by decide +kernel⟩,
   ⟨pit 19 0 Cluster.idle, 127, _, rfl, by decide +kernel⟩,
   ⟨pit 20 0 Cluster.idle, 127, _, rfl, by decide +kernel⟩,
   ⟨pit 21 0 Cluster.idle, 127, _, rfl, by decide +kernel⟩,
   ⟨pit 22 0 Cluster.idle, 127, _, rfl, by decide +kernel⟩,
   ⟨pit 23 0 Cluster.idle, 127, _, rfl, by decide +kernel⟩,
   ⟨pit 24 0 Cluster.idle, 127, _, rfl, by decide +kernel⟩,
   ⟨pit 25 0 Cluster.idle, 127, _, rfl, by decide +kernel⟩,
   ⟨pit 26 0 Cluster.idle, 127, _, rfl, by decide +kernel⟩⟩

theorem witness_PitControlWordsComplete :
  (∃ (s : State), ∃ (c : Fin 128), ∃ (q : Ctx), q = s.ctx c.val ∧ s.pitIssues c.val 0x20 = true) ∧
  (∃ (s : State), ∃ (c : Fin 128), ∃ (q : Ctx), q = s.ctx c.val ∧ s.pitIssues c.val 0x21 = true) ∧
  (∃ (s : State), ∃ (c : Fin 128), ∃ (q : Ctx), q = s.ctx c.val ∧ s.pitIssues c.val 0x22 = true) ∧
  (∃ (s : State), ∃ (c : Fin 128), ∃ (q : Ctx), q = s.ctx c.val ∧ s.pitIssues c.val 0x23 = true) ∧
  (∃ (s : State), ∃ (c : Fin 128), ∃ (q : Ctx), q = s.ctx c.val ∧ s.pitIssues c.val 0x24 = true) ∧
  (∃ (s : State), ∃ (c : Fin 128), ∃ (q : Ctx), q = s.ctx c.val ∧ s.pitIssues c.val 0x25 = true) ∧
  (∃ (s : State), ∃ (c : Fin 128), ∃ (q : Ctx), q = s.ctx c.val ∧ s.pitIssues c.val 0x27 = true) ∧
  (∃ (s : State), ∃ (c : Fin 128), ∃ (q : Ctx), q = s.ctx c.val ∧ s.pitIssues c.val 0x28 = true) ∧
  (∃ (s : State), ∃ (c : Fin 128), ∃ (q : Ctx), q = s.ctx c.val ∧ s.pitIssues c.val 0x29 = true) ∧
  (∃ (s : State), ∃ (c : Fin 128), ∃ (q : Ctx), q = s.ctx c.val ∧ s.pitIssues c.val 0x2A = true) ∧
  (∃ (s : State), ∃ (c : Fin 128), ∃ (q : Ctx), q = s.ctx c.val ∧ s.pitIssues c.val 0x33 = true) ∧
  (∃ (s : State), ∃ (c : Fin 128), ∃ (q : Ctx), q = s.ctx c.val ∧ s.pitIssues c.val 0x34 = true) ∧
  (∃ (s : State), ∃ (c : Fin 128), ∃ (q : Ctx), q = s.ctx c.val ∧ s.pitIssues c.val 0x38 = true) ∧
  (∃ (s : State), ∃ (c : Fin 128), ∃ (q : Ctx), q = s.ctx c.val ∧ s.pitIssues c.val 0x39 = true) ∧
  (∃ (s : State), ∃ (c : Fin 128), ∃ (q : Ctx), q = s.ctx c.val ∧ s.pitIssues c.val 0x3A = true) ∧
  (∃ (s : State), ∃ (c : Fin 128), ∃ (q : Ctx), q = s.ctx c.val ∧ s.pitIssues c.val 0x26 = true ∧ q.setpOpen = false) ∧
  (∃ (s : State), ∃ (c : Fin 128), ∃ (q : Ctx), q = s.ctx c.val ∧ s.pitIssues c.val (wOp q.w) = true ∧
    opDefined (wOp q.w) = false) :=
  ⟨⟨pit 32 0 Cluster.idle, 127, _, rfl, by decide +kernel⟩,
   ⟨pit 33 0 Cluster.idle, 127, _, rfl, by decide +kernel⟩,
   ⟨pit 34 0 Cluster.idle, 127, _, rfl, by decide +kernel⟩,
   ⟨pit 35 0 Cluster.idle, 127, _, rfl, by decide +kernel⟩,
   ⟨pit 36 0 Cluster.idle, 127, _, rfl, by decide +kernel⟩,
   ⟨pit 37 0 Cluster.idle, 127, _, rfl, by decide +kernel⟩,
   ⟨pit 39 0 Cluster.idle, 127, _, rfl, by decide +kernel⟩,
   ⟨pit 40 0 Cluster.idle, 127, _, rfl, by decide +kernel⟩,
   ⟨pit 41 0 Cluster.idle, 127, _, rfl, by decide +kernel⟩,
   ⟨pit 42 0 Cluster.idle, 127, _, rfl, by decide +kernel⟩,
   ⟨pit 51 0 Cluster.idle, 127, _, rfl, by decide +kernel⟩,
   ⟨pit 52 0 Cluster.idle, 127, _, rfl, by decide +kernel⟩,
   ⟨pit 56 0 Cluster.idle, 127, _, rfl, by decide +kernel⟩,
   ⟨pit 57 0 Cluster.idle, 127, _, rfl, by decide +kernel⟩,
   ⟨pit 58 0 Cluster.idle, 127, _, rfl, by decide +kernel⟩,
   ⟨pit 38 0 Cluster.idle, 127, _, rfl, by decide +kernel, by decide +kernel⟩,
   ⟨pit 63 0 Cluster.idle, 127, _, rfl, by decide +kernel, by decide +kernel⟩⟩

theorem witness_PitVectorsComplete :
  (∃ (s : State), ∃ (c : Fin 128), ∃ q, ∃ u, ∃ v, ∃ q', q = s.ctx c.val ∧ q.bank ≠ 1 ∧ q.x.stopLeft = none ∧
    s.nextVect c.val = (u, some v) ∧ q' = { q with x := { q.x with cm := (u.cluster c.val).cm } } ∧
    s.pitIssues c.val 0x30 = true) ∧
  (∃ (s : State), ∃ (c : Fin 128), ∃ q, ∃ u, ∃ v, ∃ q', q = s.ctx c.val ∧ q.bank ≠ 1 ∧ q.x.stopLeft = none ∧
    s.nextVect c.val = (u, some v) ∧ q' = { q with x := { q.x with cm := (u.cluster c.val).cm } } ∧
    s.pitIssues c.val 0x31 = true) ∧
  (∃ (s : State), ∃ (c : Fin 128), ∃ q, ∃ v, s.pitIssues c.val 0x32 = true ∧ q = s.ctx c.val ∧ q.bank ≠ 1 ∧ xDcl q.w ≠ 3 ∧
    xFine q.w ≤ 4 ∧ q.x.hist[xLag q.w]? = some v ∧ q.x.outQ.length < 8) ∧
  (∃ (s : State), ∃ (c : Fin 128), s.pitReady c.val = true) ∧
  (∃ (s : State), ∃ (c : Fin 128), ∃ (i : Fin 8), s.cueEnters c.val i.val = true) ∧
  (∃ (s : State), ∃ (r : Fin 262144), ∃ d, ∃ e, ∃ cs, ∃ u, s.serves r.val 0x30 e ∧
    cs = s.pitNamed (e.arg 64 7) (e.arg 71 1 = 1) ∧
    (List.range 128).any (fun c => (s.cluster c).flipRing == some r.val) = false ∧ s.pitPageOk e cs = true ∧
    cs.any (fun c => s.flag (PIT_C_STATUS.FLIP_PEND c)) = false ∧ 1 ≤ e.arg 82 11 ∧ e.arg 72 10 + e.arg 82 11 ≤ 1024 ∧
    e.arg 128 64 % 64 = 0 ∧ 128 * e.arg 82 11 ≤ d.length ∧
    u = s.each cs (fun s c => s.setCluster c ((s.cluster c).localWrite (e.arg 72 10) (e.arg 82 11) (halfwords d (64 * e.arg 82 11))))) ∧
  (∃ (s : State), ∃ (r : Fin 262144), ∃ e, ∃ c, s.serves r.val 0x31 e ∧ c = e.arg 64 7 ∧
    (s.cluster c).readRings.contains r.val = false ∧ s.pitPageOk e [c] = true ∧ 1 ≤ e.arg 82 11 ∧
    e.arg 72 10 + e.arg 82 11 ≤ 1024) ∧
  (∃ (s : State), ∃ (r : Fin 262144), ∃ d, ∃ e, ∃ cs, ∃ hs, ∃ u, s.serves r.val 0x32 e ∧
    cs = s.pitNamed (e.arg 64 7) (e.arg 71 1 = 1) ∧
    (List.range 128).any (fun c => ((s.cluster c).coefFor r.val).isSome) = false ∧ s.pitPageOk e cs = true ∧ 1 ≤ e.arg 86 15 ∧
    e.arg 72 14 + e.arg 86 15 ≤ 16384 ∧ 2 * e.arg 86 15 ≤ d.length ∧ hs = halfwords d (e.arg 86 15) ∧
    u = s.each cs (fun s c => let x := s.cluster c; let y := if s.betweenNow c then x.coefWrite (e.arg 72 14) hs else { x with coefPend := x.coefPend ++ [(e.arg 72 14, hs)] }; s.setCluster c (if s.flag (PIT_C_STATUS.RUN c) then { y with coefRings := y.coefRings ++ [(r.val, none)] } else y))) :=
  ⟨⟨(pit 0x30 0 { Cluster.idle with inQ := [vect], lastTaken := some vect }), 127, _,
    (State.nextVect (pit 0x30 0 { Cluster.idle with inQ := [vect], lastTaken := some vect }) 127).1, vect, _, rfl,
    by decide +kernel, by decide +kernel, pair_of (by decide +kernel), rfl, by decide +kernel⟩,
   ⟨(pit 0x31 0 { Cluster.idle with inQ := [vect], lastTaken := some vect }), 127, _,
     (State.nextVect (pit 0x31 0 { Cluster.idle with inQ := [vect], lastTaken := some vect }) 127).1, vect, _, rfl,
     by decide +kernel, by decide +kernel, pair_of (by decide +kernel), rfl, by decide +kernel⟩,
   ⟨(pit 0x32 0 { Cluster.idle with hist := [vect] }), 127, _, vect, by decide +kernel, rfl, by decide +kernel,
     by decide +kernel, by decide +kernel, by decide +kernel, by decide +kernel⟩,
   ⟨pit 0 0 Cluster.idle, 127, by decide +kernel⟩,
   ⟨pit 0 0 { Cluster.idle with pitq := 0x80 }, 127, 7, by decide +kernel⟩,
   ⟨ring0 (desc 0x30 (2 ^ 64 * 127 + 2 ^ 82)), 0, List.replicate 128 9, cmd 0x30 (2 ^ 64 * 127 + 2 ^ 82), _, _,
     by unfold State.serves; and_intros <;> decide +kernel, rfl, by decide +kernel, by decide +kernel, by decide +kernel,
     by decide +kernel, by decide +kernel, by decide +kernel, by decide +kernel, rfl⟩,
   ⟨ring0 (desc 0x31 (2 ^ 64 * 127 + 2 ^ 72 * 1023 + 2 ^ 82)), 0, cmd 0x31 (2 ^ 64 * 127 + 2 ^ 72 * 1023 + 2 ^ 82), _,
     by unfold State.serves; and_intros <;> decide +kernel, rfl, by decide +kernel, by decide +kernel, by decide +kernel,
     by decide +kernel⟩,
   ⟨ring0 (desc 0x32 (2 ^ 64 * 127 + 2 ^ 72 * 16383 + 2 ^ 86)), 0, [1, 2], cmd 0x32 (2 ^ 64 * 127 + 2 ^ 72 * 16383 + 2 ^ 86), _,
     _, _, by unfold State.serves; and_intros <;> decide +kernel, rfl, by decide +kernel, by decide +kernel, by decide +kernel,
     by decide +kernel, by decide +kernel, rfl, rfl⟩⟩

theorem witness_StoreCommandsComplete :
  (∃ (s : State), ∃ a, a < storeBytes ∧ s.storeOn = true) ∧
  (∃ (s : State), ∃ (p : Fin 10), ∃ a, ∃ d, ∃ b, ∃ es, a < storeBytes ∧ s.storeOn = true ∧
    s.refusal p.val a (.write d b es) = none) ∧
  (∃ (s : State), ∃ (p : Fin 10), ∃ a, ∃ (f : Fin 3), ∃ m, ∃ d, ∃ es, a < storeBytes ∧ s.storeOn = true ∧
    s.refusal p.val a (.add f.val m d es) = none) ∧
  (∃ (s : State), s.storeOn = true ∧ s.flag STO_STATUS.READY = true) ∧
  (∃ (s : State), ∃ (n : Fin 256), s.storeOn = true ∧ s.getF (STO_PC_STAT.STATE n.val) = 1) ∧
  (∃ (s : State), s.storeOn = true ∧ s.flag STO_STATUS.READY = false) ∧
  (∃ (s : State), ∃ (n : Fin 256), s.storeOn = true ∧ s.flag STO_STATUS.READY = true ∧ s.getF (STO_PC_STAT.STATE n.val) = 1 ∧
    s.retrainDue n.val = true) ∧
  (∃ (s : State), ∃ (n : Fin 256), s.storeOn = true ∧ s.flag (STO_PC_STAT.TRAINING n.val) = true) ∧
  (∃ (s : State), ∃ (n : Fin 256), (s.pch n.val).relocating = true) ∧
  (∃ (s : State), ∃ (n : Fin 256), ((s.getF PWR_STATUS.STATE = 2 ∨ s.iron = true)) ∧ s.srIdle n.val = true) ∧
  (∃ (s : State), ∃ (n : Fin 256), ∃ k, (s.pch n.val).ceWindow = some k) :=
  ⟨⟨({ (show_.setF CTL_CAP1.STO_CAP 12288) with scr.images := [img region] } : State), storeBytes - 64, by decide +kernel,
    by decide +kernel⟩,
   ⟨({ (show_.setF CTL_CAP1.STO_CAP 12288) with scr.images := [img region] } : State), 7, 2 ^ 30, 0, 0, [], by decide +kernel,
     by decide +kernel, by decide +kernel⟩,
   ⟨({ (show_.setF CTL_CAP1.STO_CAP 12288) with scr.images := [img region] } : State), 7, 2 ^ 30, 0, 0, 0, [],
     by decide +kernel, by decide +kernel, by decide +kernel⟩,
   ⟨({ (show_.setF CTL_CAP1.STO_CAP 12288) with scr.images := [img region] } : State).setF STO_STATUS.READY 1,
     by decide +kernel, by decide +kernel⟩,
   ⟨({ (show_.setF CTL_CAP1.STO_CAP 12288) with scr.images := [img region] } : State).setF (STO_PC_STAT.STATE 255) 1, 255,
     by decide +kernel, by decide +kernel⟩,
   ⟨({ (show_.setF CTL_CAP1.STO_CAP 12288) with scr.images := [img region] } : State), by decide +kernel, by decide +kernel⟩,
   ⟨({ ((({ (show_.setF CTL_CAP1.STO_CAP 12288) with scr.images := [img region] } : State).setF STO_STATUS.READY 1).setF (STO_PC_STAT.STATE 255) 1) with clk.cycles := 10 ^ 15, scr.images := [img [(0x0508, 1)]] } : State),
     255, by decide +kernel, by decide +kernel, by decide +kernel, by decide +kernel⟩,
   ⟨({ (show_.setF CTL_CAP1.STO_CAP 12288) with scr.images := [img region] } : State).setF (STO_PC_STAT.TRAINING 255) 1, 255,
     by decide +kernel, by decide +kernel⟩,
   ⟨({ ({ (show_.setF CTL_CAP1.STO_CAP 12288) with scr.images := [img region] } : State) with sto.pchan := [(255, some { PChan.fresh with relocating := true })] } : State),
     255, by decide +kernel⟩,
   ⟨({ State.reset.setF PWR_STATUS.STATE 2 with clk.cycles := 10 ^ 15 } : State), 255, by decide +kernel, by decide +kernel⟩,
   ⟨({ ({ (show_.setF CTL_CAP1.STO_CAP 12288) with scr.images := [img region] } : State) with sto.pchan := [(255, some { PChan.fresh with ceWindow := some 3 })] } : State),
     255, 3, by decide +kernel⟩⟩

theorem witness_MoversComplete :
  (∃ (s : State), ∃ (m : Fin 32), ∃ u, ∃ l, u = s.purgeUnbound ∧ s.inReset 1 = false ∧ u.nextLine m.val = some l) ∧
  (∃ (s : State), ∃ (l : Fin 528), ∃ c, ∃ n, ∃ rest, l.val < 512 ∧ c = l.val / 4 ∧ (s.cluster c).nullDone = n :: rest ∧
    (s.cluster c).outQ.any (fun v => decide (s.dwellOf v.six ≤ n) && s.outRoute (4 * c + v.stream) v.six != 2) = false) ∧
  (∃ (s : State), ∃ (l : Fin 528), ∃ p, ∃ n, 512 ≤ l.val ∧ l.val % 2 = 0 ∧ p = (l.val - 512) / 2 ∧
    oldest (s.owedByPort p) = some n ∧ s.fab.rxq.any (fun e => e.1 == p && decide (s.dwellOf e.2.six ≤ n)) = false) ∧
  (∃ (s : State), ∃ g, ∃ n, ∃ a, ∃ b, ∃ c, ∃ p, s.seq.pages.find? (fun e => e.2 == g) = some ((n, a, b, c), p) ∧
    s.seq.replay = some n ∧ s.seq.lateReads.contains p = false) ∧
  (∃ (s : State), ∃ (m : Fin 64), ∃ (d : List Byte), ∃ (f : List Nat), ∃ (w : List Nat), ∃ (i : Instr), ∃ (l : List DescBurst),
    ∃ (q : DescRun), ((s.movWorks m.val 0 = true ∧ i = Instr.descNop m ∧ d = [] ∧ f = [] ∧ w = [] ∧ l = [] ∨
    s.movWorks m.val 1 = true ∧ i = Instr.copy m d f w ∧ l = (s.mover m.val).copyBursts ∨ s.movWorks m.val 2 = true ∧
    i = Instr.fill m f w ∧ d = [] ∧ l = (s.mover m.val).fillBursts ∨ s.movWorks m.val 3 = true ∧ i = Instr.ilv m d f w ∧
    l = (s.mover m.val).ilvBursts ∨ s.movWorks m.val 4 = true ∧ i = Instr.tri m d f w ∧ l = (s.mover m.val).triBursts ∨
    s.movWorks m.val 5 = true ∧ i = Instr.fence m ∧ (s.mover m.val).peerWaits = [] ∧ (s.mover m.val).peerRefused = false ∧
    d = [] ∧ f = [] ∧ w = [] ∧ l = [])) ∧
    q = (burstsLeft (s.mover m.val).done l).foldl (DescRun.step m.val f w) ⟨s.setF (MOV_M_STATE.PACE_WAIT m.val) 0, d, 0, 0⟩ ∧
    q.stop = 0) ∧
  (∃ (s : State), ∃ (m : Fin 64), ((s.movState m.val = 1 ∨ s.movState m.val = 2)) ∧ (s.mover m.val).work = true) ∧
  (∃ (s : State), ∃ (m : Fin 64), ∃ k, s.flag (MOV_M_STATE.PACE_WAIT m.val) = true ∧ s.iron = false ∧
    k = (s.movImage m.val).el Scr.MOV_PACE_TO (m.val - 32) % 2 ^ 32 ∧ k ≠ 0) ∧
  (∃ (s : State), ∃ (m : Fin 64), s.flag (MOV_M_STATE.PACE_WAIT m.val) = true ∧ s.iron = true) ∧
  (∃ (s : State), ∃ (m : Fin 64), s.iron = true ∧ ((s.movState m.val = 1 ∨ s.movState m.val = 2))) ∧
  (∃ (s : State), ∃ (r : Fin 262144), ∃ e, ∃ m, ∃ h, s.serves r.val 0x20 e ∧ m = e.arg 64 6 ∧ 32 ≤ m ∧ m < 60 ∧
    s.movPageOk e m = true ∧ s.iron = false ∧ s.movState m ≠ 1 ∧ s.movState m ≠ 2 ∧ ((e.arg 192 1 = 1 ∧ h = s.movAddr m ∨
    e.arg 192 1 ≠ 1 ∧ h = e.arg 128 64 ∧ descAddrOk h = true))) ∧
  (∃ (s : State), ∃ (r : Fin 262144), ∃ e, ∃ m, s.serves r.val 0x21 e ∧ m = e.arg 64 6 ∧ 32 ≤ m ∧ m < 60 ∧
    s.movPageOk e m = true ∧ ((s.movState m = 0 ∨ s.movState m = 3))) ∧
  (∃ (s : State), ∃ (r : Fin 262144), ∃ e, ∃ m, s.serves r.val 0x21 e ∧ m = e.arg 64 6 ∧ 32 ≤ m ∧ m < 60 ∧
    s.movPageOk e m = true ∧ s.movState m = 1 ∧ (s.mover m).stopRings.contains r.val = false) :=
  ⟨⟨({ run [(0x0601, 2 ^ (8 * 511) * 159)] with clu := [(127, some { Cluster.idle with outQ := [⟨some 0, 3, 1, 0, 0, 0, 0, 0, 1, 1, List.replicate 64 0, 0⟩] })] } : State),
    31, _, 511, rfl, by decide +kernel, by decide +kernel⟩,
   ⟨({ run [] with clu := [(127, some { Cluster.idle with nullDone := [5] })] } : State), 511, 127, 5, [], by decide +kernel,
     by decide +kernel, by decide +kernel, by decide +kernel⟩,
   ⟨({ run [] with seq.ringWait := [3] } : State), 526, 7, 3, by decide +kernel, by decide +kernel, by decide +kernel,
     by decide +kernel, by decide +kernel⟩,
   ⟨({ run [] with seq.pages := [((3, 0, 0, 0), 9)], seq.replay := some 3 } : State), 9, 3, 0, 0, 0, 9, by decide +kernel,
     by decide +kernel, by decide +kernel⟩,
   ⟨(({ run region with mov := [(59, some { Mover.fresh with desc := BitVec.ofNat 512 (1 + 2 ^ 32 * 64 + 2 ^ 64 * 2 ^ 30 + 2 ^ 128 * (2 ^ 30 + 64)) })] } : State).setF (MOV_M_STATE.STATE 59) 1).setF CTL_CAP1.STO_CAP 12288,
     59, [], [], [], Instr.copy 59 [] [] [],
     Mover.copyBursts { Mover.fresh with desc := BitVec.ofNat 512 (1 + 2 ^ 32 * 64 + 2 ^ 64 * 2 ^ 30 + 2 ^ 128 * (2 ^ 30 + 64)) },
     _, by decide +kernel, rfl, by decide +kernel⟩,
   ⟨(({ run [] with mov := [(59, some { Mover.fresh with desc := BitVec.ofNat 512 (0), work := true })] } : State).setF (MOV_M_STATE.STATE 59) 1),
     59, by decide +kernel, by decide +kernel⟩,
   ⟨(({ run [(0x0605, 2 ^ (64 * 27))] with mov := [(59, some { Mover.fresh with desc := BitVec.ofNat 512 (0) })] } : State).setF (MOV_M_STATE.PACE_WAIT 59) 1),
     59, _, by decide +kernel, by decide +kernel, rfl, by decide +kernel⟩,
   ⟨(({ run [] with mov := [(59, some { Mover.fresh with desc := BitVec.ofNat 512 (0) })] } : State).setF (MOV_M_STATE.PACE_WAIT 59) 1).setF FLT_STATUS.IRON 1,
     59, by decide +kernel, by decide +kernel⟩,
   ⟨(({ run [] with mov := [(59, some { Mover.fresh with desc := BitVec.ofNat 512 (0) })] } : State).setF (MOV_M_STATE.STATE 59) 1).setF FLT_STATUS.IRON 1,
     59, by decide +kernel, by decide +kernel⟩,
   ⟨ring0 (desc 0x20 (2 ^ 64 * 59)), 0, cmd 0x20 (2 ^ 64 * 59), _, 0, by unfold State.serves; and_intros <;> decide +kernel,
     rfl, by decide +kernel, by decide +kernel, by decide +kernel, by decide +kernel, by decide +kernel, by decide +kernel,
     by decide +kernel⟩,
   ⟨ring0 (desc 0x21 (2 ^ 64 * 59)), 0, cmd 0x21 (2 ^ 64 * 59), _, by unfold State.serves; and_intros <;> decide +kernel, rfl,
     by decide +kernel, by decide +kernel, by decide +kernel, by decide +kernel⟩,
   ⟨(ring0 (desc 0x21 (2 ^ 64 * 59))).setF (MOV_M_STATE.STATE 59) 1, 0, cmd 0x21 (2 ^ 64 * 59), _,
     by unfold State.serves; and_intros <;> decide +kernel, rfl, by decide +kernel, by decide +kernel, by decide +kernel,
     by decide +kernel, by decide +kernel⟩⟩

theorem witness_StageCommandsComplete :
  (∃ (s : State), ∃ n, ∃ rest, s.seq.ringWait = n :: rest ∧ s.stageOn = true ∧ s.seq.replay = none ∧
    ((s.fmtChange (s.governing n) = true → s.draining = false))) ∧
  (∃ (s : State), ∃ (p : Fin 16), ∃ n, ∃ i, ∃ e, ∃ k, s.entryNow p.val 0 = some (n, i, e) ∧
    s.freeSlot (s.governing n) p.val = some k ∧ s.unflushed n (s.streams (s.governing n) p.val e) = false) ∧
  (∃ (s : State), ∃ (p : Fin 16), ∃ n, ∃ i, ∃ e, s.passNow p.val 0 = some (n, i, e)) ∧
  (∃ (s : State), ∃ (p : Fin 16), ∃ n, ∃ i, ∃ e, s.entryNow p.val 2 = some (n, i, e)) ∧
  (∃ (s : State), ∃ (p : Fin 16), ∃ i, ∃ rest, ∃ sl, ∃ w, ∃ u, (s.part p.val).order = i :: rest ∧ s.iron = false ∧
    sl = (s.part p.val).slots.getD i Slot.fresh ∧ w = fmtWidth ((s.governing sl.dwell).fmt p.val) ∧
    s.drainTo sl.dwell (drainAdds w (s.drainEntries sl)) = (u, true)) ∧
  (∃ (s : State), ∃ n, s.seq.replayed.find? (fun n => !s.holdsDwell n) = some n ∧ s.iron = false) ∧
  (∃ (s : State), ∃ (p : Fin 16), ∃ n, ∃ i, ∃ e, ∃ b, s.entryNow p.val 1 = some (n, i, e) ∧
    s.weightBank (s.governing n) = some b ∧ s.bem.wload ≠ some b ∧
    ((s.governing n).beamRecs e).any (fun x => decide (s.recAccept x n = .wait)) = false ∧
    s.unflushed n (s.streams (s.governing n) p.val e) = false ∧ ((s.governing n).beamChips e).any (s.addHeld n) = false) ∧
  (∃ (s : State), ∃ (p : Fin 16), ∃ n, ∃ i, ∃ e, s.passNow p.val 1 = some (n, i, e)) ∧
  (∃ (s : State), ∃ im, ∃ b, s.bem.wload = none ∧ s.iron = false ∧ s.loadNext = some im ∧ s.freeBank = some b) ∧
  (∃ (s : State), ∃ b, ∃ im, s.bem.wload = some b ∧ im = (s.bem.wbank.getD b none).getD Image.boot) ∧
  (∃ (s : State), ∃ (x : Fin 65536), (s.rec_ x.val).st = .filling ∧ (s.rec_ x.val).dwell ≤ s.seq.closed) ∧
  (∃ (s : State), ∃ (x : Fin 65536), ∃ c, ∃ r, s.recCluster x.val = some (c, r) ∧ s.iron = false ∧ s.recTurn c = some x.val) ∧
  (∃ (s : State), ∃ (x : Fin 65536), s.recCluster x.val = none ∧ s.iron = false ∧ s.toPit x.val = true) :=
  ⟨⟨({ run [] with seq.ringWait := [3] } : State), 3, [], by decide +kernel, by decide +kernel, by decide +kernel,
    by decide +kernel⟩,
   ⟨({ run [] with scr.images := [{ img [] with plan := [0] }], seq.replay := some 3, seq.part := List.replicate 16 { Part.fresh with ended := false } } : State),
     0, 3, 0, 0, 0, by decide +kernel, by decide +kernel, by decide +kernel⟩,
   ⟨({ run [] with scr.images := [{ img [] with plan := [0] }], seq.replay := some 3, seq.part := List.replicate 16 { Part.fresh with ended := false, pass := some 0 } } : State),
     0, 3, 0, 0, by decide +kernel⟩,
   ⟨({ run [] with scr.images := [{ img [] with plan := [2] }], seq.replay := some 3, seq.part := List.replicate 16 { Part.fresh with ended := false } } : State),
     0, 3, 0, 2, by decide +kernel⟩,
   ⟨({ run [] with seq.part := List.replicate 16 { Part.fresh with order := [0] } } : State), 15, 0, [], _, _,
     (State.drainTo ({ run [] with seq.part := List.replicate 16 { Part.fresh with order := [0] } } : State) 0 []).1,
     by decide +kernel, by decide +kernel, rfl, rfl, pair_of (by decide +kernel)⟩,
   ⟨({ run [] with seq.replayed := [3] } : State), 3, by decide +kernel, by decide +kernel⟩,
   ⟨({ ({ run [] with scr.images := [{ img [] with plan := [1] }], seq.replay := some 3, seq.part := List.replicate 16 { Part.fresh with ended := false } } : State) with bem.wbank := [some (img []), none] } : State),
     0, 3, 0, 1, 0, by decide +kernel, by decide +kernel, by decide +kernel, by decide +kernel, by decide +kernel,
     by decide +kernel⟩,
   ⟨({ run [] with scr.images := [{ img [] with plan := [1] }], seq.replay := some 3, seq.part := List.replicate 16 { Part.fresh with ended := false, pass := some 0 } } : State),
     0, 3, 0, 1, by decide +kernel⟩,
   ⟨(({ run [] with scr.images := [{ img [] with plan := [1] }], seq.replay := some 3 } : State).setF BEM_STATUS.RESV 1),
     { img [] with plan := [1] }, 0, by decide +kernel, by decide +kernel, by decide +kernel, by decide +kernel⟩,
   ⟨({ run [] with bem.wload := some 1 } : State), 1, _, by decide +kernel, rfl⟩,
   ⟨({ run [] with bem.recs := [(65535, some { Rec.fresh with st := .filling })], seq.closed := 0 } : State), 65535,
     by decide +kernel, by decide +kernel⟩,
   ⟨({ run [(0x0403, 2 ^ 8 + 2 ^ 28), (0x0802, 0)] with bem.recs := [(0, some { Rec.fresh with st := .full })] } : State), 0, 0,
     2 ^ 8 + 2 ^ 28, by decide +kernel, by decide +kernel, by decide +kernel⟩,
   ⟨({ run [(0x0802, 0)] with bem.recs := [(0, some { Rec.fresh with st := .full })] } : State), 0, by decide +kernel,
     by decide +kernel, by decide +kernel⟩⟩

theorem witness_ProductCommandsComplete :
  (∃ (s : State), ∃ (b : Fin 2), s.getF (bankStateF b.val) = 1 ∧ s.bankLast b.val ≤ s.seq.closed ∧ s.iron = false) ∧
  (∃ (s : State), ∃ (b : Fin 2), (s.bank b.val).closing = true) ∧
  (∃ (s : State), ∃ (x : Fin 65536), s.frameHeld x.val = true) ∧
  (∃ (s : State), ∃ (j : Fin 512), ∃ n, oldest ((s.nullsTaken (j.val / 4)).filter (fun n => s.bufReady j.val n)) = some n) ∧
  (∃ (s : State), ∃ (r : Fin 262144), ∃ e, ∃ b, s.serves r.val 0x70 e ∧ b = e.arg 64 1 ∧ ((e.admin = true ∨
    e.sub = s.bankOwner b))) ∧
  (∃ (s : State), ∃ (r : Fin 262144), ∃ e, ∃ im, ∃ x, s.serves r.val 0x71 e ∧ s.frameAt (e.arg 64 64) = some (im, x) ∧
    ((e.admin = true ∨ e.sub = im.poolSub)) ∧ s.frameHeld x = true) :=
  ⟨⟨({ (run []).setF PRD_STATUS.B1_STATE 1 with prd.bank := [Bank.fresh, Bank.fresh], seq.closed := 0 } : State), 1,
    by decide +kernel, by decide +kernel, by decide +kernel⟩,
   ⟨({ run [] with prd.bank := [Bank.fresh, { Bank.fresh with closing := true }] } : State), 1, by decide +kernel⟩,
   ⟨({ run [(0x0802, 2)] with bem.recs := [(0, some { Rec.fresh with st := .releasing })] } : State), 0, by decide +kernel⟩,
   ⟨({ run [(0x0405, 2 ^ (4 * 511)), (0x0907, 2 ^ 511)] with clu := [(127, some { Cluster.idle with nullDone := [5] })] } : State),
     511, 5, by decide +kernel⟩,
   ⟨ring0 (desc 0x70 (2 ^ 64)), 0, cmd 0x70 (2 ^ 64), _, by unfold State.serves; and_intros <;> decide +kernel, rfl,
     by decide +kernel⟩,
   ⟨({ ring0 (desc 0x71 0) with scr.images := [img [(0x0802, 2)]], bem.recs := [(0, some { Rec.fresh with st := .releasing })] } : State),
     0, cmd 0x71 0, img [(0x0802, 2)], 0, by unfold State.serves; and_intros <;> decide +kernel, by decide +kernel,
     by decide +kernel, by decide +kernel⟩⟩

theorem witness_FabricCommandsComplete :
  (∃ (s : State), ∃ (p : Fin 8), ∃ h, ∃ pay, ∃ u, ∃ v, ∃ six, ∃ n, ∃ g, ∃ win, hdr h 8 4 = 0 ∧
    s.fabArrive p.val false h pay 3 0 = (u, true) ∧ six = u.packetSix h ∧ n = u.dwellOf six ∧ g = hdr h 140 7 ∧
    u.claimCheck p.val (hdr h 32 11) n (4 * g) = (v, true) ∧ win = (v.governing n).el Scr.FAB_IN_WIN p.val ∧
    bitsOf win 0 7 ≤ g ∧ g < bitsOf win 0 7 + bitsOf win 7 8 ∧ v.isLate six = false ∧ v.isEarly six = false) ∧
  (∃ (s : State), ∃ (p : Fin 8), ∃ h, ∃ pay, ∃ u, ∃ v, s.fabArrive p.val false h pay 4 0 = (u, true) ∧
    u.claimCheck p.val (hdr h 32 11) (u.addDwell h) (4 * addTarget h + 1) = (v, true)) ∧
  (∃ (s : State), ∃ (p : Fin 8), ∃ h, ∃ u, ∃ v, s.fabArrive p.val false h [] 4 1 = (u, true) ∧
    u.claimCheck p.val (hdr h 32 11) (u.addDwell h) (4 * addTarget h + 1) = (v, true)) ∧
  (∃ (s : State), ∃ (p : Fin 8), ∃ h, ∃ pay, ∃ u, ∃ v, s.fabArrive p.val false h pay 5 0 = (u, true) ∧
    u.claimCheck p.val (hdr h 32 11) u.houseDwell 2 = (v, true) ∧ v.peerMayWrite (hdr h 96 38 / 64 * 64) = true) ∧
  (∃ (s : State), ∃ (p : Fin 8), ∃ h, ∃ u, ∃ m, ∃ w, s.fabArrive p.val false h [] 5 1 = (u, true) ∧
    (u.release p.val h).peerWait (hdr h 32 11 * 256 + hdr h 142 8) = some (m, w) ∧ hdr h 136 6 = 0) ∧
  (∃ (s : State), ∃ (m : Fin 64), ∃ (q : BitVec 8), ∃ w,
    (s.mover m.val).peerWaits.find? (fun w => w % 256 == q.toNat) = some w) ∧
  (∃ (s : State), ∃ (p : Fin 8), ∃ h, ∃ u, s.fabTake p.val false h 6 0 = (u, true)) ∧
  (∃ (s : State), ∃ (p : Fin 8), s.fabUp p.val = true ∧ s.iron = false ∧ s.getF PWR_STATUS.STATE ≠ 3) ∧
  (∃ (s : State), ∃ (k : Fin 2048), ∃ e, ∃ r, ∃ n, Tbl.get s.fab.claims none k.val = some (e, r, n) ∧ n + 2 ≤ s.houseDwell) ∧
  (∃ (s : State), ∃ (p : Fin 8), ∃ q, ∃ e, s.fabUp p.val = true ∧ s.flag (FAB_P_STATUS.CRED_OK p.val) = true ∧
    s.nextPool p.val = some q ∧ s.queued p.val q = some e) ∧
  (∃ (s : State), ∃ (p : Fin 8), ∃ h, s.fabUp p.val = true ∧ hcrcOf (h.toNat % 2 ^ 240) = hdr h 240 16 ∧ hdr h 4 4 = 0xE) :=
  ⟨⟨fab7 [(0x0AE4, 2 ^ (16 * 7 + 7))], 7, (fabHdr 3 0 (0)), [], (arrived (fab7 [(0x0AE4,
    2 ^ (16 * 7 + 7))]) (fabHdr 3 0 (0)) 3 0), (State.claimCheck (arrived (fab7 [(0x0AE4,
    2 ^ (16 * 7 + 7))]) (fabHdr 3 0 (0)) 3 0) (7 : Fin 8).val (hdr (fabHdr 3 0 (0)) 32 11) (State.dwellOf (arrived (fab7 [(0x0AE4,
    2 ^ (16 * 7 + 7))]) (fabHdr 3 0 (0)) 3 0) (State.packetSix (arrived (fab7 [(0x0AE4,
    2 ^ (16 * 7 + 7))]) (fabHdr 3 0 (0)) 3 0) (fabHdr 3 0 (0)))) (4 * hdr (fabHdr 3 0 (0)) 140 7)).1,
    (State.packetSix (arrived (fab7 [(0x0AE4, 2 ^ (16 * 7 + 7))]) (fabHdr 3 0 (0)) 3 0) (fabHdr 3 0 (0))),
    (State.dwellOf (arrived (fab7 [(0x0AE4, 2 ^ (16 * 7 + 7))]) (fabHdr 3 0 (0)) 3 0) (State.packetSix (arrived (fab7 [(0x0AE4,
    2 ^ (16 * 7 + 7))]) (fabHdr 3 0 (0)) 3 0) (fabHdr 3 0 (0)))), hdr (fabHdr 3 0 (0)) 140 7,
    (State.governing (State.claimCheck (arrived (fab7 [(0x0AE4,
    2 ^ (16 * 7 + 7))]) (fabHdr 3 0 (0)) 3 0) (7 : Fin 8).val (hdr (fabHdr 3 0 (0)) 32 11) (State.dwellOf (arrived (fab7 [(0x0AE4,
    2 ^ (16 * 7 + 7))]) (fabHdr 3 0 (0)) 3 0) (State.packetSix (arrived (fab7 [(0x0AE4,
    2 ^ (16 * 7 + 7))]) (fabHdr 3 0 (0)) 3 0) (fabHdr 3 0 (0)))) (4 * hdr (fabHdr 3 0 (0)) 140 7)).1 (State.dwellOf (arrived (fab7 [(0x0AE4,
    2 ^ (16 * 7 + 7))]) (fabHdr 3 0 (0)) 3 0) (State.packetSix (arrived (fab7 [(0x0AE4,
    2 ^ (16 * 7 + 7))]) (fabHdr 3 0 (0)) 3 0) (fabHdr 3 0 (0))))).el Scr.FAB_IN_WIN (7 : Fin 8).val, by decide +kernel,
    pair_of (by decide +kernel), by decide +kernel, by decide +kernel, by decide +kernel, pair_of (by decide +kernel),
    by decide +kernel, by decide +kernel, by decide +kernel, by decide +kernel, by decide +kernel⟩,
   ⟨fab7 [], 7, (fabHdr 4 0 (0)), [], (arrived (fab7 []) (fabHdr 4 0 (0)) 4 0),
     (State.claimCheck (arrived (fab7 []) (fabHdr 4 0 (0)) 4 0) (7 : Fin 8).val (hdr (fabHdr 4 0 (0)) 32 11) (State.addDwell (arrived (fab7 []) (fabHdr 4 0 (0)) 4 0) (fabHdr 4 0 (0))) (4 * addTarget (fabHdr 4 0 (0)) + 1)).1,
     pair_of (by decide +kernel), pair_of (by decide +kernel)⟩,
   ⟨fab7 [], 7, (fabHdr 4 1 (0)), (arrived (fab7 []) (fabHdr 4 1 (0)) 4 1),
     (State.claimCheck (arrived (fab7 []) (fabHdr 4 1 (0)) 4 1) (7 : Fin 8).val (hdr (fabHdr 4 1 (0)) 32 11) (State.addDwell (arrived (fab7 []) (fabHdr 4 1 (0)) 4 1) (fabHdr 4 1 (0))) (4 * addTarget (fabHdr 4 1 (0)) + 1)).1,
     pair_of (by decide +kernel), pair_of (by decide +kernel)⟩,
   ⟨fab7 region, 7, (fabHdr 5 0 (2 ^ 96 * 2 ^ 30)), [], (arrived (fab7 region) (fabHdr 5 0 (2 ^ 96 * 2 ^ 30)) 5 0),
     (State.claimCheck (arrived (fab7 region) (fabHdr 5 0 (2 ^ 96 * 2 ^ 30)) 5 0) (7 : Fin 8).val (hdr (fabHdr 5 0 (2 ^ 96 * 2 ^ 30)) 32 11) (State.houseDwell (arrived (fab7 region) (fabHdr 5 0 (2 ^ 96 * 2 ^ 30)) 5 0)) 2).1,
     pair_of (by decide +kernel), pair_of (by decide +kernel), by decide +kernel⟩,
   ⟨{ fab7 [] with mov := [(59, some { Mover.fresh with peerWaits := [0] })] }, 7, (fabHdr 5 1 (0)),
     (arrived ({ fab7 [] with mov := [(59, some { Mover.fresh with peerWaits := [0] })] }) (fabHdr 5 1 (0)) 5 1), 59, 0,
     pair_of (by decide +kernel), by decide +kernel, by decide +kernel⟩,
   ⟨({ run [] with mov := [(59, some { Mover.fresh with peerWaits := [255] })] } : State), 59, 255, 255, by decide +kernel⟩,
   ⟨fab7 [], 7, (fabHdr 6 0 0), (State.fabTake (fab7 []) (7 : Fin 8).val false (fabHdr 6 0 0) 6 0).1,
     pair_of (by decide +kernel)⟩,
   ⟨fab7 [], 7, by decide +kernel, by decide +kernel, by decide +kernel⟩,
   ⟨({ run [] with fab.claims := [(2047, some (1, 8, -2))] } : State), 2047, 1, 8, -2, by decide +kernel, by decide +kernel⟩,
   ⟨(({ run [] with seq.closed := 0, fab.credit := [(poolKey 7 5, 2048)], fab.txq := [(7, 5, 0, [])] } : State).setF (FAB_P_STATUS.STATE 7) 2).setF (FAB_P_STATUS.CRED_OK 7) 1,
     7, 5, (7, 5, 0, []), by decide +kernel, by decide +kernel, by decide +kernel, by decide +kernel⟩,
   ⟨(({ run [] with seq.closed := 0 } : State).setF (FAB_P_STATUS.STATE 7) 2).setF (FAB_P_STATUS.CRED_OK 7) 1, 7,
     checked (1 + 16 * 14), by decide +kernel, by decide +kernel, by decide +kernel⟩⟩

theorem witness_CueCommandsComplete :
  (∃ (s : State), ∃ (c : Fin 64), ∃ e, s.cue.edges.find? (fun e => e.ch == c.val) = some e) ∧
  (∃ (s : State), ∃ (f : Fin 40), ∃ u, u = s.runCycles ((s.filt f.val).since + s.fMinw f.val - s.clk.cycles)) ∧
  (∃ (s : State), ∃ (f : Fin 40), (s.filt f.val).held = true ∧ s.bit CUE_FDIS.MAP f.val = false) ∧
  (∃ (s : State), ∃ (f : Fin 40), (s.filt f.val).out = true ∧ s.fStuck f.val ≠ 0) ∧
  (∃ (s : State), ∃ (c : Fin 64), s.bit CUE_CHDIS.MAP c.val = false) ∧
  (∃ (s : State), ∃ (c : Fin 64), s.bit CUE_CHDIS.MAP c.val = true) ∧
  (∃ (s : State), ∃ (f : Fin 40), s.bit CUE_FDIS.MAP f.val = true) :=
  ⟨⟨({ run [] with cue.edges := [⟨63, true, none, 9, 8, 0, 8⟩] } : State), 63, ⟨63, true, none, 9, 8, 0, 8⟩, by decide +kernel⟩,
   ⟨run [], 39, _, rfl⟩,
   ⟨({ run [] with cue.filt := [(39, some { Filt.fresh with held := true })] } : State), 39, by decide +kernel,
     by decide +kernel⟩,
   ⟨({ run [(0x0C03, 2 ^ (64 * 39 + 28))] with cue.filt := [(39, some { Filt.fresh with out := true })] } : State), 39,
     by decide +kernel, by decide +kernel⟩,
   ⟨run [], 63, by decide +kernel⟩,
   ⟨(run []).setF CUE_CHDIS.MAP (2 ^ 63), 63, by decide +kernel⟩,
   ⟨(run []).setF CUE_FDIS.MAP (2 ^ 39), 39, by decide +kernel⟩⟩

theorem witness_FaultCommandsComplete :
  (∃ (s : State), ∃ (k : Fin 1024), ∃ (c : Fin 4), ((c.val = 0 ∨ c.val = 3)) ∧ s.inService = true ∧ s.railBad k.val = false ∧
    hiClass k.val ≠ 0) ∧
  (∃ (c : Fin 4), ((c.val = 1 ∨ c.val = 2))) ∧
  (∃ (s : State), ∃ (k : Fin 1024), ∃ x, ∃ u, s.flt.react = some x ∧ x.src = k.val ∧ x.cls = 2 ∧ x.acked = false ∧
    u = s.lapse (.ack k.val) (msCycles * s.sv Scr.FLT_ACK_TO) ∧
    u.flt.react.any (fun y => y.src == k.val && y.cls == 2 && !y.acked) = true) ∧
  (∃ (s : State), ∃ (p : Fin 8), s.iron = true ∧ s.fabUp p.val = true) ∧
  (∃ (s : State), ∃ b, s.iron = true ∧ s.exitWhy b = 0) ∧
  (∃ (s : State), s.inService = false ∧ s.ctl.jtagHeld = false) :=
  ⟨⟨(run []).setF FLT_STATUS.SERVICE 1, 0x307, 3, by decide +kernel, by decide +kernel, by decide +kernel, by decide +kernel⟩,
   ⟨1, by decide +kernel⟩,
   ⟨({ run [] with flt.react := some ⟨0x20, 2, 1, 0, 0, 1, false⟩ } : State), 0x20, ⟨0x20, 2, 1, 0, 0, 1, false⟩, _,
     by decide +kernel, by decide +kernel, by decide +kernel, by decide +kernel, rfl, by decide +kernel⟩,
   ⟨((({ run [] with seq.closed := 0 } : State).setF (FAB_P_STATUS.STATE 7) 2).setF (FAB_P_STATUS.CRED_OK 7) 1).setF FLT_STATUS.IRON 1,
     7, by decide +kernel, by decide +kernel⟩,
   ⟨(run []).setF FLT_STATUS.IRON 1, true, by decide +kernel, by decide +kernel⟩,
   ⟨run [], by decide +kernel, by decide +kernel⟩⟩

theorem witness_DuetCommandsComplete :
  (∃ (s : State), s.paired = true ∧ s.power ≠ 3) ∧
  (∃ (s : State), ∃ h, ∃ u, s.takePair false h 0 = (u, true)) ∧
  (∃ (s : State), s.flag DUO_STATUS.PARTNER_OK = true) ∧
  (∃ (s : State), ((s.sv Scr.DUO_SWAP_PERIOD ≠ 0 ∨ s.flag DUO_STATUS.REPLACE = true ∨ (s.timerOf .swapAgain).isSome = true))) ∧
  (∃ (s : State), s.duo.joinAt ≠ none ∧ s.paired = true ∧ s.iron = false ∧ s.flag DUO_STATUS.WITHDRAWN = false ∧
    ((s.flag DUO_STATUS.PARTNER_OK = false ∨ s.partnerClaim.2 = 0))) ∧
  (∃ (s : State), ∃ n, s.paired = true ∧ s.seq.gone.contains n = true ∧ s.seq.replayed.contains n = false ∧
    s.duo.sentDigests.contains n = false) ∧
  (∃ (s : State), ∃ h, ∃ u, s.takePair false h 1 = (u, true)) ∧
  (∃ (s : State), ∃ n, ∃ u, s.duo.sentDigests.contains n = true ∧ u = (s.lapse (.digest n) s.hbTimeout).stopTimer (.digest n)) ∧
  (∃ (s : State), ∃ (k : Fin 132), ∃ n,
    n = (match s.logicalOf k.val with | some c => (match (s.cluster c).lastTaken with | some v => v.dwell | none => s.houseDwell) | none => s.houseDwell)) ∧
  (∃ (s : State), ∃ (p : Fin 32), s.getF (portStateF p.val) = 3 ∧ s.sv Scr.DUO_LANE_GRACE ≠ 0) ∧
  (∃ (s : State), ∃ (r : Fin 262144), ∃ e, ∃ k, s.serves r.val 0x60 e ∧ s.iron = false ∧ s.flag DUO_STATUS.SWAP_PEND = false ∧
    s.active = true ∧ k = (if toSigned 64 (e.arg 64 64) = 0 then s.dwellAhead (s.sv Scr.DUO_SWAP_LEAD) else toSigned 64 (e.arg 64 64)) ∧
    s.dwellAhead (s.sv Scr.DUO_SWAP_LEAD) ≤ k ∧ ((e.arg 128 1 = 1 ∨ s.swapAllowed = true))) ∧
  (∃ (s : State), ∃ (r : Fin 262144), ∃ e, s.serves r.val 0x61 e) ∧
  (∃ (s : State), ∃ (r : Fin 262144), ∃ e, s.serves r.val 0x62 e ∧ s.iron = false) ∧
  (∃ (s : State), ∃ (r : Fin 262144), ∃ e, s.serves r.val 0x63 e ∧ e.arg 64 1 = 0 ∧ e.arg 65 6 ≤ 32 ∧ e.arg 71 6 ≤ 32) ∧
  (∃ (s : State), ∃ (r : Fin 262144), ∃ e, s.serves r.val 0x63 e ∧ e.arg 64 1 ≠ 0 ∧ e.arg 65 8 ≤ 131) ∧
  (∃ (s : State), ∃ w, ∃ rest, s.ctl.jpend = w :: rest) :=
  ⟨⟨(run [(0x0A00, 2 ^ 11), (0x0AE3, 7), (0x0E00, 1)]), by decide +kernel, by decide +kernel⟩,
   ⟨(fab7 [(0x0A00, 2 ^ 11), (0x0AE3, 7), (0x0E00, 1)]), (fabHdr 7 0 (2 ^ 32)), (State.takePair (fab7 [(0x0A00, 2 ^ 11),
     (0x0AE3, 7), (0x0E00, 1)]) false (fabHdr 7 0 (2 ^ 32)) 0).1, pair_of (by decide +kernel)⟩,
   ⟨(run [(0x0A00, 2 ^ 11), (0x0AE3, 7), (0x0E00, 1)]).setF DUO_STATUS.PARTNER_OK 1, by decide +kernel⟩,
   ⟨(run [(0x0A00, 2 ^ 11), (0x0AE3, 7), (0x0E00, 1)]), by decide +kernel⟩,
   ⟨({ run [(0x0A00, 2 ^ 11), (0x0AE3, 7), (0x0E00, 1)] with duo.joinAt := some 0 } : State), by decide +kernel,
     by decide +kernel, by decide +kernel, by decide +kernel, by decide +kernel⟩,
   ⟨({ run [(0x0A00, 2 ^ 11), (0x0AE3, 7), (0x0E00, 1)] with seq.gone := [3] } : State), 3, by decide +kernel,
     by decide +kernel, by decide +kernel, by decide +kernel⟩,
   ⟨(fab7 [(0x0A00, 2 ^ 11), (0x0AE3, 7), (0x0E00, 1)]), (fabHdr 7 1 (2 ^ 32)), (State.takePair (fab7 [(0x0A00, 2 ^ 11),
     (0x0AE3, 7), (0x0E00, 1)]) false (fabHdr 7 1 (2 ^ 32)) 1).1, pair_of (by decide +kernel)⟩,
   ⟨({ run [(0x0A00, 2 ^ 11), (0x0AE3, 7), (0x0E00, 1)] with duo.sentDigests := [3] } : State), 3, _, by decide +kernel, rfl⟩,
   ⟨run [], 131, _, rfl⟩,
   ⟨port0 (run []) 3, 0, by decide +kernel, by decide +kernel⟩,
   ⟨({ ring0 (desc 0x60 (2 ^ 128)) with scr.images := [img [(0x0A00, 2 ^ 11), (0x0AE3, 7), (0x0E00, 1)]] } : State).setF DUO_STATUS.RANK 8,
     0, cmd 0x60 (2 ^ 128), _, by unfold State.serves; and_intros <;> decide +kernel, by decide +kernel, by decide +kernel,
     by decide +kernel, rfl, by decide +kernel, by decide +kernel⟩,
   ⟨({ ring0 (desc 0x61 (0)) with scr.images := [img [(0x0A00, 2 ^ 11), (0x0AE3, 7), (0x0E00, 1)]] } : State), 0, cmd 0x61 (0),
     by unfold State.serves; and_intros <;> decide +kernel⟩,
   ⟨({ ring0 (desc 0x62 (0)) with scr.images := [img [(0x0A00, 2 ^ 11), (0x0AE3, 7), (0x0E00, 1)]] } : State), 0, cmd 0x62 (0),
     by unfold State.serves; and_intros <;> decide +kernel, by decide +kernel⟩,
   ⟨({ ring0 (desc 0x63 (2 ^ 65 * 32 + 2 ^ 71 * 32)) with scr.images := [img [(0x0A00, 2 ^ 11), (0x0AE3, 7), (0x0E00, 1)]] } : State),
     0, cmd 0x63 (2 ^ 65 * 32 + 2 ^ 71 * 32), by unfold State.serves; and_intros <;> decide +kernel, by decide +kernel,
     by decide +kernel, by decide +kernel⟩,
   ⟨({ ring0 (desc 0x63 (2 ^ 64 + 2 ^ 65 * 131)) with scr.images := [img [(0x0A00, 2 ^ 11), (0x0AE3, 7), (0x0E00, 1)]] } : State),
     0, cmd 0x63 (2 ^ 64 + 2 ^ 65 * 131), by unfold State.serves; and_intros <;> decide +kernel, by decide +kernel,
     by decide +kernel⟩,
   ⟨({ run [] with ctl.jpend := [.floor 1] } : State), .floor 1, [], by decide +kernel⟩⟩

theorem witness_ControlPlaneComplete :
  (∃ (s : State), ∃ (m : Master), ∃ (l : List Burst), ∃ (n : Nat), (s.matrixRun l n).ctlHolds m = true) ∧
  (∃ (s : State), ∃ (k : Fin 4), s.coreState k.val ≠ 0) ∧
  (∃ (s : State), ∃ (k : Fin 4), s.coreState k.val = 2) ∧
  (∃ (s : State), ∃ (k : Fin 2), s.booting = true ∧ s.bootSource = k.val) ∧
  (∃ (s : State), s.pushOpen = true ∧ 1 ≤ s.getF CTL_PUSH.LEN ∧ s.getF CTL_PUSH.LEN ≤ 524288) ∧
  (∃ (s : State), s.booting = true ∧ s.flag CTL_PUSH.BUSY = true) ∧
  (∃ (s : State), ∃ (k : Fin 4), s.coreState k.val = 3 ∧ s.ctl.update = none) ∧
  (∃ (s : State), ∃ (k : Fin 4), ∃ u, s.ctl.update = some u ∧ u.todo.head? = some k.val ∧ s.coreState k.val = 3 ∧
    u.back = false) ∧
  (∃ (s : State), ∃ (r : Fin 262144), ∃ e, s.serves r.val 0x42 e ∧ s.ctl.fuseCount < e.arg 64 6 ∧
    1024 * e.arg 64 6 ≤ s.ctl.jFloor) ∧
  (∃ (s : State), ∃ (r : Fin 262144), ∃ e, s.serves r.val 0x44 e) :=
  ⟨⟨State.reset, .bootEngine, [⟨.bootEngine, 0, 2, none⟩], 1, by decide +kernel⟩,
   ⟨State.reset.setF CTL_CORES.STATE 128, 3, by decide +kernel⟩,
   ⟨State.reset.setF CTL_CORES.STATE 128, 3, by decide +kernel⟩,
   ⟨({ State.reset with regs := [(CTL_BOOT.SEL.key, 0)], ctl.bootTry := 1 } : State), 1, by decide +kernel, by decide +kernel⟩,
   ⟨({ State.reset with regs := [(CTL_BOOT.SEL.key, 1), (CTL_PUSH.LEN.key, 524288)] } : State), by decide +kernel,
     by decide +kernel, by decide +kernel⟩,
   ⟨State.reset.setF CTL_PUSH.BUSY 1, by decide +kernel, by decide +kernel⟩,
   ⟨State.reset.setF CTL_CORES.STATE 192, 3, by decide +kernel, by decide +kernel⟩,
   ⟨({ State.reset.setF CTL_CORES.STATE 192 with ctl.update := some ⟨2, 0, false, [3], 0, false⟩ } : State), 3, ⟨2, 0, false,
     [3], 0, false⟩, by decide +kernel, by decide +kernel, by decide +kernel, by decide +kernel⟩,
   ⟨({ ring0 (desc 0x42 (2 ^ 64 * 63)) with ctl.jFloor := 64512, ctl.fuseCount := 62 } : State), 0, cmd 0x42 (2 ^ 64 * 63),
     by unfold State.serves; and_intros <;> decide +kernel, by decide +kernel, by decide +kernel⟩,
   ⟨ring0 (desc 0x44 0), 0, cmd 0x44 0, by unfold State.serves; and_intros <;> decide +kernel⟩⟩

theorem witness_PowerCommandsComplete :
  (∃ (s : State), s.coreRuns = true ∧ s.power ≠ 3) ∧
  (∃ (s : State), ∃ (c : BitVec 8), ∃ (u : State), u = { s.setF PWR_STATUS.AVS_APPLIED c.toNat with pwr.avsWait := false }) ∧
  (∃ (s : State), s.pwr.avsWait = true) ∧
  (∃ (s : State), s.power ≠ 3) ∧
  (∃ (s : State), ∃ (r : Fin 262144), ∃ e, ∃ g, ∃ k, s.serves r.val 0x50 e ∧ g = e.arg 64 2 ∧ ((s.iron = true → g = 3)) ∧
    s.pwrAllowed g = true ∧
    k = (if s.pwrNamed g && toSigned 64 (e.arg 128 64) != 0 then toSigned 64 (e.arg 128 64) else s.pwrFirst) ∧
    ((s.pwrNamed g = true → s.pwrFirst ≤ k)) ∧ s.pwr.trans = none) ∧
  (∃ (s : State), ∃ g, ∃ k, s.pwr.trans = some (g, k) ∧ s.power = 0 ∧ s.showOver k = true) ∧
  (∃ (s : State), ∃ k, s.pwr.trans = some (2, k) ∧ s.power = 1) ∧
  (∃ (s : State), ∃ k, s.pwr.trans = some (1, k) ∧ s.power = 2) ∧
  (∃ (s : State), ∃ k, s.pwr.trans = some (3, k) ∧ ((s.power = 1 ∨ s.power = 2))) ∧
  (∃ (s : State), ((s.power = 1 ∨ s.power = 2)) ∧ s.pwr.trans = none) ∧
  (∃ (s : State), s.power = 3) ∧
  (∃ (s : State), ∃ u, u = s.setF PWR_EMERG.HOLD_NOW 1 ∧ s.power = 0 ∧ s.iron = false ∧ ((∀ t j, u.pwr.trans = some (t, j) →
    s.houseDwell + 1 < j))) ∧
  (∃ (s : State), ∃ (b : Fin 5), s.bit PWR_BLKRST.BITS b.val = true) ∧
  (∃ op, op ∈ [JtagOp.extest, .extestPulse, .extestTrain, .highz, .clamp, .selfTest]) :=
  ⟨⟨State.reset.setF CTL_CORES.STATE 2, by decide +kernel, by decide +kernel⟩,
   ⟨State.reset, 5, _, rfl⟩,
   ⟨({ State.reset with pwr.avsWait := true } : State), by decide +kernel⟩,
   ⟨State.reset, by decide +kernel⟩,
   ⟨ring0 (desc 0x50 (2 ^ 64)), 0, cmd 0x50 (2 ^ 64), _, _, by unfold State.serves; and_intros <;> decide +kernel, rfl,
     by decide +kernel, by decide +kernel, rfl, by decide +kernel, by decide +kernel⟩,
   ⟨({ run [] with pwr.trans := some (1, 0) } : State), 1, 0, by decide +kernel, by decide +kernel, by decide +kernel⟩,
   ⟨({ (run []).setF PWR_STATUS.STATE 1 with pwr.trans := some (2, 0) } : State), 0, by decide +kernel, by decide +kernel⟩,
   ⟨({ (run []).setF PWR_STATUS.STATE 2 with pwr.trans := some (1, 0) } : State), 0, by decide +kernel, by decide +kernel⟩,
   ⟨({ (run []).setF PWR_STATUS.STATE 2 with pwr.trans := some (3, 0) } : State), 0, by decide +kernel, by decide +kernel⟩,
   ⟨(run []).setF PWR_STATUS.STATE 2, by decide +kernel, by decide +kernel⟩,
   ⟨(run []).setF PWR_STATUS.STATE 3, by decide +kernel⟩,
   ⟨run [], _, rfl, by decide +kernel, by decide +kernel, fun t j h => nomatch (show (none : Option (Nat × Int)) = some (t,
     j) from h)⟩,
   ⟨(run []).setF PWR_BLKRST.BITS 16, 4, by decide +kernel⟩,
   ⟨.highz, by decide +kernel⟩⟩

theorem witness_StepRunsFront :
  (∃ (s : State), ∃ c, ∃ rest, s.pending = c :: rest) ∧
  (∃ (s : State), s.pending = []) :=
  ⟨⟨({ State.reset with pending := [.doeAbort, .wake] } : State), .doeAbort, [.wake], by decide +kernel⟩,
   ⟨State.reset, by decide +kernel⟩⟩

theorem witness_StepKeepsInvariant :
  ∃ (s : State), ∃ (t : State), s.Inv ∧ step s = .next t :=
  ⟨State.reset, _, by unfold State.Inv; and_intros <;> decide +kernel, rfl⟩

theorem witness_EveryCommandAnswers :
  (∃ (c : Instr), ∃ (a : Nat), ∃ (n : Nat), accessOf c = some (a, n) ∧ n ≤ a) ∧
  (∃ (c : Instr), ((∀ a n, accessOf c = some (a, n) → a < n))) :=
  ⟨⟨.hdmRead hdmSize [], hdmSize, hdmSize, by decide +kernel, by decide +kernel⟩,
   ⟨.wake, fun a n h => nomatch (show (none : Option (Nat × Nat)) = some (a, n) from h)⟩⟩

theorem witness_QueueUntouched :
  ∃ (c : Instr), ∃ (s : State), ∃ (t : State), exec c s = .next t :=
  ⟨.wake, ({ State.reset with pending := [.doeAbort] } : State), _, rfl⟩

theorem witness_OutputOnlyGrows :
  ∃ (c : Instr), ∃ (s : State), ∃ (t : State), exec c s = .next t :=
  ⟨.doeDiscovery, ({ State.reset.setF CTL_CORES.STATE 2 with host.doeIn := [⟨.discovery, []⟩] } : State), _, rfl⟩

theorem witness_SequenceNumbersNeverRepeat :
  (∃ (c : Instr), ∃ (s : State), ∃ (t : State), ((∀ b i, c ≠ .porstN b i)) ∧ exec c s = .next t) ∧
  (∃ (b : Fin 4), ∃ (i : Fin 4), ∃ (s : State), ∃ (t : State), exec (.porstN b i) s = .next t) :=
  ⟨⟨.wake, State.reset, _, (by intro _ _ h; cases h), rfl⟩,
   ⟨3, 3, State.reset, _, rfl⟩⟩

theorem witness_ViralStopsHostWrites :
  (∃ (c : Instr), ∃ (s : State), ∃ (t : State), s.host.viral = true ∧ exec c s = .next t) ∧
  (∃ (c : Instr), ∃ (s : State), ∃ (t : State), s.host.viral = true ∧ exec c s = .next t) ∧
  (∃ (s : State), ∃ a, s.host.viral = true ∧ a < hdmSize ∧ s.memOn = true) :=
  ⟨⟨.wake, ({ State.reset.setF HST_STATUS.MEM_ON 1 with host.viral := true } : State), _, by decide +kernel, rfl⟩,
   ⟨.wake, ({ State.reset.setF HST_STATUS.MEM_ON 1 with host.viral := true } : State), _, by decide +kernel, rfl⟩,
   ⟨({ State.reset.setF HST_STATUS.MEM_ON 1 with host.viral := true } : State), hdmSize - 64, by decide +kernel,
     by decide +kernel, by decide +kernel⟩⟩

theorem witness_CanonicalMemoryIsItsReads :
  ∃ (m : Mem), ∃ (n : Mem), Memory.wf m ∧ Memory.wf n ∧ ((∀ a, Memory.read m a = Memory.read n a)) :=
  ⟨[(5, 1)], [(5, 1)], by decide +kernel, by decide +kernel, fun _ => rfl⟩

theorem witness_BadAccessChangesNothingElse :
  (∃ (s : State), ∃ o, ∃ n, s.power ≠ 3 ∧ s.flt.c4 = [] ∧ accessOk o n = false) ∧
  (∃ (s : State), ∃ o, ∃ n, ∃ v, ∃ m, ∃ (c : Bool), ∃ (i : Instr), s.power ≠ 3 ∧ s.flt.c4 = [] ∧ (n ≠ 8 ∨ o % 8 ≠ 0) ∧
    i ∈ [Instr.registerWrite .doorbells o n v m, Instr.doorbell o n v c]) :=
  ⟨⟨State.reset, 4, 8, by decide +kernel, by decide +kernel, by decide +kernel⟩,
   ⟨State.reset, 4, 8, 0, 0, false, .doorbell 4 8 0 false, by decide +kernel, by decide +kernel, by decide +kernel,
     by decide +kernel⟩⟩

theorem witness_ReadClearKeepsTheEvent :
  (∃ (s : State), s.power ≠ 3 ∧ s.flt.c4 = []) ∧
  (∃ (s : State), ∃ p, ∃ l, s.power ≠ 3 ∧ s.flt.c4 = [] ∧ p < 24 ∧ l < 4) :=
  ⟨⟨State.reset, by decide +kernel, by decide +kernel⟩,
   ⟨State.reset, 23, 3, by decide +kernel, by decide +kernel, by decide +kernel, by decide +kernel⟩⟩

theorem witness_CompletionEntryWritten :
  (∃ (s : State), ∃ (r : Fin 262144), ∃ e, ∃ x, s.flt.c4 = [] ∧ s.serves r.val 0x00 e ∧ s.ring r.val = some x ∧
    x.exec = some e) ∧
  (∃ (s : State), ∃ stamp, ∃ cpl, ∃ r, ∃ idx, ∃ tag, ∃ st, ∃ res, ∃ why, ∃ irq, ∃ c, ∃ rest, s.flt.c4 = [] ∧ s.outbox = [] ∧
    s.host.viral = false ∧ s.host.notices = .completion stamp cpl r idx tag st res why irq none :: rest ∧
    stamp + 16 ≤ s.clk.cycles ∧ s.ring cpl = some c ∧ c.error = false ∧ c.stuck = false ∧ c.held = [] ∧ c.lostCount = 0 ∧
    c.log2 ≤ 24 ∧ c.prod < 2 ^ 32) :=
  ⟨⟨ring0 (desc 0 0), 0, cmd 0 0, { Ring.fresh 0 4 4096 with exec := some (cmd 0 0) }, by decide +kernel,
    by unfold State.serves; and_intros <;> decide +kernel, by decide +kernel, by decide +kernel⟩,
   ⟨({ (ring0 0).setRing 1 (some { Ring.fresh 1 24 4096 with prod := 2 ^ 32 - 1, cons := 2 ^ 32 - 1 }) with clk.cycles := 16, host.notices := [.completion 0 1 0 0 7 0 0 0 false none] } : State),
     0, 1, 0, 0, 7, 0, 0, 0, false, { Ring.fresh 1 24 4096 with prod := 2 ^ 32 - 1, cons := 2 ^ 32 - 1 }, [], by decide +kernel,
     by decide +kernel, by decide +kernel, by decide +kernel, by decide +kernel, by decide +kernel, by decide +kernel,
     by decide +kernel, by decide +kernel, by decide +kernel, by decide +kernel, by decide +kernel⟩⟩

theorem witness_DoorbellChecks :
  (∃ (s : State), ∃ off, ∃ v, ∃ r, ∃ i, ∃ subs, s.flt.c4 = [] ∧ s.power ≠ 3 ∧ off % 8 = 0 ∧ v < 2 ^ 64 ∧ r = bitsOf v 0 18 ∧
    i = bitsOf v 18 32 ∧ subs = (if pageOfRing r = 0 then [] else [s.pageSub (pageOfRing r)]) ∧ (pageOfRing r ≠ off / 4096 ∨
    ((s.ring r).isSome = true ∧ s.pageValid (off / 4096) = false))) ∧
  (∃ (s : State), ∃ off, ∃ v, ∃ r, ∃ i, ∃ subs, s.flt.c4 = [] ∧ s.power ≠ 3 ∧ off % 8 = 0 ∧ v < 2 ^ 64 ∧ r = bitsOf v 0 18 ∧
    i = bitsOf v 18 32 ∧ subs = (if pageOfRing r = 0 then [] else [s.pageSub (pageOfRing r)]) ∧ pageOfRing r = off / 4096 ∧
    s.ring r = none) ∧
  (∃ (s : State), ∃ off, ∃ v, ∃ r, ∃ i, ∃ subs, ∃ x, s.flt.c4 = [] ∧ s.power ≠ 3 ∧ off % 8 = 0 ∧ v < 2 ^ 64 ∧
    r = bitsOf v 0 18 ∧ i = bitsOf v 18 32 ∧ subs = (if pageOfRing r = 0 then [] else [s.pageSub (pageOfRing r)]) ∧
    pageOfRing r = off / 4096 ∧ s.ring r = some x ∧ s.pageValid (off / 4096) = true ∧
    toSigned 32 (ofSigned 32 ((i : Int) - (if x.kind = 0 then x.prod else x.cons))) < 0) ∧
  (∃ (s : State), ∃ off, ∃ v, ∃ r, ∃ i, ∃ subs, ∃ x, s.flt.c4 = [] ∧ s.power ≠ 3 ∧ off % 8 = 0 ∧ v < 2 ^ 64 ∧
    r = bitsOf v 0 18 ∧ i = bitsOf v 18 32 ∧ subs = (if pageOfRing r = 0 then [] else [s.pageSub (pageOfRing r)]) ∧
    pageOfRing r = off / 4096 ∧ s.ring r = some x ∧ s.pageValid (off / 4096) = true ∧
    0 ≤ toSigned 32 (ofSigned 32 ((i : Int) - (if x.kind = 0 then x.prod else x.cons))) ∧
    x.size < (if x.kind = 0 then ofSigned 32 ((i : Int) - x.cons) else ofSigned 32 ((x.prod : Int) - i))) :=
  ⟨⟨ring0 0, 4096, 0, _, _, _, by decide +kernel, by decide +kernel, by decide +kernel, by decide +kernel, rfl, rfl, rfl,
    by decide +kernel⟩,
   ⟨ring0 0, 0, 5, _, _, _, by decide +kernel, by decide +kernel, by decide +kernel, by decide +kernel, rfl, rfl, rfl,
     by decide +kernel, by decide +kernel⟩,
   ⟨(ring0 0).setRing 5 (some { Ring.fresh 0 4 4096 with prod := 5 }), 0, 5 + 2 ^ 18 * 4, _, _, _,
     { Ring.fresh 0 4 4096 with prod := 5 }, by decide +kernel, by decide +kernel, by decide +kernel, by decide +kernel, rfl,
     rfl, rfl, by decide +kernel, by decide +kernel, by decide +kernel, by decide +kernel⟩,
   ⟨(ring0 0).setRing 5 (some (Ring.fresh 0 4 4096)), 0, 5 + 2 ^ 18 * 17, _, _, _, Ring.fresh 0 4 4096, by decide +kernel,
     by decide +kernel, by decide +kernel, by decide +kernel, rfl, rfl, rfl, by decide +kernel, by decide +kernel,
     by decide +kernel, by decide +kernel, by decide +kernel⟩⟩

theorem witness_GoverningImage :
  ∃ (s : State), ∃ (n : Int), ∃ l, ∃ im, ∃ r, s.scr.images = l ++ im :: r ∧ ((im.whole = true ∨ im.first ≤ n)) ∧ ((∀ j ∈ r,
    j.whole = false ∧ n < j.first)) :=
  ⟨({ State.reset with scr.images := [img [], { img [] with whole := false, first := 5 }] } : State), 5, [img []],
    { img [] with whole := false, first := 5 }, [], by decide +kernel, by decide +kernel, by decide +kernel⟩

theorem witness_HouseSixCounts :
  (∃ (s : State), s.epoch = true ∧ s.clk.acc < s.num ∧ 4 * s.den ≤ s.num ∧ s.clk.six < 2 ^ 64 ∧ ((∀ im ∈ s.ahead,
    1 < s.cyclesTo (im.startSix im.first)))) ∧
  (∃ (s : State), ∃ im, s.epoch = true ∧ s.scr.images = [im] ∧ im.whole = true ∧ s.clk.acc < im.val Scr.TIM_DT_NUM ∧
    s.clk.six < 2 ^ 64) :=
  ⟨⟨run [], by decide +kernel, by decide +kernel, by decide +kernel, by decide +kernel, by decide +kernel⟩,
   ⟨run [], img [], by decide +kernel, by decide +kernel, by decide +kernel, by decide +kernel, by decide +kernel⟩⟩

theorem witness_EpochStartsAndClears :
  (∃ (s : State), ∃ (num : Nat), ∃ (den : Nat), ∃ (x : Int), s.flt.c4 = [] ∧ s.epoch = false ∧
    ((s.flag TIM_STATUS.TAI_VALID = true ∨ s.flag TIM_CTRL.FREE_EPOCH = true)) ∧ num = s.newest.val Scr.TIM_DT_NUM ∧
    den = s.newest.val Scr.TIM_DT_DEN ∧ 0 < num ∧ x = ((s.taiNow : Int) - taiTicks (s.newest.val Scr.TIM_TAI0)) * den / 65536) ∧
  (∃ (s : State), s.flt.c4 = [] ∧ (s.epoch = true ∨ (s.flag TIM_STATUS.TAI_VALID = false ∧
    s.flag TIM_CTRL.FREE_EPOCH = false))) ∧
  (∃ (s : State), s.flt.c4 = [] ∧ ((s.getF PWR_STATUS.STATE = 1 ∨ s.getF PWR_STATUS.STATE = 2))) ∧
  (∃ (s : State), s.flt.c4 = [] ∧ s.getF PWR_STATUS.STATE ≠ 1 ∧ s.getF PWR_STATUS.STATE ≠ 2) :=
  ⟨⟨State.reset.setF TIM_CTRL.FREE_EPOCH 1, _, _, _, by decide +kernel, by decide +kernel, by decide +kernel, rfl, rfl,
    by decide +kernel, rfl⟩,
   ⟨State.reset, by decide +kernel, by decide +kernel⟩,
   ⟨State.reset.setF PWR_STATUS.STATE 2, by decide +kernel, by decide +kernel⟩,
   ⟨show_, by decide +kernel, by decide +kernel, by decide +kernel⟩⟩

theorem witness_CueFire :
  (∃ (s : State), ∃ (c : Fin 64), ∃ (way : Nat), ∃ (more : Bool → List Edge), ∃ (i : Instr), s.flt.c4 = [] ∧
    way = (if (s.sv Scr.CUE_UNCLK).testBit c.val then 0 else 1) ∧ ((∀ lev,
    more lev = match s.lastEdge c.val with | some e => if s.clk.cycles + way ≤ e.due then s.cue.edges.erase e else s.cue.edges ++ [⟨c.val,
    lev, none, s.clk.cycles + way, s.clk.cycles, 0, s.clk.cycles⟩] | none => s.cue.edges ++ [⟨c.val, lev, none,
    s.clk.cycles + way, s.clk.cycles, 0, s.clk.cycles⟩])) ∧ s.bit CUE_CHDIS.MAP c.val = true ∧ i ∈ [Instr.cueFirePulse c,
    Instr.cueFireSet c, Instr.cueFireClear c]) ∧
  (∃ (s : State), ∃ (c : Fin 64), ∃ (way : Nat), ∃ (more : Bool → List Edge), s.flt.c4 = [] ∧
    way = (if (s.sv Scr.CUE_UNCLK).testBit c.val then 0 else 1) ∧ ((∀ lev,
    more lev = match s.lastEdge c.val with | some e => if s.clk.cycles + way ≤ e.due then s.cue.edges.erase e else s.cue.edges ++ [⟨c.val,
    lev, none, s.clk.cycles + way, s.clk.cycles, 0, s.clk.cycles⟩] | none => s.cue.edges ++ [⟨c.val, lev, none,
    s.clk.cycles + way, s.clk.cycles, 0, s.clk.cycles⟩])) ∧ s.bit CUE_CHDIS.MAP c.val = false ∧ s.levelOf c.val = false ∧
    s.schedLevel c.val = false ∧ ((∀ e, s.lastEdge c.val = some e → e.due < s.clk.cycles + way))) ∧
  (∃ (s : State), ∃ (c : Fin 64), ∃ (way : Nat), ∃ (more : Bool → List Edge), s.flt.c4 = [] ∧
    way = (if (s.sv Scr.CUE_UNCLK).testBit c.val then 0 else 1) ∧ ((∀ lev,
    more lev = match s.lastEdge c.val with | some e => if s.clk.cycles + way ≤ e.due then s.cue.edges.erase e else s.cue.edges ++ [⟨c.val,
    lev, none, s.clk.cycles + way, s.clk.cycles, 0, s.clk.cycles⟩] | none => s.cue.edges ++ [⟨c.val, lev, none,
    s.clk.cycles + way, s.clk.cycles, 0, s.clk.cycles⟩])) ∧ s.bit CUE_CHDIS.MAP c.val = false ∧ s.levelOf c.val = true) :=
  ⟨⟨State.reset.setF CUE_CHDIS.MAP (2 ^ 63), 63, _, _, .cueFirePulse 63, by decide +kernel, rfl, fun _ => rfl,
    by decide +kernel, by decide +kernel⟩,
   ⟨State.reset, 63, _, _, by decide +kernel, rfl, fun _ => rfl, by decide +kernel, by decide +kernel, by decide +kernel,
     fun e h => nomatch (show (none : Option Edge) = some e from h)⟩,
   ⟨({ State.reset with cue.swLevel := 2 ^ 63 } : State), 63, _, _, by decide +kernel, rfl, fun _ => rfl, by decide +kernel,
     by decide +kernel⟩⟩

theorem witness_FirstFaultLatch :
  (∃ (s : State), ∃ src, ∃ cls, ∃ reason, ∃ six, src < 1024 ∧ cls ≤ 4 ∧ reason < 65536 ∧ six < 2 ^ 64 ∧
    s.getF FLT_CTRL.FFL_MIN ≤ cls ∧ s.flag FLT_FFL0.VALID = false) ∧
  (∃ (s : State), ∃ src, ∃ cls, ∃ reason, ∃ six, src < 1024 ∧ cls ≤ 4 ∧ reason < 65536 ∧ six < 2 ^ 64 ∧
    s.getF FLT_CTRL.FFL_MIN ≤ cls ∧ s.flag FLT_FFL0.VALID = true) ∧
  (∃ (s : State), ∃ src, ∃ cls, ∃ reason, ∃ six, src < 1024 ∧ cls ≤ 4 ∧ reason < 65536 ∧ six < 2 ^ 64 ∧
    cls < s.getF FLT_CTRL.FFL_MIN) ∧
  (∃ (s : State), ∃ src, ∃ cls, ∃ reason, ∃ six, src < 1024 ∧ cls ≤ 4 ∧ reason < 65536 ∧ six < 2 ^ 64 ∧ s.flt.c4 = []) :=
  ⟨⟨State.reset, 1023, 4, 65535, 2 ^ 64 - 1, by decide +kernel, by decide +kernel, by decide +kernel, by decide +kernel,
    by decide +kernel, by decide +kernel⟩,
   ⟨State.reset.setF FLT_FFL0.VALID 1, 1023, 4, 65535, 2 ^ 64 - 1, by decide +kernel, by decide +kernel, by decide +kernel,
     by decide +kernel, by decide +kernel, by decide +kernel⟩,
   ⟨State.reset.setF FLT_CTRL.FFL_MIN 4, 1023, 3, 65535, 2 ^ 64 - 1, by decide +kernel, by decide +kernel, by decide +kernel,
     by decide +kernel, by decide +kernel⟩,
   ⟨State.reset, 1023, 4, 65535, 2 ^ 64 - 1, by decide +kernel, by decide +kernel, by decide +kernel, by decide +kernel,
     by decide +kernel⟩⟩

theorem witness_OutOfServiceNoFault :
  (∃ (s : State), s.inService = false ∧ s.flt.c4 = []) ∧
  (∃ (s : State), s.inService = false ∧ s.flt.c4 = []) ∧
  (∃ (s : State), s.inService = false ∧ s.flt.c4 = []) :=
  ⟨⟨State.reset, by decide +kernel, by decide +kernel⟩,
   ⟨State.reset, by decide +kernel, by decide +kernel⟩,
   ⟨State.reset, by decide +kernel, by decide +kernel⟩⟩

theorem witness_Class4SendsToIron :
  ∃ (s : State), ∃ (i : Instr), s.inService = true ∧ s.iron = false ∧ s.se Scr.FLT_PROMOTE 0 ≤ 4 ∧ i ∈ [Instr.ironReq,
    Instr.paritySweep true] :=
  ⟨State.reset.setF FLT_STATUS.SERVICE 1, .ironReq, by decide +kernel, by decide +kernel, by decide +kernel, by decide +kernel⟩

theorem witness_IronExitRefused :
  ∃ (s : State), ∃ (ok : Bool), s.iron = true ∧ s.flt.c4 = [] ∧ ((s.c4Error = true ∨
    (s.sv Scr.PWR_RESUME : Int) ≤ s.getS PWR_STATUS.THETA ∨ ok = false)) :=
  ⟨State.reset.setF FLT_STATUS.IRON 1, false, by decide +kernel, by decide +kernel, by decide +kernel⟩

theorem witness_ClaimOrder :
  (∃ m, m ≤ 1) ∧
  (∃ (x : Claim), x.2 = 0) ∧
  (∃ (x : Claim), ∃ (y : Claim), x.2 ≠ 0 ∧ y.2 = 0) ∧
  (∃ (x : Claim), ∃ (y : Claim), ∃ (d : Int), x.1 < 65536 ∧ y.1 < 65536 ∧ x.2 ≠ 0 ∧ y.2 ≠ 0 ∧
    d = toSigned 16 (ofSigned 16 ((x.1 : Int) - y.1))) ∧
  (∃ (x : Claim), ∃ (y : Claim), x.1 < 65536 ∧ y.1 < 65536 ∧ x.2 ≠ 0 ∧ y.2 ≠ 0 ∧ x.2 ≠ y.2) ∧
  (∃ (im : Image), im.paired = false) ∧
  (∃ (s : State), s.duo.joinAt.isSome = true ∧ s.paired = false ∧ s.iron = false ∧ s.flag DUO_STATUS.WITHDRAWN = false) :=
  ⟨⟨1, by decide +kernel⟩,
   ⟨(65535, 0), by decide +kernel⟩,
   ⟨(0, 9), (65535, 0), by decide +kernel, by decide +kernel⟩,
   ⟨(32768, 9), (0, 11), _, by decide +kernel, by decide +kernel, by decide +kernel, by decide +kernel, rfl⟩,
   ⟨(32768, 9), (0, 11), by decide +kernel, by decide +kernel, by decide +kernel, by decide +kernel, by decide +kernel⟩,
   ⟨img [], by decide +kernel⟩,
   ⟨({ State.reset with duo.joinAt := some 0 } : State), by decide +kernel, by decide +kernel, by decide +kernel,
     by decide +kernel⟩⟩

theorem witness_AluLands :
  ∃ (s : State), ∃ (c : Fin 128), ∃ (q : Ctx), ∃ (i : Instr), ∃ (f : Nat → Int), s.flt.c4 = [] ∧ s.pitReady c.val = true ∧
    q = s.ctx c.val ∧ mOp q.w = 0 ∧ q.x.atReturn = false ∧ q.x.flights = [] ∧ q.x.redirects = [] ∧ q.x.rtiLeft = none ∧
    q.x.flagsOr = 0 ∧ (((i = .add c ∧ wOp q.w = 0x10 ∧ f = fun l => q.a l + q.b l) ∨ (i = .sub c ∧ wOp q.w = 0x11 ∧
    f = fun l => q.a l - q.b l) ∨ (i = .pitAnd c ∧ wOp q.w = 0x12 ∧
    f = fun l => ((half (q.a l) &&& half (q.b l) : Nat) : Int)) ∨ (i = .pitOr c ∧ wOp q.w = 0x13 ∧
    f = fun l => ((half (q.a l) ||| half (q.b l) : Nat) : Int)) ∨ (i = .pitXor c ∧ wOp q.w = 0x14 ∧
    f = fun l => ((half (q.a l) ^^^ half (q.b l) : Nat) : Int)) ∨ (i = .pitMin c ∧ wOp q.w = 0x15 ∧
    f = fun l => min (toSigned 16 (half (q.a l))) (toSigned 16 (half (q.b l)))) ∨ (i = .pitMax c ∧ wOp q.w = 0x16 ∧
    f = fun l => max (toSigned 16 (half (q.a l))) (toSigned 16 (half (q.b l)))) ∨ (i = .sel c ∧ wOp q.w = 0x17 ∧
    f = fun l => if q.flagOf l (rFlag q.w) then q.a l else q.b l) ∨ (i = .cnt c ∧ wOp q.w = 0x18 ∧
    f = fun l => q.a l + (if q.flagOf l (rFlag q.w) then 1 else 0)) ∨ (i = .pack c ∧ wOp q.w = 0x1A ∧
    f = fun l => 256 * (q.b l % 256) + q.a l % 256) ∨ (i = .addi c ∧ wOp q.w = 0x20 ∧ f = fun l => (q.ia l : Int) + iImm q.w) ∨
    (i = .shli c ∧ wOp q.w = 0x22 ∧ f = fun l => (q.ia l : Int) * 2 ^ (iImm q.w % 16)) ∨ (i = .shrai c ∧ wOp q.w = 0x23 ∧
    f = fun l => toSigned 16 (q.ia l) / 2 ^ (iImm q.w % 16)) ∨ (i = .mvi c ∧ wOp q.w = 0x24 ∧
    f = fun _ => (iImm q.w : Int)))) :=
  ⟨pit 0x10 0 Cluster.idle, 127, _, .add 127, _, by decide +kernel, by decide +kernel, rfl, by decide +kernel,
    by decide +kernel, by decide +kernel, by decide +kernel, by decide +kernel, by decide +kernel, .inl ⟨rfl, by decide +kernel,
    rfl⟩⟩

theorem witness_IllegalWords :
  ∃ (s : State), ∃ (c : Fin 128), ∃ (q : Ctx), s.flt.c4 = [] ∧ s.pitReady c.val = true ∧ q = s.ctx c.val ∧
    opDefined (wOp q.w) = false ∧ mOp q.w = 0 ∧ q.x.atReturn = false ∧ q.x.flights = [] ∧ q.x.redirects = [] ∧
    q.x.rtiLeft = none ∧ q.x.sticky = [] ∧ s.getF (PIT_C_FLAGS.BITS c.val) < 64 ∧ s.promoted (s.pitSrc c.val) 1 < 4 :=
  ⟨pit 0x3F 0 Cluster.idle, 127, _, by decide +kernel, by decide +kernel, rfl, by decide +kernel, by decide +kernel,
    by decide +kernel, by decide +kernel, by decide +kernel, by decide +kernel, by decide +kernel, by decide +kernel,
    by decide +kernel⟩

theorem witness_Reductions :
  (∃ (v : Int), (accFit v).2 = false) ∧
  (∃ w, ∃ m, 1 ≤ w ∧ (m = 1 ∨ m = 2)) :=
  ⟨⟨2 ^ 39 - 1, by decide +kernel⟩,
   ⟨1, 2, by decide +kernel, by decide +kernel⟩⟩

theorem witness_CircularPointers :
  (∃ p, ∃ b, ∃ l, ∃ (m : Int), p < 1024 ∧ b < 1024 ∧ 0 < l ∧ l ≤ 1024 ∧ (circ p b l m).2 = true) ∧
  (∃ p, ∃ b, ∃ l, ∃ (m : Int), p < 1024 ∧ b < 1024 ∧ 0 < l ∧ l ≤ 1024 ∧ (p + 1024 - b) % 1024 < l ∧ -(l : Int) ≤ m ∧ m ≤ l) ∧
  (∃ p, ∃ b, ∃ l, p < 1024 ∧ b < 1024 ∧ 0 < l ∧ l ≤ 1024 ∧ (p + 1024 - b) % 1024 < l) ∧
  (∃ p, ∃ b, ∃ l, p < 1024 ∧ b < 1024 ∧ 0 < l ∧ l ≤ 1024 ∧ (circWrite p b l).2 = true) :=
  ⟨⟨1023, 0, 1, 5, by decide +kernel, by decide +kernel, by decide +kernel, by decide +kernel, by decide +kernel⟩,
   ⟨1023, 1023, 1024, -1024, by decide +kernel, by decide +kernel, by decide +kernel, by decide +kernel, by decide +kernel,
     by decide +kernel, by decide +kernel⟩,
   ⟨1023, 1023, 1, by decide +kernel, by decide +kernel, by decide +kernel, by decide +kernel, by decide +kernel⟩,
   ⟨1023, 0, 1, by decide +kernel, by decide +kernel, by decide +kernel, by decide +kernel, by decide +kernel⟩⟩

theorem witness_StoreWriteReads :
  ∃ (s : State), ∃ (p : Fin 10), ∃ a, s.flt.c4 = [] ∧ a < storeBytes ∧ s.storeOn = true ∧ a % 64 = 0 ∧ a < s.capBytes ∧
    (if p.val = 6 then s.hostMayWrite a else s.portMayWrite p.val a) = true ∧ (s.pch (pcOf a)).queue = [] ∧
    (s.pch (pcOf a)).held = [] ∧ (s.pch (pcOf a)).relocating = false ∧ s.openLine a = none :=
  ⟨({ (show_.setF CTL_CAP1.STO_CAP 12288) with scr.images := [img region] } : State), 6, 2 ^ 30, by decide +kernel,
    by decide +kernel, by decide +kernel, by decide +kernel, by decide +kernel, by decide +kernel, by decide +kernel,
    by decide +kernel, by decide +kernel, by decide +kernel⟩

theorem witness_DeniedAccesses :
  (∃ (s : State), ∃ a, ∃ (d : BitVec 512), ∃ (b : BitVec 64), ∃ (es : List Nat), ∃ (i : Instr), s.flt.c4 = [] ∧
    s.hostMayWrite a = false ∧ (((a < hdmSize ∧ s.memOn = true ∧ i = .hdmWrite a d b es) ∨ (a < storeBytes ∧ s.storeOn = true ∧
    ∃ w, i = .storeWrite 6 a d b es w)))) ∧
  (∃ (s : State), ∃ a, ∃ (p : Fin 10), s.flt.c4 = [] ∧ a < storeBytes ∧ s.storeOn = true ∧ p.val ≠ 1 ∧ p.val ≠ 6 ∧
    (s.capBytes ≤ a ∨ s.portMayWrite p.val a = false)) ∧
  (∃ (s : State), ∃ a, ∃ (p : Fin 10), ∃ (i : Instr), s.flt.c4 = [] ∧ a < storeBytes ∧ s.storeOn = true ∧
    s.promoted (pcSrc (pcOf a)) 1 < 4 ∧ ((∃ f m d es, i = .atomicAdd p a f m d es ∧ (s.capBytes ≤ a ∨ s.addAllowed a = false)) ∨
    (p.val = 1 ∧ (s.capBytes ≤ a ∨ s.portMayWrite 1 a = false) ∧ ∃ d b es w, i = .storeWrite p a d b es w))) :=
  ⟨⟨({ (show_.setF CTL_CAP1.STO_CAP 12288) with scr.images := [img region] } : State).setF HST_STATUS.MEM_ON 1, 0, 0, 0, [],
    .hdmWrite 0 0 0 [], by decide +kernel, by decide +kernel, .inl ⟨by decide, by decide +kernel, rfl⟩⟩,
   ⟨({ (show_.setF CTL_CAP1.STO_CAP 12288) with scr.images := [img region] } : State), 0, 7, by decide +kernel,
     by decide +kernel, by decide +kernel, by decide +kernel, by decide +kernel, by decide +kernel⟩,
   ⟨({ (show_.setF CTL_CAP1.STO_CAP 12288) with scr.images := [img region] } : State), 0, 1, .storeWrite 1 0 0 0 [] 0,
     by decide +kernel, by decide +kernel, by decide +kernel, by decide +kernel, .inr ⟨rfl, .inr (by decide +kernel), 0, 0, [],
     0, rfl⟩⟩⟩

theorem witness_HdmReads :
  (∃ (s : State), ∃ a, s.flt.c4 = [] ∧ a < windowBase ∧ s.memOn = true ∧ s.host.viral = false ∧ (s.pch (pcOf a)).queue = [] ∧
    (s.pch (pcOf a)).held = [] ∧ (s.pch (pcOf a)).relocating = false ∧ a < s.capBytes ∧ 0x2400000 ≤ a ∧ s.staleLine a = false) ∧
  (∃ (s : State), ∃ a, s.flt.c4 = [] ∧ a < windowBase ∧ s.memOn = true ∧ s.host.viral = false ∧ (s.pch (pcOf a)).queue = [] ∧
    (s.pch (pcOf a)).held = [] ∧ (s.pch (pcOf a)).relocating = false ∧ s.capBytes ≤ a) :=
  ⟨⟨({ (show_.setF CTL_CAP1.STO_CAP 12288) with scr.images := [img region] } : State).setF HST_STATUS.MEM_ON 1, 2 ^ 30,
    by decide +kernel, by decide +kernel, by decide +kernel, by decide +kernel, by decide +kernel, by decide +kernel,
    by decide +kernel, by decide +kernel, by decide +kernel, by decide +kernel⟩,
   ⟨(State.reset.setF HST_STATUS.MEM_ON 1).setF CTL_CAP1.STO_CAP 12287, windowBase - 64, by decide +kernel, by decide +kernel,
     by decide +kernel, by decide +kernel, by decide +kernel, by decide +kernel, by decide +kernel, by decide +kernel⟩⟩

theorem witness_AtomicAdd :
  (∃ (s : State), ∃ a, ∃ (f : Fin 3), ∃ (m : BitVec 16), ∃ (d : BitVec 512), s.flt.c4 = [] ∧ a < storeBytes ∧ s.storeOn = true ∧
    a % 64 = 0 ∧ a < s.capBytes ∧ s.addAllowed a = true ∧ s.openLine a = none ∧ (s.pch (pcOf a)).queue = [] ∧
    (s.pch (pcOf a)).held = [] ∧ (s.pch (pcOf a)).relocating = false ∧ ((∀ i, i < 8 → s.poisoned (a / 8 + i) = false)) ∧
    ((∀ l ∈ lanesOf f.val, m.toNat.testBit l.bit = true → (l.sum (Memory.readNat s.mem a 64) d.toNat).2 = false))) ∧
  (∃ (l : LaneSlot), 1 ≤ l.w) :=
  ⟨⟨({ (show_.setF CTL_CAP1.STO_CAP 12288) with scr.images := [img region] } : State), 2 ^ 30, 0, 0xFFFF, 1, by decide +kernel,
    by decide +kernel, by decide +kernel, by decide +kernel, by decide +kernel, by decide +kernel, by decide +kernel,
    by decide +kernel, by decide +kernel, by decide +kernel, by decide +kernel, by decide +kernel⟩,
   ⟨⟨0, 0, 1, 0⟩, by decide +kernel⟩⟩

theorem witness_IntegrationNumbers :
  ∃ (s : State), ∃ (k : Int), ∃ (i : Int), ∃ (L : Nat), s.prd.anchors = [(k, i, L)] ∧ 1 ≤ L :=
  ⟨State.reset, 0, 0, 1, by decide +kernel, by decide +kernel⟩

theorem witness_PaceTimeoutHalts :
  (∃ (s : State), ∃ (m : Fin 64), ∃ (us : Nat), s.flt.c4 = [] ∧ s.iron = false ∧ s.flag (MOV_M_STATE.PACE_WAIT m.val) = true ∧
    us = (s.movImage m.val).el Scr.MOV_PACE_TO (m.val - 32) % 2 ^ 32 ∧ us ≠ 0 ∧ (s.mover m.val).stopRings = [] ∧
    ((s.movAddr m.val / 2 ^ 62 = 1 ∨ ∀ n, (s.pch n).relocating = false)) ∧ ((∀ k,
    (s.lapse (.pace m.val) (250 * us)).promoted k 1 < 4))) ∧
  (∃ (s : State), ∃ (m : Fin 64), ∃ (us : Nat), s.flt.c4 = [] ∧ s.iron = false ∧ s.flag (MOV_M_STATE.PACE_WAIT m.val) = true ∧
    us = (s.movImage m.val).el Scr.MOV_PACE_TO (m.val - 32) % 2 ^ 32 ∧ us = 0) :=
  ⟨⟨((run [(0x0605, 2 ^ (64 * 27))]).setF (MOV_M_STATE.PACE_WAIT 59) 1).setF (MOV_M_DESC.ADDR 59) (2 ^ 62), 59, 1,
    by decide +kernel, by decide +kernel, by decide +kernel, by decide +kernel, by decide +kernel, by decide +kernel,
    .inl (by decide +kernel), by intro k; unfold State.promoted; rw [if_neg (by decide), if_neg (by decide +kernel)]; decide⟩,
   ⟨((run []).setF (MOV_M_STATE.PACE_WAIT 59) 1).setF (MOV_M_DESC.ADDR 59) (2 ^ 62), 59, 0, by decide +kernel,
     by decide +kernel, by decide +kernel, by decide +kernel, by decide +kernel⟩⟩

theorem witness_TallyExact :
  ∃ (w : Nat), ∃ (c : CellSlot), ∃ (d : CellSlot), ∃ (h : Int × Int), ∃ (v : Nat), ∃ (l : List ((Int × Int) × Nat)), 1 ≤ w ∧
    ((∀ p ∈ (h, v) :: l, |p.1.1| < 2 ^ (w - 1) ∧ |p.1.2| < 2 ^ (w - 1))) ∧
    d = l.foldl (fun c p => c.step w false p.1 p.2) (c.step w true h v) ∧ d.tre ≠ 4 ∧ d.tim ≠ 4 :=
  ⟨3, ⟨0, 0, 0, 0, 0⟩, _, (3, -3), 1, [((3, -3), 1)], by decide +kernel, by decide +kernel, rfl, by decide +kernel,
    by decide +kernel⟩

theorem witness_CreditUnitSent :
  ∃ (s : State), ∃ (p : Fin 8), s.flt.c4 = [] ∧ s.fabUp p.val = true ∧ s.getF (FAB_P_STATUS.DROP_REQ p.val) < 16 :=
  ⟨fab7 [], 7, by decide +kernel, by decide +kernel, by decide +kernel⟩

theorem witness_ControlPlaneRights :
  (∃ (s : State), ∃ (m : Master), s.flt.c4 = [] ∧ (m = Master.bootEngine ∨ (∃ k, m = Master.core k))) ∧
  (∃ (s : State), ∃ (t : State), ∃ (r : Fin 262144), s.flt.c4 = [] ∧ exec (.rollbackAnchor r) s = .next t) :=
  ⟨⟨State.reset, .core 3, by decide +kernel, by decide +kernel⟩,
   ⟨({ ring0 (desc 0x42 (2 ^ 64 * 63)) with ctl.jFloor := 64512, ctl.fuseCount := 62 } : State),
     nextOf (exec (.rollbackAnchor 0) ({ ring0 (desc 0x42 (2 ^ 64 * 63)) with ctl.jFloor := 64512, ctl.fuseCount := 62 } : State)),
     0, by decide +kernel, next_of (by decide +kernel)⟩⟩

theorem witness_PitBlockReset :
  (∃ (s : State), s.flt.c4 = [] ∧ s.power ≠ 3 ∧ ((∀ e ∈ s.clu, ∀ x, e.2 = some x → x.coefRings = [] ∧ x.flipRing = none ∧
    x.readRings = []))) ∧
  (∃ (s : State), ∃ (i : Instr), s.flt.c4 = [] ∧ s.power = 3 ∧ i ∈ [Instr.pitBlockReset, Instr.movBlockReset,
    Instr.stgBlockReset, Instr.cueBlockReset, Instr.hstBlockReset]) :=
  ⟨⟨({ show_ with clu := [(127, some Cluster.idle)] } : State), by decide +kernel, by decide +kernel, by decide +kernel⟩,
   ⟨State.reset.setF PWR_STATUS.STATE 3, .cueBlockReset, by decide +kernel, by decide +kernel, by decide +kernel⟩⟩

/-- Core 0 running, an attestation object with the given body outstanding. -/
def doeWith (b : List Byte) : State := { State.reset.setF CTL_CORES.STATE 2 with host.doeIn := [⟨.attestation, b⟩] }

/-- DEBUG_UNLOCK completes for every token whose check succeeds (whether one does is left to ML-DSA, log 10). -/
theorem witness_MailboxComplete_signed (b : List Byte) (h4 : leNat (b.take 1) = 4)
    (hv : (doeWith b).verify 5 (doeWith b).debugKey (b.drop 4) = 0) :
    ∃ (s : State), ∃ o rest, s.power ≠ 3 ∧ s.host.doeIn = o :: rest ∧ s.coreRuns = true ∧ o.protocol = .attestation ∧
      leNat (o.body.take 1) = 4 ∧ s.verify 5 s.debugKey (o.body.drop 4) = 0 :=
  ⟨doeWith b, ⟨.attestation, b⟩, [], (by decide +kernel : (doeWith []).power ≠ 3), rfl,
    (by decide +kernel : (doeWith []).coreRuns = true), rfl, h4, hv⟩

/-- Ring 0 with a descriptor whose record lies in host memory. -/
def signedCmd (op : Nat) : Nat × Nat := (op, 2 ^ 64 * 2 ^ 62 + 2 ^ 128 * 8192)

/-- FW_UPDATE completes for every image whose check succeeds and whose MIN_PEER the part meets. -/
theorem witness_ControlPlaneComplete_signedImage (b : List Byte)
    (hv : (ring0 (desc 0x40 (signedCmd 0x40).2)).verify 1 (ring0 (desc 0x40 (signedCmd 0x40).2)).rootKey (b.take 8192) = 0)
    (hp : manMinPeer (b.take 8192) ≤ (ring0 (desc 0x40 (signedCmd 0x40).2)).getF CTL_CAP3.FW_VERSION) :
    ∃ (s : State), ∃ (r : Fin 262144), ∃ e u m, s.serves r.val 0x40 e ∧ s.imageAt (e.arg 64 64) (e.arg 128 32) b = (u, m) ∧
      u.verify 1 u.rootKey m = 0 ∧ manMinPeer m ≤ u.getF CTL_CAP3.FW_VERSION ∧ u.ctl.update = none :=
  ⟨ring0 (desc 0x40 (signedCmd 0x40).2), 0, cmd 0x40 (signedCmd 0x40).2, ring0 (desc 0x40 (signedCmd 0x40).2), b.take 8192,
    by unfold State.serves; and_intros <;> decide +kernel,
    by
      have h1 : (cmd 0x40 (signedCmd 0x40).2).arg 64 64 = 2 ^ 62 := by decide +kernel
      have h2 : (cmd 0x40 (signedCmd 0x40).2).arg 128 32 = 8192 := by decide +kernel
      rw [h1, h2]; rfl, hv, hp, by decide +kernel⟩

/-- KEY_REVOKE completes for every record whose check succeeds and that names a slot other than the one that signed it and not the last. -/
theorem witness_ControlPlaneComplete_signedRecord (b : List Byte) (slot : Nat) (s : State)
    (hs : s = ring0 (desc 0x41 (signedCmd 0x41).2)) (hv : s.verify 4 s.rootKey b = 0) (hp : manPayload b ≠ [])
    (hn : slot = leNat ((manPayload b).take 1)) (h4 : slot < 4) (ho : slot ≠ ((s.usedNonce 0).rootSlot (manKeyHash b)).getD 0)
    (hl : ((s.usedNonce 0).ctl.fuseRevoked ||| 2 ^ slot) % 16 ≠ 15) :
    ∃ (r : Fin 262144), ∃ e u m, s.serves r.val 0x41 e ∧ s.recordAt (e.arg 64 64) b = (u, m) ∧ u.verify 4 u.rootKey m = 0 ∧
      manPayload m ≠ [] ∧ slot = leNat ((manPayload m).take 1) ∧ slot < 4 ∧
      slot ≠ ((u.usedNonce 0).rootSlot (manKeyHash m)).getD 0 ∧ ((u.usedNonce 0).ctl.fuseRevoked ||| 2 ^ slot) % 16 ≠ 15 :=
  ⟨0, cmd 0x41 (signedCmd 0x41).2, s, b, by subst hs; unfold State.serves; and_intros <;> decide +kernel,
    by
      have h1 : (cmd 0x41 (signedCmd 0x41).2).arg 64 64 = 2 ^ 62 := by decide +kernel
      rw [h1]; rfl, hv, hp, hn, h4, ho, hl⟩

/-- OWNER_SET completes in HOLD for every first record that its own key signs. -/
theorem witness_ControlPlaneComplete_signedOwner (b : List Byte) (s : State)
    (hs : s = { (ring0 (desc 0x43 (signedCmd 0x43).2)).setF PWR_STATUS.STATE 1 with ctl.jOwner := 0 })
    (hv : s.verify 3 (fun h => h == leNat ((manPayload b).take 32)) b = 0) (hp : 33 ≤ (manPayload b).length) :
    ∃ (r : Fin 262144), ∃ e u m hash, s.serves r.val 0x43 e ∧ (s.ctl.jOwner = 0 → s.power = 1) ∧
      s.ctl.jpend.any (fun w => match w with | .owner _ _ q => q == r.val | _ => false) = false ∧
      s.recordAt (e.arg 64 64) b = (u, m) ∧ hash = leNat ((manPayload m).take 32) ∧
      u.verify 3 (fun h => if s.ctl.jOwner = 0 then h == hash else h == u.ctl.jOwner) m = 0 ∧ 33 ≤ (manPayload m).length :=
  ⟨0, cmd 0x43 (signedCmd 0x43).2, s, b, _, by subst hs; unfold State.serves; and_intros <;> decide +kernel,
    by subst hs; decide +kernel, by subst hs; decide +kernel,
    by
      have h1 : (cmd 0x43 (signedCmd 0x43).2).arg 64 64 = 2 ^ 62 := by decide +kernel
      rw [h1]; rfl, rfl,
    by
      have hj : s.ctl.jOwner = 0 := by subst hs; rfl
      simpa only [hj, if_true] using hv, hp⟩

end Sys2Proof.Machine.T
end

section
/-!
PROOFS. The host's accesses of the scope chapter: the accesses of the BARs, the doorbells, HDM and the snoops complete (R6, R27 to
R40), and a read of a counter keeps the event of its cycle (R8).
-/

namespace Sys2Proof.Machine

/-! ## Commands that are carried out -/

/-- A meaning whose condition holds answers the settled state of its effect. -/
theorem done_whenever (s : State) (b : Bool) (f : State → State) (h : b = true) : done (s.whenever b f) = .next (f s).settle := by
  rw [State.whenever_pos s b f h, done]

/-- The test of DARK that the meanings make (R385). -/
theorem State.awake (s : State) (h : s.power ≠ 3) : (s.power != 3) = true := bne_iff_ne.mpr h

/-- Outside DARK a write of BAR0 is the register write. -/
theorem exec_registerWrite_registers (s : State) (o n v m : Nat) (h : s.power ≠ 3) :
    exec (.registerWrite .registers o n v m) s = .next (s.writeReg o n v m).settle :=
  done_whenever s _ _ (s.awake h)

/-- Outside DARK a write of BAR2 is a doorbell. -/
theorem exec_registerWrite_doorbells (s : State) (o n v m : Nat) (h : s.power ≠ 3) :
    exec (.registerWrite .doorbells o n v m) s = .next (s.ringDoorbell o n v false).settle :=
  done_whenever s _ _ (s.awake h)

/-- A write of BAR4 changes nothing (log 34). -/
theorem exec_registerWrite_component (s : State) (o n v m : Nat) (h : s.power ≠ 3) :
    exec (.registerWrite .component o n v m) s = .next s.settle :=
  done_whenever s _ _ (s.awake h)

/-- Outside DARK a read of BAR0 is the register read. -/
theorem exec_registerReadClear_registers (s : State) (o n m : Nat) (h : s.power ≠ 3) :
    exec (.registerReadClear .registers o n m) s = .next (s.readReg o n m).settle :=
  done_whenever s _ _ (s.awake h)

/-- A read of BAR2 is a bad access and returns 0 (R35). -/
theorem exec_registerReadClear_doorbells (s : State) (o n m : Nat) (h : s.power ≠ 3) :
    exec (.registerReadClear .doorbells o n m) s = .next ({ s.badAccess with host.lastRead := 0 } : State).settle :=
  done_whenever s _ _ (s.awake h)

/-- A read of BAR4 returns a free value (log 34). -/
theorem exec_registerReadClear_component (s : State) (o n m : Nat) (h : s.power ≠ 3) :
    exec (.registerReadClear .component o n m) s =
      .next ({ s.drew with host.lastRead := bitsOf s.free 0 (8 * n) } : State).settle :=
  done_whenever s _ _ (s.awake h)

/-- After READY and outside DARK a write of 1 to ENABLE enables the host interface (R40). -/
theorem exec_hostEnable (s : State) (hr : s.flag HST_STATUS.READY = true) (h : s.power ≠ 3) :
    exec .hostEnable s = .next s.enable.settle :=
  done_whenever s _ _ (by rw [hr, s.awake h]; rfl)

/-- After READY and outside DARK a write of 0 to an ENABLE of 1 disables the host interface (R40). -/
theorem exec_hostDisable (s : State) (hr : s.flag HST_STATUS.READY = true) (he : s.flag HST_CTRL.ENABLE = true)
    (h : s.power ≠ 3) : exec .hostDisable s = .next s.disable.settle :=
  done_whenever s _ _ (by rw [hr, he, s.awake h]; rfl)

/-- An HDM read of an address that exists is carried out while memory is on (R28). -/
theorem exec_hdmRead (s : State) (a : Nat) (errs : List Nat) (ha : a < hdmSize) (hm : s.memOn = true) :
    exec (.hdmRead a errs) s = .next (s.hdmRead a errs).settle :=
  (if_neg (Nat.not_le.mpr ha)).trans (done_whenever s _ _ hm)

/-- An HDM write of an address that exists is carried out while memory is on (R29). -/
theorem exec_hdmWrite (s : State) (a : Nat) (d : BitVec 512) (b : BitVec 64) (errs : List Nat) (ha : a < hdmSize)
    (hm : s.memOn = true) : exec (.hdmWrite a d b errs) s = .next (s.hdmWrite a d b errs).settle :=
  (if_neg (Nat.not_le.mpr ha)).trans (done_whenever s _ _ hm)

/-- Outside DARK a snoop of a line that the device cache holds is answered with it (R27). -/
theorem exec_hostSnoop_hit (s : State) (l : Nat) (q : CacheLine) (h : s.power ≠ 3)
    (hq : s.host.devCache.find? (fun e => e.addr == l) = some q) : exec (.hostSnoop l) s = .next (s.snooped q).settle := by
  refine (done_whenever s _ _ (s.awake h)).trans ?_
  rw [hq]

/-- Outside DARK a snoop of any other line is answered with a miss (R27). -/
theorem exec_hostSnoop_miss (s : State) (l : Nat) (h : s.power ≠ 3)
    (hq : s.host.devCache.find? (fun e => e.addr == l) = none) :
    exec (.hostSnoop l) s = .next (s.send (.snoopMiss l)).settle := by
  refine (done_whenever s _ _ (s.awake h)).trans ?_
  rw [hq]

/-! ## Doorbells that pass their checks (R34, R35) -/

/-- A doorbell of 8 bytes at an aligned offset is judged by its value alone. -/
theorem exec_doorbell (s : State) (o v : Nat) (c : Bool) (h : s.power ≠ 3) (ho : o % 8 = 0) :
    exec (.doorbell o 8 v c) s = .next (s.doorbell o (v % 2 ^ 64) c).settle := by
  have hr : s.ringDoorbell o 8 v c = s.doorbell o (v % 2 ^ 64) c := by simp [State.ringDoorbell, ho]
  exact hr ▸ done_whenever s _ _ (s.awake h)

/-- A doorbell on the page of a ring that exists, whose page is valid and whose index lies neither behind nor beyond the ring, is
accepted. -/
theorem State.doorbell_accepted (s : State) (o v : Nat) (x : Ring) (hp : pageOfRing (bitsOf v 0 18) = o / 4096)
    (hx : s.ring (bitsOf v 0 18) = some x) (hv : s.pageValid (o / 4096) = true)
    (ha : (if x.kind = 0 then ofSigned 32 ((bitsOf v 18 32 : Int) - x.cons)
      else ofSigned 32 ((x.prod : Int) - bitsOf v 18 32)) ≤ x.size)
    (hb : 0 ≤ toSigned 32 (bitsOf v 18 32 + (2 ^ 32 - (if x.kind = 0 then x.prod else x.cons) % 2 ^ 32))) :
    s.doorbell o v false = (s.touchCtx (bitsOf v 0 18)).dbAccept (bitsOf v 0 18) x (bitsOf v 18 32) := by
  have hl : ¬ s.ctxLost (bitsOf v 0 18) false = true := by simp [State.ctxLost]
  have hv' : ¬ (!s.pageValid (o / 4096)) = true := by simp [hv]
  simp only [State.doorbell, hx]
  rw [if_neg (not_not.mpr hp), if_neg hv', if_neg hl, if_neg (Int.not_lt.mpr hb), if_neg (Nat.not_lt.mpr ha)]

/-- Settles O2: each access is carried out under its own condition. -/
theorem hostAccessesComplete : Obligations.HostAccessesComplete := by
  intro s
  refine ⟨fun h => ⟨fun o n v m => ?writes, fun o n m => ?reads⟩, exec_hostEnable s, exec_hostDisable s, ?doorbells,
    exec_hdmRead s, fun a d b errs ha hm _ => exec_hdmWrite s a d b errs ha hm, exec_hostSnoop_hit s, exec_hostSnoop_miss s⟩
  case writes =>
    exact ⟨exec_registerWrite_registers s o n v m h, exec_registerWrite_doorbells s o n v m h,
      exec_registerWrite_component s o n v m h⟩
  case reads =>
    exact ⟨exec_registerReadClear_registers s o n m h, exec_registerReadClear_doorbells s o n m h,
      exec_registerReadClear_component s o n m h⟩
  case doorbells =>
    intro o v x h ho hp hx hv ha hb
    rw [exec_doorbell s o v false h ho, s.doorbell_accepted o _ x hp hx hv ha hb]

/-! ## Counters that a read clears (R8) -/

theorem State.getF_incF_self (s : State) (f : Fld) (n : Nat) (h : f.w ≤ 64) :
    (s.incF f n).getF f = min (2 ^ f.w - 1) (s.getF f + n) := by
  have hw : min (2 ^ f.w - 1) (s.getF f + n) < 2 ^ f.w := by have := Nat.two_pow_pos f.w; omega
  rw [State.incF, State.getF_setF_self _ _ _ h, Nat.mod_eq_of_lt hw]

theorem State.getF_incF_other (s : State) (f g : Fld) (n : Nat) (h : g.key ≠ f.key) : (s.incF f n).getF g = s.getF g :=
  s.getF_setF_other f g _ h

/-- The field is a counter that a read clears, alone in its register from bit 0 up, and reads as the register file has it. -/
structure LoneCounter (f : Fld) : Prop where
  aligned : f.off % 8 = 0
  notMsix : f.off < msixBase
  notSnap : f.off ≠ 0x200048
  notRxEq : rxEqPort f.off = none
  alone : fieldsAt f.off = [f]
  acc : f.acc = .rc
  lo : f.lo = 0
  width : f.w ≤ 64
  count : isMaximum f = false
  plain : ∀ s : State, s.view f = s.getF f

/-- What a read of the counter `f` leaves in the register file: it clears the field if it covers it whole, and then the event of
the same cycle counts. -/
def State.readCounter (s : State) (f : Fld) (size same : Nat) : State :=
  (if covers 0 size f then s.setF f 0 else s).incF f (bitsOf same 0 f.w)

namespace LoneCounter

variable {f : Fld} (hf : LoneCounter f)
include hf

theorem regWord (s : State) : s.regWord f.off = s.getF f % 2 ^ f.w := by
  simp [State.regWord, hf.alone, hf.lo, hf.plain s]

theorem readClear (s : State) (size same : Nat) : s.readClear f.off 0 size same = s.readCounter f size same := by
  simp [State.readClear, State.each, hf.alone, hf.acc, hf.lo, State.bump, hf.count, State.readCounter]

/-- An aligned read returns the bits it covers and leaves the counter as `readCounter` has it. -/
theorem readReg (s : State) (size same : Nat) (h : accessOk f.off size = true) :
    s.readReg f.off size same =
      { s.readCounter f size same with host.lastRead := bitsOf (s.getF f % 2 ^ f.w) 0 (8 * size) } := by
  have hb : f.off / 8 * 8 = f.off := by have := hf.aligned; omega
  have hm : (inMsixTable f.off || inMsixPba f.off) = false := by
    have hx := hf.notMsix
    have hy : f.off < msixPba := hx.trans (by decide)
    simp [inMsixTable, inMsixPba, hx, hy]
  simp [State.readReg, h, hb, hf.aligned, hm, hf.notSnap, State.rxNow, hf.notRxEq, hf.regWord, hf.readClear]

/-- A read that covers the counter leaves the event of its cycle. -/
theorem getF_readCounter_of_covers (s : State) (size same : Nat) (h : covers 0 size f = true) :
    (s.readCounter f size same).getF f = same % 2 ^ f.w := by
  have hw : same % 2 ^ f.w ≤ 2 ^ f.w - 1 := Nat.le_sub_one_of_lt (Nat.mod_lt _ (Nat.two_pow_pos _))
  rw [State.readCounter, if_pos h, State.getF_incF_self _ _ _ hf.width, State.getF_setF_self _ _ _ hf.width]
  simpa [bitsOf] using hw

/-- A read of a part of the counter, with no event in its cycle, leaves it. -/
theorem getF_readCounter_of_not_covers (s : State) (size : Nat) (h : covers 0 size f = false) (hs : s.getF f < 2 ^ f.w) :
    (s.readCounter f size 0).getF f = s.getF f := by
  rw [State.readCounter, if_neg (Bool.eq_false_iff.mp h), State.getF_incF_self _ _ _ hf.width]
  simpa [bitsOf] using Nat.le_sub_one_of_lt hs

end LoneCounter

theorem State.sameFields_readCounter (s : State) (f : Fld) (size same : Nat) : sameFields [f] s (s.readCounter f size same) := by
  intro g hg
  have hk : g.key ≠ f.key := by simpa using hg
  rw [State.readCounter, State.getF_incF_other _ _ _ _ hk]
  split
  · exact s.getF_setF_other f g 0 hk
  · rfl

theorem State.readCounter_only_regs (s : State) (f : Fld) (size same : Nat) :
    s.readCounter f size same = { s with regs := (s.readCounter f size same).regs } := by
  unfold State.readCounter
  split <;> rfl

/-- The command that reads a lone counter outside DARK: what it returns, what it leaves of the counter, and that nothing else
changes. -/
theorem LoneCounter.exec_read {f : Fld} (hf : LoneCounter f) (s : State) (size same : Nat) (hp : s.power ≠ 3)
    (hc : s.flt.c4 = []) (ha : accessOk f.off size = true) :
    ∃ t, exec (.registerReadClear .registers f.off size same) s = .next t ∧
      t.host.lastRead = s.getF f % 2 ^ f.w % 2 ^ (8 * size) ∧
      t.getF f = (s.readCounter f size same).getF f ∧
      sameFields [f] s t ∧ t = { s with regs := t.regs, host.lastRead := t.host.lastRead } := by
  have hr := hf.readReg s size same ha
  have ho := s.readCounter_only_regs f size same
  refine ⟨s.readReg f.off size same, ?_, ?_, ?_, ?_, ?_⟩
  · rw [exec_registerReadClear_registers s _ _ _ hp, State.settle_none]
    rw [hr, ho]
    exact hc
  · rw [hr]
    rfl
  · rw [hr]
    rfl
  · rw [hr]
    exact s.sameFields_readCounter f size same
  · rw [hr, ho]

/-! ## The two counters of the statement -/

/-- The port fields that show another part of the state are status fields; a counter reads as the register file has it (R130,
R293). -/
theorem State.viewPort_of_rc (s : State) {f : Fld} (h : f.acc = .rc) : s.viewPort f = s.getF f := by
  have ne {g : Fld} (hg : g.acc = .ro) : f ≠ g := fun e => by
    rw [← e, h] at hg
    cases hg
  have h1 : f ≠ ING_STATUS.UP := ne rfl
  have h2 : f ≠ ING_STATUS.DEG := ne rfl
  have h3 : f ≠ FAB_STATUS.UP := ne rfl
  have h4 : f ≠ FAB_STATUS.DEG := ne rfl
  have h5 (p : Nat) : f ≠ ING_P_STATUS.STATE p := ne rfl
  have h6 (p : Nat) : f ≠ FAB_P_STATUS.STATE p := ne rfl
  have h7 (p : Nat) : f ≠ FAB_P_STATUS.NEIGH_VALID p := ne rfl
  simp [State.viewPort, h1, h2, h3, h4, h5, h6, h7]

theorem loneCounter_dbStale : LoneCounter HST_DB_STALE.COUNT where
  aligned := rfl
  notMsix := by decide
  notSnap := by decide
  notRxEq := by decide
  alone := by decide +kernel
  acc := rfl
  lo := rfl
  width := by decide
  count := by decide
  plain := fun _ => rfl

/-- The register map has SYMERR alone in its register, at each of the 24 ports and 4 lanes (R130). -/
theorem fieldsAt_symErr : ∀ p < 24, ∀ l < 4, fieldsAt (ING_P_L_SER.SYMERR p l).off = [ING_P_L_SER.SYMERR p l] := by
  decide +kernel

theorem loneCounter_symErr (p l : Nat) (hp : p < 24) (hl : l < 4) : LoneCounter (ING_P_L_SER.SYMERR p l) where
  aligned := by simp only [ING_P_L_SER.SYMERR, Fld.plus]; omega
  notMsix := by simp only [ING_P_L_SER.SYMERR, Fld.plus, msixBase]; omega
  notSnap := by simp only [ING_P_L_SER.SYMERR, Fld.plus]; omega
  notRxEq := by
    have h : (ING_P_L_SER.SYMERR p l).off % 0x100 ≠ 8 := by simp only [ING_P_L_SER.SYMERR, Fld.plus]; omega
    simp [rxEqPort, h]
  alone := fieldsAt_symErr p hp l hl
  acc := rfl
  lo := rfl
  width := (by decide : 48 ≤ 64)
  count := by
    have h : (ING_P_L_SER.SYMERR p l).off < 0x410000 := by simp only [ING_P_L_SER.SYMERR, Fld.plus]; omega
    have h' : (ING_P_L_SER.SYMERR p l).off < 0x500100 ∧ (ING_P_L_SER.SYMERR p l).off < 0x510000 ∧
        (ING_P_L_SER.SYMERR p l).off < 0xA10000 := by omega
    simp [isMaximum, h, h']
  plain := fun s => by
    have hb : (ING_P_L_SER.SYMERR p l).off / 0x100000 = 3 := by simp only [ING_P_L_SER.SYMERR, Fld.plus]; omega
    have ha : (ING_P_L_SER.SYMERR p l).acc = .rc := rfl
    simp [State.view, hb, ha, s.viewPort_of_rc ha]

/-- Settles O35: the 64-bit read covers COUNT and leaves the event; the 32-bit read covers a part of SYMERR and leaves it. -/
theorem readClearKeepsTheEvent : Obligations.ReadClearKeepsTheEvent := by
  intro s hp hc
  refine ⟨fun m => ?whole, fun p l hpl hl => ?half⟩
  case whole =>
    obtain ⟨t, he, hr, hv, hs, ht⟩ := loneCounter_dbStale.exec_read s 8 m hp hc (by decide)
    have hlt : s.getF HST_DB_STALE.COUNT % 2 ^ 32 < 2 ^ 64 := (Nat.mod_lt _ (by decide)).trans (by decide)
    exact ⟨t, he, hr.trans (Nat.mod_eq_of_lt hlt), hv.trans (loneCounter_dbStale.getF_readCounter_of_covers s 8 m (by decide)),
      hs, ht⟩
  case half =>
    have hlone := loneCounter_symErr p l hpl hl
    have hoff : 0x310110 + 0x1000 * p + 0x100 * l = (ING_P_L_SER.SYMERR p l).off := Nat.add_assoc ..
    have h4 : (ING_P_L_SER.SYMERR p l).off % 4 = 0 := by have := hlone.aligned; omega
    have hok : accessOk (ING_P_L_SER.SYMERR p l).off 4 = true := by simp [accessOk, h4]
    obtain ⟨t, he, hr, hv, hs, ht⟩ := hlone.exec_read s 4 0 hp hc hok
    rw [hoff]
    exact ⟨t, he, hr.trans (Nat.mod_mod_of_dvd _ (Nat.pow_dvd_pow 2 (by decide : 32 ≤ 48))),
      fun hlt => hv.trans (hlone.getF_readCounter_of_not_covers s 4 rfl hlt), hs, ht⟩

end Sys2Proof.Machine
end

section
/-!
PROOFS. What every command keeps: the commands are settled effects of the shared operations, so `Kept` holds of each but of the
resets that end viral and of PORST_N; from it the invariant and the output (R12, R15, R30, R320, R388).
-/

namespace Sys2Proof.Machine

/-! ## Meanings whose effect is kept -/

/-- A meaning answers the settled state of an effect that keeps what every shared operation keeps (R15, R30, R320). -/
def Keeps (s : State) (o : Res) : Prop := ∀ t, o = .next t → ∃ u, Kept s u ∧ t = u.settle

theorem Kept.either {s a b : State} {c : Prop} [Decidable c] (ha : Kept s a) (hb : Kept s b) : Kept s (if c then a else b) :=
  .ite (fun _ => ha) (fun _ => hb)

theorem done_keeps {s u : State} (h : Kept s u) : Keeps s (done u) := fun _ e => ⟨u, h, (Host.Outcome.next.inj e).symm⟩

theorem whenever_keeps {s : State} {b : Bool} {f : State → State} (h : ∀ s, Kept s (f s)) : Keeps s (done (s.whenever b f)) :=
  done_keeps (State.whenever_kept h s b)

theorem withCmd_keeps {s : State} {r op : Nat} {f : State → Exec → State} (h : ∀ s e, Kept s (f s e)) :
    Keeps s (withCmd s r op f) := by
  unfold withCmd
  split
  · split
    · exact done_keeps (.refl s)
    · exact done_keeps (h s _)
  · exact done_keeps (.refl s)

/-- An access that reaches beyond its space answers no state (R28, R160). -/
theorem fault_keeps {s : State} {c : Prop} [Decidable c] {r : Fault} {o : Res} (h : Keeps s o) :
    Keeps s (if c then .fault r else o) := by
  split
  · exact fun _ e => nomatch e
  · exact h

theorem pitOp_keeps {s : State} {c op : Nat} {f : Ctx → Eff} : Keeps s (done (s.pitOp c op f)) :=
  done_keeps (State.pitOp_kept ..)

/-- What a check takes in goes on; what it does not ends there. -/
theorem Kept.taken {s : State} {q : State × Bool} {f : State → State} :
    Kept s q.1 → (∀ u, Kept u (f u)) → Kept s (match q with | (u, false) => u | (u, true) => f u) := by
  intro h hf
  obtain ⟨u, _ | _⟩ := q
  · exact h
  · exact h.trans (hf u)

/-- What a check passes goes on one way, what it does not the other. -/
theorem Kept.judged {s : State} {q : State × Bool} {f g : State → State} :
    Kept s q.1 → (∀ u, Kept u (f u)) → (∀ u, Kept u (g u)) →
      Kept s (match q with | (u, false) => f u | (u, true) => g u) := by
  intro h hf hg
  obtain ⟨u, _ | _⟩ := q
  · exact h.trans (hf u)
  · exact h.trans (hg u)

/-! ## One fact per meaning -/

/-! ### The duet and spares -/

theorem execHeartbeatSend_keeps (s) : Keeps s (execHeartbeatSend s) :=
  whenever_keeps fun _ => (State.lapse_kept ..).trans (State.hbSend_kept ..)

theorem execHeartbeat_keeps (fecBad header payload s) : Keeps s (execHeartbeat fecBad header payload s) :=
  done_keeps (.taken (State.takePair_kept ..) (fun _ => State.hbTaken_kept ..))

theorem execPartnerLost_keeps (s) : Keeps s (execPartnerLost s) :=
  whenever_keeps fun _ => (State.lapse_kept ..).trans (State.partnerGone_kept ..)

theorem execSwapPropose_keeps (s) : Keeps s (execSwapPropose s) :=
  whenever_keeps fun _ => (State.swapDue_kept ..).trans (State.proposeEarliest_kept ..)

theorem execJoinTimeout_keeps (s) : Keeps s (execJoinTimeout s) :=
  whenever_keeps fun _ => (State.lapse_kept ..).trans (State.joinEnds_kept ..)

theorem execDigestSend_keeps (dwell s) : Keeps s (execDigestSend dwell s) :=
  whenever_keeps fun _ => State.digestOut_kept ..

theorem execDigest_keeps (fecBad header payload s) : Keeps s (execDigest fecBad header payload s) :=
  done_keeps (.taken (State.takePair_kept ..) (fun _ => State.digestTaken_kept ..))

theorem execDigestSkip_keeps (dwell s) : Keeps s (execDigestSkip dwell s) :=
  whenever_keeps fun _ =>
    (State.lapse_kept ..).trans <| (State.stopTimer_kept ..).trans <| (State.incF_kept ..).trans (.lit _ rfl rfl rfl)

theorem execEngineFault_keeps (row col s) : Keeps s (execEngineFault row col s) :=
  done_keeps ((State.raiseFor_kept ..).trans (State.engineBad_kept ..))

theorem execClusterFault_keeps (phys s) : Keeps s (execClusterFault phys s) :=
  done_keeps ((State.raiseFor_kept ..).trans (State.clusterBad_kept ..))

theorem execLaneGraceExpiry_keeps (port s) : Keeps s (execLaneGraceExpiry port s) :=
  whenever_keeps fun _ => (State.lapse_kept ..).trans (State.setReplace_kept ..)

theorem execDuoSwap_keeps (ring s) : Keeps s (execDuoSwap ring s) := by
  unfold execDuoSwap
  exact withCmd_keeps fun _ _ =>
    .either (State.finish_kept ..) <|
    .either (State.finish_kept ..) <|
    .either (State.finish_kept ..) ((State.finish_kept ..).trans (.either (State.propose_kept ..) (State.emit_kept ..)))

theorem execDuoWithdraw_keeps (ring s) : Keeps s (execDuoWithdraw ring s) :=
  withCmd_keeps fun _ _ => (State.withdraw_kept ..).trans (State.finish_kept ..)

theorem execDuoRejoin_keeps (ring s) : Keeps s (execDuoRejoin ring s) :=
  withCmd_keeps fun _ _ =>
    .either (State.finish_kept ..) <|
    (State.setF_kept ..).trans <| (State.join_kept ..).trans <| (State.setClaim_kept ..).trans (State.finish_kept ..)

theorem execSpareRetire_keeps (ring s) : Keeps s (execSpareRetire ring s) := by
  unfold execSpareRetire
  exact withCmd_keeps fun _ _ =>
    .either (.either (State.finish_kept ..) ((State.finish_kept ..).trans (State.engineBad_kept ..))) <|
    .either (State.finish_kept ..) ((State.finish_kept ..).trans (State.clusterBad_kept ..))

theorem execJournalWriteDone_keeps (copies s) : Keeps s (execJournalWriteDone copies s) :=
  done_keeps <| by
    split
    · exact .refl _
    · refine (Kept.lit _ rfl rfl rfl).trans <| (Kept.either ?_ (State.jApply_kept ..)).trans <|
        .either (State.raise_kept ..) (.refl _)
      split
      · exact State.withdraw_kept ..
      · split
        · exact State.finish_kept ..
        · exact .refl _
      · exact .refl _

/-! ### Faults and iron -/

theorem execRailFault_keeps (source code s) : Keeps s (execRailFault source code s) :=
  done_keeps ((Kept.lit _ rfl rfl rfl).trans (.either (State.railFault_kept ..) (.refl _)))

theorem execReactionStart_keeps (s) : Keeps s (execReactionStart s) := done_keeps (State.nextReaction_kept ..)

theorem execFltAck_keeps (source s) : Keeps s (execFltAck source s) := done_keeps (State.ackReact_kept ..)

theorem execAckTimeout_keeps (source s) : Keeps s (execAckTimeout source s) :=
  whenever_keeps fun _ =>
    (State.lapse_kept ..).trans <|
    .either ((Kept.lit _ rfl rfl rfl).trans <| (State.ackLate_kept ..).trans (State.resume_kept ..)) <|
    (Kept.lit _ rfl rfl rfl).trans (State.ackLate_kept ..)

theorem execCurtainFrame_keeps (port s) : Keeps s (execCurtainFrame port s) :=
  whenever_keeps fun _ =>
    (State.lapse_kept ..).trans <| (State.sendBeacon_kept ..).trans (State.startTimer_kept ..)

theorem execIronReq_keeps (s) : Keeps s (execIronReq s) := done_keeps (State.raise_kept ..)

theorem execServiceEntry_keeps (rails s) : Keeps s (execServiceEntry rails s) :=
  whenever_keeps fun _ => State.enterService_kept ..

theorem execFflRearm_keeps (s) : Keeps s (execFflRearm s) := done_keeps (State.setF_kept ..)

theorem execParitySweep_keeps (error s) : Keeps s (execParitySweep error s) :=
  whenever_keeps fun _ => State.raise_kept ..

theorem execIronExit_keeps (selfTestOk s) : Keeps s (execIronExit selfTestOk s) := done_keeps (State.ironExit_kept ..)

/-! ### The control plane -/

theorem execCoreHeartbeat_keeps (core s) : Keeps s (execCoreHeartbeat core s) :=
  whenever_keeps fun _ => (State.putBit_kept ..).trans (State.startTimer_kept ..)

theorem execCoreWatchdogExpiry_keeps (core s) : Keeps s (execCoreWatchdogExpiry core s) :=
  whenever_keeps fun _ => (State.lapse_kept ..).trans <| (State.resetCore_kept ..).trans (State.raise_kept ..)

theorem execFwAbsent_keeps (s) : Keeps s (execFwAbsent s) :=
  done_keeps ((State.each_kept (fun _ _ => State.lapse_kept ..) ..).trans (State.raise_kept ..))

theorem execBootImageFetched_keeps (source image s) : Keeps s (execBootImageFetched source image s) :=
  whenever_keeps fun _ => State.bootImage_kept ..

theorem execPushChunk_keeps (s) : Keeps s (execPushChunk s) := done_keeps (State.pushGo_kept ..)

theorem execPushChunkDone_keeps (s) : Keeps s (execPushChunkDone s) := whenever_keeps fun _ => State.pushDone_kept ..

theorem execFwUpdate_keeps (ring image s) : Keeps s (execFwUpdate ring image s) := by
  unfold execFwUpdate
  exact withCmd_keeps fun _ _ =>
    (State.imageAt_kept ..).trans <|
    .either (State.finish_kept ..) <|
    (Kept.either (.lit _ rfl rfl rfl) (.refl _)).trans <|
    .either (State.complete_kept ..) ((State.finish_kept ..).trans (State.updateBegin_kept ..))

theorem execCoreReady_keeps (core s) : Keeps s (execCoreReady core s) :=
  whenever_keeps fun _ => (State.setCore_kept ..).trans <| (State.startTimer_kept ..).trans <| by
    dsimp only
    split
    · exact .either (State.updateStep_kept ..) (.refl _)
    · exact .refl _

theorem execUpdateCoreTimeout_keeps (core s) : Keeps s (execUpdateCoreTimeout core s) :=
  done_keeps <| by
    split
    · exact .either ((State.lapse_kept ..).trans (State.updateBack_kept ..)) (.refl _)
    · exact .refl _

theorem execKeyRevoke_keeps (ring image s) : Keeps s (execKeyRevoke ring image s) := by
  unfold execKeyRevoke
  exact withCmd_keeps fun _ _ =>
    (State.recordAt_kept ..).trans <|
    (State.usedNonce_kept ..).trans <|
    .either (State.complete_kept ..) <|
    .either (State.finish_kept ..) ((State.revoke_kept ..).trans (State.finish_kept ..))

theorem execRollbackAnchor_keeps (ring s) : Keeps s (execRollbackAnchor ring s) := by
  unfold execRollbackAnchor
  exact withCmd_keeps fun _ _ => .either (State.finish_kept ..) ((State.anchor_kept ..).trans (State.finish_kept ..))

theorem execOwnerSet_keeps (ring image s) : Keeps s (execOwnerSet ring image s) := by
  unfold execOwnerSet
  exact withCmd_keeps fun _ _ =>
    .either (.refl _) <|
    .either (State.finish_kept ..) <|
    (State.recordAt_kept ..).trans <|
    (State.usedNonce_kept ..).trans <|
    .either (State.complete_kept ..) (.either (State.finish_kept ..) (State.journal_kept ..))

theorem execNonceRead_keeps (ring s) : Keeps s (execNonceRead ring s) := withCmd_keeps fun _ _ => State.complete_kept ..

/-! ### The cue matrix -/

theorem execCueInEdge_keeps (pin level nearEdge s) : Keeps s (execCueInEdge pin level nearEdge s) :=
  done_keeps ((Kept.either (State.drew_kept ..) (.refl _)).trans (State.filtInput_kept ..))

theorem execChannelEdge_keeps (channel s) : Keeps s (execChannelEdge channel s) := by
  unfold execChannelEdge
  split
  · exact done_keeps (.refl _)
  · exact done_keeps ((Kept.lit _ rfl rfl rfl).trans (State.edgeArrives_kept ..))

theorem execFilterMinwPass_keeps (filter s) : Keeps s (execFilterMinwPass filter s) :=
  done_keeps ((State.runCycles_kept ..).trans (State.filtPass_kept ..))

theorem execFilterRateRelease_keeps (filter s) : Keeps s (execFilterRateRelease filter s) :=
  whenever_keeps fun _ => (State.runCycles_kept ..).trans (State.filtRelease_kept ..)

theorem execFilterStuck_keeps (filter s) : Keeps s (execFilterStuck filter s) :=
  whenever_keeps fun _ => (State.runCycles_kept ..).trans (State.filtStuck_kept ..)

theorem execCueFirePulse_keeps (channel s) : Keeps s (execCueFirePulse channel s) :=
  done_keeps (State.cueFire_kept _ _ _ (fun _ => State.pulseOn_kept ..))

theorem execCueFireSet_keeps (channel s) : Keeps s (execCueFireSet channel s) :=
  done_keeps (State.cueFire_kept _ _ _ (fun _ => State.softLevel_kept ..))

theorem execCueFireClear_keeps (channel s) : Keeps s (execCueFireClear channel s) :=
  done_keeps (State.cueFire_kept _ _ _ (fun _ => State.softLevel_kept ..))

theorem execChannelReenable_keeps (channel s) : Keeps s (execChannelReenable channel s) :=
  whenever_keeps fun _ => State.chanEnable_kept ..

theorem execFilterReenable_keeps (filter s) : Keeps s (execFilterReenable filter s) :=
  done_keeps (State.filtEnable_kept ..)

/-! ### The fabric -/

theorem execFabricInput_keeps (port fecBad header payload s) : Keeps s (execFabricInput port fecBad header payload s) :=
  done_keeps (.taken (State.fabArrive_kept ..) (fun _ => State.inputTaken_kept ..))

theorem execFabricAdd_keeps (port fecBad header payload s) : Keeps s (execFabricAdd port fecBad header payload s) :=
  done_keeps (.taken (State.fabArrive_kept ..) (fun _ =>
    .judged (State.claimCheck_kept ..) (fun _ => State.release_kept ..) (fun _ => State.deliverAdd_kept ..)))

theorem execEndMark_keeps (port fecBad header s) : Keeps s (execEndMark port fecBad header s) :=
  done_keeps (.taken (State.fabArrive_kept ..) (fun _ =>
    .judged (State.claimCheck_kept ..) (fun _ => State.release_kept ..) (fun _ => State.deliverMark_kept ..)))

theorem execFabricWrite_keeps (port fecBad header payload s) : Keeps s (execFabricWrite port fecBad header payload s) :=
  done_keeps (.taken (State.fabArrive_kept ..) (fun _ =>
    .judged (State.claimCheck_kept ..) (fun _ => State.release_kept ..)
      (fun _ => (State.peerWrite_kept ..).trans (State.release_kept ..))))

theorem execWriteAck_keeps (port fecBad header s) : Keeps s (execWriteAck port fecBad header s) :=
  done_keeps (.taken (State.fabArrive_kept ..) (fun _ => (State.release_kept ..).trans <| by
    dsimp only
    split
    · exact .refl _
    · exact (State.peerDone_kept ..).trans (.either (.refl _) (State.peerFailed_kept ..))))

theorem execWriteAckTimeout_keeps (mover seq s) : Keeps s (execWriteAckTimeout mover seq s) :=
  done_keeps <| by
    split
    · exact .refl _
    · exact (State.lapse_kept ..).trans <| (State.peerDone_kept ..).trans (State.peerFailed_kept ..)

theorem execBeacon_keeps (port fecBad header payload s) : Keeps s (execBeacon port fecBad header payload s) :=
  done_keeps (.taken (State.fabTake_kept ..) (fun _ => (State.release_kept ..).trans (State.beaconTaken_kept ..)))

theorem execBeaconSend_keeps (port s) : Keeps s (execBeaconSend port s) :=
  whenever_keeps fun _ => State.sendBeacon_kept ..

theorem execClaimForget_keeps (chip s) : Keeps s (execClaimForget chip s) :=
  done_keeps <| by
    split
    · exact .refl _
    · exact .either (.lit _ rfl rfl rfl) (.refl _)

theorem execFabricTransmit_keeps (port s) : Keeps s (execFabricTransmit port s) :=
  whenever_keeps fun _ => by
    split
    · exact .refl _
    · split
      · exact .refl _
      · exact State.packetOut_kept ..

theorem execCreditSend_keeps (port s) : Keeps s (execCreditSend port s) :=
  whenever_keeps fun _ => State.creditOut_kept ..

theorem execCreditUnit_keeps (port fecBad header s) : Keeps s (execCreditUnit port fecBad header s) :=
  done_keeps <|
    .either (.refl _) <|
    .either (State.incF_kept ..) (.either (State.incF_kept ..) (.either (State.incF_kept ..) (State.creditIn_kept ..)))

/-! ### The stage -/

theorem execReplayStart_keeps (s) : Keeps s (execReplayStart s) :=
  done_keeps <| by
    split
    · exact .refl _
    · exact .either (.refl _) (.either ((State.setF_kept ..).trans (.lit _ rfl rfl rfl)) (State.replay_kept ..))

theorem execCorrPassStart_keeps (part s) : Keeps s (execCorrPassStart part s) :=
  done_keeps <| by
    split
    · exact .refl _
    · dsimp only
      split
      · exact (State.incF_kept ..).trans (State.setPart_kept ..)
      · exact .either (State.feedStall_kept ..) (State.corrBegin_kept ..)

theorem execCorrPassEnd_keeps (part s) : Keeps s (execCorrPassEnd part s) :=
  done_keeps <| by
    split
    · exact .refl _
    · exact (State.closeSlot_kept ..).trans <|
        (State.passOver_kept ..).trans <| (State.feedOver_kept ..).trans (State.afterEntry_kept ..)

theorem execGap_keeps (part s) : Keeps s (execGap part s) :=
  done_keeps <| by
    split
    · exact .refl _
    · exact (State.setPart_kept ..).trans <| (State.setF_kept ..).trans (State.afterEntry_kept ..)

theorem execDrainComplete_keeps (part s) : Keeps s (execDrainComplete part s) :=
  done_keeps <| by
    split
    · exact .refl _
    · exact .either (.refl _) (.taken (State.drainTo_kept ..) (fun _ => State.drainOver_kept ..))

theorem execDwellDrained_keeps (s) : Keeps s (execDwellDrained s) :=
  done_keeps <| by
    split
    · exact .refl _
    · exact .either (.refl _) (State.dwellOut_kept ..)

theorem execBeamPassStart_keeps (part s) : Keeps s (execBeamPassStart part s) :=
  done_keeps <| by
    split
    · exact .refl _
    · exact .either (State.wloadStall_kept ..) <|
        .either (State.stageStall_kept ..) <|
        .either (State.feedStall_kept ..) (.either (State.outStall_kept ..) (State.beamBegin_kept ..))

theorem execBeamPassComplete_keeps (part s) : Keeps s (execBeamPassComplete part s) :=
  done_keeps <| by
    split
    · exact .refl _
    · exact (State.beamDone_kept ..).trans <|
        (State.passOver_kept ..).trans <|
        (State.feedOver_kept ..).trans <| (State.finisherOver_kept ..).trans (State.afterEntry_kept ..)

theorem execWeightLoadStart_keeps (s) : Keeps s (execWeightLoadStart s) :=
  done_keeps <|
    .either (.refl _) <| by
      split
      · exact (Kept.lit _ rfl rfl rfl).trans (State.setF_kept ..)
      · exact .refl _

theorem execWeightLoadComplete_keeps (s) : Keeps s (execWeightLoadComplete s) :=
  done_keeps <| by
    split
    · exact .refl _
    · exact (Kept.lit _ rfl rfl rfl).trans <|
        (State.setF_kept ..).trans <| (State.setF_kept ..).trans <| (State.putBit_kept ..).trans (State.emit_kept ..)

theorem execWeightLoadEscalate_keeps (s) : Keeps s (execWeightLoadEscalate s) := done_keeps (.refl _)

theorem execRecordReleaseTimeout_keeps (record s) : Keeps s (execRecordReleaseTimeout record s) :=
  whenever_keeps fun _ => (State.afterClose_kept ..).trans (State.recTimeout_kept ..)

theorem execRecordRelease_keeps (record s) : Keeps s (execRecordRelease record s) :=
  done_keeps <| by
    split
    · exact .either (.refl _) <|
        (State.setRec_kept ..).trans <| (State.discardRec_kept ..).trans (State.releaseEnd_kept ..)
    · exact .either (.refl _) (State.recRelease_kept ..)

/-! ### Scripts -/

theorem execScriptLoad_keeps (ring data s) : Keeps s (execScriptLoad ring data s) := by
  unfold execScriptLoad
  exact withCmd_keeps fun _ _ =>
    .either (State.complete_kept ..) <|
    (Kept.either (.lit _ rfl rfl rfl) (.refl _)).trans <|
    (State.loadRecords_kept ..).trans <| (State.deviceBytes_kept ..).trans (State.complete_kept ..)

theorem execScriptCommit_keeps (ring sig uncorrectable s) : Keeps s (execScriptCommit ring sig uncorrectable s) := by
  unfold execScriptCommit
  exact withCmd_keeps fun _ _ =>
    .either (State.finish_kept ..) <|
    .either (State.complete_kept ..) <|
    .either (State.complete_kept ..) (.either (State.finish_kept ..) (.either (.refl _) (State.commitBuild_kept ..)))

theorem execScriptCancel_keeps (ring s) : Keeps s (execScriptCancel ring s) := by
  unfold execScriptCancel
  refine withCmd_keeps fun _ _ => ?_
  split
  · exact State.complete_kept ..
  · exact .either (State.complete_kept ..) ((State.dropCommit_kept ..).trans (State.complete_kept ..))

theorem execScriptRead_keeps (ring s) : Keeps s (execScriptRead ring s) := by
  unfold execScriptRead
  refine withCmd_keeps fun _ _ => ?_
  dsimp only
  split
  · exact State.complete_kept ..
  · exact (State.hostPut_kept ..).trans <| (State.deviceBytes_kept ..).trans (State.complete_kept ..)

theorem execLockPoint_keeps (s) : Keeps s (execLockPoint s) :=
  done_keeps <| by
    split
    · exact .refl _
    · exact State.whenever_kept (fun _ =>
          (State.advanceTo_kept ..).trans (.either (State.lockIn_kept ..) (State.recheck_kept ..))) ..

theorem execImageRelease_keeps (index s) : Keeps s (execImageRelease index s) :=
  whenever_keeps fun _ => .lit _ rfl rfl rfl

theorem execRollCallGo_keeps (code s) : Keeps s (execRollCallGo code s) := whenever_keeps fun _ => State.rollGo_kept ..

theorem execRollCallQuery_keeps (code s) : Keeps s (execRollCallQuery code s) :=
  whenever_keeps fun _ =>
    (Kept.lit _ rfl rfl rfl).trans <| (State.send_kept ..).trans (.either (State.clearAttn_kept ..) (.refl _))

theorem execRollCallDone_keeps (h l s) : Keeps s (execRollCallDone h l s) :=
  whenever_keeps fun _ =>
    (State.setF_kept ..).trans <|
    (State.setF_kept ..).trans <| (State.setF_kept ..).trans <| (State.setF_kept ..).trans (State.setF_kept ..)

/-! ### Time -/

theorem execCompareArm_keeps (unit s) : Keeps s (execCompareArm unit s) := done_keeps (State.cmpArm_kept ..)

theorem execCompareFire_keeps (unit s) : Keeps s (execCompareFire unit s) :=
  whenever_keeps fun _ => State.cmpFire_kept ..

theorem execSnapshotRead_keeps (s) : Keeps s (execSnapshotRead s) := done_keeps (State.snapshot_kept ..)

theorem execEpochStart_keeps (s) : Keeps s (execEpochStart s) := whenever_keeps fun _ => State.epochBegin_kept ..

theorem execEpochClr_keeps (s) : Keeps s (execEpochClr s) := done_keeps (State.epochClear_kept ..)

theorem execStepArm_keeps (s) : Keeps s (execStepArm s) := done_keeps (State.setF_kept ..)

theorem execEpsRecord_keeps (s) : Keeps s (execEpsRecord s) :=
  whenever_keeps fun _ => (State.lapse_kept ..).trans <| (State.startTimer_kept ..).trans (State.epsRecord_kept ..)

theorem execSync_keeps (port hdr t1 corr twoStep seq s) : Keeps s (execSync port hdr t1 corr twoStep seq s) :=
  done_keeps <|
    (State.tcForward_kept ..).trans <|
    State.eachDom_kept _ _ _ (fun _ _ => .either (State.setDom_kept ..) (State.syncDone_kept ..))

theorem execFollowUp_keeps (port hdr t1 corr seq s) : Keeps s (execFollowUp port hdr t1 corr seq s) :=
  done_keeps <|
    (State.tcForward_kept ..).trans <|
    State.eachDom_kept _ _ _ (fun _ _ => by
      split
      · exact .either (State.syncDone_kept ..) (.refl _)
      · exact .refl _)

theorem execDelayResp_keeps (port hdr t4 corr s) : Keeps s (execDelayResp port hdr t4 corr s) :=
  done_keeps <|
    (State.tcForward_kept ..).trans <|
    State.eachDom_kept _ _ _ (fun _ _ => by
      split
      · exact State.delayDone_kept ..
      · exact .refl _)

theorem execDelayReq_keeps (dom s) : Keeps s (execDelayReq dom s) :=
  done_keeps <| by
    split
    · exact .refl _
    · exact .either (.refl _) ((State.setDom_kept ..).trans (State.send_kept ..))

theorem execAnnounce_keeps (port hdr data s) : Keeps s (execAnnounce port hdr data s) :=
  done_keeps <|
    (State.tcForward_kept ..).trans <|
    State.eachDom_kept _ _ _ (fun _ _ => (State.setDom_kept ..).trans (State.refreshDomains_kept ..))

theorem execAnnounceTimeout_keeps (dom s) : Keeps s (execAnnounceTimeout dom s) :=
  done_keeps ((State.setDom_kept ..).trans (State.refreshDomains_kept ..))

theorem execSyncTimeout_keeps (dom s) : Keeps s (execSyncTimeout dom s) :=
  done_keeps ((State.setDom_kept ..).trans (State.refreshDomains_kept ..))

theorem execDomainWtrExpiry_keeps (dom s) : Keeps s (execDomainWtrExpiry dom s) :=
  whenever_keeps fun _ =>
    (State.lapse_kept ..).trans <| (State.putBit_kept ..).trans (State.refreshDomains_kept ..)

theorem execDomainRevert_keeps (s) : Keeps s (execDomainRevert s) :=
  whenever_keeps fun _ => (State.lapse_kept ..).trans (State.domainSwitch_kept ..)

theorem execSlewComplete_keeps (s) : Keeps s (execSlewComplete s) :=
  whenever_keeps fun _ => (State.setF_kept ..).trans (.lit _ rfl rfl rfl)

theorem execTimePortFrame_keeps (port frame s) : Keeps s (execTimePortFrame port frame s) :=
  done_keeps (.either (State.incF_kept ..) (State.tcForward_kept ..))

theorem execSequenceAssign_keeps (bad s) : Keeps s (execSequenceAssign bad s) := done_keeps (State.assign_kept ..)

/-! ### The DOE mailbox -/

theorem execDoeObject_keeps (protocol body s) : Keeps s (execDoeObject protocol body s) :=
  whenever_keeps fun _ =>
    .either (.lit _ rfl rfl rfl) <|
    .either (.lit _ rfl rfl rfl) <| by
      split
      · exact .either (.lit _ rfl rfl rfl) (.refl _)
      · exact .refl _

theorem execDoeAbort_keeps (s) : Keeps s (execDoeAbort s) := whenever_keeps fun _ => .lit _ rfl rfl rfl

theorem execDoeDiscovery_keeps (s) : Keeps s (execDoeDiscovery s) :=
  done_keeps (State.doeHandle_kept _ _ _ _ (fun _ _ => State.doeAnswer_kept ..))

theorem execCdatRead_keeps (s) : Keeps s (execCdatRead s) :=
  done_keeps (State.doeHandle_kept _ _ _ _ (fun _ _ => State.doeAnswer_kept ..))

theorem execIdeKm_keeps (s) : Keeps s (execIdeKm s) :=
  done_keeps <| State.doeHandle_kept _ _ _ _ fun s _ =>
    .either (State.doeAnswer_kept ..) <|
    (State.doeAnswer_kept ..).after <| (State.drew_kept ..).after <| (State.setF_kept ..).after (.lit s rfl rfl rfl)

theorem execGetId_keeps (s) : Keeps s (execGetId s) :=
  done_keeps (State.doeHandle_kept _ _ _ _ (fun _ _ => State.doeAnswer_kept ..))

theorem execGetReport_keeps (s) : Keeps s (execGetReport s) :=
  done_keeps (State.doeHandle_kept _ _ _ _ (fun _ _ => State.doeAnswer_kept ..))

theorem execSession_keeps (s) : Keeps s (execSession s) :=
  done_keeps (State.doeHandle_kept _ _ _ _ (fun _ _ => State.openSession_kept ..))

theorem execDebugUnlock_keeps (s) : Keeps s (execDebugUnlock s) :=
  done_keeps <|
    State.doeHandle_kept _ _ _ _ (fun _ _ =>
      (State.usedNonce_kept ..).trans <| (Kept.either (State.setF_kept ..) (.refl _)).trans (State.doeAnswer_kept ..))

theorem execEndSession_keeps (s) : Keeps s (execEndSession s) :=
  done_keeps <| State.doeHandle_kept _ _ _ _ fun s _ => by
    split
    · exact (State.doeAnswer_kept ..).after (.lit s rfl rfl rfl)
    · exact (State.drew_kept ..).trans (State.doeAnswer_kept ..)

/-! ### Movers -/

theorem execStreamBurst_keeps (mover withdrawn failures s) : Keeps s (execStreamBurst mover withdrawn failures s) :=
  done_keeps <|
    (State.purgeUnbound_kept ..).trans <|
    State.whenever_kept (fun _ => by
      split
      · exact State.streamServe_kept ..
      · exact .refl _) ..

theorem execFlushMarkerPass_keeps (line s) : Keeps s (execFlushMarkerPass line s) :=
  done_keeps <| .either
    (by
      dsimp only
      split
      · exact .refl _
      · exact .either (.refl _) ((State.setCluster_kept ..).trans (State.passMarker_kept ..)))
    (.either (.refl _) <| by
      dsimp only
      split
      · exact .refl _
      · exact .either (.refl _) (State.passMarker_kept ..))

theorem execReplayReadTimeout_keeps (page s) : Keeps s (execReplayReadTimeout page s) :=
  done_keeps <| by
    split
    · exact .refl _
    · exact .either (.refl _) (State.readLate_kept ..)

theorem execDescNop_keeps (mover s) : Keeps s (execDescNop mover s) := whenever_keeps fun _ => State.movRun_kept ..

theorem execCopy_keeps (mover data failures withdrawn s) : Keeps s (execCopy mover data failures withdrawn s) :=
  whenever_keeps fun _ => State.movRun_kept ..

theorem execFill_keeps (mover failures withdrawn s) : Keeps s (execFill mover failures withdrawn s) :=
  whenever_keeps fun _ => State.movRun_kept ..

theorem execIlv_keeps (mover data failures withdrawn s) : Keeps s (execIlv mover data failures withdrawn s) :=
  whenever_keeps fun _ => State.movRun_kept ..

theorem execTri_keeps (mover data failures withdrawn s) : Keeps s (execTri mover data failures withdrawn s) :=
  whenever_keeps fun _ => State.movRun_kept ..

theorem execFence_keeps (mover s) : Keeps s (execFence mover s) :=
  whenever_keeps fun _ => .either ((State.setMover_kept ..).trans (State.movFail_kept ..)) (State.movRun_kept ..)

theorem execDescriptorComplete_keeps (mover next s) : Keeps s (execDescriptorComplete mover next s) :=
  whenever_keeps fun _ => State.movComplete_kept ..

theorem execPaceTimeout_keeps (mover s) : Keeps s (execPaceTimeout mover s) :=
  whenever_keeps fun _ => (Kept.either (.refl _) (State.lapse_kept ..)).trans (State.movFail_kept ..)

theorem execIronMoverCut_keeps (mover s) : Keeps s (execIronMoverCut mover s) :=
  whenever_keeps fun _ => (State.runCycles_kept ..).trans (State.movFail_kept ..)

theorem execMovRun_keeps (ring desc s) : Keeps s (execMovRun ring desc s) := by
  unfold execMovRun
  exact withCmd_keeps fun _ _ =>
    .either (State.finish_kept ..) <|
    .either (State.finish_kept ..) <|
    .either (State.finish_kept ..) <|
    .either (State.finish_kept ..) <|
    (State.setF_kept ..).trans <| (State.finish_kept ..).trans (State.movGo_kept ..)

theorem execMovStop_keeps (ring s) : Keeps s (execMovStop ring s) := by
  unfold execMovStop
  exact withCmd_keeps fun _ _ =>
    .either (State.finish_kept ..) <|
    .either (State.finish_kept ..) <|
    .either (State.complete_kept ..) (.either (.refl _) ((State.setMover_kept ..).trans (State.setF_kept ..)))

/-! ### Power and test -/

theorem execAvsUpdate_keeps (s) : Keeps s (execAvsUpdate s) := whenever_keeps fun _ => State.avsMove_kept ..

theorem execAvsApplied_keeps (code s) : Keeps s (execAvsApplied code s) :=
  done_keeps <|
    (State.setF_kept ..).trans <|
    (Kept.lit _ rfl rfl rfl).trans (State.whenever_kept (fun _ => State.clkStep_kept ..) ..)

theorem execAvsTimeout_keeps (s) : Keeps s (execAvsTimeout s) :=
  whenever_keeps fun _ => (State.lapse_kept ..).trans <| (Kept.lit _ rfl rfl rfl).trans (State.raise_kept ..)

theorem execRailFaultReport_keeps (_rail s) : Keeps s (execRailFaultReport _rail s) := done_keeps (State.raise_kept ..)

theorem execThermalSample_keeps (die hbm s) : Keeps s (execThermalSample die hbm s) :=
  whenever_keeps fun _ => State.sample_kept ..

theorem execClkMin_keeps (s) : Keeps s (execClkMin s) := done_keeps (State.clkMin_kept ..)

theorem execPwrSet_keeps (ring s) : Keeps s (execPwrSet ring s) := by
  unfold execPwrSet
  exact withCmd_keeps fun _ _ =>
    .either (State.finish_kept ..) <|
    .either (State.finish_kept ..) <|
    .either (State.finish_kept ..) ((State.finish_kept ..).trans (State.pwrBegin_kept ..))

theorem execHoldReached_keeps (s) : Keeps s (execHoldReached s) :=
  done_keeps <| by
    split
    · exact .either ((State.pwrEnter_kept ..).trans (.either (State.pwrEnd_kept ..) (.refl _))) (.refl _)
    · exact .refl _

theorem execIntermissionReached_keeps (s) : Keeps s (execIntermissionReached s) :=
  done_keeps <| by
    split
    · exact .either ((State.gate_kept ..).trans <|
          (State.storeSleep_kept ..).trans <| (State.pwrEnter_kept ..).trans (State.pwrEnd_kept ..)) <|
        .either ((State.storeWake_kept ..).trans <| (State.pwrEnter_kept ..).trans (State.pwrEnd_kept ..)) (.refl _)
    · exact .refl _

theorem execDarkRequest_keeps (s) : Keeps s (execDarkRequest s) := whenever_keeps fun _ => State.pwrBegin_kept ..

theorem execWake_keeps (s) : Keeps s (execWake s) := done_keeps (State.wake_kept ..)

theorem execHoldNow_keeps (s) : Keeps s (execHoldNow s) := done_keeps (State.holdNow_kept ..)

theorem execPitBlockReset_keeps (s) : Keeps s (execPitBlockReset s) :=
  done_keeps (State.blockReset_kept _ _ _ (fun _ => State.resetPit_kept ..))

theorem execMovBlockReset_keeps (s) : Keeps s (execMovBlockReset s) :=
  done_keeps (State.blockReset_kept _ _ _ (fun _ => State.resetMov_kept ..))

theorem execStgBlockReset_keeps (s) : Keeps s (execStgBlockReset s) :=
  done_keeps (State.blockReset_kept _ _ _ (fun _ => State.resetStg_kept ..))

theorem execCueBlockReset_keeps (s) : Keeps s (execCueBlockReset s) :=
  done_keeps (State.blockReset_kept _ _ _ (fun _ => State.resetCue_kept ..))

theorem execHstBlockReset_keeps (s) : Keeps s (execHstBlockReset s) :=
  done_keeps (State.blockReset_kept _ _ _ (fun _ => State.resetHst_kept ..))

theorem execBlockResetDone_keeps (block s) : Keeps s (execBlockResetDone block s) :=
  whenever_keeps fun _ => (State.putBit_kept ..).trans (State.emit_kept ..)

theorem execJtagInstruction_keeps (op s) : Keeps s (execJtagInstruction op s) :=
  done_keeps <| by
    split
    · exact .refl _
    · exact .refl _
    · exact .refl _
    · exact (Kept.lit _ rfl rfl rfl).trans (State.leaveService_kept ..)
    · exact (Kept.lit _ rfl rfl rfl).trans (State.leaveService_kept ..)
    · exact (Kept.lit _ rfl rfl rfl).trans (State.leaveService_kept ..)
    · exact (Kept.lit _ rfl rfl rfl).trans (State.leaveService_kept ..)
    · exact (Kept.lit _ rfl rfl rfl).trans (State.leaveService_kept ..)
    · exact (Kept.lit _ rfl rfl rfl).trans (State.leaveService_kept ..)
    · exact .lit _ rfl rfl rfl

theorem execCxlLinkTrained_keeps (width rate flit256 s) : Keeps s (execCxlLinkTrained width rate flit256 s) :=
  whenever_keeps fun _ =>
    (State.setF_kept ..).trans <|
    (State.setF_kept ..).trans <| (State.setFlag_kept ..).trans <| (State.setFlag_kept ..).trans (.lit _ rfl rfl rfl)

/-! ### Dwells -/

theorem execDwellStart_keeps (s) : Keeps s (execDwellStart s) :=
  whenever_keeps fun _ => (State.advanceTo_kept ..).trans (State.dwellBegins_kept ..)

theorem execDwellClose_keeps (s) : Keeps s (execDwellClose s) := whenever_keeps fun _ => State.dwellCloses_kept ..

/-! ### The pit -/

theorem execNullVectors_keeps (cluster s) : Keeps s (execNullVectors cluster s) :=
  whenever_keeps fun _ => State.startNulls_kept ..

theorem execCueInterrupt_keeps (cluster input s) : Keeps s (execCueInterrupt cluster input s) :=
  whenever_keeps fun _ => State.cueEnter_kept ..

theorem execSetp_keeps (cluster s) : Keeps s (execSetp cluster s) :=
  done_keeps <| .trans
    (.either (.parts s (Nat.le_add_right ..) le_rfl List.prefix_rfl id le_rfl id fun h => ⟨h, rfl⟩) (.refl _))
    (State.pitOp_kept ..)

theorem execPitIn_keeps (cluster s) : Keeps s (execPitIn cluster s) := done_keeps (State.pitTake_kept ..)

theorem execIna_keeps (cluster s) : Keeps s (execIna cluster s) := done_keeps (State.pitTake_kept ..)

theorem execPitOut_keeps (cluster s) : Keeps s (execPitOut cluster s) := whenever_keeps fun _ => State.pitOutOp_kept ..

theorem execIllegalOp_keeps (cluster s) : Keeps s (execIllegalOp cluster s) :=
  whenever_keeps fun _ => State.issue_kept ..

/-! ### The house clock -/

theorem execMeasurementTick_keeps (y phasePs s) : Keeps s (execMeasurementTick y phasePs s) :=
  done_keeps ((State.lapse_kept ..).trans <| (State.startTimer_kept ..).trans (State.measure_kept ..))

theorem execEntryDisqualified_keeps (entry phasePs s) : Keeps s (execEntryDisqualified entry phasePs s) :=
  whenever_keeps fun _ => State.disqualify_kept ..

theorem execWtrExpiry_keeps (entry s) : Keeps s (execWtrExpiry entry s) :=
  whenever_keeps fun _ => (State.setEntState_kept ..).trans <| (State.setF_kept ..).trans (State.emit_kept ..)

theorem execXoHistoryValid_keeps (s) : Keeps s (execXoHistoryValid s) :=
  whenever_keeps fun _ => (State.setF_kept ..).trans <| (State.fitXo_kept ..).trans (.lit _ rfl rfl rfl)

theorem execRefAbsent_keeps (input phasePs s) : Keeps s (execRefAbsent input phasePs s) :=
  done_keeps ((Kept.lit _ rfl rfl rfl).trans (State.hckSignals_kept ..))

theorem execRefPresent_keeps (input s) : Keeps s (execRefPresent input s) :=
  whenever_keeps fun _ => (Kept.lit _ rfl rfl rfl).trans (State.entSignals_kept ..)

theorem execLockAcquired_keeps (maxPs s) : Keeps s (execLockAcquired maxPs s) :=
  whenever_keeps fun _ => State.hckState_kept ..

theorem execHoldoverToLost_keeps (s) : Keeps s (execHoldoverToLost s) :=
  whenever_keeps fun _ => (State.lapse_kept ..).trans (State.hckState_kept ..)

theorem execPpsEdge_keeps (input s) : Keeps s (execPpsEdge input s) := whenever_keeps fun _ => State.ppsEdge_kept ..

theorem execPpsMissing_keeps (input s) : Keeps s (execPpsMissing input s) :=
  whenever_keeps fun _ =>
    (State.setF_kept ..).trans <| (Kept.lit _ rfl rfl rfl).trans <| (State.putBit_kept ..).trans (State.emit_kept ..)

theorem execSoftwareLoopOpen_keeps (s) : Keeps s (execSoftwareLoopOpen s) := done_keeps (State.loopOpen_kept ..)

theorem execSoftwareLoopClose_keeps (phasePs s) : Keeps s (execSoftwareLoopClose phasePs s) :=
  done_keeps (State.loopClose_kept ..)

theorem execFowWrite_keeps (fow s) : Keeps s (execFowWrite fow s) := done_keeps (State.fowSet_kept ..)

theorem execSwdogExpiry_keeps (s) : Keeps s (execSwdogExpiry s) :=
  whenever_keeps fun _ => (State.lapse_kept ..).trans (State.hckState_kept ..)

/-! ### Resets -/

theorem execWrstN_keeps (lowSamples s) : Keeps s (execWrstN lowSamples s) :=
  whenever_keeps fun _ => State.warmReset_kept ..

theorem execCxlHotReset_keeps (s) : Keeps s (execCxlHotReset s) :=
  done_keeps <| (State.setF_kept ..).after <| (State.resetConfig_kept s).trans (.lit _ rfl rfl rfl)

theorem execFunctionLevelReset_keeps (s) : Keeps s (execFunctionLevelReset s) := done_keeps (State.resetConfig_kept ..)

theorem execSurpriseRemoval_keeps (s) : Keeps s (execSurpriseRemoval s) := done_keeps (State.disable_kept ..)

theorem execViral_keeps (s) : Keeps s (execViral s) :=
  done_keeps (.parts s le_rfl le_rfl List.prefix_rfl id le_rfl id fun _ => ⟨rfl, rfl⟩)

/-! ### Rings -/

theorem execHostEnable_keeps (s) : Keeps s (execHostEnable s) := whenever_keeps fun _ => State.enable_kept ..

theorem execHostDisable_keeps (s) : Keeps s (execHostDisable s) := whenever_keeps fun _ => State.disable_kept ..

theorem execDoorbell_keeps (off size val ctxBad s) : Keeps s (execDoorbell off size val ctxBad s) :=
  whenever_keeps fun _ => State.ringDoorbell_kept ..

theorem execCommandFetch_keeps (ring desc ctxBad s) : Keeps s (execCommandFetch ring desc ctxBad s) :=
  done_keeps <| by
    split
    · exact .refl _
    · exact State.whenever_kept (fun _ =>
          .either ((State.touchCtx_kept ..).trans (State.ctxError_kept ..)) (State.fetch_kept ..)) ..

theorem execNop_keeps (ring s) : Keeps s (execNop ring s) := withCmd_keeps fun _ _ => State.finish_kept ..

theorem execRingCreate_keeps (ring s) : Keeps s (execRingCreate ring s) := by
  unfold execRingCreate
  exact withCmd_keeps fun _ _ =>
    (Kept.lit _ rfl rfl rfl).trans <|
    .either (State.finish_kept ..) <|
    .either (State.finish_kept ..) <|
    .either (State.finish_kept ..) <|
    (State.setRing_kept ..).trans <| (State.cacheCtx_kept ..).trans (State.finish_kept ..)

theorem execRingDestroy_keeps (ring s) : Keeps s (execRingDestroy ring s) := by
  unfold execRingDestroy
  exact withCmd_keeps fun _ _ =>
    .either (State.finish_kept ..) <| by
      split
      · exact State.finish_kept ..
      · exact .either (State.finish_kept ..) <|
          .either (.refl _) ((State.dropResize_kept ..).trans (State.completeGone_kept ..))

theorem execRingResize_keeps (ring s) : Keeps s (execRingResize ring s) := by
  unfold execRingResize
  exact withCmd_keeps fun _ _ =>
    .either (State.finish_kept ..) <| by
      split
      · exact State.finish_kept ..
      · exact .either (State.finish_kept ..) <|
          (State.dropResize_kept ..).trans <|
          .either ((State.setRing_kept ..).trans <| (State.spaceBack_kept ..).trans (State.finish_kept ..)) <|
          (State.setRing_kept ..).trans <| (State.hstEvent_kept ..).trans (State.finish_kept ..)

theorem execRingQuery_keeps (ring s) : Keeps s (execRingQuery ring s) := by
  unfold execRingQuery
  refine withCmd_keeps fun _ _ => ?_
  split
  · exact State.finish_kept ..
  · exact State.complete_kept ..

theorem execResizeApply_keeps (ring s) : Keeps s (execResizeApply ring s) :=
  done_keeps <| by
    split
    · exact .refl _
    · split
      · exact .refl _
      · exact State.whenever_kept (fun _ => (State.setRing_kept ..).trans (State.hstEvent_kept ..)) ..

theorem execMsixModTimer_keeps (ring s) : Keeps s (execMsixModTimer ring s) :=
  done_keeps <| by
    split
    · exact .refl _
    · exact State.whenever_kept (fun _ => (State.lapse_kept ..).trans (State.announceRing_kept ..)) ..

theorem execMsixHoldoffExpiry_keeps (vector s) : Keeps s (execMsixHoldoffExpiry vector s) :=
  whenever_keeps fun _ =>
    (State.sendMsix_kept ..).after <| (State.runCycles_kept ..).trans (.lit _ rfl rfl rfl)

/-! ### Host accesses -/

theorem execRegisterWrite_keeps (bar off size val same s) : Keeps s (execRegisterWrite bar off size val same s) :=
  whenever_keeps fun _ => by
    split
    · exact State.writeReg_kept ..
    · exact State.ringDoorbell_kept ..
    · exact .refl _

theorem execRegisterReadClear_keeps (bar off size same s) : Keeps s (execRegisterReadClear bar off size same s) :=
  whenever_keeps fun _ => by
    split
    · exact State.readReg_kept ..
    · exact (State.badAccess_kept ..).trans (.lit _ rfl rfl rfl)
    · exact (State.drew_kept ..).trans (.lit _ rfl rfl rfl)

theorem execHdmRead_keeps (addr errs s) : Keeps s (execHdmRead addr errs s) :=
  fault_keeps (whenever_keeps fun _ => State.hdmRead_kept ..)

theorem execHdmWrite_keeps (addr data bytes errs s) : Keeps s (execHdmWrite addr data bytes errs s) :=
  fault_keeps (whenever_keeps fun _ => State.hdmWrite_kept ..)

theorem execHostSnoop_keeps (line s) : Keeps s (execHostSnoop line s) :=
  whenever_keeps fun _ => by
    split
    · exact State.snooped_kept ..
    · exact State.send_kept ..

/-! ### Ingest -/

theorem execIngestPacket_keeps (port fecBad header payload s) : Keeps s (execIngestPacket port fecBad header payload s) :=
  whenever_keeps fun _ =>
    (State.portRefresh_kept ..).trans <|
    .either (State.discard_kept ..) <|
    .either (State.discardCrc_kept ..) <|
    .either (State.discard_kept ..) <|
    (State.followSeq_kept ..).trans <| (State.judge_kept ..).trans (State.keepRaw_kept ..)

theorem execGk4Packet_keeps (port bytes s) : Keeps s (execGk4Packet port bytes s) :=
  whenever_keeps fun _ =>
    (State.portRefresh_kept ..).trans <|
    .either (State.discardCrc_kept ..) ((State.judge_kept ..).trans (State.keepRaw_kept ..))

theorem execBlankRelease_keeps (s) : Keeps s (execBlankRelease s) := done_keeps (.lit _ rfl rfl rfl)

/-! ### Lanes -/

theorem execSerdesRefUnlock_keeps (s) : Keeps s (execSerdesRefUnlock s) :=
  whenever_keeps fun _ =>
    (State.setF_kept ..).trans <| (State.putBit_kept ..).trans <| (State.emit_kept ..).trans (State.raise_kept ..)

theorem execSerdesRefLock_keeps (s) : Keeps s (execSerdesRefLock s) := done_keeps (State.setF_kept ..)

theorem execCodeword_keeps (port lane corrected msg s) : Keeps s (execCodeword port lane corrected msg s) :=
  whenever_keeps fun _ =>
    (State.portRefresh_kept ..).trans <|
    .either (.refl _) <| by
      split
      · exact State.fecGood_kept ..
      · exact State.fecBad_kept ..

theorem execCommaWord_keeps (port lane word s) : Keeps s (execCommaWord port lane word s) :=
  whenever_keeps fun _ =>
    (State.portRefresh_kept ..).trans (.either (State.commaTaken_kept ..) (State.commaBad_kept ..))

theorem execCommaLoss_keeps (port lane s) : Keeps s (execCommaLoss port lane s) :=
  whenever_keeps fun _ => (State.portRefresh_kept ..).trans (State.laneLost_kept ..)

theorem execLaneRestore_keeps (port lane s) : Keeps s (execLaneRestore port lane s) :=
  whenever_keeps fun _ => (State.lapse_kept ..).trans (State.putBit_kept ..)

theorem execDropReqIgnored_keeps (port s) : Keeps s (execDropReqIgnored port s) :=
  whenever_keeps fun _ => (State.lapse_kept ..).trans (State.setPortState_kept ..)

theorem execBlockLockGain_keeps (port lane s) : Keeps s (execBlockLockGain port lane s) :=
  whenever_keeps fun _ =>
    (State.portRefresh_kept ..).trans <|
    (State.laneLocked_kept ..).trans (.either (State.setPortState_kept ..) (.refl _))

theorem execBlockLockLoss_keeps (port lane s) : Keeps s (execBlockLockLoss port lane s) :=
  whenever_keeps fun _ => State.blockLost_kept ..

theorem execPswSend_keeps (port s) : Keeps s (execPswSend port s) :=
  whenever_keeps fun _ => (State.portRefresh_kept ..).trans (State.send_kept ..)

/-! ### The bus matrix -/

theorem execMasterReset_keeps (master bursts cycles s) : Keeps s (execMasterReset master bursts cycles s) :=
  done_keeps ((State.matrixRun_kept ..).trans (State.matrixReset_kept ..))

theorem execMatrixTimeout_keeps (master bursts cycles s) : Keeps s (execMatrixTimeout master bursts cycles s) :=
  done_keeps ((State.matrixRun_kept ..).trans (State.whenever_kept (fun _ => State.matrixLate_kept ..) ..))

theorem execRemapWrite_keeps (master remap s) : Keeps s (execRemapWrite master remap s) :=
  done_keeps <| by
    split
    · exact State.setFlag_kept ..
    · exact State.setFlag_kept ..
    · exact State.setF_kept ..
    · exact .refl _
    · exact .refl _

/-! ### Pit commands -/

theorem execPitLocalWrite_keeps (ring data s) : Keeps s (execPitLocalWrite ring data s) := by
  unfold execPitLocalWrite
  exact withCmd_keeps fun _ _ =>
    .either (.refl _) <|
    .either (State.finish_kept ..) <|
    .either (State.finish_kept ..) <|
    .either (State.finish_kept ..) <|
    .either (State.finish_kept ..) <|
    (State.each_kept (fun _ _ => State.setCluster_kept ..) ..).trans <|
    .either ((State.each_kept (fun _ _ => State.askFlip_kept ..) ..).trans (State.flipsDone_kept ..)) <|
    State.finish_kept ..

theorem execPitLocalRead_keeps (ring s) : Keeps s (execPitLocalRead ring s) := by
  unfold execPitLocalRead
  exact withCmd_keeps fun _ _ =>
    .either (.refl _) <|
    .either (State.finish_kept ..) <|
    .either (State.finish_kept ..) (.either (State.localRead_kept ..) (State.setCluster_kept ..))

theorem execPitCoefWrite_keeps (ring data s) : Keeps s (execPitCoefWrite ring data s) := by
  unfold execPitCoefWrite
  exact withCmd_keeps fun _ _ =>
    .either (.refl _) <|
    .either (State.finish_kept ..) <|
    .either (State.finish_kept ..) <|
    .either (State.finish_kept ..) <|
    (State.each_kept (fun _ _ => State.setCluster_kept ..) ..).trans <|
    .either (.refl _) ((State.drew_kept ..).trans (State.complete_kept ..))

/-! ### Products -/

theorem execIntegrationTimeout_keeps (bank s) : Keeps s (execIntegrationTimeout bank s) :=
  whenever_keeps fun _ => (State.afterClose_kept ..).trans (State.startClose_kept ..)

theorem execSweepComplete_keeps (bank s) : Keeps s (execSweepComplete bank s) :=
  whenever_keeps fun _ => (State.sweep_kept ..).trans (State.retryAdds_kept ..)

theorem execBeamHoldTimeout_keeps (record s) : Keeps s (execBeamHoldTimeout record s) :=
  whenever_keeps fun _ => (State.lapse_kept ..).trans (State.holdOver_kept ..)

theorem execBufAnnounce_keeps (stream s) : Keeps s (execBufAnnounce stream s) :=
  done_keeps <| by
    split
    · exact .refl _
    · exact State.bufNotice_kept ..

theorem execPrdQuery_keeps (ring s) : Keeps s (execPrdQuery ring s) := by
  unfold execPrdQuery
  exact withCmd_keeps fun _ _ => .either (State.finish_kept ..) (State.complete_kept ..)

theorem execPrdFree_keeps (ring s) : Keeps s (execPrdFree ring s) := by
  unfold execPrdFree
  refine withCmd_keeps fun _ _ => ?_
  split
  · exact State.finish_kept ..
  · exact .either (State.finish_kept ..) <|
      .either ((State.freeFrame_kept ..).trans <| (State.retryAdds_kept ..).trans (State.complete_kept ..)) <|
      State.complete_kept ..

/-! ### The store -/

theorem execStoreRead_keeps (port addr errs wait s) : Keeps s (execStoreRead port addr errs wait s) :=
  fault_keeps (whenever_keeps fun _ => State.storeRead_kept ..)

theorem execStoreWrite_keeps (port addr data bytes errs wait s) :
    Keeps s (execStoreWrite port addr data bytes errs wait s) :=
  fault_keeps (whenever_keeps fun _ => State.storeWrite_kept ..)

theorem execAtomicAdd_keeps (port addr fmt mask data errs s) : Keeps s (execAtomicAdd port addr fmt mask data errs s) :=
  fault_keeps (whenever_keeps fun _ => State.storeAdd_kept ..)

theorem execPatrolScrub_keeps (pc errs s) : Keeps s (execPatrolScrub pc errs s) :=
  whenever_keeps fun _ => State.scrub_kept ..

theorem execRefreshDue_keeps (pc bank queued s) : Keeps s (execRefreshDue pc bank queued s) :=
  whenever_keeps fun _ => State.refreshDue_kept ..

theorem execStoreTrainingDone_keeps (failed s) : Keeps s (execStoreTrainingDone failed s) :=
  whenever_keeps fun _ => State.firstTraining_kept ..

theorem execRetrainStart_keeps (pc s) : Keeps s (execRetrainStart pc s) := whenever_keeps fun _ => State.retrain_kept ..

theorem execRetrainComplete_keeps (pc readPs writePs vref newOk lastGoodOk s) :
    Keeps s (execRetrainComplete pc readPs writePs vref newOk lastGoodOk s) :=
  whenever_keeps fun _ => State.retrained_kept ..

theorem execFenceRelocationDone_keeps (pc s) : Keeps s (execFenceRelocationDone pc s) :=
  whenever_keeps fun _ => State.relocated_kept ..

theorem execSelfRefreshReentry_keeps (pc s) : Keeps s (execSelfRefreshReentry pc s) :=
  whenever_keeps fun _ => (State.enterSr_kept ..).trans (State.refreshAllSr_kept ..)

theorem execCeWindowEnd_keeps (pc s) : Keeps s (execCeWindowEnd pc s) :=
  done_keeps <| by
    split
    · exact (State.setPch_kept ..).trans (State.emit_kept ..)
    · exact .refl _

/-! ## The commands that end viral, and power-on -/

/-- The state with viral no longer reported. -/
def State.calm (s : State) : State := { s with host.viral := false }

theorem Kept.calm {s t : State} (h : Kept s t) : Kept s.calm t.calm where
  pending := h.pending
  mem := h.mem
  hostMem := h.hostMem
  sent := h.sent
  seq := h.seq
  free := h.free
  cycles := h.cycles
  viral := nofun

/-- As `Keeps`, but that viral may have ended. -/
def KeepsButViral (s : State) (o : Res) : Prop := ∀ t, o = .next t → ∃ u : State, Kept s.calm u.calm ∧ t = u.settle

theorem Keeps.butViral {s : State} {o : Res} (h : Keeps s o) : KeepsButViral s o := fun t e =>
  have ⟨u, k, ht⟩ := h t e
  ⟨u, k.calm, ht⟩

theorem done_keepsButViral {s u : State} (h : Kept s.calm u.calm) : KeepsButViral s (done u) :=
  fun _ e => ⟨u, h, (Host.Outcome.next.inj e).symm⟩

theorem State.conventionalReset_kept_calm (s : State) : Kept s.calm s.conventionalReset.calm := by
  unfold State.conventionalReset
  have hfields (x : State) : Kept x.calm ({ x with
      host.snoop := [], host.viral := false, host.ideKeys := false, pwr.trained := false } : State).calm :=
    .lit _ rfl rfl rfl
  refine (State.resetConfig_kept s).calm.trans <| (hfields _).trans (Kept.calm ?_)
  exact (State.setF_kept ..).trans <| (State.setF_kept ..).trans <| (State.setF_kept ..).trans <|
    (State.setF_kept ..).trans (State.setF_kept ..)

theorem execCxlConventionalReset_keepsButViral (s) : KeepsButViral s (execCxlConventionalReset s) := by
  refine done_keepsButViral ?_
  split
  · exact (State.wake_kept s).calm
  · exact s.conventionalReset_kept_calm

theorem State.goDark_kept_calm (s : State) : Kept s.calm s.goDark.calm := by
  unfold State.goDark
  refine .trans ?_ (State.hckLinks_kept _).calm
  exact .parts _ le_rfl le_rfl List.prefix_rfl (fun _ => rfl) le_rfl id nofun

theorem execDarkReached_keepsButViral (s) : KeepsButViral s (execDarkReached s) := by
  refine done_keepsButViral ?_
  split
  · split
    · have h := ((State.pwrEnter_kept s 3).trans (State.pwrEnd_kept _)).calm.trans (State.goDark_kept_calm _)
      exact h.trans (.lit _ rfl rfl rfl)
    · exact .refl _
  · exact .refl _

/-! ## Every command -/

/-- Every command but PORST_N, a conventional reset and the fall into DARK keeps what every shared operation keeps. -/
theorem exec_keeps (c : Instr) (s : State) (hp : ∀ b i, c ≠ .porstN b i) (hc : c ≠ .cxlConventionalReset)
    (hd : c ≠ .darkReached) : Keeps s (exec c s) := by
  cases c with
  | porstN b i => exact absurd rfl (hp b i)
  | wrstN lowSamples => exact execWrstN_keeps lowSamples s
  | cxlConventionalReset => exact absurd rfl hc
  | cxlHotReset => exact execCxlHotReset_keeps s
  | functionLevelReset => exact execFunctionLevelReset_keeps s
  | surpriseRemoval => exact execSurpriseRemoval_keeps s
  | viral => exact execViral_keeps s
  | registerWrite bar off size val same => exact execRegisterWrite_keeps bar off size val same s
  | registerReadClear bar off size same => exact execRegisterReadClear_keeps bar off size same s
  | hostEnable => exact execHostEnable_keeps s
  | hostDisable => exact execHostDisable_keeps s
  | doorbell off size val ctxBad => exact execDoorbell_keeps off size val ctxBad s
  | commandFetch ring desc ctxBad => exact execCommandFetch_keeps ring desc ctxBad s
  | nop ring => exact execNop_keeps ring s
  | ringCreate ring => exact execRingCreate_keeps ring s
  | ringDestroy ring => exact execRingDestroy_keeps ring s
  | ringResize ring => exact execRingResize_keeps ring s
  | ringQuery ring => exact execRingQuery_keeps ring s
  | resizeApply ring => exact execResizeApply_keeps ring s
  | msixModTimer ring => exact execMsixModTimer_keeps ring s
  | msixHoldoffExpiry vector => exact execMsixHoldoffExpiry_keeps vector s
  | hdmRead addr errs => exact execHdmRead_keeps addr errs s
  | hdmWrite addr data bytes errs => exact execHdmWrite_keeps addr data bytes errs s
  | hostSnoop line => exact execHostSnoop_keeps line s
  | doeObject protocol body => exact execDoeObject_keeps protocol body s
  | doeAbort => exact execDoeAbort_keeps s
  | doeDiscovery => exact execDoeDiscovery_keeps s
  | cdatRead => exact execCdatRead_keeps s
  | ideKm => exact execIdeKm_keeps s
  | getId => exact execGetId_keeps s
  | getReport => exact execGetReport_keeps s
  | session => exact execSession_keeps s
  | debugUnlock => exact execDebugUnlock_keeps s
  | endSession => exact execEndSession_keeps s
  | scriptLoad ring data => exact execScriptLoad_keeps ring data s
  | scriptCommit ring sig uncorrectable => exact execScriptCommit_keeps ring sig uncorrectable s
  | scriptCancel ring => exact execScriptCancel_keeps ring s
  | scriptRead ring => exact execScriptRead_keeps ring s
  | lockPoint => exact execLockPoint_keeps s
  | imageRelease index => exact execImageRelease_keeps index s
  | rollCallGo code => exact execRollCallGo_keeps code s
  | rollCallQuery code => exact execRollCallQuery_keeps code s
  | rollCallDone h l => exact execRollCallDone_keeps h l s
  | measurementTick y phasePs => exact execMeasurementTick_keeps y phasePs s
  | entryDisqualified entry phasePs => exact execEntryDisqualified_keeps entry phasePs s
  | wtrExpiry entry => exact execWtrExpiry_keeps entry s
  | xoHistoryValid => exact execXoHistoryValid_keeps s
  | refAbsent input phasePs => exact execRefAbsent_keeps input phasePs s
  | refPresent input => exact execRefPresent_keeps input s
  | lockAcquired maxPs => exact execLockAcquired_keeps maxPs s
  | holdoverToLost => exact execHoldoverToLost_keeps s
  | ppsEdge input => exact execPpsEdge_keeps input s
  | ppsMissing input => exact execPpsMissing_keeps input s
  | softwareLoopOpen => exact execSoftwareLoopOpen_keeps s
  | softwareLoopClose phasePs => exact execSoftwareLoopClose_keeps phasePs s
  | fowWrite fow => exact execFowWrite_keeps fow s
  | swdogExpiry => exact execSwdogExpiry_keeps s
  | serdesRefUnlock => exact execSerdesRefUnlock_keeps s
  | epochStart => exact execEpochStart_keeps s
  | epochClr => exact execEpochClr_keeps s
  | stepArm => exact execStepArm_keeps s
  | dwellStart => exact execDwellStart_keeps s
  | dwellClose => exact execDwellClose_keeps s
  | epsRecord => exact execEpsRecord_keeps s
  | sync port hdr t1 corr twoStep seq => exact execSync_keeps port hdr t1 corr twoStep seq s
  | followUp port hdr t1 corr seq => exact execFollowUp_keeps port hdr t1 corr seq s
  | delayResp port hdr t4 corr => exact execDelayResp_keeps port hdr t4 corr s
  | announce port hdr data => exact execAnnounce_keeps port hdr data s
  | delayReq dom => exact execDelayReq_keeps dom s
  | announceTimeout dom => exact execAnnounceTimeout_keeps dom s
  | domainWtrExpiry dom => exact execDomainWtrExpiry_keeps dom s
  | domainRevert => exact execDomainRevert_keeps s
  | slewComplete => exact execSlewComplete_keeps s
  | compareArm unit => exact execCompareArm_keeps unit s
  | compareFire unit => exact execCompareFire_keeps unit s
  | snapshotRead => exact execSnapshotRead_keeps s
  | sequenceAssign bad => exact execSequenceAssign_keeps bad s
  | codeword port lane corrected msg => exact execCodeword_keeps port lane corrected msg s
  | commaWord port lane word => exact execCommaWord_keeps port lane word s
  | commaLoss port lane => exact execCommaLoss_keeps port lane s
  | laneRestore port lane => exact execLaneRestore_keeps port lane s
  | dropReqIgnored port => exact execDropReqIgnored_keeps port s
  | blockLockGain port lane => exact execBlockLockGain_keeps port lane s
  | blockLockLoss port lane => exact execBlockLockLoss_keeps port lane s
  | pswSend port => exact execPswSend_keeps port s
  | ingestPacket port fecBad header payload => exact execIngestPacket_keeps port fecBad header payload s
  | gk4Packet port bytes => exact execGk4Packet_keeps port bytes s
  | blankRelease => exact execBlankRelease_keeps s
  | nullVectors cluster => exact execNullVectors_keeps cluster s
  | cueInterrupt cluster input => exact execCueInterrupt_keeps cluster input s
  | pitNop => exact pitOp_keeps
  | mul => exact pitOp_keeps
  | mac => exact pitOp_keeps
  | tapm => exact pitOp_keeps
  | mpxa => exact pitOp_keeps
  | ald => exact pitOp_keeps
  | aclr => exact pitOp_keeps
  | ext => exact pitOp_keeps
  | qpk => exact pitOp_keeps
  | cis => exact pitOp_keeps
  | mag => exact pitOp_keeps
  | add => exact pitOp_keeps
  | sub => exact pitOp_keeps
  | pitAnd => exact pitOp_keeps
  | pitOr => exact pitOp_keeps
  | pitXor => exact pitOp_keeps
  | pitMin => exact pitOp_keeps
  | pitMax => exact pitOp_keeps
  | sel => exact pitOp_keeps
  | cnt => exact pitOp_keeps
  | cmp => exact pitOp_keeps
  | pack => exact pitOp_keeps
  | addi => exact pitOp_keeps
  | andi => exact pitOp_keeps
  | shli => exact pitOp_keeps
  | shrai => exact pitOp_keeps
  | mvi => exact pitOp_keeps
  | cmpi => exact pitOp_keeps
  | setp cluster => exact execSetp_keeps cluster s
  | setk => exact pitOp_keeps
  | setn => exact pitOp_keeps
  | setbw => exact pitOp_keeps
  | fclr => exact pitOp_keeps
  | pitIn cluster => exact execPitIn_keeps cluster s
  | ina cluster => exact execIna_keeps cluster s
  | pitOut cluster => exact execPitOut_keeps cluster s
  | mvt => exact pitOp_keeps
  | vclr => exact pitOp_keeps
  | br => exact pitOp_keeps
  | loop => exact pitOp_keeps
  | rti => exact pitOp_keeps
  | illegalOp cluster => exact execIllegalOp_keeps cluster s
  | pitLocalWrite ring data => exact execPitLocalWrite_keeps ring data s
  | pitLocalRead ring => exact execPitLocalRead_keeps ring s
  | pitCoefWrite ring data => exact execPitCoefWrite_keeps ring data s
  | storeRead port addr errs wait => exact execStoreRead_keeps port addr errs wait s
  | storeWrite port addr data bytes errs wait => exact execStoreWrite_keeps port addr data bytes errs wait s
  | atomicAdd port addr fmt mask data errs => exact execAtomicAdd_keeps port addr fmt mask data errs s
  | patrolScrub pc errs => exact execPatrolScrub_keeps pc errs s
  | refreshDue pc bank queued => exact execRefreshDue_keeps pc bank queued s
  | storeTrainingDone failed => exact execStoreTrainingDone_keeps failed s
  | retrainStart pc => exact execRetrainStart_keeps pc s
  | retrainComplete pc readPs writePs vref newOk lastGoodOk => exact execRetrainComplete_keeps pc readPs writePs vref newOk lastGoodOk s
  | fenceRelocationDone pc => exact execFenceRelocationDone_keeps pc s
  | selfRefreshReentry pc => exact execSelfRefreshReentry_keeps pc s
  | ceWindowEnd pc => exact execCeWindowEnd_keeps pc s
  | streamBurst mover withdrawn failures => exact execStreamBurst_keeps mover withdrawn failures s
  | flushMarkerPass line => exact execFlushMarkerPass_keeps line s
  | replayReadTimeout page => exact execReplayReadTimeout_keeps page s
  | descNop mover => exact execDescNop_keeps mover s
  | copy mover data failures withdrawn => exact execCopy_keeps mover data failures withdrawn s
  | fill mover failures withdrawn => exact execFill_keeps mover failures withdrawn s
  | ilv mover data failures withdrawn => exact execIlv_keeps mover data failures withdrawn s
  | tri mover data failures withdrawn => exact execTri_keeps mover data failures withdrawn s
  | fence mover => exact execFence_keeps mover s
  | descriptorComplete mover next => exact execDescriptorComplete_keeps mover next s
  | paceTimeout mover => exact execPaceTimeout_keeps mover s
  | movRun ring desc => exact execMovRun_keeps ring desc s
  | movStop ring => exact execMovStop_keeps ring s
  | replayStart => exact execReplayStart_keeps s
  | corrPassStart part => exact execCorrPassStart_keeps part s
  | corrPassEnd part => exact execCorrPassEnd_keeps part s
  | gap part => exact execGap_keeps part s
  | drainComplete part => exact execDrainComplete_keeps part s
  | dwellDrained => exact execDwellDrained_keeps s
  | beamPassStart part => exact execBeamPassStart_keeps part s
  | beamPassComplete part => exact execBeamPassComplete_keeps part s
  | weightLoadStart => exact execWeightLoadStart_keeps s
  | weightLoadComplete => exact execWeightLoadComplete_keeps s
  | weightLoadEscalate => exact execWeightLoadEscalate_keeps s
  | recordReleaseTimeout record => exact execRecordReleaseTimeout_keeps record s
  | recordRelease record => exact execRecordRelease_keeps record s
  | integrationTimeout bank => exact execIntegrationTimeout_keeps bank s
  | sweepComplete bank => exact execSweepComplete_keeps bank s
  | beamHoldTimeout record => exact execBeamHoldTimeout_keeps record s
  | bufAnnounce stream => exact execBufAnnounce_keeps stream s
  | prdQuery ring => exact execPrdQuery_keeps ring s
  | prdFree ring => exact execPrdFree_keeps ring s
  | fabricInput port fecBad header payload => exact execFabricInput_keeps port fecBad header payload s
  | fabricAdd port fecBad header payload => exact execFabricAdd_keeps port fecBad header payload s
  | endMark port fecBad header => exact execEndMark_keeps port fecBad header s
  | fabricWrite port fecBad header payload => exact execFabricWrite_keeps port fecBad header payload s
  | writeAck port fecBad header => exact execWriteAck_keeps port fecBad header s
  | beacon port fecBad header payload => exact execBeacon_keeps port fecBad header payload s
  | creditUnit port fecBad header => exact execCreditUnit_keeps port fecBad header s
  | fabricTransmit port => exact execFabricTransmit_keeps port s
  | creditSend port => exact execCreditSend_keeps port s
  | beaconSend port => exact execBeaconSend_keeps port s
  | writeAckTimeout mover seq => exact execWriteAckTimeout_keeps mover seq s
  | claimForget chip => exact execClaimForget_keeps chip s
  | cueInEdge pin level nearEdge => exact execCueInEdge_keeps pin level nearEdge s
  | channelEdge channel => exact execChannelEdge_keeps channel s
  | filterMinwPass filter => exact execFilterMinwPass_keeps filter s
  | filterRateRelease filter => exact execFilterRateRelease_keeps filter s
  | filterStuck filter => exact execFilterStuck_keeps filter s
  | cueFirePulse channel => exact execCueFirePulse_keeps channel s
  | cueFireSet channel => exact execCueFireSet_keeps channel s
  | cueFireClear channel => exact execCueFireClear_keeps channel s
  | channelReenable channel => exact execChannelReenable_keeps channel s
  | filterReenable filter => exact execFilterReenable_keeps filter s
  | railFault source code => exact execRailFault_keeps source code s
  | reactionStart => exact execReactionStart_keeps s
  | fltAck source => exact execFltAck_keeps source s
  | ackTimeout source => exact execAckTimeout_keeps source s
  | ironMoverCut mover => exact execIronMoverCut_keeps mover s
  | curtainFrame port => exact execCurtainFrame_keeps port s
  | ironReq => exact execIronReq_keeps s
  | ironExit selfTestOk => exact execIronExit_keeps selfTestOk s
  | serviceEntry rails => exact execServiceEntry_keeps rails s
  | fflRearm => exact execFflRearm_keeps s
  | paritySweep error => exact execParitySweep_keeps error s
  | heartbeatSend => exact execHeartbeatSend_keeps s
  | heartbeat fecBad header payload => exact execHeartbeat_keeps fecBad header payload s
  | partnerLost => exact execPartnerLost_keeps s
  | swapPropose => exact execSwapPropose_keeps s
  | joinTimeout => exact execJoinTimeout_keeps s
  | digestSend dwell => exact execDigestSend_keeps dwell s
  | digest fecBad header payload => exact execDigest_keeps fecBad header payload s
  | digestSkip dwell => exact execDigestSkip_keeps dwell s
  | engineFault row col => exact execEngineFault_keeps row col s
  | clusterFault phys => exact execClusterFault_keeps phys s
  | laneGraceExpiry port => exact execLaneGraceExpiry_keeps port s
  | duoSwap ring => exact execDuoSwap_keeps ring s
  | duoWithdraw ring => exact execDuoWithdraw_keeps ring s
  | duoRejoin ring => exact execDuoRejoin_keeps ring s
  | spareRetire ring => exact execSpareRetire_keeps ring s
  | journalWriteDone copies => exact execJournalWriteDone_keeps copies s
  | masterReset master bursts cycles => exact execMasterReset_keeps master bursts cycles s
  | matrixTimeout master bursts cycles => exact execMatrixTimeout_keeps master bursts cycles s
  | remapWrite master remap => exact execRemapWrite_keeps master remap s
  | coreHeartbeat core => exact execCoreHeartbeat_keeps core s
  | coreWatchdogExpiry core => exact execCoreWatchdogExpiry_keeps core s
  | fwAbsent => exact execFwAbsent_keeps s
  | bootImageFetched source image => exact execBootImageFetched_keeps source image s
  | pushChunk => exact execPushChunk_keeps s
  | pushChunkDone => exact execPushChunkDone_keeps s
  | fwUpdate ring image => exact execFwUpdate_keeps ring image s
  | coreReady core => exact execCoreReady_keeps core s
  | updateCoreTimeout core => exact execUpdateCoreTimeout_keeps core s
  | keyRevoke ring image => exact execKeyRevoke_keeps ring image s
  | rollbackAnchor ring => exact execRollbackAnchor_keeps ring s
  | ownerSet ring image => exact execOwnerSet_keeps ring image s
  | nonceRead ring => exact execNonceRead_keeps ring s
  | avsUpdate => exact execAvsUpdate_keeps s
  | avsApplied code => exact execAvsApplied_keeps code s
  | avsTimeout => exact execAvsTimeout_keeps s
  | wake => exact execWake_keeps s
  | darkRequest => exact execDarkRequest_keeps s
  | railFaultReport rail => exact execRailFaultReport_keeps rail s
  | thermalSample die hbm => exact execThermalSample_keeps die hbm s
  | pwrSet ring => exact execPwrSet_keeps ring s
  | holdReached => exact execHoldReached_keeps s
  | intermissionReached => exact execIntermissionReached_keeps s
  | darkReached => exact absurd rfl hd
  | holdNow => exact execHoldNow_keeps s
  | clkMin => exact execClkMin_keeps s
  | pitBlockReset => exact execPitBlockReset_keeps s
  | movBlockReset => exact execMovBlockReset_keeps s
  | stgBlockReset => exact execStgBlockReset_keeps s
  | cueBlockReset => exact execCueBlockReset_keeps s
  | hstBlockReset => exact execHstBlockReset_keeps s
  | blockResetDone block => exact execBlockResetDone_keeps block s
  | timePortFrame port frame => exact execTimePortFrame_keeps port frame s
  | syncTimeout dom => exact execSyncTimeout_keeps dom s
  | serdesRefLock => exact execSerdesRefLock_keeps s
  | jtagInstruction op => exact execJtagInstruction_keeps op s
  | cxlLinkTrained width rate flit256 => exact execCxlLinkTrained_keeps width rate flit256 s

theorem exec_keepsButViral (c : Instr) (s : State) (hp : ∀ b i, c ≠ .porstN b i) : KeepsButViral s (exec c s) := by
  by_cases hc : c = .cxlConventionalReset
  · rw [hc]
    exact execCxlConventionalReset_keepsButViral s
  by_cases hd : c = .darkReached
  · rw [hd]
    exact execDarkReached_keepsButViral s
  exact (exec_keeps c s hp hc hd).butViral

/-- PORST_N answers a settled state that keeps what power-on leaves (R388). -/
theorem execPorstN_kept (b i s t) (h : exec (.porstN b i) s = .next t) : Kept (s.powerOn b.val i.val) t ∧ t.flt.c4 = [] := by
  have ht := (Host.Outcome.next.inj h).symm
  have hk := (State.showHckSt_kept (s.powerOn b.val i.val)).trans <| (State.startPorts_kept _).trans (State.startBoot_kept _ 0)
  exact ht ▸ ⟨hk.trans (State.settle_kept _), State.settle_c4 _⟩

/-- What every command keeps of the invariant, PORST_N among them. -/
theorem exec_keeps_inv {c : Instr} {s t : State} (hs : s.Inv) (h : exec c s = .next t) : t.Inv := by
  obtain ⟨hm, hh, -, hn⟩ := hs
  by_cases hp : ∃ b i, c = .porstN b i
  · obtain ⟨b, i, rfl⟩ := hp
    obtain ⟨k, hc4⟩ := execPorstN_kept b i s t h
    exact ⟨k.mem rfl, k.hostMem hh, hc4, k.seq⟩
  · obtain ⟨u, k, rfl⟩ := exec_keepsButViral c s (fun b i e => hp ⟨b, i, e⟩) t h
    have ku := k.trans u.settle_kept.calm
    exact ⟨ku.mem hm, ku.hostMem hh, u.settle_c4, hn.trans ku.seq⟩

theorem State.idle_inv {s : State} (hs : s.Inv) : s.idle.Inv := by
  obtain ⟨hm, hh, -, hn⟩ := hs
  have k := s.idle_kept
  exact ⟨k.mem hm, k.hostMem hh, State.settle_c4 _, hn.trans k.seq⟩

/-- The invariant does not speak of the queue. -/
theorem State.Inv.dequeue {s : State} (h : s.Inv) (p : List Instr) : ({ s with pending := p } : State).Inv :=
  have ⟨hm, hh, hc4, hn⟩ := h
  ⟨hm, hh, hc4, hn⟩

/-- Settles O27: a command keeps the invariant through `Kept`, and PORST_N builds it anew. -/
theorem stepKeepsInvariant : Obligations.StepKeepsInvariant := by
  intro s t hs h
  unfold step at h
  split at h
  · exact Host.Outcome.next.inj h ▸ State.idle_inv hs
  · exact exec_keeps_inv (hs.dequeue _) h

/-- Settles O25: the tables are empty and the next number is 1. -/
theorem resetKeepsInvariant : Obligations.ResetKeepsInvariant := ⟨rfl, rfl, rfl, Nat.le_refl 1⟩

/-- Settles O30: every command appends to what was sent; PORST_N takes it over from before. -/
theorem outputOnlyGrows : Obligations.OutputOnlyGrows := by
  intro c s t h
  by_cases hp : ∃ b i, c = .porstN b i
  · obtain ⟨b, i, rfl⟩ := hp
    exact (execPorstN_kept b i s t h).1.sent
  · obtain ⟨u, k, rfl⟩ := exec_keepsButViral c s (fun b i e => hp ⟨b, i, e⟩) t h
    exact (k.trans u.settle_kept.calm).sent

end Sys2Proof.Machine
end

section
/-!
PROOFS. PORST_N: what power-on leaves, the ports that start to hunt and the start of boot, and with it the event number (R15, R82,
R94, R117, R316, R357, R385, R388).
-/

namespace Sys2Proof.Machine

/-! ## PORST_N (R388) -/

/-! ### A port starts to hunt -/

/-- The state with one more event in its outbox. -/
def State.logged (s : State) (e : Ev) : State := { s with outbox := s.outbox ++ [e] }

/-- Out of service an event is only put in the outbox (R310, R316). -/
theorem State.post_of_not_inService (s : State) (e : Ev) (h : s.inService = false) : s.post e = s.logged e := by
  have hp : s.promoted e.src e.cls = e.cls := by
    unfold State.promoted
    rw [h]
    split
    · exact Eq.symm ‹_›
    · rfl
  have h' : (s.logged e).inService = false := h
  unfold State.logged at h' ⊢
  simp [State.post, hp, h']

/-- A producer that already drives a level changes nothing (R295). -/
theorem State.drive_of_level (s : State) (p : Nat) (lev : Bool) (h : Tbl.get s.cue.prodLevel false p = lev) :
    s.drive p lev = s := if_pos h

/-- Code and DATA0 of the event of a port that starts to hunt (R117, R128, R291). -/
def huntEvent (p : Nat) : Nat × Nat := if p < 24 then (0x0302, p + 2 ^ 12) else (0x0A01, p - 24 + 2 ^ 12)

theorem State.portEvent_hunts (s : State) (p : Nat) (hp : p < 32) (h : s.inService = false) :
    ∃ e : Ev, s.portEvent p 0 1 = s.logged e ∧ (e.code, e.d0) = huntEvent p := by
  unfold State.portEvent huntEvent
  dsimp only
  split
  · refine ⟨_, s.post_of_not_inService _ h, ?_⟩
    simp only [Prod.mk.injEq, true_and]
    omega
  · refine ⟨_, s.post_of_not_inService _ h, ?_⟩
    simp only [Prod.mk.injEq, true_and]
    omega

/-- The STATE fields of the ports lie between the control plane's and the collector's. -/
theorem portStateF_off (p : Nat) (hp : p < 32) : 0x300000 ≤ (portStateF p).off ∧ (portStateF p).off < 0xB00000 := by
  unfold portStateF
  split <;> simp only [ING_P_STATUS.STATE, FAB_P_STATUS.STATE, Fld.plus] <;> omega

theorem portStateF_lo (p : Nat) : (portStateF p).lo = 0 := by
  unfold portStateF
  split <;> rfl

theorem portStateF_key_injective {p q : Nat} (hp : p < 32) (hq : q < 32)
    (h : (portStateF p).key = (portStateF q).key) : p = q := by
  simp only [Fld.key, portStateF_lo] at h
  unfold portStateF at h
  split at h <;> split at h <;> simp only [ING_P_STATUS.STATE, FAB_P_STATUS.STATE, Fld.plus] at h <;> omega

theorem State.inService_setF_portStateF (s : State) (p v : Nat) (hp : p < 32) :
    (s.setF (portStateF p) v).inService = s.inService := by
  have h := portStateF_off p hp
  have hk : FLT_STATUS.SERVICE.key ≠ (portStateF p).key := by
    simp only [Fld.key, portStateF_lo, FLT_STATUS.SERVICE]
    omega
  unfold State.inService State.flag
  rw [State.getF_setF_other _ _ _ _ hk]

/-- An OFF port, out of service and with its line high, starts to hunt: its STATE and its event, and nothing else (R117). -/
theorem State.setPortState_hunts (s : State) (p : Nat) (hp : p < 32) (hst : s.getF (portStateF p) = 0)
    (hsvc : s.inService = false) (hlev : Tbl.get s.cue.prodLevel false (59 + p) = true) :
    ∃ e : Ev, s.setPortState p 1 = (s.setF (portStateF p) 1).logged e ∧ (e.code, e.d0) = huntEvent p := by
  obtain ⟨e, he, hv⟩ := (s.setF (portStateF p) 1).portEvent_hunts p hp (by rw [s.inService_setF_portStateF p 1 hp, hsvc])
  refine ⟨e, ?_, hv⟩
  have hdrive := ((s.setF (portStateF p) 1).logged e).drive_of_level (59 + p) true hlev
  have hfab (u : State) (f : Nat) : u.fabPortMoves f 0 1 = u := rfl
  simp [State.setPortState, hst, he, hdrive, hfab]

theorem State.portRefresh_hunts (s : State) (p : Nat) (hp : p < 32) (hen : s.flag (portEnF p) = true)
    (hst : s.getF (portStateF p) = 0) (hsvc : s.inService = false) (hlev : Tbl.get s.cue.prodLevel false (59 + p) = true) :
    ∃ e : Ev, s.portRefresh p = (s.setF (portStateF p) 1).logged e ∧ (e.code, e.d0) = huntEvent p := by
  have h : s.portRefresh p = s.setPortState p 1 := by simp [State.portRefresh, hen, hst]
  rw [h]
  exact s.setPortState_hunts p hp hst hsvc hlev

/-! ### The ports of a machine that has just powered on -/

/-- A machine whose registers all read their reset values, out of service, with the lines of its ports high: as PORST_N has it
before the ports hunt. -/
structure Cold (s : State) : Prop where
  regs : s.regs = []
  outbox : s.outbox = []
  lines : ∀ p < 32, Tbl.get s.cue.prodLevel false (59 + p) = true

/-- The first `n` ports of the cold machine `s` hunt, each with its event; every other field and every other part is as before. -/
structure Hunts (s : State) (n : Nat) (t : State) : Prop where
  only : t = { s with regs := t.regs, outbox := t.outbox }
  events : t.outbox.map (fun e => (e.code, e.d0)) = (List.range n).map huntEvent
  hunts : ∀ p < n, t.getF (portStateF p) = 1
  others : sameFields ((List.range n).map portStateF) s t

/-- A field that the register file does not list reads its reset value (R6). -/
theorem State.getF_of_regs_nil {s : State} (h : s.regs = []) {f : Fld} (hf : f.rst < 2 ^ 64) : s.getF f = f.rst := by
  simp only [State.getF, h, Tbl.get, BitVec.toNat_ofNat]
  exact Nat.mod_eq_of_lt hf

theorem portEnF_key_ne_portStateF_key (p q : Nat) : (portEnF p).key ≠ (portStateF q).key := by
  simp only [Fld.key, portEnF, portStateF]
  split <;> split <;> simp only [ING_P_CTRL.EN, FAB_P_CTRL.EN, ING_P_STATUS.STATE, FAB_P_STATUS.STATE, Fld.plus] <;> omega

theorem portEnF_rst (p : Nat) : (portEnF p).rst = 1 := by
  unfold portEnF
  split <;> rfl

theorem portStateF_rst (p : Nat) : (portStateF p).rst = 0 := by
  unfold portStateF
  split <;> rfl

theorem portStateF_w (p : Nat) : (portStateF p).w = 3 := by
  unfold portStateF
  split <;> rfl

theorem portStateF_key_ne_service {p : Nat} (hp : p < 32) : FLT_STATUS.SERVICE.key ≠ (portStateF p).key := by
  have h := portStateF_off p hp
  simp only [Fld.key, portStateF_lo, FLT_STATUS.SERVICE]
  omega

section
variable {s t : State} {n : Nat} (hs : Cold s) (ht : Hunts s n t)
include hs ht

/-- A field that is no STATE of the ports that hunt still reads its reset value. -/
theorem Hunts.getF_eq_rst {f : Fld} (hr : f.rst < 2 ^ 64) (hf : ∀ p < n, f.key ≠ (portStateF p).key) : t.getF f = f.rst := by
  rw [ht.others f (by simpa [eq_comm] using hf), State.getF_of_regs_nil hs.regs hr]

theorem Hunts.inService (hn : n ≤ 32) : t.inService = false := by
  have h := ht.getF_eq_rst hs (f := FLT_STATUS.SERVICE) (by decide)
    (fun p hp => portStateF_key_ne_service (hp.trans_le hn))
  simp only [State.inService, State.flag, h]
  rfl

/-- The next port starts to hunt. -/
theorem Hunts.succ (hn : n < 32) : Hunts s (n + 1) (t.portRefresh n) := by
  have hen : t.flag (portEnF n) = true := by
    have h := ht.getF_eq_rst hs (f := portEnF n) (by rw [portEnF_rst]; decide) (fun p _ => portEnF_key_ne_portStateF_key n p)
    simp [State.flag, h, portEnF_rst]
  have hst : t.getF (portStateF n) = 0 := by
    rw [ht.getF_eq_rst hs (by rw [portStateF_rst]; decide), portStateF_rst]
    exact fun p hp e => hp.ne (portStateF_key_injective (hp.trans hn) hn e.symm)
  have hlev : Tbl.get t.cue.prodLevel false (59 + n) = true := by
    rw [ht.only]
    exact hs.lines n hn
  obtain ⟨e, he, hv⟩ := t.portRefresh_hunts n hn hen hst (ht.inService hs hn.le) hlev
  rw [he]
  constructor
  case only =>
    conv_lhs => rw [ht.only]
    rfl
  case events => simp [State.logged, ht.events, hv, List.range_succ]
  case hunts =>
    intro p hp
    rcases Nat.lt_succ_iff_lt_or_eq.mp hp with h | rfl
    · exact (t.getF_setF_other _ _ 1 fun e => h.ne (portStateF_key_injective (h.trans hn) hn e)).trans (ht.hunts p h)
    · exact (t.getF_setF_self _ 1 (by rw [portStateF_w]; decide)).trans (by rw [portStateF_w]; rfl)
  case others =>
    intro f hf
    simp only [List.range_succ, List.map_append, List.mem_append, not_or] at hf
    exact (t.getF_setF_other _ _ 1 (by simpa using hf.2)).trans (ht.others f hf.1)

end

theorem Cold.hunts {s : State} (hs : Cold s) : ∀ n ≤ 32, Hunts s n (s.each (List.range n) State.portRefresh)
  | 0, _ => ⟨rfl, by simp [State.each, hs.outbox], nofun, fun _ _ => rfl⟩
  | n + 1, hn => by
    have h := (hs.hunts n (Nat.le_of_succ_le hn)).succ hs hn
    simpa [State.each, List.range_succ] using h

/-- After PORST_N every port of the machine hunts (R117). -/
theorem Cold.startPorts {s : State} (hs : Cold s) : Hunts s 32 s.startPorts := hs.hunts 32 le_rfl

/-- What power-on leaves is cold; the pins show the state of the house clock, FREE RUN. -/
theorem cold_powerOn (s : State) (b i : Nat) : Cold (s.powerOn b i).showHckSt := by
  refine ⟨rfl, rfl, ?_⟩
  show ∀ p < 32, Tbl.get CueU.fresh.prodLevel false (59 + p) = true
  decide

/-! ### The start of boot -/

/-- The state but for what the start of boot writes. -/
def State.besideBoot (s : State) : State := { s with regs := [], freeCount := 0, ctl := CtlU.fresh }

/-- From `s` to `t` only registers of the control plane, its own unit and the count of free values have changed; of the unit the
fuses and the rollback floor are as before (R357, R359). -/
structure Boots (s t : State) : Prop where
  beside : t.besideBoot = s.besideBoot
  revoked : t.ctl.fuseRevoked = s.ctl.fuseRevoked
  count : t.ctl.fuseCount = s.ctl.fuseCount
  floor : t.ctl.jFloor = s.ctl.jFloor
  fields : ∀ f : Fld, 0x100000 ≤ f.off → t.getF f = s.getF f

theorem Boots.trans {a b c : State} (h : Boots a b) (k : Boots b c) : Boots a c where
  beside := k.beside.trans h.beside
  revoked := k.revoked.trans h.revoked
  count := k.count.trans h.count
  floor := k.floor.trans h.floor
  fields := fun f hf => (k.fields f hf).trans (h.fields f hf)

theorem Boots.outbox {s t : State} (h : Boots s t) : t.outbox = s.outbox := by
  have e := congrArg State.outbox h.beside
  exact e

/-- A field of the control plane is written. -/
theorem State.setF_boots (s : State) (g : Fld) (v : Nat) (hg : g.key < 0x100000 * 64) : Boots s (s.setF g v) where
  beside := rfl
  revoked := rfl
  count := rfl
  floor := rfl
  fields := fun f hf => s.getF_setF_other g f v (by simp only [Fld.key] at hg ⊢; omega)

theorem State.newNonce_boots (s : State) : Boots s s.newNonce := by
  have hword (s : State) (w : Nat) (hw : w < 4) : Boots s ((s.setF (CTL_NONCE.WORD w) s.free).drew) :=
    (s.setF_boots (CTL_NONCE.WORD w) s.free (by simp only [Fld.key, CTL_NONCE.WORD, Fld.plus]; omega)).trans
      ⟨rfl, rfl, rfl, rfl, fun _ _ => rfl⟩
  exact (hword _ 0 (by decide)).trans <| (hword _ 1 (by decide)).trans <| (hword _ 2 (by decide)).trans (hword _ 3 (by decide))

theorem State.startBoot_boots (s : State) (k : Nat) : Boots s (s.startBoot k) := by
  have hunit : Boots s { s with ctl.bootTry := 0, ctl.bootKind := k, ctl.push := [], ctl.update := none } :=
    ⟨rfl, rfl, rfl, rfl, fun _ _ => rfl⟩
  have hfields (s : State) : Boots s (((((((s.setF CTL_BOOT.SEL s.pwr.pinBoot).setF CTL_BOOT.STAGE 0).setF CTL_SEC.REVOKED
      s.ctl.fuseRevoked).setF CTL_SEC.FUSE_CNT s.ctl.fuseCount).setF CTL_MATRIX.REMAP 0).setF CTL_CORES.AREA 0).setF
      CTL_CORES.STATE 1) :=
    (State.setF_boots _ _ _ (by decide)).trans <| (State.setF_boots _ _ _ (by decide)).trans <|
      (State.setF_boots _ _ _ (by decide)).trans <| (State.setF_boots _ _ _ (by decide)).trans <|
      (State.setF_boots _ _ _ (by decide)).trans <| (State.setF_boots _ _ _ (by decide)).trans <|
      State.setF_boots _ _ _ (by decide)
  unfold State.startBoot
  refine hunit.trans (.trans ?_ (hfields _))
  split
  · exact ⟨rfl, rfl, rfl, rfl, fun _ _ => rfl⟩
  · exact State.newNonce_boots _

/-! ### What PORST_N leaves -/

/-- The machine as PORST_N leaves it before a class 4 fault could be answered. -/
def State.porst (s : State) (b i : Nat) : State := (s.powerOn b i).showHckSt.startPorts.startBoot 0

section
variable (s : State) (b i : Nat)

theorem State.porst_hunts : Hunts (s.powerOn b i).showHckSt 32 (s.powerOn b i).showHckSt.startPorts :=
  (cold_powerOn s b i).startPorts

theorem State.porst_boots : Boots (s.powerOn b i).showHckSt.startPorts (s.porst b i) := State.startBoot_boots _ 0

/-- A part of the state that neither the ports nor boot write is as power-on leaves it. -/
theorem State.porst_part {α : Type} (g : State → α) (hb : ∀ x, g x.besideBoot = g x)
    (hp : ∀ x r o, g { x with regs := r, outbox := o } = g x) : g (s.porst b i) = g (s.powerOn b i).showHckSt := by
  rw [← hb (s.porst b i), (s.porst_boots b i).beside, hb, (s.porst_hunts b i).only, hp]

/-- A field beyond the control plane's that is no port's STATE reads its reset value. -/
theorem State.porst_getF {f : Fld} (ho : 0x100000 ≤ f.off) (hr : f.rst < 2 ^ 64)
    (hk : f.key ∉ (List.range 32).map (fun p => (portStateF p).key)) : (s.porst b i).getF f = f.rst := by
  rw [(s.porst_boots b i).fields f ho]
  refine (s.porst_hunts b i).getF_eq_rst (cold_powerOn s b i) hr fun p hp e => hk ?_
  exact List.mem_map.mpr ⟨p, List.mem_range.mpr hp, e.symm⟩

theorem State.porst_outbox : (s.porst b i).outbox.map (fun e => (e.code, e.d0)) = (List.range 32).map huntEvent := by
  rw [(s.porst_boots b i).outbox, (s.porst_hunts b i).events]

theorem State.porst_fuseRevoked : (s.porst b i).ctl.fuseRevoked = s.ctl.fuseRevoked := by
  rw [(s.porst_boots b i).revoked, (s.porst_hunts b i).only]
  rfl

theorem State.porst_fuseCount : (s.porst b i).ctl.fuseCount = s.ctl.fuseCount := by
  rw [(s.porst_boots b i).count, (s.porst_hunts b i).only]
  rfl

theorem State.porst_jFloor : (s.porst b i).ctl.jFloor = s.ctl.jFloor := by
  rw [(s.porst_boots b i).floor, (s.porst_hunts b i).only]
  rfl

theorem State.porst_portState (p : Nat) (hp : p < 32) : (s.porst b i).getF (portStateF p) = 1 := by
  have h := portStateF_off p hp
  rw [(s.porst_boots b i).fields _ (by omega), (s.porst_hunts b i).hunts p hp]

end

theorem exec_porstN (s : State) (b i : Fin 4) : exec (.porstN b i) s = .next (s.porst b.val i.val) := by
  have hc : (s.porst b.val i.val).flt.c4 = [] := s.porst_part _ _ (fun x => x.flt.c4) (fun _ => rfl) (fun _ _ _ => rfl)
  exact congrArg Host.Outcome.next (State.settle_none _ hc)

/-- Settles O26: power-on empties the register file, the ports hunt, and boot writes the control plane's registers alone. -/
theorem resetValues : Obligations.ResetValues := by
  intro s b i
  have part {α : Type} (g : State → α) := s.porst_part b.val i.val g
  have field (f : Fld) := s.porst_getF b.val i.val (f := f)
  refine ⟨s.porst b.val i.val, exec_porstN s b i, part State.nextSeq (fun _ => rfl) (fun _ _ _ => rfl), ?epoch, ?service, ?power,
    part (fun x => x.host.rings) (fun _ => rfl) (fun _ _ _ => rfl),
    part (fun x => x.host.notices) (fun _ => rfl) (fun _ _ _ => rfl),
    part State.mem (fun _ => rfl) (fun _ _ _ => rfl), part State.scr (fun _ => rfl) (fun _ _ _ => rfl), ?pins,
    s.porst_outbox _ _, part State.pending (fun _ => rfl) (fun _ _ _ => rfl), part State.sent (fun _ => rfl) (fun _ _ _ => rfl),
    part (fun x => x.host.hostMem) (fun _ => rfl) (fun _ _ _ => rfl), part State.matrix (fun _ => rfl) (fun _ _ _ => rfl),
    s.porst_fuseRevoked _ _, s.porst_fuseCount _ _, s.porst_jFloor _ _, s.porst_portState _ _, field⟩
  case epoch => simp only [State.epoch, State.flag, field TIM_STATUS.EPOCH (by decide) (by decide) (by decide)]; rfl
  case service => simp only [State.inService, State.flag, field FLT_STATUS.SERVICE (by decide) (by decide) (by decide)]; rfl
  case power => exact field PWR_STATUS.STATE (by decide) (by decide) (by decide)
  case pins =>
    have hst : (s.powerOn b.val i.val).getF HCK_STATUS.STATE = 0 := State.getF_of_regs_nil rfl (by decide)
    rw [part State.hck (fun _ => rfl) (fun _ _ _ => rfl)]
    simp only [State.showHckSt, hst]
    rfl

/-- Settles O31: a command's effect never lowers the number, and power-on sets it to 1. -/
theorem sequenceNumbersNeverRepeat : Obligations.SequenceNumbersNeverRepeat := by
  refine ⟨fun c s t hp h => ?_, fun b i s t h => ?_⟩
  · obtain ⟨u, k, rfl⟩ := exec_keepsButViral c s hp t h
    exact (k.trans u.settle_kept.calm).seq
  · rw [exec_porstN] at h
    rw [← Host.Outcome.next.inj h]
    exact s.porst_part _ _ State.nextSeq (fun _ => rfl) (fun _ _ _ => rfl)

end Sys2Proof.Machine
end

section
/-!
PROOFS. The sample's journey: the image that governs a dwell, the commands of the epoch and of dwells, and those of the
stage, each with the condition under which it is carried out (R11, R15, R17, R21, R54, R93 to R108, R219 to R247).
-/

namespace Sys2Proof.Machine

/-- Settles O38: the search from the newest image on passes over `r` and stops at `im`. -/
theorem governingImage : Obligations.GoverningImage := by
  intro s n l im r himages him hr
  have hpass : r.reverse.find? (fun im => im.whole || decide (im.first ≤ n)) = none := by
    simp only [List.find?_eq_none, List.mem_reverse]
    intro j hj
    obtain ⟨hw, hn⟩ := hr j hj
    simp [hw, hn]
  have hstop : (im.whole || decide (im.first ≤ n)) = true := by simpa using him
  simp [State.governing, himages, List.find?_append, hpass, hstop]

/-! ## The epoch, dwells and compare units -/

/-- Settles O7: each command's condition holds. -/
theorem epochAndDwellsComplete : Obligations.EpochAndDwellsComplete := by
  intro s
  refine ⟨fun he ht => done_whenever s _ _ ?start, rfl, rfl, fun he hp => done_whenever s _ _ ?dwell,
    fun he hp hc => done_whenever s _ _ ?close, fun he => done_whenever s _ _ he, fun u => rfl,
    fun u hu => done_whenever s _ _ hu, rfl, fun bad => rfl⟩
  case start => simpa [he] using ht
  case dwell => rw [he, s.awake hp]; rfl
  case close => rw [he, s.awake hp, decide_eq_true hc]; rfl

/-! ## The stage's commands -/

section
variable (s : State) (p : Fin 16)

theorem exec_replayStart {n : Int} {rest : List Int} (hw : s.seq.ringWait = n :: rest) (hon : s.stageOn = true)
    (hr : s.seq.replay = none) (hd : s.fmtChange (s.governing n) = true → s.draining = false) :
    exec .replayStart s = .next (s.replay n).settle := by
  have hgo : (!s.stageOn || s.seq.replay.isSome) = false := by rw [hon, hr]; rfl
  have hdry : (s.fmtChange (s.governing n) && s.draining) = false := by
    rw [Bool.and_eq_false_iff, or_iff_not_imp_left, Bool.not_eq_false]
    exact hd
  simp only [exec, execReplayStart, hw, hgo, hdry, Bool.false_eq_true, if_false, done]

theorem exec_corrPassStart {n : Int} {i e k : Nat} (he : s.entryNow p.val 0 = some (n, i, e))
    (hk : s.freeSlot (s.governing n) p.val = some k)
    (hf : s.unflushed n (s.streams (s.governing n) p.val e) = false) :
    exec (.corrPassStart p) s = .next (s.corrBegin p.val n i e k).settle := by
  simp only [exec, execCorrPassStart, he, hk, hf, Bool.false_eq_true, if_false, done]

theorem exec_corrPassEnd {n : Int} {i e : Nat} (he : s.passNow p.val 0 = some (n, i, e)) : exec (.corrPassEnd p) s =
    .next ((((s.closeSlot (s.governing n) n p.val e (s.governing n).dlen).passOver p.val n i e).feedOver p.val).afterEntry
      p.val).settle := by
  simp only [exec, execCorrPassEnd, he, done]

theorem exec_gap {n : Int} {i e : Nat} (he : s.entryNow p.val 2 = some (n, i, e)) : exec (.gap p) s =
    .next (((s.setPart p.val { s.part p.val with nextEntry := i + 1 }).setF (STG_PART.ENTRY p.val) i).afterEntry
      p.val).settle := by
  simp only [exec, execGap, he, done]

theorem exec_drainComplete {i w : Nat} {rest : List Nat} {sl : Slot} {u : State} (ho : (s.part p.val).order = i :: rest)
    (hi : s.iron = false) (hsl : sl = (s.part p.val).slots.getD i Slot.fresh)
    (hw : w = fmtWidth ((s.governing sl.dwell).fmt p.val))
    (hd : s.drainTo sl.dwell (drainAdds w (s.drainEntries sl)) = (u, true)) :
    exec (.drainComplete p) s = .next (u.drainOver p.val sl w (s.drainEntries sl)).settle := by
  simp only [exec, execDrainComplete, ho, hi, Bool.false_eq_true, if_false, ← hsl, ← hw, hd, done]

theorem exec_dwellDrained {n : Int} (hn : s.seq.replayed.find? (fun n => !s.holdsDwell n) = some n) (hi : s.iron = false) :
    exec .dwellDrained s = .next (s.dwellOut n).settle := by
  simp only [exec, execDwellDrained, hn, hi, Bool.false_eq_true, if_false, done]

theorem exec_beamPassStart {n : Int} {i e b : Nat} (he : s.entryNow p.val 1 = some (n, i, e))
    (hb : s.weightBank (s.governing n) = some b) (hl : s.bem.wload ≠ some b)
    (hr : ((s.governing n).beamRecs e).any (fun x => decide (s.recAccept x n = .wait)) = false)
    (hf : s.unflushed n (s.streams (s.governing n) p.val e) = false)
    (ha : ((s.governing n).beamChips e).any (s.addHeld n) = false) :
    exec (.beamPassStart p) s = .next (s.beamBegin p.val n i e).settle := by
  simp only [exec, execBeamPassStart, he, hb, decide_eq_true hl, hr, hf, ha, Bool.not_true, Bool.false_eq_true, if_false, done]

theorem exec_beamPassComplete {n : Int} {i e : Nat} (he : s.passNow p.val 1 = some (n, i, e)) :
    exec (.beamPassComplete p) s =
      .next (((((s.beamDone ⟨s.governing n, n, p.val, e⟩ (s.governing n).dlen false).passOver p.val n i e).feedOver
        p.val).finisherOver p.val).afterEntry p.val).settle := by
  simp only [exec, execBeamPassComplete, he, done]

theorem exec_weightLoadStart {im : Image} {b : Nat} (hl : s.bem.wload = none) (hi : s.iron = false)
    (him : s.loadNext = some im) (hb : s.freeBank = some b) : exec .weightLoadStart s =
      .next (({ s with bem.wbank := s.bem.wbank.set b (some im), bem.wload := some b } : State).setF
        BEM_STATUS.LOAD_BUSY 1).settle := by
  have hgo : (s.bem.wload.isSome || s.iron) = false := by rw [hl, hi]; rfl
  simp only [exec, execWeightLoadStart, hgo, him, hb, Bool.false_eq_true, if_false, done]

theorem exec_weightLoadComplete {b : Nat} (hl : s.bem.wload = some b) : exec .weightLoadComplete s =
    .next ((((({ s with bem.wload := none } : State).setF BEM_STATUS.LOAD_BUSY 0).setF
      (if b = 0 then BEM_WDIG0.TAG else BEM_WDIG1.TAG) ((s.bem.wbank.getD b none).getD Image.boot).weightTag).putBit
        BEM_EVT.BITS 0 true).emit stgSrc 0x0801 ((s.bem.wbank.getD b none).getD Image.boot).weightTag
          (b + 2 * (bitsOf (((s.bem.wbank.getD b none).getD Image.boot).val Scr.BEM_WEIGHTS) 52 4 - 1)) 0).settle := by
  simp only [exec, execWeightLoadComplete, hl, done]

theorem exec_recordReleaseTimeout (x : Fin 65536) (hf : (s.rec_ x.val).st = .filling)
    (hc : (s.rec_ x.val).dwell ≤ s.seq.closed) : exec (.recordReleaseTimeout x) s =
      .next ((s.afterClose (s.rec_ x.val).dwell
        ((s.governing (s.rec_ x.val).dwell).val Scr.BEM_REL_TO)).recTimeout x.val).settle :=
  done_whenever s _ _ (by rw [decide_eq_true hf, decide_eq_true hc]; rfl)

theorem exec_recordRelease_store (x : Fin 65536) {c r : Nat} (hx : s.recCluster x.val = some (c, r)) (hi : s.iron = false)
    (ht : s.recTurn c = some x.val) : exec (.recordRelease x) s = .next (s.recRelease x.val c r).settle := by
  simp only [exec, execRecordRelease, hx, hi, ht, bne_self_eq_false, Bool.or_false, Bool.false_eq_true, if_false, done]

theorem exec_recordRelease_pit (x : Fin 65536) (hx : s.recCluster x.val = none) (hi : s.iron = false)
    (ht : s.toPit x.val = true) : exec (.recordRelease x) s =
      .next (((s.setRec x.val { s.rec_ x.val with st := .releasing }).discardRec x.val).releaseEnd x.val).settle := by
  simp only [exec, execRecordRelease, hx, hi, ht, Bool.not_true, Bool.or_false, Bool.false_eq_true, if_false, done]

end

/-- Settles O16: each command meets its condition. -/
theorem stageCommandsComplete : Obligations.StageCommandsComplete := by
  intro s
  refine ⟨fun n rest => exec_replayStart s, fun p n i e k => exec_corrPassStart s p, fun p n i e => exec_corrPassEnd s p,
    fun p n i e => exec_gap s p, fun p i rest sl w u => exec_drainComplete s p, fun n => exec_dwellDrained s,
    fun p n i e b => exec_beamPassStart s p, fun p n i e => exec_beamPassComplete s p, fun im b => exec_weightLoadStart s,
    ?loaded, rfl, exec_recordReleaseTimeout s, fun x c r => exec_recordRelease_store s x, exec_recordRelease_pit s⟩
  case loaded =>
    rintro b im hl rfl
    exact exec_weightLoadComplete s hl

end Sys2Proof.Machine
end

section
/-!
PROOFS. Completions: how a command that ends puts its completion in the queue, and how an entry is written once it has its number
(R15, R41, R42, R45).
-/

namespace Sys2Proof.Machine

/-! ## Completions (R15, R41, R42, R45) -/

/-- A command whose ring executes it and that asks for no ring's end puts its completion in the queue, unless its descriptor asks for
none (R41). -/
theorem State.finish_ok (s : State) (r : Nat) (e : Exec) (x : Ring) (hx : s.ring r = some x) (he : x.exec = some e) :
    s.finish r e stOk = { s with
      host.rings := Tbl.set s.host.rings none r (some { x with exec := none }),
      host.notices := if e.arg 9 1 = 1 then s.host.notices else s.host.notices ++
        [.completion s.clk.cycles x.cplRing r e.cidx (e.arg 32 16) stOk 0 0 (e.arg 8 1 == 1) none] } := by
  by_cases hq : e.arg 9 1 = 1
  · simp [State.finish, State.complete, State.completeGone, hx, he, hq, State.entryOver]
    rfl
  · simp [State.finish, State.complete, State.completeGone, hx, he, hq]
    rfl

/-- What entries live in is as before: rings, host memory, entries that wait, the next number, the store, and class 4 faults. -/
structure SameEntries (s t : State) : Prop where
  rings : t.host.rings = s.host.rings
  hostMem : t.host.hostMem = s.host.hostMem
  viral : t.host.viral = s.host.viral
  notices : t.host.notices = s.host.notices
  nextSeq : t.nextSeq = s.nextSeq
  mem : t.mem = s.mem
  c4 : t.flt.c4 = s.flt.c4

theorem State.touchCtx_same (s : State) (r : Nat) : SameEntries s (s.touchCtx r) := by
  unfold State.touchCtx
  split <;> exact ⟨rfl, rfl, rfl, rfl, rfl, rfl, rfl⟩

theorem State.sendMsix_same (s : State) (v : Nat) : SameEntries s (s.sendMsix v) := by
  unfold State.sendMsix
  split <;> exact ⟨rfl, rfl, rfl, rfl, rfl, rfl, rfl⟩

theorem State.raiseVector_same (s : State) (v : Nat) : SameEntries s (s.raiseVector v) := by
  unfold State.raiseVector
  dsimp only
  split
  · split <;> exact ⟨rfl, rfl, rfl, rfl, rfl, rfl, rfl⟩
  · exact s.sendMsix_same v

/-- The ring once an entry has been written, `k` entries since its last message (R45). -/
def Ring.wrote (x : Ring) (k : Nat) : Ring := { x with prod := (x.prod + 1) % 2 ^ 32, sinceMsg := k }

theorem SameEntries.trans {a b c : State} (h : SameEntries a b) (k : SameEntries b c) : SameEntries a c where
  rings := k.rings.trans h.rings
  hostMem := k.hostMem.trans h.hostMem
  viral := k.viral.trans h.viral
  notices := k.notices.trans h.notices
  nextSeq := k.nextSeq.trans h.nextSeq
  mem := k.mem.trans h.mem
  c4 := k.c4.trans h.c4

theorem SameEntries.setRing {s t : State} (h : SameEntries s t) (r : Nat) (x : Option Ring) :
    SameEntries (s.setRing r x) (t.setRing r x) :=
  ⟨congrArg (fun l => Tbl.set l none r x) h.rings, h.hostMem, h.viral, h.notices, h.nextSeq, h.mem, h.c4⟩

theorem SameEntries.hostPut {s t : State} (h : SameEntries s t) (a : Nat) (b : List Byte) :
    SameEntries (s.hostPut a b) (t.hostPut a b) := by
  unfold State.hostPut
  rw [h.viral]
  split
  · exact h
  · exact ⟨h.rings, congrArg (fun m => Memory.writeBytes m a b) h.hostMem, h.viral, h.notices, h.nextSeq, h.mem, h.c4⟩

/-- The state with the bytes of an entry written at the slot of the producer index, and `k` entries since the ring's last message. -/
def State.withEntry (s : State) (r : Nat) (x : Ring) (bytes : List Byte) (k : Nat) : State :=
  (s.hostPut (x.base + 32 * (x.prod % x.size)) bytes).setRing r (some (x.wrote k))

/-- An entry that ends no ring is written at the slot of the producer index, which advances (R45). -/
theorem State.putEntry_same (s : State) (r : Nat) (x : Ring) (h : Held) (hv : s.host.viral = false) (hg : h.gone = none) :
    ∃ k, SameEntries (s.withEntry r x (leBytes 32 (h.entry % 2 ^ 255 + 2 ^ 255 * x.phase)) k) (s.putEntry r x h) := by
  have hover (u : State) : u.entryOver h = u := by simp only [State.entryOver, hg]
  have htimer (u : State) : SameEntries u (if x.sinceMsg = 0 then u.startTimer (.modTime r) else u) := by
    split <;> exact ⟨rfl, rfl, rfl, rfl, rfl, rfl, rfl⟩
  unfold State.putEntry State.withEntry
  rw [if_neg (Bool.eq_false_iff.mp hv)]
  dsimp only
  rw [hover]
  split
  · exact ⟨0, ((htimer _).setRing r (some (x.wrote 0))).trans (State.raiseVector_same _ _)⟩
  · exact ⟨x.sinceMsg + 1, (htimer _).setRing r (some (x.wrote (x.sinceMsg + 1)))⟩

/-- With space and nothing held or lost, an entry is delivered by being written (R46). -/
theorem State.deliver_same (s : State) (r n : Nat) (x : Ring) (h : Held) (hv : s.host.viral = false) (hg : h.gone = none)
    (hx : s.ring r = some x) (he : x.error = false) (hs : x.stuck = false) (hh : x.held = []) (hl : x.lostCount = 0) :
    ∃ k, SameEntries (s.withEntry r x (leBytes 32 (h.entry % 2 ^ 255 + 2 ^ 255 * x.phase)) k) (s.deliver [] r n h) := by
  have hsame := s.touchCtx_same r
  have hx' : (s.touchCtx r).ring r = some x := by
    rw [State.ring, hsame.rings]
    exact hx
  have hput : s.deliver [] r n h = (s.touchCtx r).putEntry r x h := by
    simp [State.deliver, State.ctxLost, hx', he, hs, hh, hl]
  obtain ⟨k, hk⟩ := (s.touchCtx r).putEntry_same r x h (hsame.viral.trans hv) hg
  exact ⟨k, hput ▸ ((hsame.hostPut _ _).setRing r _).trans hk⟩

theorem State.hostPut_of_not_viral (s : State) (a : Nat) (b : List Byte) (h : s.host.viral = false) :
    s.hostPut a b = { s with host.hostMem := Memory.writeBytes s.host.hostMem a b } := by
  simp [State.hostPut, h]

/-- The next entry's phase (R45): it toggles where the producer index meets the ring's size. -/
theorem Ring.phase_wrote (x : Ring) (k : Nat) (hl : x.log2 ≤ 24) :
    (x.wrote k).phase = if (x.prod + 1) % x.size = 0 then 1 - x.phase else x.phase := by
  have hsize : (x.wrote k).size = x.size := rfl
  have hlap : (x.prod + 1) / x.size = x.prod / x.size + if (x.prod + 1) % x.size = 0 then 1 else 0 := by
    rw [Nat.succ_div]
    simp only [Nat.dvd_iff_mod_eq_zero]
  have hwrap : (x.prod + 1) % 2 ^ 32 / x.size % 2 = (x.prod + 1) / x.size % 2 := by
    have hlaps : 2 ^ 32 = x.size * 2 ^ (32 - x.log2) := by rw [Ring.size, ← pow_add, Nat.add_sub_cancel' (by omega)]
    rw [hlaps, Nat.mod_mul_right_div_self]
    exact Nat.mod_mod_of_dvd _ (dvd_pow_self 2 (by omega))
  unfold Ring.phase
  rw [hsize]
  show 1 - (x.prod + 1) % 2 ^ 32 / x.size % 2 = _
  rw [hwrap, hlap]
  split <;> omega

theorem completionEntry_lt (result cidx ring tag status seq reason : Nat) :
    completionEntry result cidx ring tag status seq reason < 2 ^ 255 := by
  unfold completionEntry
  omega

/-- The oldest waiting completion, with no event before it, gets its number once 16 house cycles have passed (R15). -/
theorem exec_sequenceAssign_completion (s : State) {stamp cpl r idx tag st res why : Nat} {irq : Bool} {gone : Option Nat}
    {rest : List Notice} (ho : s.outbox = []) (hs : stamp + 16 ≤ s.clk.cycles)
    (hn : s.host.notices = .completion stamp cpl r idx tag st res why irq gone :: rest) :
    exec (.sequenceAssign []) s = .next (State.deliver { s with host.notices := rest, nextSeq := s.nextSeq + 1 } [] cpl s.nextSeq
      ⟨completionEntry res idx r tag st s.nextSeq why, irq, gone⟩).settle := by
  have hev : firstEv s.outbox = none := by rw [ho]; rfl
  have hripe : s.ripe stamp = true := decide_eq_true hs
  simp only [exec, execSequenceAssign, done, List.map_nil, State.assign, hev, hn, State.assignNotice, Notice.stamp, hripe, if_true,
    List.drop_succ_cons, List.drop_zero, State.numberNotice, State.takeSeq]

/-- Settles O36: NOP by `finish_ok`; the entry by what its delivery leaves. -/
theorem completionEntryWritten : Obligations.CompletionEntryWritten := by
  refine ⟨?nop, ?entry⟩
  case nop =>
    intro s r e x hc4 ⟨hrun, hcore⟩ hx he
    have hf := s.finish_ok r.val e x hx he
    have hc : (s.finish r.val e stOk).flt.c4 = [] := by rw [hf]; exact hc4
    refine (withCmd_run s r.val 0 (fun s e => s.finish r.val e stOk) e hrun hcore).trans ?_
    rw [State.settle_none _ hc, hf]
  case entry =>
    intro s stamp cpl r idx tag st res why irq c rest hc4 ho hv hn hs hx he hst hh hl hlog _
    have hnext := exec_sequenceAssign_completion s ho hs hn
    set u : State := { s with host.notices := rest, nextSeq := s.nextSeq + 1 }
    obtain ⟨k, hk⟩ := u.deliver_same cpl s.nextSeq c ⟨completionEntry res idx r tag st s.nextSeq why, irq, none⟩ hv rfl hx
      he hst hh hl
    rw [State.withEntry, u.hostPut_of_not_viral _ _ hv, Nat.mod_eq_of_lt (completionEntry_lt ..)] at hk
    rw [State.settle_none _ (hk.c4.trans hc4)] at hnext
    refine ⟨_, hnext, ?entryBytes, ?otherBytes, hk.nextSeq, hk.notices, fun a => congrArg (fun m => Memory.read m a) hk.mem,
      ⟨c.wrote k, ?ring, rfl, rfl, rfl, rfl, c.phase_wrote k hlog⟩, ?otherRings⟩
    case entryBytes =>
      intro i hi
      rw [hk.hostMem]
      exact Memory.read_writeBytes_self _ _ _ _ (by simpa using hi)
    case otherBytes =>
      intro a ha
      rw [hk.hostMem]
      exact Memory.read_writeBytes_other _ _ _ _ (by simpa using ha)
    case ring =>
      rw [State.ring, hk.rings]
      exact State.setRing_ring _ cpl _
    case otherRings =>
      intro q hq
      rw [State.ring, hk.rings]
      exact State.setRing_ring_other _ cpl q _ hq

end Sys2Proof.Machine
end

section
/-!
PROOFS. What holds of every command: which of them stop (R28, R159; log 2), that the queue is the sender's alone (log 1, log 14), and
where the end of viral lets a write to host memory through (R30, R388).
-/

namespace Sys2Proof.Machine

/-! ## Every command answers -/

theorem withCmd_answers (s : State) (r op : Nat) (f : State → Exec → State) : ∃ t, withCmd s r op f = .next t := by
  unfold withCmd
  split
  · split <;> exact ⟨_, rfl⟩
  · exact ⟨_, rfl⟩

theorem execChannelEdge_answers (channel : Fin 64) (s : State) : ∃ t, execChannelEdge channel s = .next t := by
  unfold execChannelEdge
  split <;> exact ⟨_, rfl⟩

/-- A command that accesses no address answers a next state: a ring command through `withCmd`, every other one as the settled state of
its effect (log 2). -/
theorem exec_answers_of_no_access (c : Instr) (s : State) (h : accessOf c = none) : ∃ t, exec c s = .next t := by
  cases c with
  | hdmRead | hdmWrite | storeRead | storeWrite | atomicAdd => exact nomatch h
  | nop | ringCreate | ringDestroy | ringResize | ringQuery | scriptLoad | scriptCommit | scriptCancel | scriptRead
  | pitLocalWrite | pitLocalRead | pitCoefWrite | movRun | movStop | prdQuery | prdFree | duoSwap | duoWithdraw | duoRejoin
  | spareRetire | fwUpdate | keyRevoke | rollbackAnchor | ownerSet | nonceRead | pwrSet =>
    dsimp only [exec, execNop, execRingCreate, execRingDestroy, execRingResize, execRingQuery, execScriptLoad, execScriptCommit,
      execScriptCancel, execScriptRead, execPitLocalWrite, execPitLocalRead, execPitCoefWrite, execMovRun, execMovStop,
      execPrdQuery, execPrdFree, execDuoSwap, execDuoWithdraw, execDuoRejoin, execSpareRetire, execFwUpdate, execKeyRevoke,
      execRollbackAnchor, execOwnerSet, execNonceRead, execPwrSet]
    exact withCmd_answers ..
  | channelEdge channel => exact execChannelEdge_answers channel s
  | _ => exact ⟨_, rfl⟩

/-- An access stops at an address beyond its space and is carried out at every other (R28, R160). -/
theorem exec_of_access {c : Instr} {a n : Nat} (h : accessOf c = some (a, n)) (s : State) :
    ∃ u, exec c s = if n ≤ a then .fault (.noSuchAddress a) else done u := by
  cases c with
  | hdmRead | hdmWrite | storeRead | storeWrite | atomicAdd =>
    cases h
    exact ⟨_, rfl⟩
  | _ => exact nomatch h

/-- Settles O28: a command that names an address stops just when the address is missing; one that names none never stops. -/
theorem everyCommandAnswers : Obligations.EveryCommandAnswers := by
  refine fun c s => ⟨fun a n hc ha => ?missing, fun hall => ?present⟩
  case missing =>
    obtain ⟨u, hu⟩ := exec_of_access hc s
    rw [hu, if_pos ha]
  case present =>
    cases hc : accessOf c with
    | none => exact exec_answers_of_no_access c s hc
    | some p =>
      obtain ⟨u, hu⟩ := exec_of_access hc s
      rw [hu, if_neg (Nat.not_le.mpr (hall p.1 p.2 hc))]
      exact ⟨_, rfl⟩

/-! ## The queue -/

/-- Settles O29: the shared operations keep the queue, and PORST_N takes it over from before. -/
theorem queueUntouched : Obligations.QueueUntouched := by
  intro c s t h
  by_cases hp : ∃ b i, c = .porstN b i
  · obtain ⟨b, i, rfl⟩ := hp
    exact (execPorstN_kept b i s t h).1.pending
  · obtain ⟨u, k, rfl⟩ := exec_keepsButViral c s (fun b i e => hp ⟨b, i, e⟩) t h
    exact (k.trans u.settle_kept.calm).pending

/-! ## The end of viral (R30, R388) -/

/-- Under viral, mover 32 waits with a paced descriptor whose STATUS lies in host memory, at address 56, and a class 4 fault has
arrived that no command has answered yet. -/
def State.viralAwaitingIron : State :=
  { (State.reset.setF (MOV_M_STATE.PACE_WAIT 32) 1).setF (MOV_M_DESC.ADDR 32) (2 ^ 62) with
    host.viral := true, flt.c4 := [(0x000, 0x000A)] }

/-- Refutes O32: a conventional reset ends viral before the command answers the class 4 fault, and the iron entry that answers it
completes the paced descriptor with PACE_TIMEOUT (R322), whose code 4 is then written to host memory at 56. The states that meet the
invariant have no such fault (O27); the statement speaks of every state. -/
theorem not_viralStopsHostWrites : ¬ Obligations.ViralStopsHostWrites := by
  rintro ⟨hkept, -⟩
  have hexec : exec .cxlConventionalReset State.viralAwaitingIron =
      .next State.viralAwaitingIron.conventionalReset.settle := congrArg done (if_neg (by decide +kernel))
  have hsame := (hkept _ _ _ rfl hexec).1 56
  have hbefore : Memory.read State.viralAwaitingIron.host.hostMem 56 = 0 := rfl
  have hafter : Memory.read State.viralAwaitingIron.conventionalReset.settle.host.hostMem 56 = 4 := by decide +kernel
  rw [hafter, hbefore] at hsame
  exact absurd hsame (by decide)

end Sys2Proof.Machine
end

section
/-!
PROOFS. Host accesses that are not accepted: those of another size or alignment (R31, R32, R35), and the doorbells that fail a check
(R34, R35).
-/

namespace Sys2Proof.Machine

/-! ## Which fields an operation leaves -/

theorem sameFields.refl (l : List Fld) (s : State) : sameFields l s s := fun _ _ => rfl

theorem sameFields.trans {l : List Fld} {a b c : State} (h : sameFields l a b) (k : sameFields l b c) : sameFields l a c :=
  fun g hg => (k g hg).trans (h g hg)

theorem sameFields.mono {l m : List Fld} {s t : State} (h : sameFields l s t) (hl : l ⊆ m) : sameFields m s t :=
  fun g hg => h g fun hm => hg (List.map_subset _ hl hm)

/-- A field of the list is written. -/
theorem sameFields.setF {l : List Fld} {s t : State} (h : sameFields l s t) {f : Fld} (v : Nat) (hf : f ∈ l) :
    sameFields l s (t.setF f v) := fun g hg =>
  (t.getF_setF_other f g v fun e => hg (e ▸ List.mem_map_of_mem hf)).trans (h g hg)

/-! ## Accesses of another size or alignment (R31, R32, R35) -/

theorem State.getF_badAccess (s : State) : s.badAccess.getF HST_ERR.BADACC = 1 := s.getF_setF_self _ 1 (by decide)

theorem State.sameFields_badAccess (s : State) : sameFields [HST_ERR.BADACC] s s.badAccess :=
  (sameFields.refl _ s).setF 1 List.mem_cons_self

theorem State.onlyFields_badAccess (s : State) : onlyFields [HST_ERR.BADACC] s s.badAccess := ⟨s.sameFields_badAccess, rfl⟩

theorem State.writeReg_of_not_accessOk (s : State) {o n : Nat} (v m : Nat) (h : accessOk o n = false) :
    s.writeReg o n v m = s.badAccess := by
  simp [State.writeReg, h]

theorem State.readReg_of_not_accessOk (s : State) {o n : Nat} (m : Nat) (h : accessOk o n = false) :
    s.readReg o n m = { s.badAccess with host.lastRead := 0 } := by
  simp [State.readReg, h]

theorem State.ringDoorbell_of_misaligned (s : State) {o n : Nat} (v : Nat) (c : Bool) (h : n ≠ 8 ∨ o % 8 ≠ 0) :
    s.ringDoorbell o n v c = s.badAccess := by
  simp only [State.ringDoorbell, Bool.or_eq_true, bne_iff_ne, if_pos h]

/-- Settles O34: every such access is the one that sets BADACC. -/
theorem badAccessChangesNothingElse : Obligations.BadAccessChangesNothingElse := by
  intro s o n v m hp hc
  have hbad : s.badAccess.settle = s.badAccess := State.settle_none _ hc
  have hread : ({ s.badAccess with host.lastRead := 0 } : State).settle = { s.badAccess with host.lastRead := 0 } :=
    State.settle_none _ hc
  refine ⟨fun ha => ⟨_, ?write, s.getF_badAccess, s.onlyFields_badAccess⟩,
    fun ha => ⟨{ s.badAccess with host.lastRead := 0 }, ?read, s.getF_badAccess, s.sameFields_badAccess, rfl⟩,
    fun hn c i hi => ⟨_, ?bell, s.getF_badAccess, s.onlyFields_badAccess⟩,
    { s.badAccess with host.lastRead := 0 }, ?readBell, s.getF_badAccess, s.sameFields_badAccess, rfl⟩
  case write => rw [exec_registerWrite_registers s o n v m hp, s.writeReg_of_not_accessOk v m ha, hbad]
  case read => rw [exec_registerReadClear_registers s o n m hp, s.readReg_of_not_accessOk m ha, hread]
  case readBell => rw [exec_registerReadClear_doorbells s o n m hp, hread]
  case bell =>
    rcases List.mem_pair.mp hi with rfl | rfl
    · rw [exec_registerWrite_doorbells s o n v m hp, s.ringDoorbell_of_misaligned v false hn, hbad]
    · rw [← hbad, ← s.ringDoorbell_of_misaligned v c hn]
      exact done_whenever s _ _ (s.awake hp)

/-! ## Events that send no one to iron (R12, R310, R314) -/

/-- An entry whose class stays below 4 is only put in the outbox. -/
theorem State.post_of_lt_four (s : State) (e : Ev) (h : s.promoted e.src e.cls < 4) :
    s.post e = s.logged { e with cls := s.promoted e.src e.cls } := by
  have h4 : (s.promoted e.src e.cls == 4) = false := beq_eq_false_iff_ne.mpr h.ne
  simp [State.post, State.logged, h4]

theorem State.emitFor_of_lt_four (s : State) (subs : List Nat) (src code d0 d1 cls : Nat) (h : s.promoted src cls < 4) :
    s.emitFor subs src code d0 d1 cls = s.logged { s.event subs src code d0 d1 with cls := s.promoted src cls } :=
  s.post_of_lt_four _ h

/-- An entry of class C0 keeps its class. -/
theorem State.emitFor_zero (s : State) (subs : List Nat) (src code d0 d1 : Nat) :
    s.emitFor subs src code d0 d1 0 = s.logged (s.event subs src code d0 d1) :=
  s.emitFor_of_lt_four subs src code d0 d1 0 (by decide : 0 < 4)

/-- What the time and the attribution of an entry are read from is as before. -/
structure SameTime (s t : State) : Prop where
  epoch : t.epoch = s.epoch
  clk : t.clk = s.clk
  scr : t.scr = s.scr

theorem SameTime.of_sameFields {l : List Fld} {s t : State} (h : sameFields l s t)
    (hl : TIM_STATUS.EPOCH.key ∉ l.map Fld.key) (hc : t.clk = s.clk) (hs : t.scr = s.scr) : SameTime s t :=
  ⟨by rw [State.epoch, State.flag, h _ hl]; rfl, hc, hs⟩

theorem SameTime.governing {s t : State} (h : SameTime s t) (n : Int) : t.governing n = s.governing n := by
  rw [State.governing, State.governing, h.scr]

theorem SameTime.houseDwell {s t : State} (h : SameTime s t) : t.houseDwell = s.houseDwell := by
  simp only [State.houseDwell, State.dwellOf, State.newest, h.epoch, h.clk, h.scr]

theorem SameTime.now {s t : State} (h : SameTime s t) : t.now = s.now := by
  simp only [State.now, State.newest, h.epoch, h.houseDwell, h.governing, h.scr]

theorem SameTime.event {s t : State} (h : SameTime s t) (subs : List Nat) (src code d0 d1 : Nat) :
    t.event subs src code d0 d1 = s.event subs src code d0 d1 := by
  simp only [State.event, State.houseSix, h.epoch, h.clk]

theorem SameTime.promoted {s t : State} (h : SameTime s t) (hv : t.inService = s.inService) (src cls : Nat) :
    t.promoted src cls = s.promoted src cls := by
  simp only [State.promoted, State.se, hv, h.now]

/-- The subarrays that an event of the host interface about a ring is attributed to (R45, R419). -/
def State.ringSubs (s : State) (r : Nat) : List Nat := if pageOfRing r = 0 then [] else [s.pageSub (pageOfRing r)]

theorem SameTime.ringSubs {s t : State} (h : SameTime s t) (r : Nat) : t.ringSubs r = s.ringSubs r := by
  simp only [State.ringSubs, State.pageSub, State.pageByte, State.se, h.now]

theorem State.hstEvent_eq (s : State) (r code d0 d1 : Nat) :
    s.hstEvent r code d0 d1 = s.logged (s.event (s.ringSubs r) hstSrc code d0 d1) := s.emitFor_zero _ _ _ _ _

/-! ## Doorbells that fail a check (R34, R35) -/

/-- A discarded doorbell leaves its HST_ERR bit, the count and its event. -/
theorem State.dbDrop_dropped (s : State) {f : Fld} (r code v d1 : Nat) (hf : f ∈ [HST_ERR.DB_MISROUTE, HST_ERR.DB_NORING,
    HST_ERR.DB_OVERRUN]) : dropped f (s.event (s.ringSubs r) hstSrc code v d1) s (s.dbDrop f r code v d1) := by
  have hw : f.w = 1 ∧ f.key ≠ HST_DB_DROP.COUNT.key ∧ f.key ≠ TIM_STATUS.EPOCH.key := by
    revert f
    decide
  obtain ⟨hw, hd, he⟩ := hw
  have hs : sameFields [f, HST_DB_DROP.COUNT] s ((s.setF f 1).incF HST_DB_DROP.COUNT 1) :=
    ((sameFields.refl _ s).setF 1 (by simp)).setF _ (by simp)
  have ht : SameTime s ((s.setF f 1).incF HST_DB_DROP.COUNT 1) := by
    refine .of_sameFields hs ?_ rfl rfl
    rw [List.map_cons, List.mem_cons, not_or]
    exact ⟨he.symm, by decide⟩
  have hdrop : s.dbDrop f r code v d1 =
      ((s.setF f 1).incF HST_DB_DROP.COUNT 1).logged (s.event (s.ringSubs r) hstSrc code v d1) := by
    rw [State.dbDrop, State.hstEvent_eq, ht.event, ht.ringSubs]
  rw [hdrop]
  refine ⟨?bit, ?count, hs, rfl⟩
  case bit =>
    have h1 : 1 % 2 ^ f.w = 1 := by rw [hw]; rfl
    exact ((s.setF f 1).getF_incF_other _ _ _ hd).trans ((s.getF_setF_self f 1 (by rw [hw]; decide)).trans h1)
  case count =>
    refine ((s.setF f 1).getF_incF_self HST_DB_DROP.COUNT 1 (by decide)).trans ?_
    rw [s.getF_setF_other f _ 1 hd.symm]
    rfl

theorem dropped.c4 {f : Fld} {e : Ev} {s t : State} (h : dropped f e s t) : t.flt.c4 = s.flt.c4 :=
  congrArg (fun x => x.flt.c4) h.2.2.2

theorem State.touchCtx_sameFields (s : State) (r : Nat) : sameFields [HST_CTX_MISS.COUNT] s (s.touchCtx r) := by
  unfold State.touchCtx
  split
  · exact .refl _ _
  · exact (sameFields.refl _ s).setF _ List.mem_cons_self

theorem State.touchCtx_only (s : State) (r : Nat) :
    s.touchCtx r = { s with regs := (s.touchCtx r).regs, host.ctxCache := (s.touchCtx r).host.ctxCache } := by
  unfold State.touchCtx
  split <;> rfl

/-- The index behind: the difference of the doorbell's index and the last one, modulo 2 ^ 32 (R34). -/
theorem toSigned_index_sub (i p : Nat) :
    toSigned 32 (i + (2 ^ 32 - p % 2 ^ 32)) = toSigned 32 (ofSigned 32 ((i : Int) - p)) := by
  have h : (i + (2 ^ 32 - p % 2 ^ 32)) % 2 ^ 32 = ofSigned 32 ((i : Int) - p) % 2 ^ 32 := by
    simp only [ofSigned]
    omega
  simp only [toSigned, h]

section
variable (s : State) {off v : Nat} {x : Ring}

theorem State.doorbell_otherPage (h : pageOfRing (bitsOf v 0 18) ≠ off / 4096) :
    s.doorbell off v false = s.dbDrop HST_ERR.DB_MISROUTE (bitsOf v 0 18) 0x0B01 v off := if_pos h

theorem State.doorbell_noRing (hp : pageOfRing (bitsOf v 0 18) = off / 4096) (hx : s.ring (bitsOf v 0 18) = none) :
    s.doorbell off v false = s.dbDrop HST_ERR.DB_NORING (bitsOf v 0 18) 0x0B02 v off := by
  simp only [State.doorbell, hx, if_neg (not_not.mpr hp)]

theorem State.doorbell_invalidPage (hp : pageOfRing (bitsOf v 0 18) = off / 4096) (hx : s.ring (bitsOf v 0 18) = some x)
    (hv : s.pageValid (off / 4096) = false) :
    s.doorbell off v false = s.dbDrop HST_ERR.DB_MISROUTE (bitsOf v 0 18) 0x0B01 v off := by
  simp only [State.doorbell, hx, if_neg (not_not.mpr hp), hv, Bool.not_false, if_true]

/-- On its own valid page the doorbell of a ring is judged by its index. -/
theorem State.doorbell_judged (hp : pageOfRing (bitsOf v 0 18) = off / 4096) (hx : s.ring (bitsOf v 0 18) = some x)
    (hv : s.pageValid (off / 4096) = true) : s.doorbell off v false =
      (if toSigned 32 (ofSigned 32 ((bitsOf v 18 32 : Int) - (if x.kind = 0 then x.prod else x.cons))) < 0 then
        (s.touchCtx (bitsOf v 0 18)).incF HST_DB_STALE.COUNT 1
      else if x.size < (if x.kind = 0 then ofSigned 32 ((bitsOf v 18 32 : Int) - x.cons)
          else ofSigned 32 ((x.prod : Int) - bitsOf v 18 32)) then
        ((s.touchCtx (bitsOf v 0 18)).setRing (bitsOf v 0 18) (some { x with error := true })).dbDrop HST_ERR.DB_OVERRUN
          (bitsOf v 0 18) 0x0B03 v (if x.kind = 0 then x.cons else x.prod)
      else (s.touchCtx (bitsOf v 0 18)).dbAccept (bitsOf v 0 18) x (bitsOf v 18 32)) := by
  have hl : s.ctxLost (bitsOf v 0 18) false = false := rfl
  simp only [State.doorbell, hx, if_neg (not_not.mpr hp), hv, hl, Bool.not_true, Bool.false_eq_true, if_false,
    toSigned_index_sub, apply_ite Nat.cast]

end

/-- What a doorbell beyond its ring leaves: the drop, and the ring in ERROR; the use of its context may have counted a miss (R35,
R39). -/
theorem State.overrun_effect (s : State) {r v dev : Nat} {x : Ring} {t : State} (hc : s.flt.c4 = [])
    (h : t = ((s.touchCtx r).setRing r (some { x with error := true })).dbDrop HST_ERR.DB_OVERRUN r 0x0B03 v dev) :
    t.flt.c4 = [] ∧ t.getF HST_ERR.DB_OVERRUN = 1 ∧
      t.getF HST_DB_DROP.COUNT = min (2 ^ 32 - 1) (s.getF HST_DB_DROP.COUNT + 1) ∧
      t.host.rings = Tbl.set s.host.rings none r (some { x with error := true }) ∧
      t.outbox = s.outbox ++ [s.event (s.ringSubs r) hstSrc 0x0B03 v dev] ∧
      sameFields [HST_ERR.DB_OVERRUN, HST_DB_DROP.COUNT, HST_CTX_MISS.COUNT] s t ∧
      t = { s with
        regs := t.regs, outbox := t.outbox, host.rings := t.host.rings, host.ctxCache := t.host.ctxCache } := by
  have hf := s.touchCtx_sameFields r
  have ho := s.touchCtx_only r
  generalize s.touchCtx r = u at h hf ho
  have hu : SameTime s (u.setRing r (some { x with error := true })) := by
    refine .of_sameFields (t := u.setRing _ _) hf (by decide) ?_ ?_ <;> rw [ho] <;> rfl
  have hd := State.dbDrop_dropped (u.setRing r (some { x with error := true })) (f := HST_ERR.DB_OVERRUN) r 0x0B03 v dev (by simp)
  rw [hu.event, hu.ringSubs, ← h] at hd
  clear h
  obtain ⟨hbit, hcount, hfields, ht⟩ := hd
  refine ⟨?class4, hbit, hcount.trans ?count, ?rings, ?box,
    (hf.mono (by simp)).trans (sameFields.mono (s := u.setRing _ _) hfields (by simp)), ?frame⟩
  case count => rw [State.setRing_getF, hf _ (by decide)]
  case class4 =>
    rw [ht, ho]
    exact hc
  case rings =>
    rw [ht, ho]
    rfl
  case box =>
    rw [ht, ho]
    rfl
  case frame =>
    rw [ht, ho]
    rfl

/-- Settles O37: each check that fails discards the doorbell in its own way. -/
theorem doorbellChecks : Obligations.DoorbellChecks := by
  rintro s off v _ _ _ hc hp ho hv rfl rfl rfl
  have hexec (t : State) (ht : s.doorbell off v false = t) (h4 : t.flt.c4 = []) : exec (.doorbell off 8 v false) s = .next t := by
    rw [exec_doorbell s off v false hp ho, Nat.mod_eq_of_lt hv, ht, State.settle_none t h4]
  refine ⟨fun hbad => ?misrouted, fun hpage hx => ?noRing,
    fun x hpage hx hvalid => ⟨fun hstale => ?stale, fun hnot hover => ?overrun⟩⟩
  case misrouted =>
    have hd := s.dbDrop_dropped (f := HST_ERR.DB_MISROUTE) (bitsOf v 0 18) 0x0B01 v off (by simp)
    refine ⟨_, hexec _ ?_ (hd.c4.trans hc), hd⟩
    by_cases hpage : pageOfRing (bitsOf v 0 18) = off / 4096
    · obtain ⟨hsome, hinv⟩ := hbad.resolve_left (not_not.mpr hpage)
      obtain ⟨x, hx⟩ := Option.isSome_iff_exists.mp hsome
      exact s.doorbell_invalidPage hpage hx hinv
    · exact s.doorbell_otherPage hpage
  case noRing =>
    have hd := s.dbDrop_dropped (f := HST_ERR.DB_NORING) (bitsOf v 0 18) 0x0B02 v off (by simp)
    exact ⟨_, hexec _ (s.doorbell_noRing hpage hx) (hd.c4.trans hc), hd⟩
  case stale =>
    have hjudged := s.doorbell_judged hpage hx hvalid
    rw [if_pos hstale] at hjudged
    have hf := s.touchCtx_sameFields (bitsOf v 0 18)
    have ho := s.touchCtx_only (bitsOf v 0 18)
    refine ⟨_, hexec _ hjudged ((s.touchCtx_same _).c4.trans hc), ?count, (hf.mono (by simp)).setF _ (by simp), ?frame⟩
    case count =>
      rw [State.getF_incF_self _ _ _ (by decide), hf _ (by decide)]
      rfl
    case frame => exact congrArg (fun t => t.incF HST_DB_STALE.COUNT 1) ho
  case overrun =>
    have hjudged := s.doorbell_judged hpage hx hvalid
    rw [if_neg (Int.not_lt.mpr hnot), if_pos hover] at hjudged
    obtain ⟨h4, hbit, hcount, hrings, hbox, hfields, hframe⟩ := s.overrun_effect hc hjudged
    refine ⟨_, hexec _ rfl h4, hbit, hcount, ?ring, fun q hq => ?otherRing, hbox, hfields, hframe⟩
    case ring =>
      rw [State.ring, hrings]
      exact Tbl.get_set_self ..
    case otherRing =>
      rw [State.ring, hrings]
      exact Tbl.get_set_other _ _ _ _ _ hq

end Sys2Proof.Machine
end

section
/-!
PROOFS. Requests at the store (R28, R29, R161, R163, R165, R168): those that are refused, and a host read that finds nothing else
waiting at its controller.
-/

namespace Sys2Proof.Machine

/-! ## Requests that are refused (R29, R163) -/

/-- A store write of an address that exists is requested while the store has power (R165). -/
theorem exec_storeWrite (s : State) (p : Fin 10) (a : Nat) (d : BitVec 512) (b : BitVec 64) (es : List Nat) (w : Nat)
    (ha : a < storeBytes) (hon : s.storeOn = true) :
    exec (.storeWrite p a d b es w) s = .next (s.storeWrite p.val a d b es w).settle :=
  (if_neg (Nat.not_le.mpr ha)).trans (done_whenever s _ _ hon)

/-- An atomic add to an address that exists is requested while the store has power (R178). -/
theorem exec_atomicAdd (s : State) (p : Fin 10) (a : Nat) (f : Fin 3) (m : BitVec 16) (d : BitVec 512) (es : List Nat)
    (ha : a < storeBytes) (hon : s.storeOn = true) :
    exec (.atomicAdd p a f m d es) s = .next (s.storeAdd p.val a f m d es).settle :=
  (if_neg (Nat.not_le.mpr ha)).trans (done_whenever s _ _ hon)

theorem State.request_of_refusal (s : State) {u : State} (port a w : Nat) {ask : Ask} (h : s.refusal port a ask = some u) :
    s.request (s.newReq port a w ask) = u := by
  simp only [State.request, State.newReq, h]

/-- What a host write without rights leaves. -/
def State.hostRefused (s : State) (a : Nat) : State := (s.setF HST_ERR.HDM_WR 1).logged (s.event [] 4 0x0B04 a 0)

theorem State.refusal_hostWrite (s : State) (a : Nat) (d : BitVec 512) (b : BitVec 64) (es : List Nat)
    (h : s.hostMayWrite a = false) : s.refusal 6 a (.write d b es) = some (s.hostRefused a) := by
  have ht : SameTime s (s.setF HST_ERR.HDM_WR 1) :=
    .of_sameFields (l := [HST_ERR.HDM_WR]) ((sameFields.refl _ s).setF 1 List.mem_cons_self) (by decide) rfl rfl
  have he : (s.setF HST_ERR.HDM_WR 1).emit 0x004 0x0B04 a 0 0 = s.hostRefused a := by
    rw [State.emit, State.emitFor_zero, ht.event]
    rfl
  simp only [State.refusal, h, he, if_true, Bool.false_eq_true, if_false]

/-- Port 1 of the fabric counts its denial; what other ports write without rights is discarded. -/
theorem State.refusal_write (s : State) {p a : Nat} (d : BitVec 512) (b : BitVec 64) (es : List Nat) (hp : p ≠ 6)
    (h : s.capBytes ≤ a ∨ s.portMayWrite p a = false) :
    s.refusal p a (.write d b es) = some (if p = 1 then s.deny p a else s) := by
  simp [State.refusal, hp, h]

theorem State.refusal_add (s : State) {a : Nat} (p fmt : Nat) (m : BitVec 16) (d : BitVec 512) (es : List Nat)
    (h : s.capBytes ≤ a ∨ s.addAllowed a = false) : s.refusal p a (.add fmt m d es) = some (s.deny p a) := by
  simp [State.refusal, h]

/-- A denial counts and is reported at the class that FLT_PROMOTE gives it, here below 4 (R163, R314). -/
theorem State.deny_of_lt_four (s : State) (p a : Nat) (h : s.promoted (pcSrc (pcOf a)) 1 < 4) :
    s.deny p a = (s.incF STO_DENY.COUNT 1).logged
      { s.event [] (pcSrc (pcOf a)) 0x0507 a p with cls := s.promoted (pcSrc (pcOf a)) 1 } := by
  have hf : sameFields [STO_DENY.COUNT] s (s.incF STO_DENY.COUNT 1) := (sameFields.refl _ s).setF _ List.mem_cons_self
  have ht : SameTime s (s.incF STO_DENY.COUNT 1) := .of_sameFields hf (by decide) rfl rfl
  have hv : (s.incF STO_DENY.COUNT 1).inService = s.inService := by
    rw [State.inService, State.flag, hf _ (by decide)]
    rfl
  rw [State.deny, State.emit, State.emitFor_of_lt_four, ht.event, ht.promoted hv]
  rwa [ht.promoted hv]

/-- Settles O52: each of these requests is refused as it arrives. -/
theorem deniedAccesses : Obligations.DeniedAccesses := by
  intro s hc
  refine ⟨fun a d b es i hno hi => ⟨s.hostRefused a, ?host, s.getF_setF_self HST_ERR.HDM_WR 1 (by decide),
    (sameFields.refl _ s).setF 1 List.mem_cons_self, rfl⟩,
    fun a ha hon p i => ⟨fun d b es w h1 h6 hno => ?discard, fun hcls hi => ?deny⟩⟩
  case host =>
    have hsettle : (s.hostRefused a).settle = s.hostRefused a := State.settle_none _ hc
    have href := s.refusal_hostWrite a d b es hno
    rcases hi with ⟨ha, hm, rfl⟩ | ⟨ha, hon, w, rfl⟩
    · rw [exec_hdmWrite s a d b es ha hm, State.hdmWrite, s.request_of_refusal _ _ _ href, hsettle]
    · rw [exec_storeWrite s 6 a d b es w ha hon, State.storeWrite, s.request_of_refusal (6 : Fin 10).val a w href, hsettle]
  case discard =>
    have href := s.refusal_write d b es h6 hno
    rw [if_neg h1] at href
    rw [exec_storeWrite s p a d b es w ha hon, State.storeWrite, s.request_of_refusal _ _ _ href, State.settle_none s hc]
  case deny =>
    have hdeny := s.deny_of_lt_four p.val a hcls
    have hsettle : (s.deny p.val a).settle = s.deny p.val a := State.settle_none _ (by rw [hdeny]; exact hc)
    refine ⟨s.deny p.val a, ?_, ?_⟩
    · rcases hi with ⟨f, m, d, es, rfl, hno⟩ | ⟨h1, hno, d, b, es, w, rfl⟩
      · rw [exec_atomicAdd s p a f m d es ha hon, State.storeAdd,
          s.request_of_refusal _ _ _ (s.refusal_add p.val f.val m d es hno), hsettle]
      · have href := s.refusal_write d b es (by omega : p.val ≠ 6) (h1 ▸ hno)
        rw [if_pos h1] at href
        rw [exec_storeWrite s p a d b es w ha hon, State.storeWrite, s.request_of_refusal _ _ _ href, hsettle]
    · rw [hdeny]
      exact ⟨s.getF_incF_self _ _ (by decide), (sameFields.refl _ s).setF _ List.mem_cons_self, rfl⟩

/-! ## What serving a read leaves alone -/

/-- The data of the store, what waits at its controllers, what the host sees and the class 4 faults are as before. -/
structure SameData (s t : State) : Prop where
  mem : t.mem = s.mem
  poison : t.sto.poison = s.sto.poison
  lost : ∀ n, (t.pch n).lost = (s.pch n).lost
  queue : ∀ n, (t.pch n).queue = (s.pch n).queue
  held : ∀ n, (t.pch n).held = (s.pch n).held
  host : t.host = s.host
  c4 : t.flt.c4 = s.flt.c4

theorem SameData.refl (s : State) : SameData s s := ⟨rfl, rfl, fun _ => rfl, fun _ => rfl, fun _ => rfl, rfl, rfl⟩

theorem SameData.trans {a b c : State} (h : SameData a b) (k : SameData b c) : SameData a c where
  mem := k.mem.trans h.mem
  poison := k.poison.trans h.poison
  lost n := (k.lost n).trans (h.lost n)
  queue n := (k.queue n).trans (h.queue n)
  held n := (k.held n).trans (h.held n)
  host := k.host.trans h.host
  c4 := k.c4.trans h.c4

theorem SameData.poisoned {s t : State} (h : SameData s t) (w : Nat) : t.poisoned w = s.poisoned w := by
  rw [State.poisoned, State.poisoned, h.poison, h.lost]

theorem State.setPch_pch (s : State) (n k : Nat) (p : PChan) : (s.setPch n p).pch k = if k = n then p else s.pch k := by
  unfold State.pch State.setPch
  rw [Tbl.get_set]
  split <;> rfl

section
variable {s t : State} (h : SameData s t)
include h

/-- A pseudo-channel changes in what is neither data nor a request that waits. -/
theorem SameData.setPch {n : Nat} {p : PChan} (hl : p.lost = (t.pch n).lost) (hq : p.queue = (t.pch n).queue)
    (hh : p.held = (t.pch n).held) : SameData s (t.setPch n p) := by
  refine h.trans ⟨rfl, rfl, fun k => ?_, fun k => ?_, fun k => ?_, rfl, rfl⟩ <;> rw [State.setPch_pch]
  all_goals
    split
    · subst k
      assumption
    · rfl

theorem SameData.setF {f : Fld} {v : Nat} : SameData s (t.setF f v) :=
  h.trans ⟨rfl, rfl, fun _ => rfl, fun _ => rfl, fun _ => rfl, rfl, rfl⟩

theorem SameData.pushEdge {c cyc stamp origin : Nat} {lev : Bool} {mask : BitVec 64} :
    SameData s (t.pushEdge c lev cyc stamp mask origin) := by
  unfold State.pushEdge State.pushEdgeWith
  split
  · exact h
  · exact h.trans ⟨rfl, rfl, fun _ => rfl, fun _ => rfl, fun _ => rfl, rfl, rfl⟩

theorem SameData.foldl {α : Type} {f : State → α → State} (hf : ∀ u a, SameData s u → SameData s (f u a)) {l : List α} :
    SameData s (l.foldl f t) := by
  induction l generalizing t with
  | nil => exact h
  | cons a r ih => exact ih (hf t a h)

theorem SameData.drive {p : Nat} {lev : Bool} : SameData s (t.drive p lev) := by
  have hlevel (l : Tbl Bool) : SameData s { t with cue.prodLevel := l } :=
    h.trans ⟨rfl, rfl, fun _ => rfl, fun _ => rfl, fun _ => rfl, rfl, rfl⟩
  unfold State.drive
  split
  · exact h
  · exact (hlevel _).foldl fun u c hu => hu.pushEdge

theorem SameData.retrain {n : Nat} : SameData s (t.retrain n) := by
  unfold State.retrain
  split
  · exact h
  · have hrecent : SameData s (t.setPch n { t.pch n with ceRecent := [] }) := h.setPch rfl rfl rfl
    exact hrecent.setF.setF.drive

theorem SameData.leaveSr {n : Nat} : SameData s (t.leaveSr n) := by
  unfold State.leaveSr
  split
  · have hclosed {u : State} (hu : SameData s u) : SameData s (u.setPch n { u.pch n with debt := [], rows := [] }) :=
      hu.setPch rfl rfl rfl
    dsimp only
    split
    · exact (hclosed h.setF.setF).setF.retrain
    · exact (hclosed h.setF.setF).setF
  · exact h

theorem SameData.activate {a : Nat} : SameData s (t.activate a) := h.leaveSr.setPch rfl rfl rfl

theorem SameData.emit_zero {src code d0 d1 : Nat} : SameData s (t.emit src code d0 d1 0) := by
  rw [State.emit, State.emitFor_zero]
  exact h.trans ⟨rfl, rfl, fun _ => rfl, fun _ => rfl, fun _ => rfl, rfl, rfl⟩

/-- A request that completes late is counted and, once a dwell, reported (R168). -/
theorem SameData.completed {r : StoreReq} : SameData s (t.completed r) := by
  have hlate {u : State} (hu : SameData s u) (l : List (Nat × Int)) : SameData s { u with sto.late := l } :=
    hu.trans ⟨rfl, rfl, fun _ => rfl, fun _ => rfl, fun _ => rfl, rfl, rfl⟩
  unfold State.completed State.latency
  split
  · dsimp only
    split
    · exact h.setF.setF
    · exact (hlate h.setF.setF _).emit_zero
  · exact h

end

/-! ## A line without bit errors (R165) -/

theorem decodeWord_zero (p coin : Bool) : decodeWord p 0 coin = ⟨p, false, false, p⟩ := by
  cases p <;> rfl

theorem State.decodeLine_nil (s : State) (a : Nat) : s.decodeLine a [] =
    (List.range 8).map (fun i => ⟨s.poisoned (a / 8 + i), false, false, s.poisoned (a / 8 + i)⟩) :=
  List.map_congr_left fun i _ => decodeWord_zero (s.poisoned (a / 8 + i)) (s.free.testBit i)

/-- A decode that corrects nothing and finds nothing uncorrectable at most counts a poisoned word (R165). -/
theorem SameData.afterDecode {s t : State} (h : SameData s t) {port a : Nat} {ws : List WordDecode} {r : Bool}
    (hce : ∀ w ∈ ws, w.ce = false) (hue : ueWords ws = 0) : SameData s (t.afterDecode port a ws r) := by
  have hce' : ws.filter (fun w => w.ce) = [] := List.filter_eq_nil_iff.mpr fun w hw => by simp [hce w hw]
  have hcount : t.corrected (pcOf a) 0 = t := if_pos rfl
  simp only [State.afterDecode, hce', hue, List.length_nil, hcount, Nat.zero_testBit, List.filter_false, State.each, List.foldl_nil]
  split
  · exact h.setF
  · exact h

theorem ueWords_eq_zero {ws : List WordDecode} (h : ∀ w ∈ ws, w.ue = false) : ueWords ws = 0 := by
  have hnone : ws.zipIdx.filter (fun q => q.1.ue) = [] := List.filter_eq_nil_iff.mpr fun q hq => by
    simp [h q.1 (List.fst_mem_of_mem_zipIdx hq)]
  rw [ueWords, hnone, List.foldl_nil]

/-- Without bit errors a line is fetched as it is stored, and nothing is written back. -/
theorem State.fetchLine_nil (s : State) (port a : Nat) : ∃ u, SameData s u ∧ s.fetchLine port a [] =
    (u, ⟨Memory.readBytes s.mem a 64, (List.range 8).map (fun i => s.poisoned (a / 8 + i)), false, 0⟩) := by
  have hact : SameData s (s.activate a) := (SameData.refl s).activate
  have hws := (s.activate a).decodeLine_nil a
  simp only [hact.poisoned] at hws
  have hclean : ∀ w ∈ (s.activate a).decodeLine a [], w.ce = false ∧ w.ue = false := by
    rw [hws]
    simp
  have hue := ueWords_eq_zero fun w hw => (hclean w hw).2
  have hdrew : (s.activate a).drewIf a [] = s.activate a := by simp [State.drewIf]
  have hdec := hact.afterDecode (port := port) (a := a) (r := true) (fun w hw => (hclean w hw).1) hue
  have hwb : ((s.activate a).decodeLine a []).any (fun w => w.ce || w.ue) = false := by
    rw [List.any_eq_false]
    intro w hw
    simp [hclean w hw]
  have hpsn : ((s.activate a).decodeLine a []).map (fun w => w.psn) = (List.range 8).map (fun i => s.poisoned (a / 8 + i)) := by
    rw [hws, List.map_map]
    rfl
  refine ⟨_, hdec, ?_⟩
  simp only [State.fetchLine, hdrew, hdec.mem, hwb, hue, hpsn]

/-! ## A controller at which nothing else waits (R168, log 12) -/

/-- Nothing waits at pseudo-channel `n`. -/
structure State.Quiet (s : State) (n : Nat) : Prop where
  queue : (s.pch n).queue = []
  held : (s.pch n).held = []
  relocating : (s.pch n).relocating = false

theorem State.serveQueue_nil (s : State) (n k : Nat) (h : (s.pch n).queue = []) : State.serveQueue n k s = s := by
  cases k with
  | zero => rfl
  | succ k =>
    have hpick : s.pickReq [] = none := rfl
    simp only [State.serveQueue, h, hpick, ite_self]

theorem State.pickReq_singleton (s : State) (r : StoreReq) : s.pickReq [r] = some 0 := by
  simp [State.pickReq, sameLine]

/-- The state with the request of pseudo-channel `n` taken from its queue. -/
def State.taken (s : State) (n : Nat) (r : StoreReq) : State :=
  (s.setPch n { s.pch n with queue := [r] }).setPch n { s.pch n with queue := [] }

theorem State.taken_pch {s : State} {n : Nat} (h : s.Quiet n) (r : StoreReq) (k : Nat) : (s.taken n r).pch k = s.pch k := by
  rw [State.taken, State.setPch_pch, State.setPch_pch]
  split
  · subst k
    rw [← h.queue]
  · rfl

theorem State.taken_sameData {s : State} {n : Nat} (h : s.Quiet n) (r : StoreReq) : SameData s (s.taken n r) :=
  ⟨rfl, rfl, fun k => by rw [State.taken_pch h], fun k => by rw [State.taken_pch h], fun k => by rw [State.taken_pch h], rfl, rfl⟩

theorem PChan.refill_arrived (p : PChan) (r : StoreReq) (hq : p.queue = []) (hh : p.held = []) :
    ({ p with held := p.held ++ [r] } : PChan).refill = { p with queue := [r] } := by
  simp [PChan.refill, queueMax, hq, hh]

theorem PChan.refill_quiet (p : PChan) (hq : p.queue = []) (hh : p.held = []) :
    ({ p with queue := [] ++ p.queue } : PChan).refill = p := by
  cases p
  dsimp only at hq hh
  subst hq hh
  rfl

theorem State.request_of_quiet {s : State} {r : StoreReq} (h : s.Quiet (pcOf r.a)) (hr : s.refusal r.port r.a r.ask = none) :
    s.request r = State.serveQueue (pcOf r.a) 2 (s.setPch (pcOf r.a) { s.pch (pcOf r.a) with queue := [r] }) := by
  have hpch : (s.setPch (pcOf r.a) { s.pch (pcOf r.a) with queue := [r] }).pch (pcOf r.a) =
      { s.pch (pcOf r.a) with queue := [r] } := by rw [State.setPch_pch, if_pos rfl]
  unfold State.request
  rw [hr]
  dsimp only
  rw [PChan.refill_arrived _ r h.queue h.held, State.serveAll, hpch]
  dsimp only
  rw [h.held]
  rfl

/-- The one request that waits is taken and served. -/
theorem State.serveQueue_singleton {s x : State} {n : Nat} (k : Nat) {p : PChan} {r : StoreReq} {back : List StoreReq}
    (hp : s.pch n = p) (hq : p.queue = [r]) (hrel : p.relocating = false)
    (hno : (s.setPch n { p with queue := [] }).refusal r.port r.a r.ask = none)
    (hx : (s.setPch n { p with queue := [] }).serve r = (x, back)) :
    State.serveQueue n (k + 1) s =
      State.serveQueue n k (x.setPch n ({ x.pch n with queue := back ++ (x.pch n).queue } : PChan).refill) := by
  have hrun : ¬ p.relocating = true := by simp [hrel]
  rw [State.serveQueue, hp, if_neg hrun]
  simp only [hq, State.pickReq_singleton, List.getElem?_cons_zero, List.eraseIdx_cons_zero, hno, hx]

/-- A read that arrives there is served at once, and the controller is as quiet as before. -/
theorem State.request_read {s x : State} {r : StoreReq} (h : s.Quiet (pcOf r.a)) {errs : List Nat} {dest : ReadDest}
    (hr : r.ask = .read errs dest) (hx : (s.taken (pcOf r.a) r).serve r = (x, [])) (hq : (x.pch (pcOf r.a)).queue = [])
    (hh : (x.pch (pcOf r.a)).held = []) : s.request r = x.setPch (pcOf r.a) (x.pch (pcOf r.a)) := by
  have hno (u : State) : u.refusal r.port r.a r.ask = none := by rw [hr]; rfl
  have hpch : (s.setPch (pcOf r.a) { s.pch (pcOf r.a) with queue := [r] }).pch (pcOf r.a) =
      { s.pch (pcOf r.a) with queue := [r] } := by rw [State.setPch_pch, if_pos rfl]
  rw [State.request_of_quiet h (hno s), State.serveQueue_singleton 1 hpch rfl h.relocating (hno _) hx,
    PChan.refill_quiet _ hq hh]
  refine State.serveQueue_nil _ _ _ ?_
  rw [State.setPch_pch, if_pos rfl, hq]

/-- The line reaches the host (R28, R30). -/
theorem State.handOver_hdm (s : State) (a v : Nat) (psn : List Bool) :
    (s.handOver a .hdm v psn).host.lastRead = v ∧ (s.handOver a .hdm v psn).host.lastPoison = psn.any (fun b => b) ∧
      (s.handOver a .hdm v psn).mem = s.mem ∧ (s.handOver a .hdm v psn).sto = s.sto ∧ (s.handOver a .hdm v psn).flt = s.flt := by
  refine ⟨rfl, rfl, ?_⟩
  have htrack : (s.trackLine a).mem = s.mem ∧ (s.trackLine a).sto = s.sto ∧ (s.trackLine a).flt = s.flt := by
    unfold State.trackLine
    split
    · exact ⟨rfl, rfl, rfl⟩
    · dsimp only
      split
      · split <;> exact ⟨rfl, rfl, rfl⟩
      · exact ⟨rfl, rfl, rfl⟩
  exact htrack

/-- A host read below 192 GiB that finds nothing else waiting delivers what its controller reads, unless that must be written back. -/
theorem State.hdmRead_served {s u : State} {a v : Nat} {errs : List Nat} {f : Fetched} (hquiet : s.Quiet (pcOf a))
    (hv : s.host.viral = false) (ha : a < windowBase) (hu : SameData s u) (hwb : f.wb = false)
    (hserve : (s.taken (pcOf a) (s.newReq 6 a 0 (.read errs .hdm))).serveRead 6 a errs = (u, v, f)) :
    (s.hdmRead a errs).host.lastRead = v ∧ (s.hdmRead a errs).host.lastPoison = f.psn.any (fun b => b) ∧
      (s.hdmRead a errs).mem = s.mem ∧ (s.hdmRead a errs).flt.c4 = s.flt.c4 := by
  obtain ⟨hread, hpoison, hmem, hsto, hflt⟩ := u.handOver_hdm a v f.psn
  have hx : (s.taken (pcOf a) (s.newReq 6 a 0 (.read errs .hdm))).serve (s.newReq 6 a 0 (.read errs .hdm)) =
      ((u.handOver a .hdm v f.psn).completed (s.newReq 6 a 0 (.read errs .hdm)), []) := by
    have hback : f.backReq (s.newReq 6 a 0 (.read errs .hdm)) = [] := by simp [Fetched.backReq, hwb]
    simp only [State.serve, State.newReq] at hserve hback ⊢
    simp only [hserve, hback]
  generalize hw : u.handOver a .hdm v f.psn = w at hread hpoison hmem hsto hflt hx
  have hdone : SameData w (w.completed (s.newReq 6 a 0 (.read errs .hdm))) := (SameData.refl w).completed
  have hpch (n : Nat) : w.pch n = u.pch n := by rw [State.pch, hsto]; rfl
  generalize w.completed (s.newReq 6 a 0 (.read errs .hdm)) = x at hx hdone
  have hq : (x.pch (pcOf a)).queue = [] := by rw [hdone.queue, hpch, hu.queue, hquiet.queue]
  have hh : (x.pch (pcOf a)).held = [] := by rw [hdone.held, hpch, hu.held, hquiet.held]
  have heq : s.hdmRead a errs = x.setPch (pcOf a) (x.pch (pcOf a)) := by
    rw [State.hdmRead, if_neg (by simp [hv]), if_neg (Nat.not_le.mpr ha)]
    exact State.request_read (r := s.newReq 6 a 0 (.read errs .hdm)) hquiet rfl hx hq hh
  rw [heq]
  exact ⟨(congrArg (fun y => y.lastRead) hdone.host).trans hread, (congrArg (fun y => y.lastPoison) hdone.host).trans hpoison,
    hdone.mem.trans (hmem.trans hu.mem), hdone.c4.trans ((congrArg (fun y => y.c4) hflt).trans hu.c4)⟩

/-- Settles O53: the controller reads the line as stored, or finds that it lies above the usable capacity. -/
theorem hdmReads : Obligations.HdmReads := by
  intro s a hc ha hm hv hqueue hheld hrel
  have hquiet : s.Quiet (pcOf a) := ⟨hqueue, hheld, hrel⟩
  have hsize : a < hdmSize := ha.trans (by decide)
  refine ⟨fun hcap hlow hstale => ?below, fun hcap es => ?above⟩
  case below =>
    have htaken := State.taken_sameData hquiet (s.newReq 6 a 0 (.read [] .hdm))
    obtain ⟨u, hu, hfetch⟩ := (s.taken (pcOf a) (s.newReq 6 a 0 (.read [] .hdm))).fetchLine_nil 6 a
    have hserve : (s.taken (pcOf a) (s.newReq 6 a 0 (.read [] .hdm))).serveRead 6 a [] =
        (u, if a < 2 ^ 30 then 0 else leNat (Memory.readBytes s.mem a 64),
          ⟨Memory.readBytes s.mem a 64, (List.range 8).map (fun i => s.poisoned (a / 8 + i)), false, 0⟩) := by
      have hcap' : ¬ (s.taken (pcOf a) (s.newReq 6 a 0 (.read [] .hdm))).capBytes ≤ a := Nat.not_le.mpr hcap
      have hstale' : (s.taken (pcOf a) (s.newReq 6 a 0 (.read [] .hdm))).staleLine a = false := hstale
      simp only [State.serveRead, hcap', hstale', hfetch, htaken.poisoned, htaken.mem, Nat.not_lt.mpr hlow, Bool.false_eq_true,
        if_false]
    obtain ⟨hread, hpoison, hmem, h4⟩ := State.hdmRead_served hquiet hv ha (htaken.trans hu) rfl hserve
    refine ⟨s.hdmRead a [], ?_, hread, hpoison.trans ?_, fun x => by rw [hmem]⟩
    · rw [exec_hdmRead s a [] hsize hm, State.settle_none _ (h4.trans hc)]
    · rw [List.any_map]
      rfl
  case above =>
    have htaken := State.taken_sameData hquiet (s.newReq 6 a 0 (.read es .hdm))
    have hserve : (s.taken (pcOf a) (s.newReq 6 a 0 (.read es .hdm))).serveRead 6 a es =
        (s.taken (pcOf a) (s.newReq 6 a 0 (.read es .hdm)), 0, ⟨[], List.replicate 8 true, false, 0⟩) := if_pos hcap
    obtain ⟨hread, hpoison, hmem, h4⟩ := State.hdmRead_served hquiet hv ha htaken rfl hserve
    refine ⟨s.hdmRead a es, ?_, hread, hpoison, hmem⟩
    rw [exec_hdmRead s a es hsize hm, State.settle_none _ (h4.trans hc)]

end Sys2Proof.Machine
end

section
/-!
PROOFS. Commands of the host interface that are carried out (R27, R30, R37 to R49, R355, R366, R369 to R371, R385 to R388): the
resets and link training, fetch and the ring commands, and the DOE mailbox, each with the condition under which it has its effect.
-/

namespace Sys2Proof.Machine

/-! ## Resets and the link (R27, R30, R385 to R388) -/

/-- Settles O1: WRST_N and training are carried out under their condition, PERST# has one effect in DARK and another outside it, and
the others have no condition. -/
theorem resetsAndLinkComplete : Obligations.ResetsAndLinkComplete := by
  refine fun s => ⟨fun b i => rfl, fun n hn hp => done_whenever s _ _ ?warm, fun hp => congrArg done (if_neg hp),
    fun hp => congrArg done (if_pos hp), rfl, rfl, rfl, rfl, fun w r f hl hp => done_whenever s _ _ ?link⟩
  case warm => rw [s.awake hp, decide_eq_true hn]; rfl
  case link => rw [s.awake hp, hl]; rfl

/-! ## Fetch and the ring commands (R37 to R48, R355, R418) -/

theorem withCmd_serves {s : State} {r op : Nat} {e : Exec} (h : s.serves r op e) (f : State → Exec → State) :
    withCmd s r op f = .next (f s e).settle := withCmd_run s r op f e h.1 h.2

section
variable (s : State) (r : Fin 262144)

theorem exec_commandFetch {x : Ring} {desc d : BitVec 512} (hx : s.ring r.val = some x) (hf : s.mayFetch r.val x = true)
    (hp : s.power ≠ 3) (hd : d = s.descRead x desc) (hop : opcodes.contains (bitsOf d.toNat 0 8) = true)
    (hden : (⟨d, x.cons, s.pageAdmin (pageOfRing r.val), s.pageSub (pageOfRing r.val)⟩ : Exec).denied = false) :
    exec (.commandFetch r desc false) s = .next (((s.touchCtx r.val).cacheDesc x d).setRing r.val (some { x with
      cons := (x.cons + 1) % 2 ^ 32,
      exec := some ⟨d, x.cons, s.pageAdmin (pageOfRing r.val), s.pageSub (pageOfRing r.val)⟩ })).settle := by
  subst hd
  have hop' : opcodes.contains (⟨s.descRead x desc, x.cons, s.pageAdmin (pageOfRing r.val),
      s.pageSub (pageOfRing r.val)⟩ : Exec).op = true := hop
  have hlost : s.ctxLost r.val false = false := rfl
  simp only [exec, execCommandFetch, hx, State.whenever, hf, s.awake hp, hlost, State.fetch, hop', hden, done, Bool.and_self,
    Bool.not_true, Bool.false_eq_true, if_true, if_false]

variable {r} {e : Exec}

theorem exec_nop (h : s.serves r.val 0x00 e) : exec (.nop r) s = .next (s.finish r.val e stOk).settle := by
  rw [exec, execNop, withCmd_serves h]

theorem exec_ringQuery {x : Ring} (h : s.serves r.val 0x04 e) (hx : s.ring e.target = some x) :
    exec (.ringQuery r) s = .next (s.complete r.val e stOk x.query 0).settle := by
  dsimp only [exec, execRingQuery]
  rw [withCmd_serves h]
  simp only [hx]

theorem exec_ringCreate {u : State} {pin : Bool} (h : s.serves r.val 0x01 e)
    (hu : u = { s with scr.ctxPinned := s.newest.val Scr.HST_CTX_PINNED }) (hn : e.mayName r.val e.target = true)
    (ha : e.arg 278 1 = 1 → e.admin = true) (hx : s.ring e.target = none) (hb : u.createBad e = false)
    (hpin : pin = (e.arg 90 1 == 1 && decide (u.pinnedRings < u.scr.ctxPinned))) :
    exec (.ringCreate r) s = .next (((u.setRing e.target (some (e.newRing pin))).cacheCtx e.target).finish r.val e
      (if e.arg 90 1 == 1 && !pin then stUnpinned else stOk)).settle := by
  subst hu hpin
  dsimp only [exec, execRingCreate]
  rw [withCmd_serves h]
  have hall : (e.arg 278 1 == 1 && !e.admin) = false := by simpa using ha
  have hx' : ({ s with scr.ctxPinned := s.newest.val Scr.HST_CTX_PINNED } : State).ring e.target = none := hx
  simp only [hn, hall, hx', hb, Bool.not_true, Bool.or_self, Option.isSome_none, Bool.false_eq_true, if_false]

theorem exec_ringDestroy {y : Ring} (h : s.serves r.val 0x02 e) (h3 : 3 ≤ e.target) (hn : e.mayName r.val e.target = true)
    (hy : s.ring e.target = some y) (hnamed : s.named e.target = false)
    (hfree : e.target = r.val ∨ (y.exec = none ∧ (y.kind = 0 → s.owesCompletion e.target y.cplRing = false))) :
    exec (.ringDestroy r) s = .next ((s.dropResize e.target y).completeGone r.val e stOk 0 0 (some e.target)).settle := by
  dsimp only [exec, execRingDestroy]
  rw [withCmd_serves h]
  have hwait : ¬ (e.target ≠ r.val && (y.exec.isSome || (y.kind = 0 && s.owesCompletion e.target y.cplRing))) = true := by
    rcases hfree with heq | ⟨hexec, howes⟩
    · simp [heq]
    · simpa [hexec] using fun _ => howes
  simp only [hn, hy, hnamed, Nat.not_lt.mpr h3, decide_false, Bool.not_true, Bool.or_self, Bool.false_eq_true, if_false, if_neg hwait]

theorem exec_ringResize {y : Ring} (h : s.serves r.val 0x03 e) (h3 : 3 ≤ e.target) (hn : e.mayName r.val e.target = true)
    (hy : s.ring e.target = some y) (hlo : 4 ≤ e.arg 84 5) (hhi : e.arg 84 5 ≤ 24) (hbase : e.arg 128 64 % 4096 = 0) :
    exec (.ringResize r) s = .next (if y.empty then
        ((((s.dropResize e.target y).setRing e.target (some (y.moved (e.arg 84 5) (e.arg 128 64)))).spaceBack
          e.target).finish r.val e stOk).settle
      else ((((s.dropResize e.target y).setRing e.target (some { y with resize := some (e.arg 84 5, e.arg 128 64) })).hstEvent
        e.target 0x0B06 (e.arg 128 64) (e.arg 84 5 + e.target * 2 ^ 14)).finish r.val e stPending).settle) := by
  dsimp only [exec, execRingResize]
  rw [withCmd_serves h]
  simp only [hn, hy, Nat.not_lt.mpr h3, Nat.not_lt.mpr hlo, Nat.not_lt.mpr hhi, hbase, decide_false, Bool.not_true, Bool.or_self,
    ne_eq, not_true_eq_false, Bool.false_eq_true, if_false]
  split <;> rfl

theorem exec_resizeApply {x : Ring} {l b : Nat} (hx : s.ring r.val = some x) (hr : x.resize = some (l, b))
    (he : x.empty = true) (hp : s.power ≠ 3) : exec (.resizeApply r) s =
      .next ((s.setRing r.val (some { x.moved l b with settling := true })).hstEvent r.val 0x0B07 b (l + r.val * 2 ^ 14)).settle := by
  simp only [exec, execResizeApply, hx, hr, State.whenever, he, s.awake hp, done, Bool.and_self, if_true]

theorem exec_msixModTimer {x : Ring} (hx : s.ring r.val = some x) (hk : x.kind ≠ 0) (hi : x.irqEn = true) (ht : x.modTime ≠ 0)
    (hs : x.sinceMsg ≠ 0) (hu : x.used ≠ 0) : exec (.msixModTimer r) s =
      .next ((s.lapse (.modTime r.val) (usCycles * x.modTime)).announceRing r.val x).settle := by
  simp only [exec, execMsixModTimer, hx, State.whenever, bne_iff_ne.mpr hk, hi, bne_iff_ne.mpr ht, bne_iff_ne.mpr hs,
    bne_iff_ne.mpr hu, done, Bool.and_self, if_true]

end

/-- Settles O3: each command meets its condition. -/
theorem ringCommandsComplete : Obligations.RingCommandsComplete := by
  refine fun s => ⟨fun r x desc d => exec_commandFetch s r, fun r e => exec_nop s, fun r e u pin => exec_ringCreate s,
    fun r e y => exec_ringDestroy s, fun r e y => exec_ringResize s, fun r e x => exec_ringQuery s,
    fun r x l b => exec_resizeApply s, fun r x => exec_msixModTimer s, fun v hv u hu => ?holdoff⟩
  subst hu
  exact done_whenever s _ _ hv

/-! ## The DOE mailbox (R49, R355, R366, R369 to R371) -/

/-- While a core runs and outside DARK, the handler of the protocol and code of the first outstanding object takes its body. -/
theorem State.doeHandle_first (s : State) {p : DoeProtocol} {code : Nat} (f : State → List Byte → State) {o : DoeObject}
    {rest : List DoeObject} (ho : s.host.doeIn = o :: rest) (hp : s.power ≠ 3) (hc : s.coreRuns = true) (hproto : o.protocol = p)
    (hcode : p = .attestation → leNat (o.body.take 1) = code) : s.doeHandle p code f = f s (o.body.drop 4) := by
  have hmine : (decide (p ≠ .attestation) || leNat (o.body.take 1) == code) = true := by
    by_cases ha : p = .attestation <;> simp [ha, hcode]
  rw [State.doeHandle, ho]
  exact State.whenever_pos _ _ _ (by rw [decide_eq_true hproto, hmine, hc, s.awake hp]; rfl)

/-- An object of a protocol that the device supports becomes outstanding while fewer than two are. -/
theorem exec_doeObject (s : State) (p : DoeProtocol) (b : List Byte) (hp : s.power ≠ 3) (hlen : b.length ≤ 65536)
    (hroom : s.host.doeIn.length < 2) (hsup : doeSupported (some p) b = true) :
    exec (.doeObject (some p) b) s = .next ({ s with host.doeIn := s.host.doeIn ++ [⟨p, b⟩] } : State).settle := by
  refine (done_whenever s _ _ (s.awake hp)).trans ?_
  simp only [Nat.not_lt.mpr hlen, Nat.not_le.mpr hroom, hsup, if_true, if_false]

section
variable {s : State} {o : DoeObject} {rest : List DoeObject} (ho : s.host.doeIn = o :: rest) (hp : s.power ≠ 3)
  (hc : s.coreRuns = true)
include ho hp hc

theorem exec_doeDiscovery (h : o.protocol = .discovery) : exec .doeDiscovery s =
    .next (s.doeAnswer (.protocols [.discovery, .tableAccess, .ideKm, .attestation])).settle :=
  congrArg done (s.doeHandle_first _ ho hp hc h nofun)

theorem exec_cdatRead (h : o.protocol = .tableAccess) : exec .cdatRead s =
    .next (s.doeAnswer (.table (256 * 2 ^ 30) 600 100)).settle :=
  congrArg done (s.doeHandle_first _ ho hp hc h nofun)

/-- Inside a session an IDE_KM message is accepted (R369). -/
theorem exec_ideKm {k : Nat} (h : o.protocol = .ideKm) (hk : s.host.sessionKey = some k) : exec .ideKm s =
    .next ((({ s with host.ideKeys := true } : State).setF HST_STATUS.IDE_ON (s.free % 2)).drew.doeAnswer .ideAccepted).settle := by
  refine congrArg done ((s.doeHandle_first _ ho hp hc h nofun).trans ?_)
  simp only [hk, Option.isNone_some, Bool.false_eq_true, if_false]

variable (h : o.protocol = .attestation)
include h

theorem exec_getId (hcode : leNat (o.body.take 1) = 1) : exec .getId s =
    .next (s.doeAnswer (.bytes (vangene 0x01 ++ leBytes 8 (s.getF CTL_ID.ID) ++ Config.identityKey ++
      Config.certificateChain))).settle :=
  congrArg done (s.doeHandle_first _ ho hp hc h fun _ => hcode)

theorem exec_getReport (hcode : leNat (o.body.take 1) = 2) : exec .getReport s =
    .next (s.doeAnswer (.bytes (vangene 0x02 ++ s.report (BitVec.ofNat 256 (leNat ((o.body.drop 4).take 32))) ++
      Config.identitySign (sha3 (s.report (BitVec.ofNat 256 (leNat ((o.body.drop 4).take 32)))))))).settle :=
  congrArg done (s.doeHandle_first _ ho hp hc h fun _ => hcode)

theorem exec_session (hcode : leNat (o.body.take 1) = 3) : exec .session s =
    .next (s.openSession ((o.body.drop 4).take ekBytes)
      (BitVec.ofNat 256 (leNat (((o.body.drop 4).drop ekBytes).take 32)))).settle :=
  congrArg done (s.doeHandle_first _ ho hp hc h fun _ => hcode)

/-- A token that verifies opens the debug paths (R371). -/
theorem exec_debugUnlock (hcode : leNat (o.body.take 1) = 4) (hv : s.verify 5 s.debugKey (o.body.drop 4) = 0) :
    exec .debugUnlock s = .next (((s.usedNonce 0).setF CTL_SEC.DEBUG 1).doeAnswer (.status 0x04 true)).settle := by
  refine congrArg done ((s.doeHandle_first _ ho hp hc h fun _ => hcode).trans ?_)
  simp only [hv, if_true, beq_self_eq_true]

/-- A session that is open ends (R369). -/
theorem exec_endSession {k : Nat} (hcode : leNat (o.body.take 1) = 5) (hk : s.host.sessionKey = some k) : exec .endSession s =
    .next (({ s with host.sessionKey := none } : State).doeAnswer (.status 0x05 true)).settle := by
  refine congrArg done ((s.doeHandle_first _ ho hp hc h fun _ => hcode).trans ?_)
  simp only [hk]

end

/-- Settles O4: an object of a supported protocol becomes outstanding, and the first one has its own handler's answer. -/
theorem mailboxComplete : Obligations.MailboxComplete := by
  refine fun s hp => ⟨fun p b => exec_doeObject s p b hp, done_whenever s _ _ (s.awake hp), fun o rest ho hc =>
    ⟨exec_doeDiscovery ho hp hc, exec_cdatRead ho hp hc, fun k => exec_ideKm ho hp hc, fun h => ⟨exec_getId ho hp hc h, ?report,
      exec_session ho hp hc h, exec_debugUnlock ho hp hc h, fun k => exec_endSession ho hp hc h⟩⟩⟩
  rintro _ rfl
  exact exec_getReport ho hp hc h

end Sys2Proof.Machine
end

section
/-!
PROOFS. Commands of the correlation scripts and of the roll call that are carried out (R51 to R55, R65 to R69, R94, R365): loads,
commits, cancels and reads, the lock point, the release of an image and the frames of the roll call, each with the condition under
which it has its effect.
-/

namespace Sys2Proof.Machine

section
variable (s : State) {r : Fin 262144} {e : Exec}

/-! ## Script commands (R51 to R53, R55, R365) -/

/-- A load whose addresses are aligned and whose records all read ends OK where it stopped (R51). -/
theorem exec_scriptLoad {d : List Byte} {u : State} {q : State × Nat × Nat × Nat} (h : s.serves r.val 0x10 e)
    (haddr : e.arg 64 64 % 8 = 0) (hlen : e.arg 128 32 % 8 = 0)
    (hu : u = (if e.arg 160 1 = 1 then { s with scr.staging := [] } else s))
    (hq : q = State.loadRecords (d.length / 8 + 1) u d (e.arg 128 32) 0 0) (hwhy : q.2.2.2 = 0) :
    exec (.scriptLoad r d) s = .next ((q.1.deviceBytes q.2.1).complete r.val e stOk
      (q.2.1 % 2 ^ 32 + 2 ^ 32 * min 65535 q.2.2.1) 0).settle := by
  dsimp only [exec, execScriptLoad]
  rw [withCmd_serves h, ← hu, ← hq]
  simp only [haddr, hlen, hwhy, ne_eq, not_true_eq_false, decide_false, Bool.or_self, Bool.false_eq_true, if_false, if_true,
    Nat.mul_zero, Nat.add_zero]

/-- Outside iron, in time and with nothing pending, a commit builds its image while fewer than six are held: steps 1 to 4 of R53. -/
theorem exec_scriptCommit {sig : List Byte} {unc : Bool} {k : Int} (h : s.serves r.val 0x11 e) (hk : k = toSigned 64 (e.arg 64 64))
    (hiron : s.iron = false) (htime : s.epoch = true → s.commitLate k = false ∧ k - s.houseDwell ≤ 2 ^ 24)
    (hpend : s.scr.pend = none) (hheld : s.heldImages.length < 6) :
    exec (.scriptCommit r sig unc) s = .next (s.commitBuild r.val e k sig unc).settle := by
  subst hk
  dsimp only [exec, execScriptCommit]
  rw [withCmd_serves h]
  have hlate : (s.epoch && s.commitLate (toSigned 64 (e.arg 64 64))) = false := by
    simpa using fun hep => (htime hep).1
  have hfar : (s.epoch && decide (2 ^ 24 < toSigned 64 (e.arg 64 64) - s.houseDwell)) = false := by
    simpa using fun hep => (htime hep).2
  simp only [hiron, hlate, hfar, hpend, Option.isSome_none, Nat.not_le.mpr hheld, Bool.false_eq_true, if_false]

/-- An image that is built whole, signed and of the expected tags, and whose clusters await no swap, is accepted: steps 5 to 7 of
R53, and R151. -/
theorem State.commitBuild_takes {sig : List Byte} {unc : Bool} {k : Int} {b : State × Image × List Report × Bool} {u : State}
    (hb : b = s.buildImage unc none k s.newest s.scr.staging) (hcopied : b.2.2.2 = false) (hu : u = b.1.clampReports b.2.2.1)
    (hsig : u.commitSigned b.2.1 sig = true) (hbase : e.arg 128 1 = 1 → e.arg 192 64 = s.newest.tag)
    (htag : e.arg 129 1 = 1 → e.arg 256 64 = b.2.1.tag)
    (hswap : (u.cluChanged s.newest b.2.1).all (fun c => (u.cluster c).swapDwell.isNone) = true) (r : Nat) :
    s.commitBuild r e k sig unc = u.commitTake r e k s.newest b.2.1 b.2.2.1 (u.cluChanged s.newest b.2.1) := by
  dsimp only [State.commitBuild]
  rw [← hb, ← hu]
  have htags : ((e.arg 128 1 = 1 && e.arg 192 64 != s.newest.tag) || (e.arg 129 1 = 1 && e.arg 256 64 != b.2.1.tag)) = false := by
    simpa using ⟨hbase, htag⟩
  have hfree : (u.cluChanged s.newest b.2.1).any (fun c => (u.cluster c).swapDwell.isSome) = false := by
    simpa using hswap
  simp only [hcopied, hsig, htags, hfree, Bool.not_true, Bool.false_eq_true, if_false]

theorem exec_scriptCancel_none (h : s.serves r.val 0x12 e) (hpend : s.scr.pend = none) :
    exec (.scriptCancel r) s = .next (s.complete r.val e stOk 0 0).settle := by
  dsimp only [exec, execScriptCancel]
  rw [withCmd_serves h]
  simp only [hpend]

/-- Before its lock point a pending commit is dropped (R55). -/
theorem exec_scriptCancel_pending {p : Pending} (h : s.serves r.val 0x12 e) (hpend : s.scr.pend = some p)
    (hbefore : s.epoch = true → sixDiff s.houseSix (p.base.lockSix p.image.first) < 0) :
    exec (.scriptCancel r) s = .next ((s.dropCommit p 0x1007).complete r.val e stOk 1 0).settle := by
  dsimp only [exec, execScriptCancel]
  rw [withCmd_serves h]
  have hlock : (s.epoch && decide (0 ≤ sixDiff s.houseSix (p.base.lockSix p.image.first))) = false := by
    simpa using hbefore
  simp only [hpend, hlock, Bool.false_eq_true, if_false]

/-- A read gives the canonical form of the newest image, or of the pending one where it asks for that (R52). -/
theorem exec_scriptRead {im : Image} {data : List Byte} (h : s.serves r.val 0x13 e)
    (him : (e.arg 160 1 = 0 ∧ im = s.newest) ∨ (e.arg 160 1 ≠ 0 ∧ ∃ p, s.scr.pend = some p ∧ im = p.image))
    (hdata : data = (im.canonical false).take (e.arg 128 32)) : exec (.scriptRead r) s =
      .next (((s.hostPut (e.arg 64 64) data).deviceBytes data.length).complete r.val e stOk data.length 0).settle := by
  subst hdata
  have hsel : (if e.arg 160 1 = 0 then some s.newest else s.scr.pend.map (fun p => p.image)) = some im := by
    obtain ⟨hnew, rfl⟩ | ⟨hpending, p, hp, rfl⟩ := him
    · rw [if_pos hnew]
    · rw [if_neg hpending, hp, Option.map_some]
  dsimp only [exec, execScriptRead]
  rw [withCmd_serves h, hsel]

end

/-! ## The lock point and the release of an image (R54, R59) -/

/-- At its lock point a pending commit that has seen no change of capabilities becomes the newest image. -/
theorem exec_lockPoint {s u : State} {p : Pending} (hpend : s.scr.pend = some p) (hepoch : s.epoch = true) (hp : s.power ≠ 3)
    (hu : u = s.advanceTo (p.base.lockSix p.image.first)) (hcap : u.getF CTL_CAP3.CAP_SEQ = p.capSeq) :
    exec .lockPoint s = .next (u.lockIn p.image p.image.first).settle := by
  subst hu
  dsimp only [exec, execLockPoint]
  rw [hpend]
  refine (done_whenever s _ _ (by rw [hepoch, s.awake hp]; rfl)).trans ?_
  simp only [hcap, if_true]

theorem exec_imageRelease {s : State} {i : Fin 6} (h : s.imageIdle i.val = true) : exec (.imageRelease i) s =
    .next ({ s with scr.images := s.scr.images.eraseIdx i.val } : State).settle :=
  done_whenever s _ _ h

/-! ## The roll call (R65 to R69) -/

theorem exec_rollCallGo (s : State) (c : BitVec 8) (hp : s.power ≠ 3) :
    exec (.rollCallGo c) s = .next (s.rollGo c.toNat).settle :=
  done_whenever s _ _ (s.awake hp)

/-- A chip that takes part latches its answers and gives them; the ATTN_WHO it answers ends its call for attention (R67, R68). -/
theorem exec_rollCallQuery {s u : State} (c : BitVec 8) (hen : s.flag SCP_RC_CTRL.ENABLE = true) (hp : s.power ≠ 3)
    (hu : u = ({ s with scr.rcSnap := (s.rollAnswer c.toNat).2.1 } : State).send
      (.rollAnswer (s.rollAnswer c.toNat).2.1 (s.rollAnswer c.toNat).2.2)) : exec (.rollCallQuery c) s =
    .next (if c = 0x31 ∧ s.flag SCP_RC_CTRL.ATTN = true then u.clearAttn else u).settle := by
  subst hu
  refine (done_whenever s _ _ (by rw [hen, s.awake hp]; rfl)).trans ?_
  simp only [Bool.and_eq_true, decide_eq_true_eq]

/-- The frame's own code says how many of the lines' answers are taken (R66). -/
theorem exec_rollCallDone {s : State} {n : Nat} (h l : BitVec 64) (hbusy : s.flag SCP_RC_QUERY.BUSY = true) (hp : s.power ≠ 3)
    (hn : n = (s.rollAnswer s.scr.rcCode).1) : exec (.rollCallDone h l) s =
      .next (((((s.setF SCP_RC_H.LOW (h.toNat % 2 ^ n)).setF SCP_RC_L.LOW (l.toNat % 2 ^ n)).setF SCP_RC_QUERY.GO 0).setF
        SCP_RC_QUERY.BUSY 0).setF SCP_RC_QUERY.DONE 1).settle := by
  subst hn
  exact done_whenever s _ _ (by rw [hbusy, s.awake hp]; rfl)

/-- Settles O5: each command meets its condition; a commit passes the steps of R53 up to the build of its image, and then those after
it. -/
theorem scriptCommandsComplete : Obligations.ScriptCommandsComplete := by
  refine fun s => ⟨fun r d e h ha hl u hu q => exec_scriptLoad s h ha hl hu,
    fun r sig e k h hk hiron htime hpend hheld b hb hcopied u hu hsig hbase htag hswap => ?commit,
    fun r e h => ⟨exec_scriptCancel_none s h, fun p => exec_scriptCancel_pending s h⟩, fun r e im data => exec_scriptRead s,
    fun p u => exec_lockPoint, fun i => exec_imageRelease, exec_rollCallGo s, fun c u => exec_rollCallQuery c,
    fun h l n => exec_rollCallDone h l⟩
  rw [exec_scriptCommit s h hk hiron htime hpend hheld,
    s.commitBuild_takes hb hcopied hu hsig hbase htag hswap]

end Sys2Proof.Machine
end

section
/-!
PROOFS. Commands of the house clock and of the serdes-reference loop that are carried out (R71 to R89): the ticks, the entries, the
reference and PPS inputs, the states of the DPLL and the software loop, each with the condition under which it has its effect.
-/

namespace Sys2Proof.Machine

section
variable (s : State)

/-! ## The entries and the XO history (R74, R77, R79) -/

/-- An entry outvoted for as long as VALID_WIN asks is disqualified, while no dispute stands. -/
theorem exec_entryDisqualified (e : Fin 8) (ps : Int) (husable : s.entUsable e.val = true)
    (hdispute : s.flag HCK_STATUS.DISPUTE = false) (hwin : s.hcfg HCK_TIMING.VALID_WIN ≤ s.getF (HCK_ENT.EXCESS e.val)) :
    exec (.entryDisqualified e ps) s = .next (s.disqualify e.val ps).settle :=
  done_whenever s _ _ (by rw [husable, hdispute, decide_eq_true hwin]; rfl)

/-- The XO history is due in LOCKED with the loop closed, an hour on. -/
theorem State.xoDue_of_locked (hlocked : s.getF HCK_STATUS.STATE = 2) (hclosed : s.flag HCK_CTRL.OPEN = false)
    (hhour : 3600 ≤ s.hck.lockedFor) : s.xoDue = true := by
  rw [State.xoDue, decide_eq_true hlocked, hclosed, decide_eq_true hhour]; rfl

/-! ## The inputs (R71) -/

/-- An input becomes present unless its frequency code says that it never is. -/
theorem exec_refPresent (i : Fin 2)
    (hcode : (if i.val = 0 then s.hcfg HCK_CTRL.REFA_FREQ else s.hcfg HCK_CTRL.REFB_FREQ) ≠ 3) : exec (.refPresent i) s =
      .next (({ s with hck.present := s.hck.present ||| BitVec.ofNat 2 (2 ^ i.val) } : State).entSignals).settle :=
  done_whenever s _ _ (bne_iff_ne.mpr hcode)

/-! ## The states of the DPLL (R80, R81, R86) -/

/-- The lock criterion: the phase error has stayed small for ten time constants since the loop closed. -/
theorem State.lockCriterion_of_acquiring {m : Nat} (hacquiring : s.getF HCK_STATUS.STATE = 1)
    (hsmall : m ≤ s.hcfg HCK_TIMING.LOCK_PS) (hlong : s.hck.closedAt + tenTimeConstants s.activeBw.1 ≤ s.clk.cycles) :
    s.lockCriterion m = true := by
  rw [State.lockCriterion, decide_eq_true hacquiring, decide_eq_true hsmall, decide_eq_true hlong]; rfl

/-- Holdover ends in LOST where HOLD_MAX sets it a limit. -/
theorem exec_holdoverToLost (hholdover : s.getF HCK_STATUS.STATE = 3) (hlimit : s.hcfg HCK_HOLD.HOLD_MAX ≠ 0) :
    exec .holdoverToLost s = .next ((s.lapse .holdover (secCycles * s.hcfg HCK_HOLD.HOLD_MAX)).hckState 4).settle :=
  done_whenever s _ _ (by rw [decide_eq_true hholdover, bne_iff_ne.mpr hlimit]; rfl)

/-- The software watchdog sends an open, locked loop to holdover. -/
theorem exec_swdogExpiry (hopen : s.flag HCK_CTRL.OPEN = true) (hlocked : s.getF HCK_STATUS.STATE = 2) :
    exec .swdogExpiry s = .next ((s.lapse .fow (secCycles * s.hcfg HCK_HOLD.SWDOG)).hckState 3).settle :=
  done_whenever s _ _ (by rw [hopen, decide_eq_true hlocked]; rfl)

end

/-- Settles O6: each command meets its condition; ticks, the loss of an input, the software loop, its frequency word and the lock of
the serdes reference have none. -/
theorem houseClockComplete : Obligations.HouseClockComplete := by
  intro s
  exact ⟨fun y ps => rfl, exec_entryDisqualified s, fun e hexpired => done_whenever s _ _ hexpired,
    fun hlocked hclosed hhour => done_whenever s _ _ (s.xoDue_of_locked hlocked hclosed hhour),
    fun i ps => rfl, exec_refPresent s,
    fun m hacquiring hsmall hlong => done_whenever s _ _ (s.lockCriterion_of_acquiring hacquiring hsmall hlong),
    exec_holdoverToLost s,
    fun i hon => done_whenever s _ _ (decide_eq_true hon), fun i hon => done_whenever s _ _ (decide_eq_true hon),
    rfl, fun ps => rfl, fun v => rfl, exec_swdogExpiry s, fun hlock => done_whenever s _ _ hlock, rfl⟩

end Sys2Proof.Machine
end

section
/-!
PROOFS. The count of house SIX (R95): what a house cycle in which no new epoch group applies does, and the closed form of many house
cycles under one image.
-/

namespace Sys2Proof.Machine

/-! ## A house cycle (R95, R97) -/

/-- The images ahead change nothing in `n` house cycles that reach the first dwell of none of them. -/
theorem State.runCycles_of_beyond (s : State) {n : Nat} (h : ∀ im ∈ s.ahead, n < s.cyclesTo (im.startSix im.first)) :
    s.runCycles n = (s.rawRun n).commaSent := by
  simp only [State.runCycles]
  rw [List.foldlRecOn (motive := (· = (s, n))) s.ahead _ rfl]
  rintro _ rfl im him
  exact if_neg (Nat.not_le.mpr (h im him))

theorem tick_of_beyond (s : State) (h : ∀ im ∈ s.ahead, 1 < s.cyclesTo (im.startSix im.first)) :
    tick s = (s.rawRun 1).commaSent.showHckSt := by
  rw [tick, s.runCycles_of_beyond h]

section
variable (s : State) (n : Nat)

/-- A run of house cycles writes the clock and, where house SIX advances, TIM_EPS. -/
theorem State.rawRun_only : s.rawRun n = { s with clk := (s.rawRun n).clk, regs := (s.rawRun n).regs } := by
  unfold State.rawRun
  split
  · dsimp only
    split <;> rfl
  · rfl

theorem State.sameFields_rawRun : sameFields [TIM_EPS.VALUE] s (s.rawRun n) := by
  unfold State.rawRun
  split
  · dsimp only
    split
    · exact fun _ _ => rfl
    · exact sameFields.setF (fun _ _ => rfl) _ List.mem_cons_self
  · exact fun _ _ => rfl

theorem State.rawRun_cycles : (s.rawRun n).clk.cycles = s.clk.cycles + n := by
  unfold State.rawRun
  split
  · dsimp only
    split <;> rfl
  · rfl

/-- The counter of R95 over `n` house cycles. -/
theorem State.rawRun_count (he : s.epoch = true) :
    (s.rawRun n).clk.acc = (s.clk.acc + 4 * n * s.den) % s.num ∧
    (s.rawRun n).clk.six = (s.clk.six + (s.clk.acc + 4 * n * s.den) / s.num) % 2 ^ 64 := by
  unfold State.rawRun
  rw [if_pos he]
  dsimp only
  split <;> exact ⟨rfl, rfl⟩

end

theorem tick_clk (s : State) (h : ∀ im ∈ s.ahead, 1 < s.cyclesTo (im.startSix im.first)) :
    (tick s).clk = (s.rawRun 1).clk := by
  rw [tick_of_beyond s h]
  rfl

theorem sameFields_tick (s : State) (h : ∀ im ∈ s.ahead, 1 < s.cyclesTo (im.startSix im.first)) :
    sameFields [TIM_EPS.VALUE] s (tick s) := by
  rw [tick_of_beyond s h]
  exact s.sameFields_rawRun 1

/-- Such a cycle writes the clock, TIM_EPS, the HCK_ST pins and the transmit taps, and nothing else. -/
theorem tick_only (s : State) (h : ∀ im ∈ s.ahead, 1 < s.cyclesTo (im.startSix im.first)) :
    tick s = { s with
      clk := (tick s).clk, regs := (tick s).regs, hck.hckSt := BitVec.ofNat 3 (s.getF HCK_STATUS.STATE),
      ing.taps := (tick s).ing.taps, ing.tapsDue := (tick s).ing.tapsDue } := by
  have hstate : (s.rawRun 1).commaSent.getF HCK_STATUS.STATE = s.getF HCK_STATUS.STATE :=
    s.sameFields_rawRun 1 HCK_STATUS.STATE (by decide)
  rw [tick_of_beyond s h, State.showHckSt, hstate, State.commaSent, s.rawRun_only 1]

/-- The accumulator wraps at most once where it starts below NUM and grows by no more than NUM. -/
theorem wrap_once {acc num d : Nat} (ha : acc < num) (hd : d ≤ num) :
    (acc + d) % num = (if num ≤ acc + d then acc + d - num else acc + d) ∧
      (acc + d) / num = if num ≤ acc + d then 1 else 0 := by
  split
  case isTrue h =>
    have hlt : acc + d - num < num := by omega
    refine ⟨by rw [Nat.mod_eq_sub_mod h, Nat.mod_eq_of_lt hlt], Nat.div_eq_of_lt_le ?_ ?_⟩ <;> omega
  case isFalse h =>
    have hlt : acc + d < num := Nat.not_le.mp h
    exact ⟨Nat.mod_eq_of_lt hlt, Nat.div_eq_of_lt hlt⟩

/-! ## Many house cycles under one image (R95) -/

/-- `n` house cycles from `s` to `t` with the image `im` in force: where the count stands. -/
structure CountedUnder (im : Image) (s : State) (n : Nat) (t : State) : Prop where
  epoch : t.epoch = true
  images : t.scr.images = [im]
  acc : t.clk.acc = (s.clk.acc + 4 * n * im.val Scr.TIM_DT_DEN) % im.val Scr.TIM_DT_NUM
  six : t.clk.six = (s.clk.six + (s.clk.acc + 4 * n * im.val Scr.TIM_DT_DEN) / im.val Scr.TIM_DT_NUM) % 2 ^ 64

section
variable {s t : State} {im : Image} {n : Nat}

theorem State.ahead_of_whole (h : t.scr.images = [im]) (hw : im.whole = true) : t.ahead = [] := by
  simp [State.ahead, h, hw]

theorem State.now_of_whole (he : t.epoch = true) (h : t.scr.images = [im]) (hw : im.whole = true) : t.now = im := by
  rw [State.now, if_pos he, governingImage t _ [] im [] h (.inl hw) nofun]

theorem CountedUnder.zero (he : s.epoch = true) (h : s.scr.images = [im]) (ha : s.clk.acc < im.val Scr.TIM_DT_NUM)
    (hs : s.clk.six < 2 ^ 64) : CountedUnder im s 0 s where
  epoch := he
  images := h
  acc := by simp [Nat.mod_eq_of_lt ha]
  six := by rw [mul_zero, zero_mul, add_zero, Nat.div_eq_of_lt ha, add_zero, Nat.mod_eq_of_lt hs]

/-- What the accumulator has carried over in two steps is what it carries over in one. -/
theorem div_add_mod_carry {t d num : Nat} (h : 0 < num) : t / num + (t % num + d) / num = (t + d) / num := by
  conv_rhs => rw [← Nat.div_add_mod t num, add_assoc, Nat.mul_add_div h]

theorem CountedUnder.succ (hw : im.whole = true) (hn : 0 < im.val Scr.TIM_DT_NUM) (h : CountedUnder im s n t) :
    CountedUnder im s (n + 1) (tick t) := by
  have hbeyond : ∀ i ∈ t.ahead, 1 < t.cyclesTo (i.startSix i.first) := by simp [State.ahead_of_whole h.images hw]
  have hclk := tick_clk t hbeyond
  obtain ⟨hacc, hsix⟩ := t.rawRun_count 1 h.epoch
  rw [State.num, State.den, State.now_of_whole h.epoch h.images hw, h.acc] at hacc hsix
  have hstep : s.clk.acc + 4 * (n + 1) * im.val Scr.TIM_DT_DEN =
      s.clk.acc + 4 * n * im.val Scr.TIM_DT_DEN + 4 * 1 * im.val Scr.TIM_DT_DEN := by ring
  constructor
  case epoch =>
    rw [State.epoch, State.flag, sameFields_tick t hbeyond TIM_STATUS.EPOCH (by decide)]
    exact h.epoch
  case images =>
    rw [tick_only t hbeyond]
    exact h.images
  case acc => rw [hclk, hacc, hstep, Nat.mod_add_mod]
  case six => rw [hclk, hsix, h.six, hstep, Nat.mod_add_mod, add_assoc, div_add_mod_carry hn]

theorem CountedUnder.iterate (hw : im.whole = true) (he : s.epoch = true) (h : s.scr.images = [im])
    (ha : s.clk.acc < im.val Scr.TIM_DT_NUM) (hs : s.clk.six < 2 ^ 64) : ∀ n, CountedUnder im s n (tick^[n] s)
  | 0 => .zero he h ha hs
  | n + 1 => by
    rw [Function.iterate_succ_apply']
    exact (CountedUnder.iterate hw he h ha hs n).succ hw (Nat.zero_lt_of_lt ha)

end

/-- Settles O39: a cycle is one step of the counter, which wraps at most once; the closed form is kept by every cycle. -/
theorem houseSixCounts : Obligations.HouseSixCounts := by
  refine ⟨fun s he ha hd hs hbeyond => ?cycle, fun s im n he him hw ha hs => (CountedUnder.iterate hw he him ha hs n).six⟩
  have hclk := tick_clk s hbeyond
  obtain ⟨hacc, hsix⟩ := s.rawRun_count 1 he
  obtain ⟨hmod, hdiv⟩ := wrap_once ha hd
  rw [mul_one] at hacc hsix
  refine ⟨by rw [hclk, hacc, hmod], ?six, by rw [hclk, State.rawRun_cycles], sameFields_tick s hbeyond, tick_only s hbeyond⟩
  case six =>
    rw [hclk, hsix, hdiv]
    split
    · rfl
    · exact Nat.mod_eq_of_lt hs

end Sys2Proof.Machine
end

section
/-!
PROOFS. The epoch (R94): the count that EPOCH_START loads, what starts beside it, and EPOCH_CLR.
-/

namespace Sys2Proof.Machine

/-! ## Which fields an operation leaves -/

/-- What holds of the fields of a state holds where the same register file stands. -/
theorem sameFields.of_regs {l : List Fld} {s t u : State} (h : sameFields l s t) (hr : u.regs = t.regs) : sameFields l s u :=
  fun f hf => by
    rw [State.getF, hr]
    exact h f hf

theorem sameFields.putBit {l : List Fld} {s t : State} (h : sameFields l s t) {f : Fld} (i : Nat) (b : Bool) (hf : f ∈ l) :
    sameFields l s (t.putBit f i b) := h.setF _ hf

theorem State.bit_putBit_true (s : State) {f : Fld} {i : Nat} (hi : i < f.w) (hw : f.w ≤ 64) :
    (s.putBit f i true).bit f i = true := by
  rw [State.bit, State.putBit, State.getF_setF_self _ _ _ hw, if_pos rfl, Nat.testBit_mod_two_pow, Nat.testBit_or,
    Nat.testBit_two_pow_self, decide_eq_true hi, Bool.or_true, Bool.and_true]

/-! ## What hears the epoch start (R106, R295) -/

/-- Nothing but what hears the epoch start differs: the clusters, the cue matrix and the time unit's compare marks. -/
def listenersOnly (s t : State) : Prop := t = { s with clu := t.clu, cue := t.cue, tim := t.tim }

theorem listenersOnly.refl (s : State) : listenersOnly s s := rfl

theorem listenersOnly.trans {s t u : State} (h : listenersOnly s t) (k : listenersOnly t u) : listenersOnly s u :=
  Eq.trans k (congrArg (fun x : State => { x with clu := u.clu, cue := u.cue, tim := u.tim }) h)

theorem listenersOnly.same {s t : State} (h : listenersOnly s t) : t.regs = s.regs ∧ t.clk = s.clk ∧ t.scr = s.scr ∧
    t.outbox = s.outbox ∧ t.flt = s.flt ∧ t.mem = s.mem := by
  rw [h]
  exact ⟨rfl, rfl, rfl, rfl, rfl, rfl⟩

theorem listenersOnly.foldl {α : Type} {f : State → α → State} (hf : ∀ s a, listenersOnly s (f s a)) (s : State) (l : List α) :
    listenersOnly s (l.foldl f s) :=
  List.foldlRecOn (motive := listenersOnly s) l f (.refl s) fun t ht a _ => ht.trans (hf t a)

theorem State.pushEdgeWith_listenersOnly (s : State) (carry : Option Int) (c : Nat) (lev : Bool) (cyc stamp : Nat) (mask : BitVec 64)
    (origin : Nat) : listenersOnly s (s.pushEdgeWith carry c lev cyc stamp mask origin) := by
  unfold State.pushEdgeWith
  split <;> exact rfl

theorem State.pulseOn_listenersOnly (s : State) (carry : Option Int) (c : Nat) : listenersOnly s (s.pulseOn carry c) := by
  unfold State.pulseOn
  dsimp only
  split
  · exact .refl s
  · exact (s.pushEdgeWith_listenersOnly ..).trans (State.pushEdgeWith_listenersOnly ..)

theorem State.pulse_listenersOnly (s : State) (p : Nat) : listenersOnly s (s.pulse p) :=
  listenersOnly.foldl (fun t c => t.pulseOn_listenersOnly none c) s _

theorem State.cmpNote_listenersOnly (s : State) (u : Nat) : listenersOnly s (s.cmpNote u) := by
  unfold State.cmpNote
  split <;> exact rfl

theorem State.cmpNoteAll_listenersOnly (s : State) : listenersOnly s s.cmpNoteAll :=
  listenersOnly.foldl State.cmpNote_listenersOnly s _

/-! ## Conditions of products (R266) -/

/-- Nothing but the store, the dwells' conditions and the staging records differs. -/
def flagsOnly (s t : State) : Prop := t = { s with mem := t.mem, seq := t.seq, bem := t.bem }

theorem flagsOnly.refl (s : State) : flagsOnly s s := rfl

theorem flagsOnly.trans {s t u : State} (h : flagsOnly s t) (k : flagsOnly t u) : flagsOnly s u :=
  Eq.trans k (congrArg (fun x : State => { x with mem := u.mem, seq := u.seq, bem := u.bem }) h)

theorem flagsOnly.same {s t : State} (h : flagsOnly s t) : t.regs = s.regs ∧ t.clk = s.clk ∧ t.outbox = s.outbox ∧
    t.flt = s.flt := by
  rw [h]
  exact ⟨rfl, rfl, rfl, rfl⟩

theorem flagsOnly.ite {s a b : State} {c : Prop} [Decidable c] (ha : flagsOnly s a) (hb : flagsOnly s b) :
    flagsOnly s (if c then a else b) := by
  split
  · exact ha
  · exact hb

section
variable {s t : State} (h : flagsOnly s t)
include h

theorem flagsOnly.each {α : Type} {l : List α} {f : State → α → State} (hf : ∀ u a, flagsOnly s u → flagsOnly s (f u a)) :
    flagsOnly s (t.each l f) :=
  List.foldlRecOn (motive := flagsOnly s) l f h fun u hu a _ => hf u a hu

theorem flagsOnly.orHeader {a flags : Nat} : flagsOnly s (t.orHeader a flags) := h.trans rfl

theorem flagsOnly.flagRec {x flags : Nat} : flagsOnly s (t.flagRec x flags) := by
  have hset (r : Rec) : flagsOnly s (t.setRec x r) := h.trans rfl
  exact .ite (hset _).orHeader (hset _)

/-- A condition is recorded against its dwell, in headers and in staging records. -/
theorem flagsOnly.condFor {n : Int} {flags subs : Nat} : flagsOnly s (t.condFor n flags subs) := by
  have hmark : flagsOnly s (t.markDwell n flags subs) := h.trans rfl
  refine .ite h (.ite ?records (.each ?records fun u j hu => .ite hu.orHeader hu))
  refine .ite (.each ?banks fun u x hu => .ite hu.flagRec hu) ?banks
  exact hmark.each fun u b hu => .ite hu.orHeader hu

theorem flagsOnly.hckMark : flagsOnly s t.hckMark := h.each fun _ _ hu => .ite hu.condFor hu

end

/-- The state of the house clock marks nothing where no governing image names it in HCK_FLAG_MASK (R90). -/
theorem State.hckMark_of_unnamed (s : State)
    (h : ∀ n, ((s.governing n).val Scr.HCK_FLAG_MASK).testBit (s.getF HCK_STATUS.STATE) = false) : s.hckMark = s := by
  refine List.foldlRecOn (motive := (· = s)) s.openDwells _ rfl ?_
  rintro _ rfl n _
  rw [h n]
  rfl

/-! ## The count that EPOCH_START loads (R94) -/

section
variable (s : State)

/-- The newest image governs every dwell once the epoch has started. -/
theorem State.governing_epochLoad (n : Int) (f : SField) : (s.epochLoad.governing n).val f = s.newest.val f := by
  have himages : s.epochLoad.scr.images =
      s.scr.images.dropLast ++ s.scr.images.getLast?.toList.map (fun i => { i with whole := true }) := rfl
  rcases s.scr.images.eq_nil_or_concat' with hnil | ⟨l, im, hlast⟩
  · rw [hnil] at himages
    simp [State.governing, State.newest, himages, hnil]
  · simp only [hlast, List.dropLast_concat, List.getLast?_concat, Option.toList_some, List.map_cons, List.map_nil] at himages
    rw [governingImage s.epochLoad n l _ [] himages (.inl rfl) nofun, State.newest, hlast, List.getLast?_concat]
    rfl

/-- EPOCH_START writes the count, the images, the dwells' bookkeeping, and of the register fields EPOCH and TIM_EPS. -/
theorem State.epochLoad_eq : ∃ (six acc : Nat) (scr : ScrU) (seq : SeqU) (prd : PrdU) (eps : Int), s.epochLoad =
    ({ ({ s with clk.six := six, clk.acc := acc, scr := scr } : State).setF TIM_STATUS.EPOCH 1 with
      seq := seq, prd := prd } : State).setS TIM_EPS.VALUE eps :=
  ⟨_, _, _, _, _, _, rfl⟩

theorem State.epochLoad_frame : s.epochLoad.clk.cycles = s.clk.cycles ∧ s.epochLoad.outbox = s.outbox ∧
    s.epochLoad.flt = s.flt ∧ s.epochLoad.mem = s.mem := by
  obtain ⟨six, acc, scr, seq, prd, eps, h⟩ := s.epochLoad_eq
  rw [h]
  exact ⟨rfl, rfl, rfl, rfl⟩

theorem State.sameFields_epochLoad : sameFields [TIM_STATUS.EPOCH, TIM_EPS.VALUE] s s.epochLoad := by
  obtain ⟨six, acc, scr, seq, prd, eps, h⟩ := s.epochLoad_eq
  have hset : sameFields [TIM_STATUS.EPOCH, TIM_EPS.VALUE] s (s.setF TIM_STATUS.EPOCH 1) :=
    (sameFields.refl _ s).setF 1 List.mem_cons_self
  rw [h]
  exact (hset.of_regs rfl).setF _ (by simp)

theorem State.epoch_epochLoad : s.epochLoad.epoch = true := by
  obtain ⟨six, acc, scr, seq, prd, eps, h⟩ := s.epochLoad_eq
  have hone : s.epochLoad.getF TIM_STATUS.EPOCH = 1 := by
    rw [h]
    exact (State.getF_setF_other _ TIM_EPS.VALUE _ _ (by decide)).trans (State.getF_setF_self _ TIM_STATUS.EPOCH 1 (by decide))
  rw [State.epoch, State.flag, hone]
  rfl

theorem State.epochLoad_six_lt : s.epochLoad.clk.six < 2 ^ 64 := by
  unfold State.epochLoad
  simp only [State.setS_clk, State.setF_clk, ofSigned]
  omega

/-- House SIX and the accumulator by the formula of R94; `x` is floored, and so is its quotient by NUM. -/
theorem State.epochLoad_count {num : Nat} {x : Int} (hnum : num = s.newest.val Scr.TIM_DT_NUM) (hpos : 0 < num)
    (hx : x = ((s.taiNow : Int) - taiTicks (s.newest.val Scr.TIM_TAI0)) * s.newest.val Scr.TIM_DT_DEN / 65536) :
    s.epochLoad.clk.six = (((s.newest.val Scr.TIM_SIX0 : Int) + x / num) % 2 ^ 64).toNat ∧
      (s.epochLoad.clk.acc : Int) = x - x / num * num := by
  have hfloor : fdiv (((s.taiNow : Int) - taiTicks (s.newest.val Scr.TIM_TAI0)) * s.newest.val Scr.TIM_DT_DEN) 65536 = x :=
    (Int.fdiv_eq_ediv_of_nonneg _ (by decide)).trans hx.symm
  have hquot : fdiv x num = x / num := Int.fdiv_eq_ediv_of_nonneg _ (Int.natCast_nonneg num)
  have hle : x / num * num ≤ x := Int.ediv_mul_le x (by omega)
  unfold State.epochLoad
  simp only [State.setS_clk, State.setF_clk, hfloor, ← hnum, hquot]
  exact ⟨rfl, Int.toNat_of_nonneg (sub_nonneg.mpr hle)⟩

/-- Event 0x0207 of an epoch that starts (R94, R107). -/
def State.epochEvent : Ev :=
  ⟨s.clk.cycles, s.epochLoad.clk.six, timSrc, 0x0207, s.epochLoad.clk.six, 1 + 2 * b2n (s.flag TIM_STATUS.TAI_VALID), 0, 0, [],
    false⟩

theorem State.event_epochLoad : s.epochLoad.event [] timSrc 0x0207 s.epochLoad.clk.six
    (1 + 2 * b2n (s.epochLoad.flag TIM_STATUS.TAI_VALID)) = s.epochEvent := by
  have hhouse : s.epochLoad.houseSix = s.epochLoad.clk.six := if_pos s.epoch_epochLoad
  have hvalid : s.epochLoad.flag TIM_STATUS.TAI_VALID = s.flag TIM_STATUS.TAI_VALID := by
    rw [State.flag, s.sameFields_epochLoad _ (by decide), State.flag]
  have hbit (b : Bool) : (1 + 2 * b2n b) % 2 ^ 32 = 1 + 2 * b2n b := by cases b <;> rfl
  rw [State.event, State.epochEvent, hhouse, hvalid, hbit, Nat.mod_eq_of_lt s.epochLoad_six_lt, s.epochLoad_frame.1]

/-- Once the count is loaded and its event written, the clusters, the producer EPOCH and the compare units take note, and then the
state of the house clock marks the open dwells. -/
theorem State.epochBegin_eq : ∃ v, s.epochBegin = v.hckMark ∧
    listenersOnly ((s.epochLoad.putBit TIM_EVT.BITS 5 true).logged s.epochEvent) v := by
  have htime : SameTime s.epochLoad (s.epochLoad.putBit TIM_EVT.BITS 5 true) :=
    .of_sameFields ((sameFields.refl [TIM_EVT.BITS] _).putBit 5 true List.mem_cons_self) (by decide) rfl rfl
  have hclu (t : State) (l : Tbl (Option Cluster)) : listenersOnly t { t with clu := l } := rfl
  unfold State.epochBegin
  dsimp only
  rw [State.emit, State.emitFor_zero, htime.event, State.event_epochLoad]
  exact ⟨_, rfl, (hclu _ _).trans ((State.pulse_listenersOnly _ _).trans (State.cmpNoteAll_listenersOnly _))⟩

/-- What EPOCH_START leaves: the loaded count, its event, no class 4 fault of its own, and the store where HCK_FLAG_MASK does not name
the state of the house clock. -/
theorem State.epochBegin_effect : s.epochBegin.epoch = true ∧ s.epochBegin.clk = s.epochLoad.clk ∧ s.epochBegin.flt = s.flt ∧
    s.epochBegin.outbox = s.outbox ++ [s.epochEvent] ∧
    ((s.newest.val Scr.HCK_FLAG_MASK).testBit (s.getF HCK_STATUS.STATE) = false → s.epochBegin.mem = s.mem) := by
  obtain ⟨v, hbegin, hv⟩ := s.epochBegin_eq
  obtain ⟨-, hbox, hflt, hmem⟩ := s.epochLoad_frame
  obtain ⟨hregsV, hclkV, hscrV, hboxV, hfltV, hmemV⟩ := hv.same
  obtain ⟨hregs, hclkT, hboxT, hfltT⟩ := (flagsOnly.refl v).hckMark.same
  rw [← hbegin] at hregs hclkT hboxT hfltT
  have hfields : sameFields [TIM_EVT.BITS] s.epochLoad v :=
    ((sameFields.refl [TIM_EVT.BITS] s.epochLoad).putBit 5 true List.mem_cons_self).of_regs hregsV
  refine ⟨?epoch, hclkT.trans hclkV, hfltT.trans (hfltV.trans hflt), ?box, fun hmask => ?store⟩
  case epoch =>
    rw [State.epoch, State.flag, hfields.of_regs hregs TIM_STATUS.EPOCH (by decide)]
    exact s.epoch_epochLoad
  case box => rw [hboxT, hboxV, State.logged, State.putBit_outbox, hbox]
  case store =>
    have hstate : v.getF HCK_STATUS.STATE = s.getF HCK_STATUS.STATE :=
      (hfields _ (by decide)).trans (s.sameFields_epochLoad _ (by decide))
    have hgov (n : Int) : (v.governing n).val Scr.HCK_FLAG_MASK = s.newest.val Scr.HCK_FLAG_MASK := by
      have hscr : v.scr = s.epochLoad.scr := hscrV
      rw [← s.governing_epochLoad n, State.governing, hscr, State.governing]
    rw [hbegin, v.hckMark_of_unnamed fun n => by rw [hgov, hstate, hmask]]
    exact hmemV.trans hmem

end

/-! ## EPOCH_START and EPOCH_CLR (R94) -/

/-- Settles O40: EPOCH_START acts under its condition and on nothing else; EPOCH_CLR writes one field or the other. -/
theorem epochStartsAndClears : Obligations.EpochStartsAndClears := by
  intro s hc4
  obtain ⟨hstart, hexec, -⟩ := epochAndDwellsComplete s
  refine ⟨fun hstopped hready num den x hnum hden hpos hx => ?starts, fun hno => ?stays, fun hstate => ?clears,
    fun h1 h2 => ?discarded⟩
  case starts =>
    have hbegin := hstart hstopped hready
    obtain ⟨hepoch, hclk, hflt, hbox, hmem⟩ := s.epochBegin_effect
    obtain ⟨hsix, hacc⟩ := s.epochLoad_count hnum hpos (hden ▸ hx)
    rw [State.settle_none _ ((congrArg FltU.c4 hflt).trans hc4)] at hbegin
    refine ⟨_, hbegin, hepoch, by rw [hclk, hsix], by rw [hclk, hacc], ?_, fun hmask a => by rw [hmem hmask]⟩
    rw [hbox, hclk, State.epochEvent, timSrc]
  case stays =>
    have hgo : (!s.epoch && (s.flag TIM_STATUS.TAI_VALID || s.flag TIM_CTRL.FREE_EPOCH)) = false := by
      rcases hno with h | ⟨h, k⟩
      · rw [h]
        rfl
      · rw [h, k, Bool.or_false, Bool.and_false]
    exact congrArg Host.Outcome.next ((congrArg State.settle (s.whenever_neg _ _ hgo)).trans (s.settle_none hc4))
  case clears =>
    have hclear : s.epochClear = s.setF TIM_STATUS.EPOCH 0 := if_pos (by simpa using hstate)
    rw [hclear, State.settle_none (s.setF _ 0) hc4] at hexec
    refine ⟨_, hexec, ?_, (sameFields.refl _ s).setF 0 List.mem_cons_self, rfl⟩
    rw [State.epoch, State.flag, State.getF_setF_self _ _ _ (by decide)]
    rfl
  case discarded =>
    have hclear : s.epochClear = s.putBit TIM_EVT.BITS 7 true := if_neg (by simp [h1, h2])
    rw [hclear, State.settle_none (s.putBit _ 7 true) hc4] at hexec
    exact ⟨_, hexec, s.bit_putBit_true (by decide) (by decide), (sameFields.refl _ s).putBit 7 true List.mem_cons_self, rfl⟩

end Sys2Proof.Machine
end

section
/-!
PROOFS. Commands of the time unit that are carried out (R99 to R104): PTP messages that one domain alone takes, the domain timers, the
end of a slew and the frames of a transparent clock; and the step, which runs the command at the front of the queue (R95).
-/

namespace Sys2Proof.Machine

/-! ## Messages that one domain takes (R99, R100) -/

section
variable {s t : State} {ok : State → Nat → Bool} {f : State → Nat → State}

theorem State.eachDom_first (h0 : ok s 0 = true) (ht : f s 0 = t) (h1 : ok t 1 = false) : s.eachDom ok f = t := by
  simp [State.eachDom, State.each, h0, ht, h1]

theorem State.eachDom_second (h0 : ok s 0 = false) (h1 : ok s 1 = true) (ht : f s 1 = t) : s.eachDom ok f = t := by
  simp [State.eachDom, State.each, h0, h1, ht]

end

section
variable (s : State) (p : Fin 2) {h : PtpHeader} {t1 t2 t3 t4 c c2 : Int} {q : Nat} {u v : State}

theorem exec_followUp_second (hu : u = s.tcForward p.val (.followUp h q)) (h0 : u.hears 0 p.val h = false)
    (h1 : u.hears 1 p.val h = true) (htwo : (u.dom 1).twoStep = some (q, t2, c2)) :
    exec (.followUp p h t1 c q) s = .next (u.syncDone 1 p.val t1 t2 (c2 + c)).settle := by
  subst hu
  refine congrArg done (State.eachDom_second (ok := fun s d => s.hears d p.val h) h0 h1 ?_)
  simp only [htwo, if_true]

theorem exec_followUp_first (hu : u = s.tcForward p.val (.followUp h q)) (h0 : u.hears 0 p.val h = true)
    (htwo : (u.dom 0).twoStep = some (q, t2, c2)) (hv : v = u.syncDone 0 p.val t1 t2 (c2 + c)) (h1 : v.hears 1 p.val h = false) :
    exec (.followUp p h t1 c q) s = .next v.settle := by
  subst hu
  refine congrArg done (State.eachDom_first (ok := fun s d => s.hears d p.val h) h0 ?_ h1)
  simp only [htwo, if_true, hv]

theorem exec_delayResp_second (hu : u = s.tcForward p.val (.other h)) (h0 : u.hears 0 p.val h = false)
    (h1 : u.hears 1 p.val h = true) (hreq : (u.dom 1).t3 = some t3) :
    exec (.delayResp p h t4 c) s = .next (u.delayDone 1 p.val t3 t4 c).settle := by
  subst hu
  refine congrArg done (State.eachDom_second (ok := fun s d => s.hears d p.val h) h0 h1 ?_)
  simp only [hreq]

theorem exec_delayResp_first (hu : u = s.tcForward p.val (.other h)) (h0 : u.hears 0 p.val h = true)
    (hreq : (u.dom 0).t3 = some t3) (hv : v = u.delayDone 0 p.val t3 t4 c) (h1 : v.hears 1 p.val h = false) :
    exec (.delayResp p h t4 c) s = .next v.settle := by
  subst hu
  refine congrArg done (State.eachDom_first (ok := fun s d => s.hears d p.val h) h0 ?_ h1)
  simp only [hreq, hv]

end

/-! ## Domain timers, slews and frames (R99, R101, R103, R104) -/

section
variable (s : State)

/-- A domain that has selected a master asks it for the delay (R100). -/
theorem exec_delayReq {d : Fin 2} {m : PtpMaster} (hen : s.flag (domEnF d.val) = true) (hm : (s.dom d.val).master = some m) :
    exec (.delayReq d) s =
      .next ((s.setDom d.val { s.dom d.val with t3 := some (s.txStamp m.port) }).send
        (.delayReq m.port (s.getF (domNumberF d.val)) (s.getF (domSdoF d.val))
          (if s.flag (transportF m.port) then some (s.getF (ipv4F m.port)) else none)
          (if s.flag (uniDreqF m.port) then some m.sender else none) (s.txStamp m.port))).settle := by
  simp only [exec, execDelayReq, hm, hen, Bool.not_true, Bool.false_eq_true, if_false, done]

/-- A FAULTY domain whose offset has stayed within STEP_LIM is so no longer (R103). -/
theorem exec_domainWtrExpiry {d : Fin 2} {o : Int} (hfaulty : s.bit TIM_STATUS.FAULTY d.val = true)
    (ho : (s.dom d.val).offset = some o) (hlim : (o.natAbs : Int) ≤ nsTicks (s.getF TIM_LIMITS.STEP_LIM)) :
    exec (.domainWtrExpiry d) s =
      .next ((s.lapse (.domWithin d.val) s.domWtr).putBit TIM_STATUS.FAULTY d.val false).refreshDomains.settle :=
  done_whenever s _ _ (by rw [hfaulty, ho, Bool.true_and]; exact decide_eq_true hlim)

/-- With REVERT set a usable preferred domain that is not active becomes so (R104). -/
theorem exec_domainRevert (hrevert : s.flag TIM_CTRL.REVERT = true)
    (hother : s.getF TIM_STATUS.ACT_DOM ≠ s.getF TIM_CTRL.PREF_DOM) (husable : s.usable (s.getF TIM_CTRL.PREF_DOM) = true) :
    exec .domainRevert s = .next ((s.lapse (.domUsable (s.getF TIM_CTRL.PREF_DOM)) s.domWtr).domainSwitch
      (s.getF TIM_CTRL.PREF_DOM) 1).settle :=
  done_whenever s _ _ (by rw [hrevert, bne_iff_ne.mpr hother, husable]; rfl)

theorem exec_slewComplete (hslews : s.flag TIM_STATUS.SLEWING = true) (hover : s.slewOver = true) :
    exec .slewComplete s = .next ({ s.setF TIM_STATUS.SLEWING 0 with clk.slew := 0 } : State).settle :=
  done_whenever s _ _ (by rw [hslews, hover]; rfl)

theorem exec_timePortFrame_ptp (p : Fin 2) {f : PortFrame} (hf : f ≠ .notPtp) :
    exec (.timePortFrame p f) s = .next (s.tcForward p.val f).settle := by
  simp only [exec, execTimePortFrame, if_neg hf, done]

end

/-- Settles O8: each message and each timer meets its condition; a Sync, an announcement and the timeouts have none. -/
theorem timePortsComplete : Obligations.TimePortsComplete := by
  intro s
  refine ⟨fun p h t1 c q => rfl, fun p h t1 c q => rfl, fun p h t1 c q u t2 c2 => exec_followUp_second s p,
    fun p h t1 c q u t2 c2 v => exec_followUp_first s p, fun p h t4 c u t3 => exec_delayResp_second s p,
    fun p h t4 c u t3 v => exec_delayResp_first s p, ?announced, fun d m => exec_delayReq s, fun d => rfl, fun d => rfl,
    fun d o => exec_domainWtrExpiry s, exec_domainRevert s, exec_slewComplete s,
    fun p => ⟨rfl, fun f => exec_timePortFrame_ptp s p⟩⟩
  case announced =>
    rintro p h a m rfl
    rfl

/-! ## The step of the block (log 1) -/

/-- Settles O24: the two cases of the queue. -/
theorem stepRunsFront : Obligations.StepRunsFront := by
  refine ⟨fun s c rest hqueue => ?front, fun s hempty => ?idle⟩
  case front => simp only [step, hqueue]
  case idle => simp only [step, hempty]

end Sys2Proof.Machine
end

section
/-!
PROOFS. Commands of the ingest ports that are carried out: codewords, comma words, restores, drops, block lock and status words
(R113 to R118, R124 to R126, R130), and the packets and the blanking intervals of the parsers (R119 to R122, R126, R127, R184).
-/

namespace Sys2Proof.Machine

/-! ## Lanes of a live port (R113 to R118, R124 to R126) -/

section
variable (s : State)

/-- The test that the meanings of Shasto lanes make. -/
theorem State.shastoLive {p : Nat} (hlive : s.portLive p = true) (hshasto : s.forerunner p = false) :
    (s.portLive p && !s.forerunner p) = true := by
  rw [hlive, hshasto]; rfl

/-- The test that the meanings of forerunner lanes make. -/
theorem State.forerunnerLive {p : Nat} (hlive : s.portLive p = true) (hfore : s.forerunner p = true) :
    (s.portLive p && s.forerunner p) = true := by
  rw [hlive, hfore]; rfl

/-- A locked lane of a live Shasto port decodes the codeword: `k` corrected symbols, or none in an uncorrectable one (R113, R116). -/
theorem exec_codeword {p : Fin 32} {l : Fin 4} (corrected : Option Nat) (m : BitVec 5140) (hlive : s.portLive p.val = true)
    (hshasto : s.forerunner p.val = false) (hlock : (s.portRefresh p.val).bit (portLockF p.val) l.val = true) :
    exec (.codeword p l corrected m) s = .next (corrected.elim ((s.portRefresh p.val).fecBad p.val l.val)
      (fun k => (s.portRefresh p.val).fecGood p.val l.val k m)).settle := by
  refine (done_whenever s _ _ (s.shastoLive hlive hshasto)).trans ?_
  cases corrected with
  | none => simp only [hlock, Bool.not_true, Bool.false_eq_true, if_false, Option.elim_none]
  | some k => simp only [hlock, Bool.not_true, Bool.false_eq_true, if_false, Option.elim_some]

theorem exec_commaWord {p : Fin 32} (l : Fin 4) (w : BitVec 64) (hlive : s.portLive p.val = true)
    (hshasto : s.forerunner p.val = false) :
    exec (.commaWord p l w) s = .next (if commaGood (s.received p.val l.val w)
      then (s.portRefresh p.val).commaTaken p.val l.val (s.received p.val l.val w)
      else (s.portRefresh p.val).commaBad p.val l.val).settle :=
  done_whenever s _ _ (s.shastoLive hlive hshasto)

theorem exec_commaLoss {p : Fin 32} (l : Fin 4) (hlive : s.portLive p.val = true) (hshasto : s.forerunner p.val = false) :
    exec (.commaLoss p l) s = .next ((s.portRefresh p.val).laneLost p.val l.val 0).settle :=
  done_whenever s _ _ (s.shastoLive hlive hshasto)

/-- A dropped lane that holds lock is restored once ING_RESTORE has passed (R124). -/
theorem exec_laneRestore {p : Fin 32} {l : Fin 4} (hdrop : s.bit (portDropF p.val) l.val = true)
    (hlock : s.bit (portLockF p.val) l.val = true) :
    exec (.laneRestore p l) s = .next ((s.lapse (.restore p.val l.val) (msCycles * s.sv Scr.ING_RESTORE)).putBit
      (portDropF p.val) l.val false).settle :=
  done_whenever s _ _ (by rw [hdrop, hlock]; rfl)

/-- A port in UP whose peer has let 4 comma periods pass with a drop asked for goes DOWN (R124). -/
theorem exec_dropReqIgnored {p : Fin 32} (hdrop : s.getF (portDropF p.val) ≠ 0) (hup : s.getF (portStateF p.val) = 2) :
    exec (.dropReqIgnored p) s = .next ((s.lapse (.drop p.val) fourCommas).setPortState p.val 4).settle :=
  done_whenever s _ _ (by rw [bne_iff_ne.mpr hdrop, hup]; rfl)

theorem exec_blockLockGain {p : Fin 24} {l : Fin 4} {u : State} (hlive : s.portLive p.val = true)
    (hfore : s.forerunner p.val = true) (hu : u = (s.portRefresh p.val).laneLocked p.val l.val 2) :
    exec (.blockLockGain p l) s = .next (if u.getF (portLockF p.val) = 15 then u.setPortState p.val 2 else u).settle := by
  subst hu
  exact done_whenever s _ _ (s.forerunnerLive hlive hfore)

theorem exec_blockLockLoss {p : Fin 24} {l : Fin 4} (hlive : s.portLive p.val = true) (hfore : s.forerunner p.val = true)
    (hlock : s.bit (portLockF p.val) l.val = true) : exec (.blockLockLoss p l) s = .next (s.blockLost p.val l.val).settle :=
  done_whenever s _ _ (by rw [s.forerunnerLive hlive hfore, hlock]; rfl)

theorem exec_pswSend {p : Fin 24} (hlive : s.portLive p.val = true) : exec (.pswSend p) s =
    .next ((s.portRefresh p.val).send (.psw p.val (sealed ((s.portRefresh p.val).psw p.val)))).settle :=
  done_whenever s _ _ hlive

end

/-- Settles O9: each lane command meets its condition; a codeword is decoded as corrected or as uncorrectable. -/
theorem lanesComplete : Obligations.LanesComplete := by
  intro s
  refine ⟨?codewords, ?commas, fun p l => exec_commaLoss s l, fun p l => exec_laneRestore s, fun p => exec_dropReqIgnored s,
    fun p l u => exec_blockLockGain s, fun p l => exec_blockLockLoss s, fun p => exec_pswSend s⟩
  case codewords =>
    rintro p l u hlive hshasto rfl hlock
    exact ⟨fun k m => exec_codeword s (some k) m hlive hshasto hlock, fun m => exec_codeword s none m hlive hshasto hlock⟩
  case commas =>
    rintro p l w v hlive hshasto rfl
    exact exec_commaWord s l w hlive hshasto

/-! ## Packets that pass the checks (R119, R120, R126, R127, R184) -/

section
variable (s : State) {p : Fin 24} {k : Packet} {u : State}

/-- A packet that passes checks 0 to 2, with an input, a channel and a spectrum and a payload of 8,192 bytes at most, is judged by
checks 3 to 11 as one of good length (R119, R120). -/
theorem exec_ingestPacket {h : BitVec 256} {pay : List Byte} (hlive : s.portLive p.val = true)
    (hshasto : s.forerunner p.val = false) (hfound : (s.port p.val).seeking = false) (hk : k = Packet.ofHeader h pay)
    (hu : u = (s.portRefresh p.val).followSeq p.val (hdr h 200 16) (hdr h 216 8))
    (hcrc : hcrcOf (h.toNat % 2 ^ 240) = hdr h 240 16) (hver : hdr h 0 4 = 1) (htype : hdr h 4 4 = 1 ∨ hdr h 4 4 = 2)
    (hinputs : k.inputs ≠ 0) (hchans : k.chans ≠ 0) (hspectra : k.spectra ≠ 0) (hlen : k.null = true ∨ k.len ≤ 8192) :
    exec (.ingestPacket p false h pay) s =
      .next ((u.judge p.val k false).keepRaw u p.val (leBytes 32 h.toNat ++ pay)).settle := by
  have hparser : (s.portLive p.val && !s.forerunner p.val && !(s.port p.val).seeking) = true := by
    rw [s.shastoLive hlive hshasto, hfound]; rfl
  have hkind : (hdr h 0 4 ≠ 1 || !(hdr h 4 4 == 1 || hdr h 4 4 == 2)) = false := by
    rcases htype with ht | ht <;> simp [hver, ht]
  have hfits : (k.inputs = 0 || k.chans = 0 || k.spectra = 0 || (!k.null && 8192 < k.len)) = false := by
    rcases hlen with hlen | hlen <;> simp [hinputs, hchans, hspectra, hlen]
  refine (done_whenever s _ _ hparser).trans ?_
  simp only [← hu, ← hk, Bool.false_eq_true, if_false, if_neg (not_not.mpr hcrc), hkind, hfits]

/-- A GK4 packet of 20 bytes or more whose CRC holds and whose payload has the length its fields give, with an input and 1 to 4,095
channels in 8,192 bytes at most, is judged by checks 3 to 11 as one of good length (R126, R127). -/
theorem exec_gk4Packet {m : List Byte} (hlive : s.portLive p.val = true) (hfore : s.forerunner p.val = true)
    (hu : u = s.portRefresh p.val) (hk : k = u.gk4 p.val m) (hsize : 20 ≤ m.length)
    (hcrc : crc32 (m.take (m.length - 4)) = leNat (m.drop (m.length - 4))) (hwhole : k.len = k.payload.length)
    (hinputs : k.inputs ≠ 0) (hchans : k.chans ≠ 0) (hchansMax : k.chans ≤ 4095) (hlen : k.len ≤ 8192) :
    exec (.gk4Packet p m) s = .next ((u.judge p.val k false).keepRaw u p.val m).settle := by
  have hsound : (m.length < 20 || crc32 (m.take (m.length - 4)) ≠ leNat (m.drop (m.length - 4)) ||
      (k.inputs != 0 && k.len != k.payload.length)) = false := by
    simp [hsize, hcrc, hwhole]
  have hfits : (k.inputs = 0 || k.chans = 0 || 4095 < k.chans || 8192 < k.len) = false := by
    simp [hinputs, hchans, hchansMax, hlen]
  refine (done_whenever s _ _ (s.forerunnerLive hlive hfore)).trans ?_
  simp only [← hu, ← hk, hsound, hfits, Bool.false_eq_true, if_false]

end

/-! ## Blanking intervals (R122) -/

/-- An interval stays while its end lies at most W_late behind house SIX, or while it has no end. -/
theorem exec_blankRelease (s : State) : exec .blankRelease s =
    .next ({ s with ing.blanks := s.ing.blanks.filter (fun b => match b.stop with
      | some e => decide (toSigned 64 s.houseSix ≤ e + (s.sv Scr.ING_LATE_WINDOW : Int))
      | none => true) } : State).settle := by
  refine congrArg (fun kept => done { s with ing.blanks := s.ing.blanks.filter kept }) (funext fun b => ?_)
  cases hstop : b.stop with
  | some e => simp only [hstop, ← decide_not, not_lt]
  | none => simp only [hstop, Bool.not_false]

/-- Settles O10: a packet that passes the checks of its header and its length is judged by the rest; the blanking intervals kept are
those not long past. -/
theorem packetsComplete : Obligations.PacketsComplete := by
  intro s
  refine ⟨?ingest, ?gk4, exec_blankRelease s⟩
  case ingest =>
    intro p h pay k u hlive hshasto hfound hk hu hcrc hver htype hinputs hchans hspectra hlen _
    exact exec_ingestPacket s hlive hshasto hfound hk hu hcrc hver htype hinputs hchans hspectra hlen
  case gk4 =>
    intro p m k u hlive hfore hu hk hsize hcrc hwhole hinputs hchans hchansMax hlen _
    exact exec_gk4Packet s hlive hfore hu hk hsize hcrc hwhole hinputs hchans hchansMax hlen

end Sys2Proof.Machine
end

section
/-!
PROOFS. The arithmetic of the pit (R145, R147): accumulators, reductions and circular addresses.
-/

namespace Sys2Proof.Machine

/-! ## Two's-complement codes -/

theorem ofSigned_cast (w : Nat) (v : Int) : (ofSigned w v : Int) = v % 2 ^ w := by
  have h : (0 : Int) ≤ v % ((2 ^ w : Nat) : Int) := Int.emod_nonneg _ (by simp)
  rw [ofSigned, Int.toNat_of_nonneg h, Nat.cast_pow, Nat.cast_ofNat]

theorem ofSigned_lt (w : Nat) (v : Int) : ofSigned w v < 2 ^ w := by
  have h : v % 2 ^ w < 2 ^ w := Int.emod_lt_of_pos v (by simp)
  rw [← ofSigned_cast] at h
  exact_mod_cast h

/-- The signed reading of a `w`-bit code lies in the signed range of `w` bits. -/
theorem toSigned_range {w : Nat} (hw : 1 ≤ w) (n : Nat) : -2 ^ (w - 1) ≤ toSigned w n ∧ toSigned w n < 2 ^ (w - 1) := by
  have hlt : (n % 2 ^ w : Nat) < 2 ^ w := Nat.mod_lt _ (Nat.two_pow_pos w)
  have hlt' : ((n % 2 ^ w : Nat) : Int) < 2 ^ w := by exact_mod_cast hlt
  have hsign : (2 : Int) * 2 ^ (w - 1) = 2 ^ w := mul_pow_sub_one (by omega) 2
  have hcast : ((2 ^ (w - 1) : Nat) : Int) = 2 ^ (w - 1) := by simp
  have hcast' : ((2 ^ w : Nat) : Int) = 2 ^ w := by simp
  simp only [toSigned]
  split <;> omega

/-- The signed reading of a code differs from it by a multiple of 2 ^ w. -/
theorem toSigned_emod (w n : Nat) : toSigned w n % 2 ^ w = (n : Int) % 2 ^ w := by
  have hcast : ((2 ^ w : Nat) : Int) = 2 ^ w := by simp
  simp only [toSigned]
  split
  · simp
  · rw [hcast, Int.sub_emod_right]
    simp

theorem toSigned_ofSigned_emod (w : Nat) (v : Int) : toSigned w (ofSigned w v) % 2 ^ w = v % 2 ^ w := by
  rw [toSigned_emod, ofSigned_cast, Int.emod_emod]

/-- A value in the signed range of `w` bits is its own reading. -/
theorem toSigned_ofSigned {w : Nat} (hw : 1 ≤ w) {v : Int} (hlo : -2 ^ (w - 1) ≤ v) (hhi : v < 2 ^ (w - 1)) :
    toSigned w (ofSigned w v) = v := by
  obtain ⟨hl, hr⟩ := toSigned_range hw (ofSigned w v)
  have hsign : (2 : Int) * 2 ^ (w - 1) = 2 ^ w := mul_pow_sub_one (by omega) 2
  have hdvd : (2 : Int) ^ w ∣ toSigned w (ofSigned w v) - v :=
    Int.dvd_of_emod_eq_zero (Int.emod_eq_emod_iff_emod_sub_eq_zero.mp (toSigned_ofSigned_emod w v))
  exact sub_eq_zero.mp (Int.eq_zero_of_abs_lt_dvd hdvd (abs_lt.mpr ⟨by omega, by omega⟩))

/-! ## Accumulators and reductions (R145) -/

theorem accFit_overflow (v : Int) : (accFit v).2 = true ↔ v < -2 ^ 39 ∨ 2 ^ 39 ≤ v := by
  simp [accFit]

theorem accFit_exact {v : Int} (h : (accFit v).2 = false) : toSigned 40 (accFit v).1 = v := by
  have hin : ¬(v < -2 ^ 39 ∨ 2 ^ 39 ≤ v) := by rw [← accFit_overflow, h]; exact Bool.false_ne_true
  rw [not_or, not_lt, not_le] at hin
  exact toSigned_ofSigned (by decide) hin.1 hin.2

/-- A wrapping reduction is the signed reading of the value's low bits. -/
theorem reduce_wrap (w : Nat) (v : Int) : reduce w 0 v = (toSigned w (ofSigned w v), false) := rfl

/-- The top of the signed range of `w` bits. -/
theorem signedTop_cast (w : Nat) : ((2 ^ (w - 1) : Nat) : Int) - 1 = 2 ^ (w - 1) - 1 := by simp

theorem reduce_saturate (w : Nat) (v : Int) : (reduce w 1 v).1 = max (-2 ^ (w - 1)) (min (2 ^ (w - 1) - 1) v) := by
  have hlow : -((2 : Int) ^ (w - 1) - 1) - 1 = -2 ^ (w - 1) := by omega
  simp only [reduce, signedTop_cast, one_ne_zero, if_false, if_true, hlow]

theorem reduce_symmetric (w : Nat) (v : Int) :
    (reduce w 2 v).1 = max (-(2 ^ (w - 1) - 1)) (min (2 ^ (w - 1) - 1) v) := by
  simp [reduce]

/-- A saturation reports just the values that it changes. -/
theorem reduce_reports {w m : Nat} (hm : m ≠ 0) (v : Int) : (reduce w m v).2 = true ↔ (reduce w m v).1 ≠ v := by
  simp [reduce, hm]

/-- The bias is added, then the sum is divided by a power of 2 toward minus infinity. -/
theorem biased_floor (v : Int) (b : Bool) (n : BitVec 32) (k : Nat) :
    biased v b n k = (v + (if b then (n.toNat : Int) else 0)) / 2 ^ k := by
  rw [biased, fdiv, Int.fdiv_eq_ediv_of_nonneg _ (Int.natCast_nonneg _), Nat.cast_pow, Nat.cast_ofNat]

/-- Settles O49: the accumulator by the 40-bit code, the wrap by the signed reading of a code, the saturations by their bounds, the
shift by division. -/
theorem reductions : Obligations.Reductions := by
  refine ⟨fun v => ⟨ofSigned_cast 40 v, accFit_overflow v, accFit_exact⟩, fun w v hw => ?wrap, fun w v hw => ?saturate,
    fun v b n k => ?shift⟩
  case wrap =>
    obtain ⟨hlo, hhi⟩ := toSigned_range hw (ofSigned w v)
    rw [reduce_wrap]
    exact ⟨rfl, Int.emod_eq_emod_iff_emod_sub_eq_zero.mp (toSigned_ofSigned_emod w v), hlo, hhi⟩
  case saturate =>
    exact ⟨reduce_saturate w v, reduce_symmetric w v, fun m hm => reduce_reports (by omega) v⟩
  case shift =>
    have hpos : (0 : Int) < 2 ^ k := by positivity
    rw [biased_floor]
    exact ⟨Int.mul_ediv_self_le hpos.ne', Int.lt_mul_ediv_self_add hpos |>.trans_eq (by ring)⟩

/-! ## Circular addresses (R147) -/

/-- The offset of an address from the base of its buffer, round the 1,024 halfwords of local memory. -/
def bufOffset (p b : Nat) : Nat := (p + 1024 - b) % 1024

theorem bufOffset_self (b : Nat) : bufOffset b b = 0 := by
  simp [bufOffset]

/-- An offset below 1,024 from the base is the offset of the address it leads to. -/
theorem bufOffset_add {b o : Nat} (hb : b < 1024) (ho : o < 1024) : bufOffset ((b + o) % 1024) b = o := by
  simp only [bufOffset]
  omega

/-- The offset that a post-modify by `m` from offset `o` comes to: at most one turn is taken back. -/
def stepOffset (o l : Nat) (m : Int) : Int :=
  if (l : Int) ≤ o + m then o + m - l else if o + m < 0 then o + m + l else o + m

theorem circ_linear (p b : Nat) (m : Int) : circ p b 0 m = (((p + m) % 1024).toNat, false) := rfl

/-- A stepped offset in the buffer gives its address; any other falls back to the base. -/
theorem circ_of_pos {p b l : Nat} (hb : b < 1024) (hl : 0 < l) (m : Int) : circ p b l m =
    if stepOffset (bufOffset p b) l m < 0 ∨ (l : Int) ≤ stepOffset (bufOffset p b) l m then (b, true)
    else (((b + stepOffset (bufOffset p b) l m) % 1024).toNat, false) := by
  rw [circ, if_neg hl.ne', Nat.mod_eq_of_lt hb]
  exact if_congr (by rw [Bool.or_eq_true, decide_eq_true_eq, decide_eq_true_eq]; rfl) rfl rfl

/-- From an offset in the buffer, a step of at most `l` either way goes round it. -/
theorem stepOffset_eq_emod {o l : Nat} {m : Int} (ho : o < l) (hlo : -(l : Int) ≤ m) (hhi : m ≤ l) :
    stepOffset o l m = (o + m) % l := by
  simp only [stepOffset]
  split
  · rw [← Int.sub_emod_right, Int.emod_eq_of_lt (by omega) (by omega)]
  · split
    · rw [← Int.add_emod_right, Int.emod_eq_of_lt (by omega) (by omega)]
    · rw [Int.emod_eq_of_lt (by omega) (by omega)]

/-- A post-modify in a buffer falls back to the base, or leads to an offset in the buffer. -/
theorem circ_cases {p b l : Nat} (hb : b < 1024) (hl : 0 < l) (hl' : l ≤ 1024) (m : Int) :
    (¬(0 ≤ stepOffset (bufOffset p b) l m ∧ stepOffset (bufOffset p b) l m < l) ∧ circ p b l m = (b, true)) ∨
      ∃ o : Nat, (o : Int) = stepOffset (bufOffset p b) l m ∧ o < l ∧ circ p b l m = ((b + o) % 1024, false) := by
  rw [circ_of_pos hb hl]
  split
  case isTrue h => exact .inl ⟨by omega, rfl⟩
  case isFalse h =>
    rw [not_or, not_lt, not_le] at h
    obtain ⟨hpos, hlt⟩ := h
    exact .inr ⟨_, Int.toNat_of_nonneg hpos, by omega, congrArg (·, false) (by omega)⟩

/-- A write of a length leaves an offset in the buffer, goes back by one length, or falls back to the base. -/
theorem circWrite_cases {p b l : Nat} (hb : b < 1024) (hl : 0 < l) :
    (bufOffset p b < l ∧ circWrite p b l = (p, false)) ∨ (l ≤ bufOffset p b ∧ bufOffset p b - l < l ∧
      circWrite p b l = ((b + (bufOffset p b - l)) % 1024, false)) ∨ (l ≤ bufOffset p b ∧ circWrite p b l = (b, true)) := by
  have heq : circWrite p b l = if bufOffset p b < l then (p, false) else if bufOffset p b - l < l then
      ((b + (bufOffset p b - l)) % 1024, false) else (b, true) := by
    rw [circWrite, Nat.mod_eq_of_lt hb]
    exact if_congr (by simp [bufOffset, hl.ne']) rfl rfl
  rw [heq]
  split
  case isTrue h => exact .inl ⟨h, rfl⟩
  case isFalse h =>
    split
    case isTrue h' => exact .inr (.inl ⟨not_lt.mp h, h', rfl⟩)
    case isFalse h' => exact .inr (.inr ⟨not_lt.mp h, rfl⟩)

/-- Settles O50: a post-modify by the offset it comes to, a write of a length by its three outcomes. -/
theorem circularPointers : Obligations.CircularPointers := by
  refine ⟨fun p b m => ⟨?linear, rfl, rfl⟩, fun p b l m _ hb hl hl' => ?step, fun p b l _ hb hl hl' => ?write⟩
  case linear =>
    rw [circ_linear]
    exact Int.toNat_of_nonneg (Int.emod_nonneg _ (by decide))
  case step =>
    obtain ⟨hout, hbase⟩ | ⟨o, ho, hol, hat⟩ := circ_cases (p := p) hb hl hl' m
    · refine ⟨?_, fun _ => by rw [hbase], fun hin hlo hhi => ?_⟩
      · rw [hbase]
        exact (bufOffset_self b).trans_lt hl
      · rw [stepOffset_eq_emod (o := bufOffset p b) hin hlo hhi] at hout
        exact absurd ⟨Int.emod_nonneg _ (by omega), Int.emod_lt_of_pos _ (by omega)⟩ hout
    · have hoff := bufOffset_add hb (hol.trans_le hl')
      refine ⟨?_, ?_, fun hin hlo hhi => ⟨?_, ?_⟩⟩
      · rw [hat]
        exact hoff.trans_lt hol
      · rw [hat]
        exact fun h => absurd h Bool.false_ne_true
      · rw [hat]
      · rw [hat, ← stepOffset_eq_emod hin hlo hhi]
        exact (congrArg _ hoff).trans ho
  case write =>
    obtain ⟨hin, h⟩ | ⟨hout, hback, h⟩ | ⟨hout, h⟩ := circWrite_cases (p := p) hb hl
    · rw [h]
      exact ⟨hin, fun _ => rfl, fun h => absurd h Bool.false_ne_true⟩
    · rw [h]
      exact ⟨(bufOffset_add hb (hback.trans_le hl')).trans_lt hback, fun hin => absurd hin (not_lt.mpr hout),
        fun h => absurd h Bool.false_ne_true⟩
    · rw [h]
      exact ⟨(bufOffset_self b).trans_lt hl, fun hin => absurd hin (not_lt.mpr hout), fun _ => rfl⟩

end Sys2Proof.Machine
end

section
/-!
PROOFS. The words of a pit program and the commands of the pit that are carried out (R131 to R153, R155), each with the condition
under which it has its effect.
-/

namespace Sys2Proof.Machine

/-! ## Program words (R138 to R141, R143) -/

section
variable (s : State)

/-- A word whose operation code is the one its command names issues with its own effects. -/
theorem done_pitOp {c op : Nat} (f : Ctx → Eff) (h : s.pitIssues c op = true) :
    done (s.pitOp c op f) = .next (s.issue c (s.ctx c) (f (s.ctx c))).settle := done_whenever s _ _ h

/-- SETP with a length within 1,024 in every lane draws no free value. -/
theorem exec_setp (c : Fin 128) (h : s.pitIssues c.val 0x26 = true) (hlen : (s.ctx c.val).setpOpen = false) :
    exec (.setp c) s = .next (s.issue c.val (s.ctx c.val) ((s.ctx c.val).setp s.freeCount)).settle := by
  have hdraw : (s.pitIssues c.val 0x26 && (s.ctx c.val).setpOpen) = false := by rw [hlen, Bool.and_false]
  dsimp only [exec, execSetp]
  rw [hdraw, if_neg Bool.false_ne_true]
  exact done_pitOp s (fun q => q.setp s.freeCount) h

/-- A cluster that is ready and has no input to take first issues the word at its program counter. -/
theorem State.pitIssues_of_ready {c op : Nat} (hready : s.pitReady c = true) (hreturn : (s.cluster c).atReturn = false)
    (hop : wOp (s.ctx c).w = op) : s.pitIssues c op = true := by
  simp [State.pitIssues, hready, hreturn, hop]

/-- A word of a reserved operation code is a NOP that sets ILL. -/
theorem exec_illegalOp (c : Fin 128) (h : s.pitIssues c.val (wOp (s.ctx c.val).w) = true)
    (hres : opDefined (wOp (s.ctx c.val).w) = false) :
    exec (.illegalOp c) s = .next (s.issue c.val (s.ctx c.val) Eff.bad).settle :=
  done_whenever s _ _ (by rw [h, hres]; rfl)

end

/-- Settles O11: each data word issues under its own operation code. -/
theorem pitDataWordsComplete : Obligations.PitDataWordsComplete := by
  rintro s c _ rfl
  and_intros
  all_goals exact done_pitOp s _

/-- Settles O12: each word issues under its own operation code; SETP and the reserved codes have a condition more. -/
theorem pitControlWordsComplete : Obligations.PitControlWordsComplete := by
  rintro s c _ rfl
  exact ⟨done_pitOp s _, done_pitOp s _, done_pitOp s _, done_pitOp s _, done_pitOp s _, done_pitOp s _, done_pitOp s _,
    done_pitOp s _, done_pitOp s _, done_pitOp s _, done_pitOp s _, done_pitOp s _, done_pitOp s _, done_pitOp s _,
    done_pitOp s _, exec_setp s c, exec_illegalOp s c⟩

/-! ## Vectors in and out (R135, R137, R149) -/

section
variable (s : State)

/-- A word that takes a vector issues with its results once a vector waits: outside a handler, on a cluster that is not to stop. -/
theorem done_pitTake {c op : Nat} {u : State} {v : Vect} (f : Ctx → Vect → List Flight) (h : s.pitIssues c op = true)
    (hbank : (s.ctx c).bank ≠ 1) (hstop : (s.ctx c).x.stopLeft = none) (hnext : s.nextVect c = (u, some v)) :
    done (s.pitTake c op f) = .next (u.issue c { s.ctx c with x := { (s.ctx c).x with cm := (u.cluster c).cm } }
      { Eff.nop with flights := f (s.ctx c) v }).settle := by
  have hgoes : ¬ (s.ctx c).x.stopLeft.isSome = true := by rw [hstop]; exact Bool.false_ne_true
  refine (done_whenever s _ _ h).trans ?_
  simp only [if_neg hbank, if_neg hgoes, hnext]

/-- OUT in the main bank, of a size and a number of fine channels that R140 defines, from a place of the history that holds a
vector, sends it while the output queue has room. -/
theorem exec_pitOut (c : Fin 128) {v : Vect} (h : s.pitIssues c.val 0x32 = true) (hbank : (s.ctx c.val).bank ≠ 1)
    (hsize : xDcl (s.ctx c.val).w ≠ 3) (hfine : xFine (s.ctx c.val).w ≤ 4)
    (hvect : (s.ctx c.val).x.hist[xLag (s.ctx c.val).w]? = some v) (hroom : (s.ctx c.val).x.outQ.length < 8) :
    exec (.pitOut c) s = .next (((s.incF (PIT_C_NEG8.COUNT c.val) ((s.ctx c.val).outVect v).2).putOut c.val
      ((s.ctx c.val).outVect v).1).issue c.val (s.ctx c.val) Eff.nop).settle := by
  have hdef : ((s.ctx c.val).bank = 1 || xDcl (s.ctx c.val).w = 3 || 4 < xFine (s.ctx c.val).w) = false := by
    simp [hbank, hsize, hfine]
  refine (done_whenever s _ _ h).trans ?_
  simp only [State.pitOutOp, hdef, hvect, Bool.false_eq_true, if_false, if_neg (not_le.mpr hroom)]

/-! ## Ring commands (R153, R155) -/

variable (r : Fin 262144) {e : Exec}

/-- PIT_LOCAL_WRITE by a page that may command the clusters, none of which has a flip pending, with a range of local memory, an
aligned address and all its data. -/
theorem exec_pitLocalWrite {d : List Byte} {cs : List Nat} (h : s.serves r.val 0x30 e)
    (hcs : cs = s.pitNamed (e.arg 64 7) (e.arg 71 1 = 1))
    (hnew : (List.range 128).any (fun c => (s.cluster c).flipRing == some r.val) = false) (hpage : s.pitPageOk e cs = true)
    (hflip : cs.any (fun c => s.flag (PIT_C_STATUS.FLIP_PEND c)) = false) (hcount : 1 ≤ e.arg 82 11)
    (hrange : e.arg 72 10 + e.arg 82 11 ≤ 1024) (halign : e.arg 128 64 % 64 = 0) (hdata : 128 * e.arg 82 11 ≤ d.length)
    {u : State} (hu : u = s.each cs (fun s c => s.setCluster c ((s.cluster c).localWrite (e.arg 72 10) (e.arg 82 11)
      (halfwords d (64 * e.arg 82 11))))) : exec (.pitLocalWrite r d) s = .next (if e.arg 192 1 = 1 then
        (u.each cs (fun s c => s.askFlip c r.val (e.arg 256 64))).flipsDone r.val else u.finish r.val e stOk).settle := by
  subst hcs hu
  have hargs : (e.arg 82 11 = 0 || 1024 < e.arg 72 10 + e.arg 82 11 || e.arg 128 64 % 64 != 0) = false := by
    simp [Nat.one_le_iff_ne_zero.mp hcount, hrange, halign]
  dsimp only [exec, execPitLocalWrite]
  rw [withCmd_serves h]
  simp only [hnew, hpage, hflip, hargs, Bool.not_true, Bool.false_eq_true, if_false, if_neg (not_lt.mpr hdata)]

/-- PIT_LOCAL_READ by a page that may command the cluster, with a range of local memory: at once between two vectors, otherwise at
the next such moment. -/
theorem exec_pitLocalRead {c : Nat} (h : s.serves r.val 0x31 e) (hc : c = e.arg 64 7)
    (hnew : (s.cluster c).readRings.contains r.val = false) (hpage : s.pitPageOk e [c] = true) (hcount : 1 ≤ e.arg 82 11)
    (hrange : e.arg 72 10 + e.arg 82 11 ≤ 1024) : exec (.pitLocalRead r) s = .next (if s.betweenNow c then s.localRead c r.val
      else s.setCluster c { s.cluster c with readRings := (s.cluster c).readRings ++ [r.val] }).settle := by
  subst hc
  have hargs : (e.arg 82 11 = 0 || 1024 < e.arg 72 10 + e.arg 82 11) = false := by
    simp [Nat.one_le_iff_ne_zero.mp hcount, hrange]
  dsimp only [exec, execPitLocalRead]
  rw [withCmd_serves h]
  simp only [hnew, hpage, hargs, Bool.not_true, Bool.false_eq_true, if_false]

/-- What a PIT_COEF_WRITE of ring `r` does at a cluster (R153): it writes between two vectors at once and waits otherwise, and a
cluster that runs keeps the ring, to name the vector after the write. -/
def State.coefAt (s : State) (r first : Nat) (hs : List Nat) (c : Nat) : State :=
  let x := s.cluster c
  let y := if s.betweenNow c then x.coefWrite first hs else { x with coefPend := x.coefPend ++ [(first, hs)] }
  s.setCluster c (if s.flag (PIT_C_STATUS.RUN c) then { y with coefRings := y.coefRings ++ [(r, none)] } else y)

/-- PIT_COEF_WRITE by a page that may command the clusters, with a range of coefficient memory and all its data. -/
theorem exec_pitCoefWrite {d : List Byte} {cs hs : List Nat} (h : s.serves r.val 0x32 e)
    (hcs : cs = s.pitNamed (e.arg 64 7) (e.arg 71 1 = 1))
    (hnew : (List.range 128).any (fun c => ((s.cluster c).coefFor r.val).isSome) = false) (hpage : s.pitPageOk e cs = true)
    (hcount : 1 ≤ e.arg 86 15) (hrange : e.arg 72 14 + e.arg 86 15 ≤ 16384) (hdata : 2 * e.arg 86 15 ≤ d.length) {u : State}
    (hhs : hs = halfwords d (e.arg 86 15))
    (hu : u = s.each cs (fun s c => s.coefAt r.val (e.arg 72 14) hs c)) :
    exec (.pitCoefWrite r d) s = .next (if cs.any (fun c => u.flag (PIT_C_STATUS.RUN c)) then u
      else u.drew.complete r.val e stOk u.free 0).settle := by
  subst hcs hhs hu
  have hargs : (e.arg 86 15 = 0 || 16384 < e.arg 72 14 + e.arg 86 15) = false := by
    simp [Nat.one_le_iff_ne_zero.mp hcount, hrange]
  dsimp only [exec, execPitCoefWrite]
  rw [withCmd_serves h]
  simp only [hnew, hpage, hargs, Bool.not_true, Bool.false_eq_true, if_false, if_neg (not_lt.mpr hdata)]
  rfl

end

/-- Settles O13: the vector words and the ring commands under the conditions above; null vectors and interrupts under one each. -/
theorem pitVectorsComplete : Obligations.PitVectorsComplete := by
  intro s
  refine ⟨?take, ?out, fun c => done_whenever s _ _, fun c i => done_whenever s _ _, ?localWrite, ?localRead, ?coefWrite⟩
  case take =>
    rintro c _ u v _ rfl hbank hstop hnext rfl
    exact ⟨fun h => done_pitTake s _ h hbank hstop hnext, fun h => done_pitTake s _ h hbank hstop hnext⟩
  case out =>
    rintro c _ v h rfl
    exact exec_pitOut s c h
  case localWrite =>
    intro r d e cs h hcs hnew hpage hflip hcount hrange halign hdata u hu
    exact exec_pitLocalWrite s r h hcs hnew hpage hflip hcount hrange halign hdata hu
  case localRead =>
    intro r e c h hc hnew hpage hcount hrange
    exact exec_pitLocalRead s r h hc hnew hpage hcount hrange
  case coefWrite =>
    intro r d e cs h hcs hnew hpage hcount hrange hdata hs u hhs hu
    exact exec_pitCoefWrite s r h hcs hnew hpage hcount hrange hdata hhs hu

end Sys2Proof.Machine
end

section
/-!
PROOFS. The cycle in which a word of the pit without an M operation issues while nothing is in flight (R131, R140, R143, R156): what
it leaves of its cluster, of the other clusters and of the register file.
-/

namespace Sys2Proof.Machine

/-! ## What a word leaves of its cluster (R143) -/

/-- The cluster goes straight on: nothing is in flight, and neither a branch nor an RTI waits to act. -/
structure Cluster.Straight (x : Cluster) : Prop where
  flights : x.flights = []
  redirects : x.redirects = []
  rtiLeft : x.rtiLeft = none

/-- The word after the one at the program counter comes next, and the cycle is counted. -/
def Cluster.goOn (x : Cluster) : Cluster :=
  { x with next := (x.next + 1) % 4096, delay := x.delay - 1, sinceIn := x.sinceIn + 1,
           stopLeft := x.stopLeft.map (fun n => n - 1) }

/-- The cluster at the end of the cycle in which a word issues with the effects of its main operation alone. -/
def Cluster.issued (x : Cluster) (bank : Nat) (e : Eff) : Cluster :=
  let y := { (x.apply bank e).stepPc e with sinceIn := x.sinceIn + 1 }
  Cluster.land { y with stopLeft := y.stopLeft.map (fun n => n - 1) }

theorem Ctx.mEff_nop {q : Ctx} (h : mOp q.w = 0) : q.mEff = Eff.nop := if_pos h

theorem Cluster.apply_nop (x : Cluster) (bank : Nat) : x.apply bank Eff.nop = x := by
  simp [Cluster.apply, Eff.nop]

/-- A cycle at whose end no result is in flight lands nothing. -/
theorem Cluster.land_of_no_flights {x : Cluster} (h : x.flights = []) : x.land = x := by
  have hland : x.land = { x with flights := [] } := by simp [Cluster.land, h]
  rw [hland, ← h]

/-- A main operation's only result, at distance 1, lands at the end of the cycle. -/
theorem Cluster.land_of_one {x : Cluster} {f : Flight} (h : x.flights = [f]) (hleft : f.left = 1) (hm : f.byM = false) :
    x.land = Cluster.write { x with flights := [] } f := by
  simp [Cluster.land, h, hleft, hm]

/-- A reserved word sets ILL and goes on. -/
theorem Cluster.issued_bad {x : Cluster} (h : x.Straight) (bank : Nat) : x.issued bank Eff.bad = { x.goOn with ill := true } := by
  have hland : x.issued bank Eff.bad = Cluster.land { x.goOn with ill := true } := by
    simp [Cluster.issued, Cluster.apply, Cluster.stepPc, Cluster.goOn, Eff.bad, Eff.nop, h.redirects]
  exact hland.trans (Cluster.land_of_no_flights h.flights)

/-- An ALU word writes its result and goes on. -/
theorem Cluster.issued_alu {q : Ctx} (h : q.x.Straight) (f : Nat → Int) :
    q.x.issued q.bank (q.alu f) = q.x.goOn.write (q.toD (rDst q.w) 1 (fun l => half (f l))) := by
  have hland : q.x.issued q.bank (q.alu f) =
      Cluster.land { q.x.goOn with flights := [q.toD (rDst q.w) 1 (fun l => half (f l))] } := by
    simp [Cluster.issued, Cluster.apply, Cluster.stepPc, Cluster.goOn, Ctx.alu, Eff.nop, h.redirects, h.flights]
  rw [hland, Cluster.land_of_one rfl rfl rfl]
  simp [Cluster.goOn, ← h.flights]

/-! ## What a result leaves of the data registers (R131, R143) -/

section
variable {α : Type} [DecidableEq α] {key : Nat → Nat} (v : Nat → α) (d : α) (t : Tbl α)

/-- Writes at other keys leave a key alone. -/
theorem Tbl.get_foldl_set_other {n k : Nat} (h : ∀ l < n, key l ≠ k) :
    Tbl.get ((List.range n).foldl (fun t l => Tbl.set t d (key l) (v l)) t) d k = Tbl.get t d k := by
  induction n with
  | zero => rfl
  | succ n ih =>
    rw [List.range_succ, List.foldl_append, List.foldl_cons, List.foldl_nil, Tbl.get_set_other _ _ _ _ _ (h n n.lt_succ_self).symm]
    exact ih fun l hl => h l (hl.trans n.lt_succ_self)

/-- Of writes at distinct keys each is read back. -/
theorem Tbl.get_foldl_set_self {n l : Nat} (hkey : Function.Injective key) (h : l < n) :
    Tbl.get ((List.range n).foldl (fun t l => Tbl.set t d (key l) (v l)) t) d (key l) = v l := by
  induction n with
  | zero => exact absurd h l.not_lt_zero
  | succ n ih =>
    rw [List.range_succ, List.foldl_append, List.foldl_cons, List.foldl_nil]
    obtain hl | rfl := Nat.lt_succ_iff_lt_or_eq.mp h
    · rw [Tbl.get_set_other _ _ _ _ _ (hkey.ne hl.ne)]
      exact ih hl
    · exact Tbl.get_set_self _ _ _ _

end

section
variable (x : Cluster) (q : Ctx) (r left : Nat) (f : Nat → Nat)

/-- The key of register `r` of a lane in the table of data registers. -/
def dregKey (bank r lane : Nat) : Nat := (bank * 64 + lane) * 16 + r % 16

/-- A result for a data register is written in every lane. -/
theorem Cluster.write_toD : x.write (q.toD r left f) = { x with d := (List.range 64).foldl (fun t l =>
    Tbl.set t 0 (dregKey q.bank r l) (BitVec.ofNat 16 ((perLane f).getD l 0))) x.d } := rfl

theorem perLane_getD {l : Nat} (h : l < 64) : (perLane f).getD l 0 = f l := by
  simp [perLane, h]

theorem Cluster.dreg_write_self {l : Nat} (h : l < 64) : (x.write (q.toD r left f)).dreg q.bank l r = f l % 2 ^ 16 := by
  have hkey : Function.Injective (dregKey q.bank r) := fun i j hij => by
    simp only [dregKey] at hij
    omega
  have hget := Tbl.get_foldl_set_self (fun l => BitVec.ofNat 16 ((perLane f).getD l 0)) 0 x.d hkey h
  rw [Cluster.write_toD, Cluster.dreg, ← dregKey, hget, perLane_getD f h, BitVec.toNat_ofNat]

theorem Cluster.dreg_write_other {b l r' : Nat} (h : l < 64) (hother : b ≠ q.bank ∨ r' % 16 ≠ r % 16) :
    (x.write (q.toD r left f)).dreg b l r' = x.dreg b l r' := by
  have hkey : ∀ i < 64, dregKey q.bank r i ≠ dregKey b r' l := fun i hi => by
    simp only [dregKey]
    omega
  have hget := Tbl.get_foldl_set_other (fun l => BitVec.ofNat 16 ((perLane f).getD l 0)) 0 x.d hkey
  rw [Cluster.write_toD, Cluster.dreg, ← dregKey, hget, Cluster.dreg, ← dregKey]

end

/-! ## What a word leaves of the rest of the block (R156, R158) -/

/-- The register fields that the cycle of a word can write. -/
def issueFields (c : Nat) : List Fld := [PIT_C_FLAGS.BITS c, PIT_C_STATUS.PC c, PIT_C_STATUS.IN_WAIT c, PIT_C_STATUS.OUT_WAIT c,
  PIT_C_SAT.COUNT c]

/-- They lie in the pit's part of the register map. -/
theorem key_not_mem_issueFields {c : Nat} (hc : c < 128) {g : Fld} (h : g.key < 0x400000 * 64 ∨ 0x500000 * 64 ≤ g.key) :
    g.key ∉ (issueFields c).map Fld.key := by
  simp only [issueFields, List.map_cons, List.map_nil, List.mem_cons, List.not_mem_nil, or_false, Fld.key, Fld.plus,
    PIT_C_FLAGS.BITS, PIT_C_STATUS.PC, PIT_C_STATUS.IN_WAIT, PIT_C_STATUS.OUT_WAIT, PIT_C_SAT.COUNT] at h ⊢
  omega

/-- The status fields and the saturation count after a word has issued. -/
def State.issueMarks (s : State) (c satN : Nat) : State :=
  (((s.setF (PIT_C_STATUS.PC c) (s.cluster c).next).incF (PIT_C_SAT.COUNT c) satN).setF (PIT_C_STATUS.IN_WAIT c) 0).setF
    (PIT_C_STATUS.OUT_WAIT c) 0

/-- The state in which cluster `c` has come to `y`, with its status fields, its saturation count and its flags shown. -/
def State.issueTo (s : State) (c satN : Nat) (y : Cluster) : State :=
  ((s.issueMarks c satN).setCluster c y).setF (PIT_C_FLAGS.BITS c) y.flagsOr

section
variable (s : State) (c satN : Nat) (y : Cluster)

@[simp] theorem State.issueTo_clk : (s.issueTo c satN y).clk = s.clk := by simp [State.issueTo, State.issueMarks]
@[simp] theorem State.issueTo_scr : (s.issueTo c satN y).scr = s.scr := by simp [State.issueTo, State.issueMarks]
@[simp] theorem State.issueTo_mem : (s.issueTo c satN y).mem = s.mem := by simp [State.issueTo, State.issueMarks]
@[simp] theorem State.issueTo_flt : (s.issueTo c satN y).flt = s.flt := by simp [State.issueTo, State.issueMarks]

@[simp] theorem State.issueTo_cluster : (s.issueTo c satN y).cluster c = y := State.setCluster_cluster ..

theorem State.issueTo_cluster_other {k : Nat} (h : k ≠ c) : (s.issueTo c satN y).cluster k = s.cluster k :=
  State.setCluster_cluster_other _ _ _ _ h

theorem State.issueTo_flags : (s.issueTo c satN y).getF (PIT_C_FLAGS.BITS c) = y.flagsOr % 2 ^ 6 :=
  State.getF_setF_self _ _ _ (by decide : 6 ≤ 64)

theorem State.issueTo_fields : sameFields (issueFields c) s (s.issueTo c satN y) := by
  have hmarks : sameFields (issueFields c) s (s.issueMarks c satN) :=
    ((((sameFields.refl _ s).setF _ (by simp [issueFields])).setF _ (by simp [issueFields])).setF _ (by simp [issueFields])).setF
      _ (by simp [issueFields])
  exact (hmarks.of_regs (State.setCluster_regs _ c y)).setF _ (by simp [issueFields])

end

/-- A word without an M operation: its cluster comes to the end of the cycle, the flags are shown, and an RTI runs on. -/
theorem State.issue_of_no_mOp (s : State) (c : Nat) {q : Ctx} (e : Eff) (h : mOp q.w = 0) : s.issue c q e =
    (((s.issueMarks c e.satN).setCluster c ((s.cluster c).issued q.bank e)).pitFlags c
      ((s.issueMarks c e.satN).getF (PIT_C_STATUS.PC c)) e.clear).rtiStep c e.rti := by
  dsimp only [State.issue]
  rw [Ctx.mEff_nop h, Cluster.apply_nop]
  rfl

theorem State.rtiStep_none {s : State} {c : Nat} (h : (s.cluster c).rtiLeft = none) : s.rtiStep c false = s := by
  simp [State.rtiStep, h]

/-- What a cluster's source and the floor of its class are read from lies outside the pit. -/
theorem State.promoted_pitSrc {s t : State} {c : Nat} (hc : c < 128) (h : sameFields (issueFields c) s t) (hclk : t.clk = s.clk)
    (hscr : t.scr = s.scr) (k cls : Nat) : t.promoted (t.pitSrc k) cls = s.promoted (s.pitSrc k) cls := by
  have htime : SameTime s t := .of_sameFields h (key_not_mem_issueFields hc (by decide)) hclk hscr
  have hservice : t.inService = s.inService := by
    rw [State.inService, State.flag, h _ (key_not_mem_issueFields hc (by decide))]
    rfl
  have hsrc : t.pitSrc k = s.pitSrc k := by
    simp only [State.pitSrc, State.physOf, State.spareOf, h DUO_SPARE.PIT_MAP (key_not_mem_issueFields hc (by decide))]
  rw [hsrc, htime.promoted hservice]

/-- Where no flag stands, or an event of class 1 is not promoted to class 4, the flags shown put at most an event in the outbox. -/
theorem State.pitFlags_silent (s : State) {c : Nat} (satN pc cleared : Nat) {y : Cluster} (hc : c < 128)
    (h : y.flagsOr = 0 ∨ s.promoted (s.pitSrc c) 1 < 4) :
    ∃ l, ((s.issueMarks c satN).setCluster c y).pitFlags c pc cleared = { s.issueTo c satN y with outbox := l } := by
  have hat : ((s.issueMarks c satN).setCluster c y).cluster c = y := State.setCluster_cluster ..
  simp only [State.pitFlags, hat]
  split
  · exact ⟨s.outbox, rfl⟩
  · rename_i hnew
    have hflags : y.flagsOr ≠ 0 := fun h0 => hnew (by rw [h0, Nat.zero_and])
    have hclass := State.promoted_pitSrc hc (s.issueTo_fields c satN y) (s.issueTo_clk ..) (s.issueTo_scr ..) c 1
    exact ⟨_, State.emitFor_of_lt_four (s.issueTo c satN y) _ _ _ _ _ _ (hclass.trans_lt (h.resolve_left hflags))⟩

/-- From `s` to `t` cluster `c` has come to `y` and shows its flags; every other cluster, the store, the faults that have arrived
and every register field that the cycle of a word does not write are as before. -/
structure IssuedTo (s : State) (c : Nat) (y : Cluster) (t : State) : Prop where
  cluster : t.cluster c = y
  others : ∀ k, k ≠ c → t.cluster k = s.cluster k
  flags : t.getF (PIT_C_FLAGS.BITS c) = y.flagsOr % 2 ^ 6
  fields : sameFields (issueFields c) s t
  store : sameStore s t
  flt : t.flt = s.flt

theorem State.issueTo_issuedTo (s : State) (c satN : Nat) (y : Cluster) (l : List Ev) :
    IssuedTo s c y { s.issueTo c satN y with outbox := l } where
  cluster := s.issueTo_cluster c satN y
  others _ := s.issueTo_cluster_other c satN y
  flags := s.issueTo_flags c satN y
  fields := s.issueTo_fields c satN y
  store a := by rw [State.issueTo_mem]
  flt := s.issueTo_flt c satN y

/-- A word without an M operation whose cycle raises no fault of class 4, with no RTI under way. -/
theorem State.issue_issuedTo (s : State) {c : Nat} (hc : c < 128) {q : Ctx} {e : Eff} {y : Cluster} (hm : mOp q.w = 0)
    (hrti : e.rti = false) (hy : (s.cluster c).issued q.bank e = y) (hleft : y.rtiLeft = none)
    (hquiet : y.flagsOr = 0 ∨ s.promoted (s.pitSrc c) 1 < 4) : IssuedTo s c y (s.issue c q e) := by
  obtain ⟨l, hl⟩ := s.pitFlags_silent e.satN ((s.issueMarks c e.satN).getF (PIT_C_STATUS.PC c)) e.clear hc hquiet
  have hissued := s.issueTo_issuedTo c e.satN y l
  rwa [s.issue_of_no_mOp c e hm, hy, hl, hrti, State.rtiStep_none (by rwa [hissued.cluster])]

/-! ## ALU words (R140) -/

/-- The 16 bits of an integer are below 65,536. -/
theorem half_mod (v : Int) : half v % 2 ^ 16 = half v := Nat.mod_eq_of_lt (ofSigned_lt 16 v)

theorem Ctx.cnt_alu (q : Ctx) : q.cnt = q.alu (fun l => q.a l + (if q.flagOf l (rFlag q.w) then 1 else 0)) := by
  simp only [Ctx.cnt, b2n, Nat.cast_ite, Nat.cast_one, Nat.cast_zero]

/-- The low byte of an operand's 16 bits is the operand modulo 256. -/
theorem half_mod_256 (v : Int) : ((half v % 256 : Nat) : Int) = v % 256 := by
  rw [Int.natCast_mod, half, ofSigned_cast]
  omega

theorem Ctx.pack_alu (q : Ctx) : q.pack = q.alu (fun l => 256 * (q.b l % 256) + q.a l % 256) := by
  refine congrArg q.alu (funext fun l => ?_)
  rw [Nat.cast_add, Nat.cast_mul, half_mod_256, half_mod_256, mul_comm]
  rfl

theorem Ctx.shli_alu (q : Ctx) : q.shli = q.alu (fun l => (q.ia l : Int) * 2 ^ (iImm q.w % 16)) := by
  simp only [Ctx.shli, Nat.cast_mul, Nat.cast_pow, Nat.cast_ofNat]

theorem Ctx.shrai_alu (q : Ctx) : q.shrai = q.alu (fun l => toSigned 16 (q.ia l) / 2 ^ (iImm q.w % 16)) := by
  refine congrArg q.alu (funext fun l => ?_)
  rw [fdiv, Int.fdiv_eq_ediv_of_nonneg _ (Int.natCast_nonneg _), Nat.cast_pow, Nat.cast_ofNat]

/-- Settles O47: each form issues as the ALU operation of its function, whose one result lands at the end of the cycle. -/
theorem aluLands : Obligations.AluLands := by
  rintro s c q i f hc hready rfl hm hreturn hflights hredirects hrti hflags hword
  have hstraight : (s.ctx c.val).x.Straight := ⟨hflights, hredirects, hrti⟩
  have hdone : ∀ {op} (g : Ctx → Eff), wOp (s.ctx c.val).w = op → done (s.pitOp c.val op g) =
      .next (s.issue c.val (s.ctx c.val) (g (s.ctx c.val))).settle := fun g hop =>
    done_pitOp s g (s.pitIssues_of_ready hready hreturn hop)
  have hexec : exec i s = .next (s.issue c.val (s.ctx c.val) ((s.ctx c.val).alu f)).settle := by
    rcases hword with ⟨rfl, hop, rfl⟩ | ⟨rfl, hop, rfl⟩ | ⟨rfl, hop, rfl⟩ | ⟨rfl, hop, rfl⟩ | ⟨rfl, hop, rfl⟩ |
      ⟨rfl, hop, rfl⟩ | ⟨rfl, hop, rfl⟩ | ⟨rfl, hop, rfl⟩ | ⟨rfl, hop, rfl⟩ | ⟨rfl, hop, rfl⟩ | ⟨rfl, hop, rfl⟩ |
      ⟨rfl, hop, rfl⟩ | ⟨rfl, hop, rfl⟩ | ⟨rfl, hop, rfl⟩
    exacts [hdone _ hop, hdone _ hop, hdone _ hop, hdone _ hop, hdone _ hop, hdone _ hop, hdone _ hop, hdone _ hop,
      Ctx.cnt_alu _ ▸ hdone Ctx.cnt hop, Ctx.pack_alu _ ▸ hdone Ctx.pack hop, hdone _ hop,
      Ctx.shli_alu _ ▸ hdone Ctx.shli hop, Ctx.shrai_alu _ ▸ hdone Ctx.shrai hop, hdone _ hop]
  obtain ⟨hcluster, hothers, -, -, hstore, hflt⟩ := s.issue_issuedTo c.isLt hm rfl (Cluster.issued_alu hstraight f) hrti
    (.inl hflags)
  refine ⟨_, hexec.trans (congrArg _ (State.settle_none _ (by rw [hflt, hc]))), ?dst, ?regs, ?rest, hothers, hstore⟩
  case dst =>
    intro l hl
    rw [hcluster, Cluster.dreg_write_self _ _ _ _ _ hl, half_mod]
  case regs =>
    intro b l r hl hr hother
    have hdst : rDst (s.ctx c.val).w < 16 := Nat.mod_lt _ (by decide)
    rw [hcluster, Cluster.dreg_write_other _ _ _ _ _ hl (by rwa [Nat.mod_eq_of_lt hr, Nat.mod_eq_of_lt hdst])]
    rfl
  case rest => exact ⟨_, hcluster⟩

/-! ## Reserved words (R140) -/

/-- Settles O48: ILL is the cluster's only flag, and PIT_Cn_FLAGS shows it. -/
theorem illegalWords : Obligations.IllegalWords := by
  rintro s c q hc hready rfl hres hm hreturn hflights hredirects hrti hsticky - hclass
  have hstraight : (s.ctx c.val).x.Straight := ⟨hflights, hredirects, hrti⟩
  have hissued := s.issue_issuedTo c.isLt hm rfl (Cluster.issued_bad hstraight _) hrti (.inr hclass)
  have hexec := exec_illegalOp s c (s.pitIssues_of_ready hready hreturn rfl) hres
  refine ⟨_, hexec.trans (congrArg _ (State.settle_none _ (by rw [hissued.flt, hc]))), hissued.cluster, ?bit, hissued.store,
    hissued.fields⟩
  case bit =>
    have hshown : Cluster.flagsOr { (s.ctx c.val).x.goOn with ill := true } = 32 := by
      simp [Cluster.flagsOr, Cluster.goOn, hsticky]
    rw [State.bit, hissued.flags, hshown]
    rfl

end Sys2Proof.Machine
end

section
/-!
PROOFS. The block reset of the pit, and DARK, which ignores the block resets (R158, R388, R389).
-/

namespace Sys2Proof.Machine

/-! ## Tables with entries removed or mapped -/

/-- A key whose entries a filter keeps reads as before. -/
theorem Tbl.get_filter_of_pos {α : Type} (d : α) {k : Nat} {p : Nat × α → Bool} (h : ∀ v, p (k, v) = true) (t : Tbl α) :
    Tbl.get (t.filter p) d k = Tbl.get t d k := by
  induction t with
  | nil => rfl
  | cons e r ih =>
    obtain ⟨k', v⟩ := e
    by_cases hk : k' = k
    · subst hk
      rw [List.filter_cons_of_pos (h v)]
      simp [Tbl.get]
    · have hr : Tbl.get ((k', v) :: r) d k = Tbl.get r d k := if_neg hk
      rw [hr, List.filter_cons]
      split
      · exact (if_neg hk).trans ih
      · exact ih

/-- A key whose entries a filter removes reads the default. -/
theorem Tbl.get_filter_of_neg {α : Type} (d : α) {k : Nat} {p : Nat × α → Bool} (h : ∀ v, p (k, v) = false) (t : Tbl α) :
    Tbl.get (t.filter p) d k = d := by
  induction t with
  | nil => rfl
  | cons e r ih =>
    obtain ⟨k', v⟩ := e
    rw [List.filter_cons]
    split
    · rename_i hkeep
      have hk : k' ≠ k := fun hk => by rw [hk, h v] at hkeep; exact Bool.false_ne_true hkeep
      exact (if_neg hk).trans ih
    · exact ih

/-- A table whose values are mapped reads the mapped value. -/
theorem Tbl.get_map {α β : Type} (f : α → β) (d : α) (k : Nat) (t : Tbl α) :
    Tbl.get (t.map (fun e => (e.1, f e.2))) (f d) k = f (Tbl.get t d k) := by
  induction t with
  | nil => rfl
  | cons e r ih =>
    simp only [List.map_cons, Tbl.get, ih]
    exact (apply_ite f _ _ _).symm

/-! ## Registers that return to their reset values -/

/-- The keys of the registers at offsets from `lo` up to but not including `hi`. -/
theorem Fld.key_range {f : Fld} (h : f.lo < 64) (lo hi : Nat) :
    lo * 64 ≤ f.key ∧ f.key < hi * 64 ↔ lo ≤ f.off ∧ f.off < hi := by
  simp only [Fld.key]
  omega

theorem State.getF_resetRegs_of_mem (s : State) {lo hi : Nat} {f : Fld} (h : f.lo < 64) (hr : f.rst < 2 ^ 64) (hlo : lo ≤ f.off)
    (hhi : f.off < hi) : (s.resetRegs lo hi (fun _ => false)).getF f = f.rst := by
  rw [State.getF, State.resetRegs, Tbl.get_filter_of_neg, BitVec.toNat_ofNat, Nat.mod_eq_of_lt hr]
  intro v
  obtain ⟨hl, hh⟩ := (Fld.key_range h lo hi).mpr ⟨hlo, hhi⟩
  simp [hl, hh]

theorem State.getF_resetRegs_of_not_mem (s : State) {lo hi : Nat} (keep : Nat → Bool) {f : Fld} (h : f.lo < 64)
    (hout : f.off < lo ∨ hi ≤ f.off) : (s.resetRegs lo hi keep).getF f = s.getF f := by
  rw [State.getF, State.resetRegs, Tbl.get_filter_of_pos, State.getF]
  intro v
  have hkey : ¬(lo * 64 ≤ f.key ∧ f.key < hi * 64) := (Fld.key_range h lo hi).not.mpr (by omega)
  rw [← Bool.decide_and, decide_eq_false hkey]
  rfl

/-! ## The reset of the pit (R158, R389) -/

/-- The rings whose pit command waits for a cluster: for a vector after a coefficient write, a flip or a read (R153, R155). -/
def waitingRings : Option Cluster → List Nat
  | some c => c.coefRings.map (fun q => q.1) ++ c.flipRing.toList ++ c.readRings
  | none => []

/-- No pit command waits for a cluster. -/
def State.noPitWaits (s : State) : Prop :=
  ∀ e ∈ s.clu, ∀ x, e.2 = some x → x.coefRings = [] ∧ x.flipRing = none ∧ x.readRings = []

/-- While no pit command waits, a pit reset blanks the clusters and resets the registers, and that is all. -/
theorem State.resetPit_of_noPitWaits {s : State} (h : s.noPitWaits) :
    s.resetPit = ({ s with clu := s.clu.map (fun e => (e.1, e.2.map Cluster.blank)) } : State).resetRegs 0x400000 0x500000
      (fun _ => false) := by
  have hwaits : s.clu.flatMap (fun e => waitingRings e.2) = [] := by
    refine List.flatMap_eq_nil_iff.mpr fun e he => ?_
    cases hx : e.2 with
    | none => rfl
    | some x =>
      obtain ⟨hcoef, hflip, hread⟩ := h e he x hx
      rw [waitingRings, hcoef, hflip, hread]
      rfl
  exact congrArg (fun rs : List Nat => State.each _ rs.eraseDups _) hwaits

/-- Outside DARK a pit block reset marks itself in PWR_BLKRST and resets the pit. -/
theorem exec_pitBlockReset {s : State} (h : s.power ≠ 3) :
    exec .pitBlockReset s = .next (s.putBit PWR_BLKRST.BITS 0 true).resetPit.settle := done_whenever s _ _ (s.awake h)

/-- DARK ignores a block reset. -/
theorem done_blockReset_dark {s : State} (hc : s.flt.c4 = []) (h : s.power = 3) (b : Nat) (f : State → State) :
    done (s.blockReset b f) = .next s := by
  have hdark : (s.power != 3) = false := bne_eq_false_iff_eq.mpr h
  rw [done, State.blockReset, State.whenever_neg s _ _ hdark, State.settle_none s hc]

/-- Settles O60: outside DARK by the reads of the register file and of the clusters after the reset, in DARK for each block. -/
theorem pitBlockReset : Obligations.PitBlockReset := by
  refine fun s hc => ⟨fun hp hw => ?awake, fun hp => ?dark⟩
  case awake =>
    have hreset : (s.putBit PWR_BLKRST.BITS 0 true).resetPit = _ := State.resetPit_of_noPitWaits hw
    refine ⟨(s.putBit PWR_BLKRST.BITS 0 true).resetPit, ?_, ?bit, ?inside, ?outside, ?clusters, ?_⟩
    · rw [exec_pitBlockReset hp, State.settle_none]
      rw [hreset]
      exact hc
    case bit =>
      rw [hreset, State.bit, State.getF_resetRegs_of_not_mem _ _ (by decide) (by decide)]
      exact s.bit_putBit_true (by decide) (by decide)
    case inside =>
      intro f hlo hhi hl hr
      rw [hreset]
      exact State.getF_resetRegs_of_mem _ hl hr hlo hhi
    case outside =>
      intro f hout hl hk
      rw [hreset, State.getF_resetRegs_of_not_mem _ _ hl hout]
      exact s.getF_setF_other _ f _ hk
    case clusters =>
      intro c
      rw [hreset, State.cluster, State.cluster]
      refine (congrArg (Option.getD · Cluster.idle) (Tbl.get_map (Option.map Cluster.blank) none c s.clu)).trans ?_
      cases Tbl.get s.clu none c <;> rfl
    · rw [hreset]
      rfl
  case dark =>
    simp only [List.forall_mem_cons]
    exact ⟨done_blockReset_dark hc hp 0 _, done_blockReset_dark hc hp 1 _, done_blockReset_dark hc hp 2 _,
      done_blockReset_dark hc hp 3 _, done_blockReset_dark hc hp 4 _, fun _ h => absurd h List.not_mem_nil⟩

end Sys2Proof.Machine
end

section
/-!
PROOFS. The central store: the canonical form of its data (R159), the requests and maintenance commands that complete (R163 to
R180), and what a write and an atomic add leave in a line (R163, R165, R178).
-/

namespace Sys2Proof.Machine

/-! ## Tables in canonical form (R159) -/

theorem Tbl.wfFrom_cons {α : Type} [DecidableEq α] {d : α} {lo k : Nat} {v : α} {r : Tbl α} :
    Tbl.wfFrom d lo ((k, v) :: r) = true ↔ lo ≤ k ∧ v ≠ d ∧ Tbl.wfFrom d (k + 1) r = true := by
  simp [Tbl.wfFrom, and_assoc]

/-- A key that reads other than the default is not below the listed ones. -/
theorem Tbl.le_of_get_ne {α : Type} [DecidableEq α] {d : α} {lo k : Nat} {t : Tbl α} (h : Tbl.wfFrom d lo t = true)
    (hk : Tbl.get t d k ≠ d) : lo ≤ k :=
  Nat.le_of_not_lt fun hlt => hk (Tbl.get_below d h hlt)

theorem Tbl.get_cons_self {α : Type} (d : α) (k : Nat) (v : α) (r : Tbl α) : Tbl.get ((k, v) :: r) d k = v := if_pos rfl

theorem Tbl.get_cons_other {α : Type} (d : α) {k j : Nat} (v : α) (r : Tbl α) (h : k ≠ j) :
    Tbl.get ((k, v) :: r) d j = Tbl.get r d j := if_neg h

/-- Tables in canonical form that read alike list the same entries. -/
theorem Tbl.eq_of_get_eq {α : Type} [DecidableEq α] {d : α} {lo : Nat} {t u : Tbl α} (ht : Tbl.wfFrom d lo t = true)
    (hu : Tbl.wfFrom d lo u = true) (h : ∀ k, Tbl.get t d k = Tbl.get u d k) : t = u := by
  induction t generalizing lo u with
  | nil =>
    cases u with
    | nil => rfl
    | cons e r =>
      obtain ⟨k, v⟩ := e
      have hread := h k
      rw [Tbl.get_cons_self] at hread
      exact absurd hread.symm (Tbl.wfFrom_cons.mp hu).2.1
  | cons e r ih =>
    obtain ⟨k, v⟩ := e
    obtain ⟨hlo, hv, hr⟩ := Tbl.wfFrom_cons.mp ht
    have hk := h k
    rw [Tbl.get_cons_self] at hk
    cases u with
    | nil => exact absurd hk hv
    | cons e' r' =>
      obtain ⟨k', v'⟩ := e'
      obtain ⟨hlo', hv', hr'⟩ := Tbl.wfFrom_cons.mp hu
      have hk' := h k'
      rw [Tbl.get_cons_self] at hk'
      have hle : k' ≤ k := Tbl.le_of_get_ne (Tbl.wfFrom_cons.mpr ⟨le_refl k', hv', hr'⟩) (hk ▸ hv)
      have hge : k ≤ k' := Tbl.le_of_get_ne (Tbl.wfFrom_cons.mpr ⟨le_refl k, hv, hr⟩) (hk' ▸ hv')
      obtain rfl : k = k' := Nat.le_antisymm hge hle
      obtain rfl : v = v' := hk.trans (Tbl.get_cons_self d k v' r')
      refine congrArg _ (ih hr hr' fun j => ?_)
      by_cases hj : k = j
      · subst hj
        rw [Tbl.get_below d hr (Nat.lt_succ_self k), Tbl.get_below d hr' (Nat.lt_succ_self k)]
      · have hread := h j
        rwa [Tbl.get_cons_other d v r hj, Tbl.get_cons_other d v r' hj] at hread

/-- Settles O33: the store's memory is such a table. -/
theorem canonicalMemoryIsItsReads : Obligations.CanonicalMemoryIsItsReads := fun _ _ hm hn h => Tbl.eq_of_get_eq hm hn h

/-! ## Commands that complete (R165 to R180) -/

/-- A read of an address that exists is requested while the store has power (R165). -/
theorem exec_storeRead (s : State) (p : Fin 10) (a : Nat) (es : List Nat) (w : Nat) (ha : a < storeBytes)
    (hon : s.storeOn = true) : exec (.storeRead p a es w) s = .next (s.storeRead p.val a es w).settle :=
  (if_neg (Nat.not_le.mpr ha)).trans (done_whenever s _ _ hon)

/-- A window of corrected errors that is open ends with its event (R180). -/
theorem exec_ceWindowEnd (s : State) (n : Fin 256) (k : Nat) (h : (s.pch n.val).ceWindow = some k) :
    exec (.ceWindowEnd n) s =
      .next ((s.setPch n.val { s.pch n.val with ceWindow := none }).emit (pcSrc n.val) 0x0501 k n.val 1).settle := by
  simp only [exec, execCeWindowEnd, h, done]

/-- Settles O14: each command's own condition is the one that its meaning tests. -/
theorem storeCommandsComplete : Obligations.StoreCommandsComplete := by
  intro s
  refine ⟨fun p a es w ha hon => exec_storeRead s p a es w ha hon,
    fun p a d b es w ha hon _ => exec_storeWrite s p a d b es w ha hon,
    fun p a f m d es ha hon _ => exec_atomicAdd s p a f m d es ha hon,
    fun n es hon hready => done_whenever s _ _ ?scrub,
    fun n b q hon hact => done_whenever s _ _ ?refresh,
    fun l hon hready => done_whenever s _ _ ?training,
    fun n hon hready hact hdue => done_whenever s _ _ ?retrain,
    fun n r w v a b hon htr => done_whenever s _ _ ?retrained,
    fun n hrel => done_whenever s _ _ hrel,
    fun n hstate hidle => done_whenever s _ _ ?selfRefresh,
    fun n k hk => exec_ceWindowEnd s n k hk⟩
  case scrub => simp [hon, hready]
  case refresh => simp [hon, hact]
  case training => simp [hon, hready]
  case retrain => simp [hon, hready, hact, hdue]
  case retrained => simp [hon, htr]
  case selfRefresh => simpa [hidle] using hstate

/-! ## Requests that find nothing else waiting (R163, R168, log 12) -/

/-- A write with the rights of its port is not refused (R29, R163). -/
theorem State.refusal_write_none {s : State} {p a : Nat} (d : BitVec 512) (b : BitVec 64) (es : List Nat) (hcap : a < s.capBytes)
    (h : (if p = 6 then s.hostMayWrite a else s.portMayWrite p a) = true) : s.refusal p a (.write d b es) = none := by
  have hcap' : ¬ s.capBytes ≤ a := Nat.not_le.mpr hcap
  by_cases hp : p = 6
  · rw [if_pos hp] at h
    simp [State.refusal, hp, h]
  · rw [if_neg hp] at h
    simp [State.refusal, hp, h, hcap']

/-- An add in a region with AD is not refused (R163). -/
theorem State.refusal_add_none {s : State} {p a fmt : Nat} (m : BitVec 16) (d : BitVec 512) (es : List Nat) (hcap : a < s.capBytes)
    (h : s.addAllowed a = true) : s.refusal p a (.add fmt m d es) = none := by
  simp [State.refusal, h, Nat.not_le.mpr hcap]

/-- A request that causes no write-back is served at once. It leaves the data `v` of serving it, which leaves the controller as it
was. -/
theorem State.request_served {s v x : State} {r : StoreReq} (h : s.Quiet (pcOf r.a)) (hno : s.refusal r.port r.a r.ask = none)
    (hno' : (s.taken (pcOf r.a) r).refusal r.port r.a r.ask = none) (hx : (s.taken (pcOf r.a) r).serve r = (x, []))
    (hdata : SameData v x) (hv : v.pch (pcOf r.a) = s.pch (pcOf r.a)) : SameData v (s.request r) := by
  have hq : (x.pch (pcOf r.a)).queue = [] := by rw [hdata.queue, hv, h.queue]
  have hh : (x.pch (pcOf r.a)).held = [] := by rw [hdata.held, hv, h.held]
  have hpch : (s.setPch (pcOf r.a) { s.pch (pcOf r.a) with queue := [r] }).pch (pcOf r.a) =
      { s.pch (pcOf r.a) with queue := [r] } := by rw [State.setPch_pch, if_pos rfl]
  have hdone : (x.setPch (pcOf r.a) (x.pch (pcOf r.a))).pch (pcOf r.a) = x.pch (pcOf r.a) := by rw [State.setPch_pch, if_pos rfl]
  rw [State.request_of_quiet h hno, State.serveQueue_singleton 1 hpch rfl h.relocating hno' hx, PChan.refill_quiet _ hq hh,
    State.serveQueue_nil _ _ _ (by rw [hdone, hq])]
  exact hdata.setPch rfl rfl rfl

/-! ## Writes in states with the same data -/

theorem SameData.withMem {s t : State} (h : SameData s t) (m : Mem) : SameData { s with mem := m } { t with mem := m } :=
  ⟨rfl, h.poison, h.lost, h.queue, h.held, h.host, h.c4⟩

theorem SameData.setPoison {s t : State} (h : SameData s t) (w : Nat) (b : Bool) :
    SameData (s.setPoison w b) (t.setPoison w b) := by
  refine ⟨h.mem, ?_, h.lost, h.queue, h.held, h.host, h.c4⟩
  simp only [State.setPoison, h.poison, h.lost]

theorem SameData.invalidate {s t : State} (h : SameData s t) (a : Nat) : SameData (s.invalidate a) (t.invalidate a) := by
  unfold State.invalidate
  rw [h.host]
  split
  · exact ⟨h.mem, h.poison, h.lost, h.queue, h.held, rfl, h.c4⟩
  · exact h

theorem SameData.each {α : Type} {f : State → α → State} (hf : ∀ u v x, SameData u v → SameData (f u x) (f v x)) {s t : State}
    (h : SameData s t) (l : List α) : SameData (s.each l f) (t.each l f) := by
  induction l generalizing s t with
  | nil => exact h
  | cons x r ih => exact ih (hf s t x h)

/-! ## What a write leaves in a line (R165) -/

/-- The words of the line at `a` that `bytes` enables whole lose their poison. -/
def State.clearPoison (s : State) (a bytes : Nat) (words : List Nat) : State :=
  s.each words (fun s i => if bitsOf bytes (8 * i) 8 = 255 then s.setPoison (a / 8 + i) false else s)

/-- The bytes of the line at `a` that `bytes` enables are stored. -/
def State.mergeBytes (s : State) (a : Nat) (data : List Byte) (bytes : Nat) (places : List Nat) : State :=
  s.each places (fun s k => if bytes.testBit k then { s with mem := Memory.write s.mem (a + k) (data.getD k 0) } else s)

/-- The data that a write leaves, without the bookkeeping of its access. -/
def State.putLine (s : State) (a : Nat) (data : List Byte) (bytes : Nat) : State :=
  (s.clearPoison a bytes (List.range 8)).mergeBytes a data bytes (List.range 64)

theorem SameData.putLine {s t : State} (h : SameData s t) (a : Nat) (data : List Byte) (bytes : Nat) :
    SameData (s.putLine a data bytes) (t.putLine a data bytes) := by
  have hclean : SameData (s.clearPoison a bytes (List.range 8)) (t.clearPoison a bytes (List.range 8)) := by
    refine SameData.each (fun u v i huv => ?_) h _
    split
    · exact huv.setPoison _ _
    · exact huv
  refine SameData.each (fun u v k huv => ?_) hclean _
  split
  · rw [huv.mem]
    exact huv.withMem _
  · exact huv

theorem State.poisonWords_zero (s : State) (a : Nat) : s.poisonWords a 0 = s := by
  simp [State.poisonWords, State.each]

/-- Eight code words with neither poison nor a bit in error, as they decode (R165). -/
def cleanDecode : List WordDecode := List.replicate 8 (decodeWord false 0 false)

theorem ueWords_cleanDecode : ueWords cleanDecode = 0 := by decide

theorem SameData.afterDecode_cleanDecode {s t : State} (h : SameData s t) (port a : Nat) (r : Bool) :
    SameData s (t.afterDecode port a cleanDecode r) := h.afterDecode (by decide) ueWords_cleanDecode

/-- A write without bit errors leaves the data of `putLine`. -/
theorem State.writeLine_nil (s : State) (port a : Nat) (data : List Byte) (bytes : Nat) :
    SameData (s.putLine a data bytes) (s.writeLine port a data bytes []) := by
  have hact : SameData s (s.activate a) := (SameData.refl s).activate
  have hws : (List.range 8).map (fun i => decodeWord false ((List.replicate 8 0).getD i 0) false) = cleanDecode := by decide
  have heq : s.writeLine port a data bytes [] =
      ((s.activate a).afterDecode port a cleanDecode false).putLine a data bytes := by
    simp only [State.writeLine, List.getD_nil, ite_self, List.map_const', List.length_range, hws, ueWords_cleanDecode,
      State.poisonWords_zero]
    rfl
  exact heq ▸ (hact.afterDecode_cleanDecode port a false).putLine a data bytes

theorem State.setPoison_poisoned (s : State) (w v : Nat) (b : Bool) :
    (s.setPoison w b).poisoned v = if v = w then b else s.poisoned v := by
  have hpch (n : Nat) : (s.setPoison w b).pch n = s.pch n := rfl
  rw [State.poisoned, hpch, State.setPoison, Tbl.get_set]
  split
  · subst v
    rw [Bool.xor_assoc, Bool.xor_self, Bool.xor_false]
  · rfl

/-- Only the poison of the words changes. -/
theorem State.clearPoison_eq (s : State) (a bytes : Nat) (words : List Nat) :
    ∃ p, s.clearPoison a bytes words = { s with sto.poison := p } := by
  unfold State.clearPoison
  induction words generalizing s with
  | nil => exact ⟨s.sto.poison, rfl⟩
  | cons i r ih =>
    dsimp only [State.each, List.foldl_cons] at ih ⊢
    split
    · exact ih (s.setPoison (a / 8 + i) false)
    · exact ih s

/-- A word enabled whole loses its poison, any other keeps what it had (R165). -/
theorem State.clearPoison_poisoned (s : State) (a bytes : Nat) (words : List Nat) (i : Nat) :
    (s.clearPoison a bytes words).poisoned (a / 8 + i) =
      if i ∈ words ∧ bitsOf bytes (8 * i) 8 = 255 then false else s.poisoned (a / 8 + i) := by
  induction words generalizing s with
  | nil => simp [State.clearPoison, State.each]
  | cons j r ih =>
    have hrest := ih (if bitsOf bytes (8 * j) 8 = 255 then s.setPoison (a / 8 + j) false else s)
    refine hrest.trans ?_
    by_cases hij : i = j
    · subst hij
      by_cases hfull : bitsOf bytes (8 * i) 8 = 255 <;> simp [hfull, State.setPoison_poisoned]
    · have hword : (if bitsOf bytes (8 * j) 8 = 255 then s.setPoison (a / 8 + j) false else s).poisoned (a / 8 + i) =
          s.poisoned (a / 8 + i) := by
        split
        · rw [State.setPoison_poisoned, if_neg (by omega)]
        · rfl
      simp only [hword, List.mem_cons, hij, false_or]

/-- Only the store's bytes change. -/
theorem State.mergeBytes_eq (s : State) (a : Nat) (data : List Byte) (bytes : Nat) (places : List Nat) :
    s.mergeBytes a data bytes places = { s with mem := (s.mergeBytes a data bytes places).mem } := by
  unfold State.mergeBytes
  induction places generalizing s with
  | nil => rfl
  | cons k r ih =>
    dsimp only [State.each, List.foldl_cons] at ih ⊢
    split
    · exact ih _
    · exact ih s

/-- An enabled byte of the line reads as written, any other byte as before (R165). -/
theorem State.mergeBytes_read (s : State) (a : Nat) (data : List Byte) (bytes : Nat) (places : List Nat) (x : Nat) :
    Memory.read (s.mergeBytes a data bytes places).mem x =
      if a ≤ x ∧ x - a ∈ places ∧ bytes.testBit (x - a) then data.getD (x - a) 0 else Memory.read s.mem x := by
  induction places generalizing s with
  | nil => simp [State.mergeBytes, State.each]
  | cons j r ih =>
    have hrest := ih (if bytes.testBit j then { s with mem := Memory.write s.mem (a + j) (data.getD j 0) } else s)
    refine hrest.trans ?_
    by_cases hxj : x = a + j
    · subst hxj
      by_cases hbit : bytes.testBit j = true <;> simp [hbit]
    · have hbyte : Memory.read (if bytes.testBit j then
            ({ s with mem := Memory.write s.mem (a + j) (data.getD j 0) } : State) else s).mem x = Memory.read s.mem x := by
        split
        · exact Memory.read_write_other _ _ _ _ hxj
        · rfl
      have hne : a ≤ x → x - a ≠ j := by omega
      have hmem : (a ≤ x ∧ x - a ∈ j :: r ∧ bytes.testBit (x - a)) ↔ (a ≤ x ∧ x - a ∈ r ∧ bytes.testBit (x - a)) := by
        simp only [List.mem_cons]
        exact and_congr_right fun hle => by simp [hne hle]
      simp only [hbyte, hmem]

/-- Only the store's bytes and the poison of its words change. -/
theorem State.putLine_frame (s : State) (a : Nat) (data : List Byte) (bytes : Nat) :
    ∃ m p, s.putLine a data bytes = { s with mem := m, sto.poison := p } := by
  obtain ⟨p, hp⟩ := s.clearPoison_eq a bytes (List.range 8)
  exact ⟨_, p, by rw [State.putLine, State.mergeBytes_eq, hp]⟩

theorem State.putLine_read (s : State) (a : Nat) (data : List Byte) (bytes x : Nat) :
    Memory.read (s.putLine a data bytes).mem x =
      if a ≤ x ∧ x - a < 64 ∧ bytes.testBit (x - a) then data.getD (x - a) 0 else Memory.read s.mem x := by
  obtain ⟨p, hp⟩ := s.clearPoison_eq a bytes (List.range 8)
  rw [State.putLine, State.mergeBytes_read, hp]
  simp only [List.mem_range]

theorem State.putLine_poisoned (s : State) (a : Nat) (data : List Byte) (bytes : Nat) {i : Nat} (hi : i < 8) :
    (s.putLine a data bytes).poisoned (a / 8 + i) =
      if bitsOf bytes (8 * i) 8 = 255 then false else s.poisoned (a / 8 + i) := by
  have hmerge : (s.putLine a data bytes).poisoned (a / 8 + i) = (s.clearPoison a bytes (List.range 8)).poisoned (a / 8 + i) := by
    rw [State.putLine, State.mergeBytes_eq]
    rfl
  rw [hmerge, State.clearPoison_poisoned]
  simp only [List.mem_range, hi, true_and]

/-! ## The store's writes (R163, R165) -/

theorem State.freshen_of_none {s : State} {a : Nat} (h : s.openLine a = none) : s.freshen a = s := by
  simp only [State.freshen, h]

/-- An invalidation tells the host, and no part of the state but that changes (R30). -/
theorem State.invalidate_eq (s : State) (a : Nat) : ∃ h l, s.invalidate a = { s with host := h, sent := l } := by
  unfold State.invalidate
  split
  · exact ⟨_, _, rfl⟩
  · exact ⟨s.host, s.sent, rfl⟩

/-- The state a write at a port finds: the host gives the line back first, but at its own port and at those of the device's own
accesses (R30). -/
def State.invalidated (s : State) (p a : Nat) : State := if p = 6 || 8 ≤ p then s else s.invalidate a

theorem State.invalidated_eq (s : State) (p a : Nat) : ∃ h l, s.invalidated p a = { s with host := h, sent := l } := by
  unfold State.invalidated
  split
  · exact ⟨s.host, s.sent, rfl⟩
  · exact s.invalidate_eq a

theorem SameData.invalidated {s t : State} (h : SameData s t) (p a : Nat) : SameData (s.invalidated p a) (t.invalidated p a) := by
  unfold State.invalidated
  split
  · exact h
  · exact h.invalidate a

/-- A write that is not refused, at a quiet controller, leaves the data of `putLine`. -/
theorem State.storeWrite_of_quiet {s : State} {p a : Nat} (d : BitVec 512) (b : BitVec 64) (w : Nat) (hcap : a < s.capBytes)
    (hmay : (if p = 6 then s.hostMayWrite a else s.portMayWrite p a) = true) (hquiet : s.Quiet (pcOf a))
    (hopen : s.openLine a = none) :
    SameData ((s.invalidated p a).putLine a (leBytes 64 d.toNat) b.toNat) (s.storeWrite p a d b [] w) := by
  set r := s.newReq p a w (.write d b [])
  set u := s.taken (pcOf a) r
  have htaken : SameData s u := State.taken_sameData hquiet r
  have hfresh : (u.invalidated p a).freshen a = u.invalidated p a := by
    obtain ⟨h, l, heq⟩ := u.invalidated_eq p a
    rw [heq]
    exact State.freshen_of_none hopen
  have hserve : u.serve r = (((u.invalidated p a).writeLine p a (leBytes 64 d.toNat) b.toNat []).completed r, []) := by
    rw [← hfresh]
    rfl
  have hpch : ((s.invalidated p a).putLine a (leBytes 64 d.toNat) b.toNat).pch (pcOf a) = s.pch (pcOf a) := by
    obtain ⟨h, l, hinv⟩ := s.invalidated_eq p a
    obtain ⟨m, q, hput⟩ := (s.invalidated p a).putLine_frame a (leBytes 64 d.toNat) b.toNat
    rw [hput, hinv]
    rfl
  exact State.request_served (r := r) hquiet (State.refusal_write_none d b [] hcap hmay)
    (State.refusal_write_none (s := u) d b [] hcap hmay) hserve
    (((htaken.invalidated p a).putLine a _ _).trans (State.writeLine_nil _ p a _ _)).completed hpch

/-- Settles O51: the write is served at once, and leaves the line as `putLine` does. -/
theorem storeWriteReads : Obligations.StoreWriteReads := by
  intro s p a d b w hc ha hon _ hcap hmay hqueue hheld hrel hopen
  have hdata := State.storeWrite_of_quiet d b w hcap hmay ⟨hqueue, hheld, hrel⟩ hopen
  obtain ⟨h, l, hinv⟩ := s.invalidated_eq p.val a
  rw [hinv] at hdata
  obtain ⟨m, q, hput⟩ := ({ s with host := h, sent := l } : State).putLine_frame a (leBytes 64 d.toNat) b.toNat
  have hc4 : (s.storeWrite p.val a d b [] w).flt.c4 = [] := by
    rw [hdata.c4, hput]
    exact hc
  refine ⟨s.storeWrite p.val a d b [] w, ?_, fun x hx => ?_, fun k hk => ?_, fun i hi hfull => ?_, fun i hi hpart => ?_⟩
  · rw [exec_storeWrite s p a d b [] w ha hon, State.settle_none _ hc4]
  · rw [hdata.mem, State.putLine_read, if_neg (by omega)]
  · rw [hdata.mem, State.putLine_read, Nat.add_sub_cancel_left]
    simp [hk, BitVec.getLsbD]
  · rw [hdata.poisoned, State.putLine_poisoned _ _ _ _ hi, if_pos hfull]
  · rw [hdata.poisoned, State.putLine_poisoned _ _ _ _ hi, if_neg hpart]
    rfl

/-! ## Lanes of a line (R178) -/

theorem testBit_bitsOf (v lo w j : Nat) : (bitsOf v lo w).testBit j = (decide (j < w) && v.testBit (lo + j)) := by
  rw [bitsOf, Nat.testBit_mod_two_pow, Nat.testBit_shiftRight]

/-- Replacing bits changes those and no others. -/
theorem testBit_putBits (v lo w x j : Nat) :
    (putBits v lo w x).testBit j = if lo ≤ j ∧ j < lo + w then x.testBit (j - lo) else v.testBit j := by
  have hlow : v % 2 ^ lo < 2 ^ lo := Nat.mod_lt _ (Nat.two_pow_pos lo)
  have hmid : 2 ^ lo * (x % 2 ^ w) + v % 2 ^ lo < 2 ^ (lo + w) := by
    have hx : x % 2 ^ w + 1 ≤ 2 ^ w := Nat.mod_lt _ (Nat.two_pow_pos w)
    have hmul := Nat.mul_le_mul_left (2 ^ lo) hx
    rw [Nat.mul_succ] at hmul
    rw [Nat.pow_add]
    omega
  have hsum : putBits v lo w x = 2 ^ (lo + w) * (v >>> (lo + w)) + (2 ^ lo * (x % 2 ^ w) + v % 2 ^ lo) := by
    rw [putBits]
    omega
  rw [hsum, Nat.testBit_two_pow_mul_add _ hmid, Nat.testBit_two_pow_mul_add _ hlow, Nat.testBit_shiftRight,
    Nat.testBit_mod_two_pow, Nat.testBit_mod_two_pow]
  by_cases h1 : j < lo
  · simp [h1, Nat.not_le.mpr h1, show j < lo + w by omega]
  · by_cases h2 : j < lo + w
    · simp [h1, h2, Nat.not_lt.mp h1, show j - lo < w by omega]
    · simp [h2, show lo + w + (j - (lo + w)) = j by omega]

theorem bitsOf_putBits_self (v lo w x : Nat) : bitsOf (putBits v lo w x) lo w = x % 2 ^ w := by
  refine Nat.eq_of_testBit_eq fun j => ?_
  rw [testBit_bitsOf, testBit_putBits, Nat.testBit_mod_two_pow]
  by_cases h : j < w <;> simp [h]

theorem bitsOf_putBits_other (v x : Nat) {lo w lo' w' : Nat} (h : lo' + w' ≤ lo ∨ lo + w ≤ lo') :
    bitsOf (putBits v lo w x) lo' w' = bitsOf v lo' w' := by
  refine Nat.eq_of_testBit_eq fun j => ?_
  rw [testBit_bitsOf, testBit_bitsOf, testBit_putBits]
  by_cases hj : j < w'
  · rw [if_neg (by omega)]
  · simp [hj]

theorem bitsOf_mod_two_pow (v : Nat) {lo w n : Nat} (h : lo + w ≤ n) : bitsOf (v % 2 ^ n) lo w = bitsOf v lo w := by
  refine Nat.eq_of_testBit_eq fun j => ?_
  rw [testBit_bitsOf, testBit_bitsOf, Nat.testBit_mod_two_pow]
  by_cases hj : j < w
  · simp [hj, show lo + j < n by omega]
  · simp [hj]

/-- Two lanes share no bit. -/
def LaneSlot.apart (l k : LaneSlot) : Prop := l.lo + l.w ≤ k.lo ∨ k.lo + k.w ≤ l.lo

theorem LaneSlot.apart_symm : Std.Symm LaneSlot.apart := ⟨fun _ _ => Or.symm⟩

/-- The lanes of each format share no bit and lie in the 512 bits of a line. -/
theorem lanesOf_apart (f : Fin 3) :
    (lanesOf f.val).Pairwise LaneSlot.apart ∧ ∀ l ∈ lanesOf f.val, l.lo + l.w ≤ 512 := by
  unfold LaneSlot.apart
  revert f
  decide

/-- An add leaves a lane apart from those that are added. -/
theorem bitsOf_foldl_sum_other {l : LaneSlot} {ls : List LaneSlot} (h : ∀ k ∈ ls, l.apart k) (v old op : Nat) :
    bitsOf (ls.foldl (fun v k => putBits v k.lo k.w (k.sum old op).1) v) l.lo l.w = bitsOf v l.lo l.w := by
  induction ls generalizing v with
  | nil => rfl
  | cons k r ih =>
    obtain ⟨hk, hr⟩ := List.forall_mem_cons.mp h
    exact (ih hr _).trans (bitsOf_putBits_other v _ hk)

/-- Each lane that is added holds its sum, no other lane having touched it. -/
theorem bitsOf_foldl_sum_self {l : LaneSlot} {ls : List LaneSlot} (hp : ls.Pairwise LaneSlot.apart) (h : l ∈ ls) (v old op : Nat) :
    bitsOf (ls.foldl (fun v k => putBits v k.lo k.w (k.sum old op).1) v) l.lo l.w = (l.sum old op).1 % 2 ^ l.w := by
  induction ls generalizing v with
  | nil => exact absurd h List.not_mem_nil
  | cons k r ih =>
    obtain ⟨hk, hr⟩ := List.pairwise_cons.mp hp
    rcases List.mem_cons.mp h with rfl | hl
    · exact (bitsOf_foldl_sum_other hk _ old op).trans (bitsOf_putBits_self v l.lo l.w _)
    · exact ih hr hl _

/-- The code of the signed sum is the sum of the codes, modulo 2 ^ w (R178). -/
theorem LaneSlot.sum_fst (l : LaneSlot) (x y : Nat) :
    (l.sum x y).1 = (bitsOf x l.lo l.w + bitsOf y l.lo l.w) % 2 ^ l.w := by
  have hcast : ((l.sum x y).1 : Int) = ((bitsOf x l.lo l.w + bitsOf y l.lo l.w : Nat) : Int) % 2 ^ l.w := by
    rw [LaneSlot.sum, ofSigned_cast, Int.add_emod, toSigned_emod, toSigned_emod, ← Int.add_emod, Nat.cast_add]
  exact_mod_cast hcast

/-- A lane overflows just when the exact signed sum lies outside its range (R178). -/
theorem LaneSlot.sum_snd (l : LaneSlot) (x y : Nat) : (l.sum x y).2 = true ↔
    ¬(-2 ^ (l.w - 1) ≤ toSigned l.w (bitsOf x l.lo l.w) + toSigned l.w (bitsOf y l.lo l.w) ∧
      toSigned l.w (bitsOf x l.lo l.w) + toSigned l.w (bitsOf y l.lo l.w) ≤ 2 ^ (l.w - 1) - 1) := by
  simp only [LaneSlot.sum, Bool.or_eq_true, decide_eq_true_eq, Nat.cast_pow, Nat.cast_ofNat]
  omega

/-- The lanes that an add to a clean line adds. -/
def enabledLanes (fmt mask : Nat) : List LaneSlot := (lanesOf fmt).filter (fun l => mask.testBit l.bit)

/-- An enabled lane holds its sum, any other what it held (R178). -/
theorem bitsOf_addLanes (f : Fin 3) (mask old op : Nat) {l : LaneSlot} (hl : l ∈ lanesOf f.val) :
    bitsOf (addLanes (enabledLanes f.val mask) old op) l.lo l.w =
      if mask.testBit l.bit then (bitsOf old l.lo l.w + bitsOf op l.lo l.w) % 2 ^ l.w else bitsOf old l.lo l.w := by
  have hapart := (lanesOf_apart f).1
  unfold addLanes enabledLanes
  split
  · rename_i hbit
    rw [bitsOf_foldl_sum_self (hapart.filter _) (List.mem_filter.mpr ⟨hl, hbit⟩), LaneSlot.sum_fst, Nat.mod_mod]
  · rename_i hbit
    refine bitsOf_foldl_sum_other (fun k hk => ?_) _ _ _
    obtain ⟨hkin, hkbit⟩ := List.mem_filter.mp hk
    have hsymm := LaneSlot.apart_symm
    exact hapart.forall hl hkin fun e => hbit (e ▸ hkbit)

/-! ## A value read back from the store -/

theorem leNat_leBytes (n v : Nat) : leNat (leBytes n v) = v % 2 ^ (8 * n) := by
  induction n generalizing v with
  | zero => exact (Nat.mod_one v).symm
  | succ n ih =>
    rw [leBytes, leNat, ih, Nat.mul_succ, Nat.add_comm (8 * n), Nat.pow_add, Nat.mod_mul, BitVec.toNat_ofNat]

theorem Memory.readBytes_writeBytes (m : Mem) (a : Nat) (l : List Byte) :
    Memory.readBytes (Memory.writeBytes m a l) a l.length = l := by
  induction l generalizing m a with
  | nil => rfl
  | cons b r ih =>
    rw [Memory.writeBytes, List.length_cons, Memory.readBytes, ih, Memory.read_writeBytes_other _ _ _ _ (Or.inl (Nat.lt_succ_self a)),
      Memory.read_write_self]

theorem Memory.readNat_writeNat (m : Mem) (a n v : Nat) : Memory.readNat (Memory.writeNat m a n v) a n = v % 2 ^ (8 * n) := by
  have hread := Memory.readBytes_writeBytes m a (leBytes n v)
  rw [Memory.length_leBytes] at hread
  rw [Memory.readNat, Memory.writeNat, hread, leNat_leBytes]

/-! ## Adds to a clean line (R163, R178) -/

/-- The data that an add to a clean line leaves, without the bookkeeping of its access. -/
def State.sumLine (s : State) (a fmt mask op : Nat) : State :=
  { s with mem := Memory.writeNat s.mem a 64 (addLanes (enabledLanes fmt mask) (Memory.readNat s.mem a 64) op) }

theorem SameData.sumLine {s t : State} (h : SameData s t) (a fmt mask op : Nat) :
    SameData (s.sumLine a fmt mask op) (t.sumLine a fmt mask op) := by
  unfold State.sumLine
  rw [h.mem]
  exact h.withMem _

theorem LaneSlot.hit_cleanDecode (l : LaneSlot) : l.hit (cleanDecode.map (fun w => w.psn)) = false := by
  have hpsn : ∀ i ∈ List.range 8, (cleanDecode.map (fun w => w.psn)).getD i false = false := by decide
  rw [LaneSlot.hit, List.any_eq_false]
  intro i hi
  rw [hpsn i hi]
  exact Bool.false_ne_true

theorem State.decodeLine_clean {s : State} {a : Nat} (h : ∀ i, i < 8 → s.poisoned (a / 8 + i) = false) :
    s.decodeLine a [] = cleanDecode := by
  have hword : ∀ i ∈ List.range 8, (⟨s.poisoned (a / 8 + i), false, false, s.poisoned (a / 8 + i)⟩ : WordDecode) =
      decodeWord false 0 false := fun i hi => by
    rw [h i (List.mem_range.mp hi)]
    rfl
  rw [State.decodeLine_nil, List.map_congr_left hword]
  rfl

/-- An add without bit errors to a line of no poison, in which no enabled lane overflows, leaves the data of `sumLine`. -/
theorem State.addLine_clean {s : State} {a fmt mask op : Nat} (port : Nat) (hclean : ∀ i, i < 8 → s.poisoned (a / 8 + i) = false)
    (hovf : ∀ l ∈ lanesOf fmt, mask.testBit l.bit = true → (l.sum (Memory.readNat s.mem a 64) op).2 = false) :
    SameData (s.sumLine a fmt mask op) (s.addLine port a fmt mask op []) := by
  have hact : SameData s (s.activate a) := (SameData.refl s).activate
  have hws : (s.activate a).decodeLine a [] = cleanDecode := State.decodeLine_clean fun i hi => (hact.poisoned _).trans (hclean i hi)
  have hdrew : (s.activate a).drewIf a [] = s.activate a := by simp [State.drewIf]
  have hafter := hact.afterDecode_cleanDecode port a true
  have hnone : (enabledLanes fmt mask).filter (fun l => (l.sum (Memory.readNat s.mem a 64) op).2) = [] :=
    List.filter_eq_nil_iff.mpr fun l hl => by
      obtain ⟨hin, hbit⟩ := List.mem_filter.mp hl
      exact Bool.eq_false_iff.mp (hovf l hin hbit)
  have heq : s.addLine port a fmt mask op [] = ((s.activate a).afterDecode port a cleanDecode true).sumLine a fmt mask op := by
    rw [enabledLanes] at hnone
    simp only [State.addLine, hdrew, hws, ueWords_cleanDecode, State.poisonWords_zero, LaneSlot.hit_cleanDecode, Bool.not_false,
      Bool.and_true, hafter.mem, hnone, State.each, List.foldl_nil, State.sumLine, enabledLanes]
  exact heq ▸ hafter.sumLine a fmt mask op

/-- An add that is not refused, to a clean line at a quiet controller, leaves the data of `sumLine`. -/
theorem State.storeAdd_of_quiet {s : State} {a : Nat} (p : Nat) (f : Fin 3) (m : BitVec 16) (d : BitVec 512)
    (hcap : a < s.capBytes) (hmay : s.addAllowed a = true) (hquiet : s.Quiet (pcOf a)) (hopen : s.openLine a = none)
    (hclean : ∀ i, i < 8 → s.poisoned (a / 8 + i) = false)
    (hovf : ∀ l ∈ lanesOf f.val, m.toNat.testBit l.bit = true → (l.sum (Memory.readNat s.mem a 64) d.toNat).2 = false) :
    SameData ((s.invalidate a).sumLine a f.val m.toNat d.toNat) (s.storeAdd p a f m d []) := by
  set r := s.newReq p a 0 (.add f.val m d [])
  set u := s.taken (pcOf a) r
  obtain ⟨h, l, hinv⟩ := s.invalidate_eq a
  have htaken : SameData s u := State.taken_sameData hquiet r
  have hback : SameData (s.invalidate a) (u.invalidate a) := htaken.invalidate a
  have hopen' : (u.invalidate a).openLine a = none := by
    obtain ⟨h', l', heq⟩ := u.invalidate_eq a
    rw [heq]
    exact hopen
  have hserve : u.serve r = (((u.invalidate a).addLine p a f.val m.toNat d.toNat []).completed r, []) := by
    have hadd : u.addAt p a f.val m.toNat d.toNat [] = (u.invalidate a).addLine p a f.val m.toNat d.toNat [] := by
      simp only [State.addAt, hopen']
    rw [← hadd]
    rfl
  have hsum : SameData ((u.invalidate a).sumLine a f.val m.toNat d.toNat)
      ((u.invalidate a).addLine p a f.val m.toNat d.toNat []) := by
    refine State.addLine_clean p (fun i hi => ?_) fun l hl hbit => ?_
    · rw [hback.poisoned, hinv]
      exact hclean i hi
    · rw [hback.mem, hinv]
      exact hovf l hl hbit
  have hpch : ((s.invalidate a).sumLine a f.val m.toNat d.toNat).pch (pcOf a) = s.pch (pcOf a) := by
    rw [hinv]
    rfl
  exact State.request_served (r := r) hquiet (State.refusal_add_none m d [] hcap hmay)
    (State.refusal_add_none (s := u) m d [] hcap hmay) hserve ((hback.sumLine a _ _ _).trans hsum).completed hpch

/-- Settles O54: the add is served at once, and leaves the line as `sumLine` does. -/
theorem atomicAdd : Obligations.AtomicAdd := by
  refine ⟨fun s p a f m d hc ha hon _ hcap hmay hopen hqueue hheld hrel hclean hovf => ?_,
    fun l x y _ => ⟨l.sum_fst x y, l.sum_snd x y⟩⟩
  have hdata := State.storeAdd_of_quiet p.val f m d hcap hmay ⟨hqueue, hheld, hrel⟩ hopen hclean hovf
  obtain ⟨h, l, hinv⟩ := s.invalidate_eq a
  rw [hinv] at hdata
  refine ⟨s.storeAdd p.val a f m d [], ?_, fun x hx => ?_, fun l hl => ?_⟩
  · rw [exec_atomicAdd s p a f m d [] ha hon, State.settle_none _ (hdata.c4.trans hc)]
  · rw [hdata.mem]
    exact Memory.read_writeNat_other _ _ _ _ _ hx
  · rw [hdata.mem, State.sumLine, Memory.readNat_writeNat, bitsOf_mod_two_pow _ ((lanesOf_apart f).2 l hl), bitsOf_addLanes _ _ _ _ hl]

end Sys2Proof.Machine
end

section
/-!
PROOFS. The end of a mover's descriptor (R195, R198 to R200): what house cycles leave alone, what the end of a descriptor leaves
alone, and the paced descriptor whose request does not come.
-/

namespace Sys2Proof.Machine

/-! ## House cycles that reach a new epoch group (R93, R95) -/

/-- From `s` to `t` house cycles have passed: at most the clock, the mapping offset, the bits of TIM_EVT, the outbox and the transmit
taps have changed. -/
structure RanOn (s t : State) : Prop where
  only : t = { s with clk := t.clk, regs := t.regs, outbox := t.outbox, ing := t.ing }
  fields : sameFields [TIM_EPS.VALUE, TIM_EVT.BITS] s t

theorem RanOn.refl (s : State) : RanOn s s := ⟨rfl, sameFields.refl _ s⟩

theorem RanOn.trans {a b c : State} (h : RanOn a b) (k : RanOn b c) : RanOn a c where
  only := by
    refine k.only.trans ?_
    rw [h.only]
  fields := h.fields.trans k.fields

theorem State.rawRun_ranOn (s : State) (n : Nat) : RanOn s (s.rawRun n) where
  only := by
    rw [s.rawRun_only n]
  fields := (s.sameFields_rawRun n).mono (by simp)

theorem State.commaSent_ranOn (s : State) : RanOn s s.commaSent := ⟨rfl, sameFields.refl _ s⟩

theorem State.commaSent_clk (s : State) : s.commaSent.clk = s.clk := rfl

theorem RanOn.setF {s t : State} (h : RanOn s t) {f : Fld} (v : Nat) (hf : f ∈ [TIM_EPS.VALUE, TIM_EVT.BITS]) :
    RanOn s (t.setF f v) := h.trans ⟨rfl, (sameFields.refl _ t).setF v hf⟩

/-- A changed epoch group rescales the accumulator, and its event entry keeps class C0. -/
theorem State.cross_ranOn (s : State) (im old : Image) : RanOn s (s.cross im old) := by
  unfold State.cross
  split
  · exact .refl s
  · have hacc (n : Nat) : RanOn s { s with clk.acc := n } := ⟨rfl, fun _ _ => rfl⟩
    have hlog {u : State} (hu : RanOn s u) (e : Ev) : RanOn s (u.logged e) := hu.trans ⟨rfl, fun _ _ => rfl⟩
    rw [State.emit, State.emitFor_zero]
    exact hlog (((hacc _).setF _ (by simp)).setF _ (by simp)) _

theorem State.cross_cycles (s : State) (im old : Image) : (s.cross im old).clk.cycles = s.clk.cycles := by
  unfold State.cross
  split
  · rfl
  · rw [State.emit, State.emitFor_zero]
    rfl

/-- Each epoch group on the way takes some of the cycles, and the last takes the rest. -/
theorem State.runCycles_ranOn_and_cycles (s : State) (n : Nat) :
    RanOn s (s.runCycles n) ∧ (s.runCycles n).clk.cycles = s.clk.cycles + n := by
  unfold State.runCycles
  dsimp only
  generalize hr : s.ahead.foldl _ (s, n) = r
  have hto : RanOn s r.1 ∧ r.1.clk.cycles + r.2 = s.clk.cycles + n := by
    subst hr
    refine List.foldlRecOn (motive := fun q : State × Nat => RanOn s q.1 ∧ q.1.clk.cycles + q.2 = s.clk.cycles + n) s.ahead _
      ⟨.refl s, rfl⟩ ?_
    rintro q ⟨hq, hcycles⟩ im -
    split
    · next hle =>
      refine ⟨(hq.trans (State.rawRun_ranOn ..)).trans (State.cross_ranOn ..), ?_⟩
      rw [State.cross_cycles, State.rawRun_cycles]
      omega
    · exact ⟨hq, hcycles⟩
  obtain ⟨hrun, hcycles⟩ := hto
  refine ⟨(hrun.trans (State.rawRun_ranOn ..)).trans (State.commaSent_ranOn _), ?_⟩
  rw [State.commaSent_clk, State.rawRun_cycles, hcycles]

theorem State.lapse_ranOn (s : State) (k : Timer) (n : Nat) : RanOn s (s.lapse k n) := by
  unfold State.lapse
  split
  · exact (s.runCycles_ranOn_and_cycles _).1
  · exact .refl s

theorem State.lapse_cycles {s : State} {k : Timer} {c : Nat} (h : s.timerOf k = some c) (n : Nat) :
    (s.lapse k n).clk.cycles = max s.clk.cycles (c + n) := by
  simp only [State.lapse, h, (s.runCycles_ranOn_and_cycles _).2]
  omega

section
variable {s t : State} (h : RanOn s t)
include h

theorem RanOn.getF {f : Fld} (hf : 0x300000 ≤ f.off) : t.getF f = s.getF f :=
  h.fields f (by simp only [List.map_cons, List.map_nil, List.mem_cons, List.not_mem_nil, or_false, Fld.key, TIM_EPS.VALUE,
    TIM_EVT.BITS]; omega)

theorem RanOn.mover (k : Nat) : t.mover k = s.mover k := by
  rw [h.only]
  rfl

theorem RanOn.pch (n : Nat) : t.pch n = s.pch n := by
  rw [h.only]
  rfl

theorem RanOn.flt : t.flt = s.flt := by
  rw [h.only]

theorem RanOn.iron : t.iron = s.iron := by
  rw [State.iron, State.flag, h.getF (by decide)]
  rfl

end

/-! ## What the end of a descriptor leaves alone (R195, R198, R200) -/

/-- The keys of the registers that the end of a descriptor of mover `m` can write: the store's (R182) and the mover's own (R204). -/
def endKey (m k : Nat) : Prop :=
  0x500000 * 64 ≤ k ∧ k < 0x600000 * 64 ∨ (0x610000 + 0x40 * m) * 64 ≤ k ∧ k < (0x610000 + 0x40 * (m + 1)) * 64

/-- From `s` to `t` mover `m` has gone on with the end of its descriptor: the clock, the script, the fault collector, every other
mover and every register but the store's and its own are as before, and so is a code of its that is an error. -/
structure Beside (m : Nat) (s t : State) : Prop where
  clk : t.clk = s.clk
  scr : t.scr = s.scr
  flt : t.flt = s.flt
  others : ∀ k, k ≠ m → t.mover k = s.mover k
  code : 1 < (s.mover m).code → (t.mover m).code = (s.mover m).code
  stopRings : (t.mover m).stopRings = (s.mover m).stopRings
  fields : ∀ f : Fld, ¬ endKey m f.key → t.getF f = s.getF f

section
variable {m : Nat} {s t : State}

theorem State.setMover_mover_other (s : State) (m : Nat) (x : Mover) {k : Nat} (hk : k ≠ m) :
    (s.setMover m x).mover k = s.mover k := by
  rw [State.mover, State.setMover, Tbl.get_set_other _ _ _ _ _ hk]
  rfl

theorem Beside.refl (m : Nat) (s : State) : Beside m s s := ⟨rfl, rfl, rfl, fun _ _ => rfl, fun _ => rfl, rfl, fun _ _ => rfl⟩

theorem Beside.trans {u : State} (h : Beside m s t) (k : Beside m t u) : Beside m s u where
  clk := k.clk.trans h.clk
  scr := k.scr.trans h.scr
  flt := k.flt.trans h.flt
  others j hj := (k.others j hj).trans (h.others j hj)
  code hc := (k.code ((h.code hc).symm ▸ hc)).trans (h.code hc)
  stopRings := k.stopRings.trans h.stopRings
  fields f hf := (k.fields f hf).trans (h.fields f hf)

/-- The collector's registers lie beyond those that are written. -/
theorem Beside.flag_flt (h : Beside m s t) (hm : m < 64) {f : Fld} (hf : 0xD00000 ≤ f.off) : t.flag f = s.flag f := by
  rw [State.flag, h.fields f (by simp only [endKey, Fld.key]; omega)]
  rfl

theorem Beside.iron (h : Beside m s t) (hm : m < 64) : t.iron = s.iron := h.flag_flt hm (by decide)

theorem Beside.promoted (h : Beside m s t) (hm : m < 64) (src cls : Nat) : t.promoted src cls = s.promoted src cls := by
  have hepoch : t.epoch = s.epoch := by
    rw [State.epoch, State.flag, h.fields TIM_STATUS.EPOCH (by simp only [endKey, Fld.key, TIM_STATUS.EPOCH]; omega)]
    rfl
  exact SameTime.promoted ⟨hepoch, h.clk, h.scr⟩ (h.flag_flt hm (by decide)) src cls

variable (h : Beside m s t)
include h

theorem Beside.parts {u : State} (hregs : u.regs = t.regs) (hmov : u.mov = t.mov) (hclk : u.clk = t.clk) (hscr : u.scr = t.scr)
    (hflt : u.flt = t.flt) : Beside m s u := by
  have hmover (k : Nat) : u.mover k = t.mover k := by rw [State.mover, State.mover, hmov]
  refine h.trans ⟨hclk, hscr, hflt, fun k _ => hmover k, fun _ => congrArg _ (hmover m), congrArg _ (hmover m), fun f _ => ?_⟩
  rw [State.getF, State.getF, hregs]

theorem Beside.setF {f : Fld} (v : Nat) (hf : endKey m f.key) : Beside m s (t.setF f v) :=
  h.trans ⟨rfl, rfl, rfl, fun _ _ => rfl, fun _ => rfl, rfl, fun g hg => t.getF_setF_other f g v fun e => hg (e ▸ hf)⟩

theorem Beside.incF {f : Fld} (n : Nat) (hf : endKey m f.key) : Beside m s (t.incF f n) := h.setF _ hf

theorem Beside.addF {f : Fld} (n : Nat) (hf : endKey m f.key) : Beside m s (t.addF f n) := h.setF _ hf

theorem Beside.setMover {x : Mover} (hr : x.stopRings = (s.mover m).stopRings)
    (hc : 1 < (s.mover m).code → x.code = (s.mover m).code) : Beside m s (t.setMover m x) where
  clk := h.clk
  scr := h.scr
  flt := h.flt
  others k hk := (t.setMover_mover_other m x hk).trans (h.others k hk)
  code hx := by rw [State.setMover_mover, hc hx]
  stopRings := by rw [State.setMover_mover, hr]
  fields := h.fields

theorem Beside.each {α : Type} {f : State → α → State} (hf : ∀ u a, Beside m s u → Beside m s (f u a)) (l : List α) :
    Beside m s (t.each l f) := by
  induction l generalizing t with
  | nil => exact h
  | cons a r ih => exact ih (hf t a h)

/-- An event entry that is not promoted to class 4 is only put in the outbox. -/
theorem Beside.emitFor (hm : m < 64) {src cls : Nat} (hp : s.promoted src cls < 4) (subs : List Nat) (code d0 d1 : Nat) :
    Beside m s (t.emitFor subs src code d0 d1 cls) := by
  rw [State.emitFor_of_lt_four _ _ _ _ _ _ _ ((h.promoted hm src cls).trans_lt hp)]
  exact h.parts rfl rfl rfl rfl rfl

theorem Beside.deny (hm : m < 64) (hp : ∀ k, s.promoted k 1 < 4) (port a : Nat) : Beside m s (t.deny port a) :=
  (h.incF 1 (by simp only [endKey, Fld.key, STO_DENY.COUNT]; omega)).emitFor hm (hp _) _ _ _ _

end

/-! ## A write to the store (R165, R176) -/

theorem State.drive_listenersOnly (s : State) (p : Nat) (lev : Bool) : listenersOnly s (s.drive p lev) := by
  unfold State.drive State.driveEdge
  split
  · exact .refl s
  · have hlevel : listenersOnly s { s with cue.prodLevel := Tbl.set s.cue.prodLevel false p lev } := rfl
    exact hlevel.trans (listenersOnly.foldl (fun u c => u.pushEdgeWith_listenersOnly ..) _ _)

theorem pcOf_lt (a : Nat) : pcOf a < 256 := Nat.mod_lt _ (by decide)

/-- Without bit errors nothing is counted or reported. -/
theorem State.afterDecode_cleanDecode (s : State) (port a : Nat) (r : Bool) : s.afterDecode port a cleanDecode r = s := by
  have hce : (cleanDecode.filter (fun w => w.ce)).length = 0 := by decide
  have hpat : cleanDecode.any (fun w => w.pat) = false := by decide
  simp [State.afterDecode, State.corrected, State.each, hce, hpat, ueWords_cleanDecode]

/-- A write without bit errors opens the row and puts the bytes in the line. -/
theorem State.writeLine_nil_eq (s : State) (port a : Nat) (data : List Byte) (bytes : Nat) :
    s.writeLine port a data bytes [] = (s.activate a).putLine a data bytes := by
  have hws : (List.range 8).map (fun i => decodeWord false ((List.replicate 8 0).getD i 0) false) = cleanDecode := by decide
  simp only [State.writeLine, List.getD_nil, ite_self, List.map_const', List.length_range, hws, ueWords_cleanDecode,
    State.poisonWords_zero, State.afterDecode_cleanDecode]
  rfl

section
variable {m : Nat} {s t : State} (h : Beside m s t)
include h

theorem Beside.listeners {u : State} (hu : listenersOnly t u) : Beside m s u := by
  rw [hu]
  exact h.parts rfl rfl rfl rfl rfl

theorem Beside.drive (p : Nat) (lev : Bool) : Beside m s (t.drive p lev) := h.listeners (t.drive_listenersOnly p lev)

theorem Beside.setPch (n : Nat) (p : PChan) : Beside m s (t.setPch n p) := h.parts rfl rfl rfl rfl rfl

theorem Beside.retrain {n : Nat} (hn : n < 256) : Beside m s (t.retrain n) := by
  unfold State.retrain
  split
  · exact h
  · refine Beside.drive (((h.setPch _ _).setF 1 ?_).addF 1 ?_) _ _ <;>
      simp only [endKey, Fld.key, Fld.plus, STO_PC_STAT.TRAINING, STO_STATUS.TRAINING] <;> omega

theorem Beside.leaveSr {n : Nat} (hn : n < 256) : Beside m s (t.leaveSr n) := by
  have hmap : endKey m (STO_SR.MAP (n / 64)).key := by simp only [endKey, Fld.key, Fld.plus, STO_SR.MAP]; omega
  have hstate : endKey m (STO_PC_STAT.STATE n).key := by simp only [endKey, Fld.key, Fld.plus, STO_PC_STAT.STATE]; omega
  have hall : endKey m STO_STATUS.ALL_SR.key := by simp only [endKey, Fld.key, STO_STATUS.ALL_SR]; omega
  unfold State.leaveSr
  split
  · have hleft (v : Nat) (p : PChan) := (((h.setF v hmap).setF 1 hstate).setPch n p).setF 0 hall
    dsimp only
    split
    · exact (hleft _ _).retrain hn
    · exact hleft _ _
  · exact h

theorem Beside.activate (a : Nat) : Beside m s (t.activate a) := (h.leaveSr (pcOf_lt a)).setPch _ _

/-- A mover's write that meets no relocation. -/
theorem Beside.agentWrite (hquiet : ∀ n, (t.pch n).relocating = false) (port a : Nat) (data : List Byte) (bytes : Nat) :
    Beside m s (t.agentWrite port a data bytes) := by
  have hline {u : State} (hu : Beside m s u) : Beside m s (u.writeLine port a data bytes []) := by
    obtain ⟨d, p, hput⟩ := (u.activate a).putLine_frame a data bytes
    rw [State.writeLine_nil_eq, hput]
    exact (hu.activate a).parts rfl rfl rfl rfl rfl
  have hwait : t.awaitLine a = t := by simp [State.awaitLine, hquiet]
  unfold State.agentWrite
  split
  · exact h
  · rw [hwait]
    refine hline ?_
    split
    · exact h
    · obtain ⟨x, l, hinv⟩ := t.invalidate_eq a
      rw [hinv]
      exact h.parts rfl rfl rfl rfl rfl

theorem Beside.hostPut (a : Nat) (b : List Byte) : Beside m s (t.hostPut a b) := by
  unfold State.hostPut
  split
  · exact h
  · exact h.parts rfl rfl rfl rfl rfl

end

/-! ## A descriptor ends (R195, R198) -/

section
variable {m : Nat} {s : State}

/-- The registers of mover `m` that the end of a descriptor writes. -/
theorem endKey_own (m : Nat) : endKey m (MOV_M_STATE.STATE m).key ∧ endKey m (MOV_M_STATE.PACE_WAIT m).key ∧
    endKey m (MOV_M_STATE.LAST_CODE m).key ∧ endKey m (MOV_M_BYTES.COUNT m).key ∧ endKey m (MOV_M_RETRY.COUNT m).key := by
  simp only [endKey, Fld.key, Fld.plus, MOV_M_STATE.STATE, MOV_M_STATE.PACE_WAIT, MOV_M_STATE.LAST_CODE, MOV_M_BYTES.COUNT,
    MOV_M_RETRY.COUNT]
  omega

theorem key_ne_state (m : Nat) : (MOV_M_STATE.LAST_CODE m).key ≠ (MOV_M_STATE.STATE m).key ∧
    (MOV_M_STATE.PACE_WAIT m).key ≠ (MOV_M_STATE.STATE m).key := by
  simp only [Fld.key, Fld.plus, MOV_M_STATE.STATE, MOV_M_STATE.PACE_WAIT, MOV_M_STATE.LAST_CODE]
  omega

/-- STATUS goes to host memory or to the store, or the store refuses it. -/
theorem State.movWriteback_beside (hm : m < 64) (hp : ∀ k, s.promoted k 1 < 4)
    (hquiet : s.movAddr m / 2 ^ 62 = 1 ∨ ∀ n, (s.pch n).relocating = false) : Beside m s (s.movWriteback m).1 := by
  obtain ⟨-, -, -, hbytes, -⟩ := endKey_own m
  have hs := Beside.refl m s
  unfold State.movWriteback
  dsimp only
  split
  · exact hs
  · split
    · exact (hs.hostPut _ _).addF 8 hbytes
    · next hstore =>
      split
      · exact (hs.agentWrite (hquiet.resolve_left hstore) _ _ _ _).addF 8 hbytes
      · exact hs.deny hm hp _ _

theorem State.movRefused_beside (hm : m < 64) (hp : ∀ k, s.promoted k 1 < 4) : Beside m s (s.movRefused m) := by
  obtain ⟨-, -, -, -, hretry⟩ := endKey_own m
  have hdenied := (Beside.refl m s).each (fun u (_ : Nat) hu => hu.deny hm hp 7 (u.movAddr m % 2 ^ 38)) (List.range (s.movRetry m))
  unfold State.movRefused
  dsimp only
  refine (hdenied.incF _ hretry).setMover rfl fun hc => ?_
  exact if_neg (by omega : ¬ (s.mover m).code ≤ 1)

/-- STATUS of the descriptor in progress has been written back, or refused. -/
def State.statusOut (s : State) (m : Nat) : State :=
  if (s.movWriteback m).2 then (s.movWriteback m).1 else (s.movWriteback m).1.movRefused m

theorem State.statusOut_beside (hm : m < 64) (hp : ∀ k, s.promoted k 1 < 4)
    (hquiet : s.movAddr m / 2 ^ 62 = 1 ∨ ∀ n, (s.pch n).relocating = false) : Beside m s (s.statusOut m) := by
  have hback := State.movWriteback_beside hm hp hquiet
  unfold State.statusOut
  split
  · exact hback
  · exact hback.trans (State.movRefused_beside hm fun k => (hback.promoted hm k 1).trans_lt (hp k))

/-- The registers show how the descriptor ended. -/
def State.showEnd (s : State) (m : Nat) : State :=
  (s.setF (MOV_M_STATE.LAST_CODE m) (s.mover m).code).setF (MOV_M_STATE.PACE_WAIT m) 0

theorem State.movEnd_eq (s : State) (m : Nat) : ∃ l, (s.movEnd m).1 = { (s.statusOut m).showEnd m with outbox := l } := by
  change ∃ l, (if ((s.statusOut m).mover m).bits 4 1 = 1 then State.emitFor ((s.statusOut m).showEnd m) _ _ _ _ _ 0
    else (s.statusOut m).showEnd m) = _
  split
  · rw [State.emitFor_zero]
    exact ⟨_, rfl⟩
  · exact ⟨_, rfl⟩

theorem State.showEnd_lastCode (s : State) (m : Nat) : (s.showEnd m).getF (MOV_M_STATE.LAST_CODE m) = (s.mover m).code % 2 ^ 8 := by
  have hne : (MOV_M_STATE.LAST_CODE m).key ≠ (MOV_M_STATE.PACE_WAIT m).key := by
    simp only [Fld.key, Fld.plus, MOV_M_STATE.PACE_WAIT, MOV_M_STATE.LAST_CODE]
    omega
  rw [State.showEnd, State.getF_setF_other _ _ _ _ hne]
  exact State.getF_setF_self _ _ _ (by decide : 8 ≤ 64)

theorem State.showEnd_paceWait (s : State) (m : Nat) : (s.showEnd m).getF (MOV_M_STATE.PACE_WAIT m) = 0 :=
  State.getF_setF_self _ _ _ (by decide : 1 ≤ 64)

theorem State.movEnd_lastCode (s : State) (m : Nat) :
    (s.movEnd m).1.getF (MOV_M_STATE.LAST_CODE m) = ((s.movEnd m).1.mover m).code % 2 ^ 8 := by
  obtain ⟨l, hl⟩ := s.movEnd_eq m
  rw [hl]
  exact (s.statusOut m).showEnd_lastCode m

theorem State.movEnd_paceWait (s : State) (m : Nat) : (s.movEnd m).1.getF (MOV_M_STATE.PACE_WAIT m) = 0 := by
  obtain ⟨l, hl⟩ := s.movEnd_eq m
  rw [hl]
  exact (s.statusOut m).showEnd_paceWait m

theorem State.movEnd_beside (hm : m < 64) (hp : ∀ k, s.promoted k 1 < 4)
    (hquiet : s.movAddr m / 2 ^ 62 = 1 ∨ ∀ n, (s.pch n).relocating = false) : Beside m s (s.movEnd m).1 := by
  obtain ⟨-, hwait, hlast, -, -⟩ := endKey_own m
  obtain ⟨l, hl⟩ := s.movEnd_eq m
  rw [hl]
  exact (((State.statusOut_beside hm hp hquiet).setF _ hlast).setF 0 hwait).parts rfl rfl rfl rfl rfl

theorem State.movStopped_of_none (h : (s.mover m).stopRings = []) :
    s.movStopped m = s.setMover m { s.mover m with stopRings := [] } := by
  simp only [State.movStopped, h, State.each, List.foldl_nil]

theorem State.ironSleep_of_not_iron (h : s.iron = false) : s.ironSleep = s := by
  simp [State.ironSleep, h]

/-- Mover `m` stands HALTED, and event `e` has reported it. -/
def State.haltShown (s : State) (m : Nat) (e : Ev) : State :=
  (((s.setF (MOV_M_STATE.STATE m) 3).logged e).pulse 106).setMover m { s.mover m with work := false }

theorem State.haltShown_beside (s : State) (m : Nat) (e : Ev) : Beside m s (s.haltShown m e) := by
  obtain ⟨hstate, -⟩ := endKey_own m
  have hlog : Beside m s ((s.setF (MOV_M_STATE.STATE m) 3).logged e) :=
    ((Beside.refl m s).setF 3 hstate).parts rfl rfl rfl rfl rfl
  exact (hlog.listeners (State.pulse_listenersOnly _ 106)).setMover rfl fun _ => rfl

theorem State.haltShown_fields (s : State) (m : Nat) (e : Ev) (f : Fld) :
    (s.haltShown m e).getF f = (s.setF (MOV_M_STATE.STATE m) 3).getF f := by
  have hregs : (s.haltShown m e).regs = (s.setF (MOV_M_STATE.STATE m) 3).regs :=
    (State.pulse_listenersOnly ((s.setF (MOV_M_STATE.STATE m) 3).logged e) 106).same.1
  rw [State.getF, State.getF, hregs]

/-- From `s` to `t` mover `m` halts: of its registers STATE alone is written. -/
structure Halts (m : Nat) (s t : State) : Prop where
  beside : Beside m s t
  fields : sameFields [MOV_M_STATE.STATE m] s t
  state : t.movState m = 3
  work : (t.mover m).work = false

/-- Outside iron, with no MOV_STOP that waits and its fault not promoted to class 4, a mover that halts does nothing else. -/
theorem State.movHalt_halts (hm : m < 64) (hiron : s.iron = false) (hp : s.promoted (movSrc m) 1 < 4)
    (hstop : (s.mover m).stopRings = []) : Halts m s (s.movHalt m) := by
  obtain ⟨hstate, -⟩ := endKey_own m
  have hclass := (((Beside.refl m s).setF 3 hstate).promoted hm (movSrc m) 1).trans_lt hp
  unfold State.movHalt
  dsimp only
  rw [State.emitFor_of_lt_four _ _ _ _ _ _ _ hclass]
  generalize Ev.mk .. = e
  change Halts m s ((s.haltShown m e).movStopped m).ironSleep
  have hshown := s.haltShown_beside m e
  have hbeside : Beside m s ((s.haltShown m e).setMover m { (s.haltShown m e).mover m with stopRings := [] }) :=
    hshown.setMover hstop.symm hshown.code
  rw [State.movStopped_of_none (hshown.stopRings.trans hstop), State.ironSleep_of_not_iron ((hbeside.iron hm).trans hiron)]
  refine ⟨hbeside, fun f hf => ?_, ?_, ?_⟩
  · exact (s.haltShown_fields m e f).trans (s.getF_setF_other _ _ _ (by simpa using hf))
  · exact (s.haltShown_fields m e _).trans (State.getF_setF_self _ _ _ (by decide : 2 ≤ 64))
  · rw [State.setMover_mover, State.haltShown, State.setMover_mover]

end

/-! ## A descriptor fails (R198, R199) -/

/-- From `s` to `t` mover `m` has halted on its descriptor with a code; the clock, the fault collector, every other mover and every
register but the store's and its own are as before. -/
structure HaltsWith (code m : Nat) (s t : State) : Prop where
  state : t.movState m = 3
  lastCode : t.getF (MOV_M_STATE.LAST_CODE m) = code
  paceWait : t.getF (MOV_M_STATE.PACE_WAIT m) = 0
  code : (t.mover m).code = code
  work : (t.mover m).work = false
  clk : t.clk = s.clk
  flt : t.flt = s.flt
  others : ∀ k, k ≠ m → t.mover k = s.mover k
  fields : ∀ f : Fld, ¬ endKey m f.key → t.getF f = s.getF f

/-- The descriptor in progress of mover `m` has come to a code. -/
def State.withCode (s : State) (m code : Nat) : State := s.setMover m { s.mover m with code := code }

theorem State.withCode_mover (s : State) (m code : Nat) : (s.withCode m code).mover m = { s.mover m with code := code } :=
  s.setMover_mover m _

/-- STATUS is written back with the code, or refused, and the mover halts. -/
theorem State.movFail_haltsWith {s : State} {m code : Nat} (hcode : 1 < code) (hlt : code < 2 ^ 8) (hm : m < 64)
    (hiron : s.iron = false) (hp : ∀ k, s.promoted k 1 < 4) (hstop : (s.mover m).stopRings = [])
    (hquiet : s.movAddr m / 2 ^ 62 = 1 ∨ ∀ n, (s.pch n).relocating = false) : HaltsWith code m s (s.movFail m code) := by
  have hcoded := s.withCode_mover m code
  have hend : Beside m (s.withCode m code) ((s.withCode m code).movEnd m).1 := State.movEnd_beside hm hp hquiet
  have hendCode : (((s.withCode m code).movEnd m).1.mover m).code = code := (hend.code (by rwa [hcoded])).trans (congrArg _ hcoded)
  have hendStop : (((s.withCode m code).movEnd m).1.mover m).stopRings = [] := (hend.stopRings.trans (congrArg _ hcoded)).trans hstop
  have hhalt : Halts m ((s.withCode m code).movEnd m).1 (s.movFail m code) :=
    State.movHalt_halts hm ((hend.iron hm).trans hiron) ((hend.promoted hm _ _).trans_lt (hp _)) hendStop
  obtain ⟨hlastKey, hwaitKey⟩ := key_ne_state m
  exact {
    state := hhalt.state
    lastCode := by
      rw [hhalt.fields _ (by simpa using hlastKey), State.movEnd_lastCode, hendCode, Nat.mod_eq_of_lt hlt]
    paceWait := by
      rw [hhalt.fields _ (by simpa using hwaitKey), State.movEnd_paceWait]
    code := (hhalt.beside.code (by rwa [hendCode])).trans hendCode
    work := hhalt.work
    clk := hhalt.beside.clk.trans hend.clk
    flt := hhalt.beside.flt.trans hend.flt
    others := fun k hk =>
      ((hhalt.beside.others k hk).trans (hend.others k hk)).trans (s.setMover_mover_other m _ hk)
    fields := fun f hf => (hhalt.beside.fields f hf).trans (hend.fields f hf) }

theorem endKey_other {m k : Nat} (hk : k < 64) (hne : k ≠ m) : ¬ endKey m (MOV_M_STATE.STATE k).key := by
  simp only [endKey, Fld.key, Fld.plus, MOV_M_STATE.STATE]
  omega

/-! ## The request that does not come (R199) -/

section
variable (s : State) (m : Fin 64)

theorem exec_paceTimeout {us : Nat} (hwait : s.flag (MOV_M_STATE.PACE_WAIT m.val) = true) (hiron : s.iron = false)
    (hus : us = (s.movImage m.val).el Scr.MOV_PACE_TO (m.val - 32) % 2 ^ 32) (hne : us ≠ 0) :
    exec (.paceTimeout m) s = .next ((s.lapse (.pace m.val) (usCycles * us)).movFail m.val 4).settle := by
  have hdue : (s.flag (MOV_M_STATE.PACE_WAIT m.val) &&
      (s.iron || (s.movImage m.val).el Scr.MOV_PACE_TO (m.val - 32) % 2 ^ 32 != 0)) = true := by
    rw [hwait, hiron, ← hus, bne_iff_ne.mpr hne]
    rfl
  rw [exec, execPaceTimeout, done_whenever _ _ _ hdue, hiron, ← hus]
  rfl

/-- In iron the descriptor ends at once (R322). -/
theorem exec_paceTimeout_iron (hwait : s.flag (MOV_M_STATE.PACE_WAIT m.val) = true) (hiron : s.iron = true) :
    exec (.paceTimeout m) s = .next (s.movFail m.val 4).settle := by
  rw [exec, execPaceTimeout, done_whenever _ _ _ (by rw [hwait, hiron]; rfl), hiron]
  rfl

/-- A MOV_PACE_TO of 0 disables the timeout. -/
theorem exec_paceTimeout_disabled (hiron : s.iron = false)
    (hus : (s.movImage m.val).el Scr.MOV_PACE_TO (m.val - 32) % 2 ^ 32 = 0) : exec (.paceTimeout m) s = .next s.settle := by
  rw [exec, execPaceTimeout, State.whenever_neg _ _ _ (by rw [hiron, hus]; simp), done]

end

/-- Settles O56: the clock runs to the due cycle, which touches nothing of a mover's, and the descriptor fails with code 4. -/
theorem paceTimeoutHalts : Obligations.PaceTimeoutHalts := by
  intro s m us hc4 hiron hwait hus
  refine ⟨fun hne hstop hquiet hp => ?late, fun h0 => ?disabled⟩
  case disabled =>
    rw [exec_paceTimeout_disabled s m hiron (hus ▸ h0), State.settle_none _ hc4]
  case late =>
    have hran := s.lapse_ranOn (.pace m.val) (250 * us)
    have haddr : (s.lapse (.pace m.val) (250 * us)).movAddr m.val = s.movAddr m.val := hran.getF (Nat.le_add_right_of_le (by decide))
    have hhalt := State.movFail_haltsWith (s := s.lapse (.pace m.val) (250 * us)) (code := 4) (by decide) (by decide) m.isLt
      (hran.iron.trans hiron) hp (by rw [hran.mover, hstop]) (by simpa only [haddr, hran.pch] using hquiet)
    refine ⟨_, ?_, hhalt.state, hhalt.lastCode, hhalt.paceWait, hhalt.code, hhalt.work, fun c hc => ?_, fun k hk => ?_,
      fun k hlt hk => ?_⟩
    · rw [exec_paceTimeout s m hwait hiron hus hne, usCycles, State.settle_none _ (by rw [hhalt.flt, hran.flt, hc4])]
    · rw [hhalt.clk, State.lapse_cycles hc]
    · rw [hhalt.others k hk, hran.mover]
    · exact (hhalt.fields _ (endKey_other hlt hk)).trans (hran.getF (Nat.le_add_right_of_le (by decide)))

end Sys2Proof.Machine
end

section
/-!
PROOFS. The commands of the movers (R186 to R201, R322): the condition of each, and what it answers.
-/

namespace Sys2Proof.Machine

/-! ## Lines, markers and replay reads (R186, R189) -/

section
variable (s : State)

theorem exec_streamBurst (m : Fin 32) (w : Bool) (f : Nat) {u : State} {l : Nat} (hu : u = s.purgeUnbound) (hreset : s.inReset 1 = false)
    (hl : u.nextLine m.val = some l) : exec (.streamBurst m w f) s = .next (u.streamServe m.val l w f).settle := by
  subst hu
  refine (done_whenever s.purgeUnbound _ _ (by rw [hreset]; rfl)).trans ?_
  rw [hl]

theorem exec_flushMarkerPass_cluster (l : Fin 528) {c : Nat} {n : Int} {rest : List Int} (hpit : l.val < 512) (hc : c = l.val / 4)
    (hdone : (s.cluster c).nullDone = n :: rest)
    (hgone : (s.cluster c).outQ.any (fun v => decide (s.dwellOf v.six ≤ n) && s.outRoute (4 * c + v.stream) v.six != 2) = false) :
    exec (.flushMarkerPass l) s = .next ((s.setCluster c { s.cluster c with nullDone := rest }).passMarker n c).settle := by
  subst hc
  simp only [exec, execFlushMarkerPass, if_pos hpit, hdone, hgone, Bool.false_eq_true, if_false, done]

theorem exec_flushMarkerPass_port (l : Fin 528) {p : Nat} {n : Int} (hport : 512 ≤ l.val) (heven : l.val % 2 = 0)
    (hp : p = (l.val - 512) / 2) (howed : oldest (s.owedByPort p) = some n)
    (hgone : s.fab.rxq.any (fun e => e.1 == p && decide (s.dwellOf e.2.six ≤ n)) = false) :
    exec (.flushMarkerPass l) s = .next (s.passMarker n (128 + p)).settle := by
  subst hp
  have hodd : ¬ l.val % 2 = 1 := by omega
  simp only [exec, execFlushMarkerPass, if_neg (Nat.not_lt.mpr hport), if_neg hodd, howed, hgone, Bool.false_eq_true, if_false, done]

theorem exec_replayReadTimeout {g a b c p : Nat} {n : Int}
    (hpage : s.seq.pages.find? (fun e => e.2 == g) = some ((n, a, b, c), p)) (hreplay : s.seq.replay = some n)
    (hlate : s.seq.lateReads.contains p = false) : exec (.replayReadTimeout g) s = .next (s.readLate n p).settle := by
  have hgo : ¬ (decide (s.seq.replay ≠ some n) || s.seq.lateReads.contains p) = true := by
    rw [hreplay, hlate]
    simp
  simp only [exec, execReplayReadTimeout, hpage, if_neg hgo, done]

end

/-! ## Descriptors (R192 to R201) -/

section
variable (s : State)

/-- A descriptor whose bursts all succeed has done its work. -/
theorem State.movRun_done {m : Nat} {d : List Byte} {f w : List Nat} {l : List DescBurst} {q : DescRun}
    (hq : q = (burstsLeft (s.mover m).done l).foldl (DescRun.step m f w) ⟨s.setF (MOV_M_STATE.PACE_WAIT m) 0, d, 0, 0⟩)
    (hstop : q.stop = 0) : s.movRun m d f w l = q.s.setMover m { q.s.mover m with work := true } := by
  subst hq
  simp only [State.movRun, hstop, Nat.zero_ne_one, (by decide : (0 : Nat) ≠ 2), if_false]

variable (m : Fin 64)

/-- A FENCE with every write acknowledged, none of them refused, runs as a descriptor without bursts. -/
theorem exec_fence (hworks : s.movWorks m.val 5 = true) (hwaits : (s.mover m.val).peerWaits = [])
    (hrefused : (s.mover m.val).peerRefused = false) :
    exec (.fence m) s = .next (s.movRun m.val [] [] [] []).settle := by
  refine (done_whenever s _ _ (by rw [hworks, hwaits]; rfl)).trans ?_
  rw [if_neg (Bool.not_eq_true _ ▸ hrefused)]

theorem exec_descriptorComplete (d : BitVec 512) (hstate : s.movState m.val = 1 ∨ s.movState m.val = 2)
    (hwork : (s.mover m.val).work = true) : exec (.descriptorComplete m d) s = .next (s.movComplete m.val d).settle :=
  done_whenever s _ _ (by simpa [hwork] using hstate)

theorem exec_ironMoverCut (hiron : s.iron = true) (hstate : s.movState m.val = 1 ∨ s.movState m.val = 2) :
    exec (.ironMoverCut m) s =
      .next ((s.runCycles (s.flt.ironAt.getD 0 + 100 * msCycles - s.clk.cycles)).movFail m.val 6).settle :=
  done_whenever s _ _ (by simpa [hiron] using hstate)

theorem isCmdMover_of_range {k : Nat} (hlo : 32 ≤ k) (hhi : k < 60) : isCmdMover k = true := by
  rw [isCmdMover, decide_eq_true hlo, decide_eq_true hhi, Bool.and_self]

variable (r : Fin 262144) {e : Exec} {k : Nat}

theorem exec_movRun {d : BitVec 512} {h : Nat} (hserves : s.serves r.val 0x20 e) (hk : k = e.arg 64 6) (hlo : 32 ≤ k) (hhi : k < 60)
    (hpage : s.movPageOk e k = true) (hiron : s.iron = false) (h1 : s.movState k ≠ 1) (h2 : s.movState k ≠ 2)
    (hhead : e.arg 192 1 = 1 ∧ h = s.movAddr k ∨ e.arg 192 1 ≠ 1 ∧ h = e.arg 128 64 ∧ descAddrOk h = true) :
    exec (.movRun r d) s = .next (((s.setF (MOV_M_STATE.STATE k) 1).finish r.val e stOk).movGo k h d).settle := by
  subst hk
  dsimp only [exec, execMovRun]
  rw [withCmd_serves hserves]
  have hcmd := isCmdMover_of_range hlo hhi
  rcases hhead with ⟨hresume, rfl⟩ | ⟨hnew, rfl, hok⟩
  · simp [hpage, hiron, hcmd, h1, h2, hresume]
  · simp [hpage, hiron, hcmd, h1, h2, hnew, hok]

theorem exec_movStop_idle (hserves : s.serves r.val 0x21 e) (hk : k = e.arg 64 6) (hlo : 32 ≤ k) (hhi : k < 60)
    (hpage : s.movPageOk e k = true) (hstate : s.movState k = 0 ∨ s.movState k = 3) :
    exec (.movStop r) s = .next (s.complete r.val e stOk (s.movAddr k) 0).settle := by
  subst hk
  dsimp only [exec, execMovStop]
  rw [withCmd_serves hserves]
  simp [hpage, isCmdMover_of_range hlo hhi, hstate]

theorem exec_movStop_running (hserves : s.serves r.val 0x21 e) (hk : k = e.arg 64 6) (hlo : 32 ≤ k) (hhi : k < 60)
    (hpage : s.movPageOk e k = true) (hstate : s.movState k = 1) (hnew : (s.mover k).stopRings.contains r.val = false) :
    exec (.movStop r) s = .next ((s.setMover k { s.mover k with stopRings := (s.mover k).stopRings ++ [r.val] }).setF
        (MOV_M_STATE.STATE k) 2).settle := by
  subst hk
  dsimp only [exec, execMovStop]
  rw [withCmd_serves hserves]
  simp only [hpage, isCmdMover_of_range hlo hhi, hstate, hnew, Bool.not_true, Bool.false_eq_true, if_false]
  rfl

end

/-- Settles O15: each command meets its condition; those that move data run their descriptor's bursts to the end. -/
theorem moversComplete : Obligations.MoversComplete := by
  intro s
  refine ⟨fun m w f u l => exec_streamBurst s m w f, fun l c n rest => exec_flushMarkerPass_cluster s l,
    fun l p n => exec_flushMarkerPass_port s l, fun g n a b c p => exec_replayReadTimeout s, ?descriptor,
    exec_descriptorComplete s, fun m k => exec_paceTimeout s m, exec_paceTimeout_iron s, exec_ironMoverCut s,
    fun r d e m h => exec_movRun s r, fun r e m => exec_movStop_idle s r, fun r e m => exec_movStop_running s r⟩
  case descriptor =>
    intro m d f w i l q hkind hq hstop
    rw [← s.movRun_done hq hstop]
    rcases hkind with ⟨hworks, rfl, rfl, rfl, rfl, rfl⟩ | ⟨hworks, rfl, rfl⟩ | ⟨hworks, rfl, rfl, rfl⟩ | ⟨hworks, rfl, rfl⟩ |
      ⟨hworks, rfl, rfl⟩ | ⟨hworks, rfl, hwaits, hrefused, rfl, rfl, rfl, rfl⟩
    exacts [done_whenever s _ _ hworks, done_whenever s _ _ hworks, done_whenever s _ _ hworks, done_whenever s _ _ hworks,
      done_whenever s _ _ hworks, exec_fence s m hworks hwaits hrefused]

end Sys2Proof.Machine
end

section
/-!
PROOFS. The correlation stage's modular accumulation (R213, R214): one term's wrap is paid back by the tally's carry, so the pair
keeps the exact sum over any list of terms.
-/

namespace Sys2Proof.Machine

/-- A field `f` with its tally `t` gives the sum `x`: the field is a signed `w`-bit value, and the sum is exact but in SAT (R214). -/
structure FieldExact (w : Nat) (f t x : Int) : Prop where
  lower : -2 ^ (w - 1) ≤ f
  upper : f < 2 ^ (w - 1)
  exact : t ≠ 4 → x = f + t * 2 ^ w

/-- A slot gives the sum of the terms of both components, and of their weights. -/
structure CellSlot.Exact (w : Nat) (c : CellSlot) (x : Int × Int) (v : Nat) : Prop where
  re : FieldExact w c.re c.tre x.1
  im : FieldExact w c.im c.tim x.2
  wt : c.wt = v

/-- A term is within range: it lies below half the modulus in magnitude (R213). -/
def TermInRange (w : Nat) (p : Int × Int) : Prop := |p.1| < 2 ^ (w - 1) ∧ |p.2| < 2 ^ (w - 1)

section
variable {w : Nat} {f t x p : Int}

theorem two_pow_eq_two_mul_half (hw : 1 ≤ w) : (2 : Int) ^ w = 2 * 2 ^ (w - 1) :=
  (mul_pow_sub_one (by omega) 2).symm

/-- SAT is sticky: a tally that does not stand at SAT after an update did not before, and has taken up the carry (R213). -/
theorem tally_of_ne_sat {c : Int} (h : (if t = 4 then 4 else if 3 < t + c || t + c < -3 then 4 else t + c) ≠ 4) :
    t ≠ 4 ∧ (if t = 4 then 4 else if 3 < t + c || t + c < -3 then 4 else t + c) = t + c := by
  have hsat : t ≠ 4 := fun ht => h (if_pos ht)
  rw [if_neg hsat] at h ⊢
  exact ⟨hsat, if_neg fun hout => h (if_pos hout)⟩

/-- What one update does: it wraps the field back into its range by a carry, which the tally takes up unless it stands at, or
reaches, SAT. -/
theorem wrapAdd_cases (hw : 1 ≤ w) (hlo : -2 ^ (w - 1) ≤ f) (hhi : f < 2 ^ (w - 1)) (hp : |p| < 2 ^ (w - 1)) :
    ∃ c, (wrapAdd w f t p).1 + c * 2 ^ w = f + p ∧
      -2 ^ (w - 1) ≤ (wrapAdd w f t p).1 ∧ (wrapAdd w f t p).1 < 2 ^ (w - 1) ∧
      ((wrapAdd w f t p).2 ≠ 4 → t ≠ 4 ∧ (wrapAdd w f t p).2 = t + c) := by
  obtain ⟨hplo, hphi⟩ := abs_lt.mp hp
  simp only [wrapAdd, two_pow_eq_two_mul_half hw, Nat.cast_pow, Nat.cast_ofNat]
  generalize (2 : Int) ^ (w - 1) = half at *
  by_cases hover : half - 1 < f + p
  · rw [if_pos hover]
    exact ⟨1, by omega, by omega, by omega, tally_of_ne_sat⟩
  rw [if_neg hover]
  by_cases hunder : f + p < -half
  · rw [if_pos hunder]
    exact ⟨-1, by omega, by omega, by omega, tally_of_ne_sat⟩
  · rw [if_neg hunder]
    exact ⟨0, by omega, by omega, by omega, tally_of_ne_sat⟩

theorem FieldExact.wrapAdd (hw : 1 ≤ w) (h : FieldExact w f t x) (hp : |p| < 2 ^ (w - 1)) :
    FieldExact w (wrapAdd w f t p).1 (wrapAdd w f t p).2 (x + p) := by
  obtain ⟨c, hsum, hlo, hhi, htally⟩ := wrapAdd_cases (t := t) hw h.lower h.upper hp
  refine ⟨hlo, hhi, fun hsat => ?_⟩
  obtain ⟨hsat, ht⟩ := htally hsat
  rw [h.exact hsat, ht]
  linear_combination -hsum

/-- A lone term is its own field, with an empty tally. -/
theorem FieldExact.ofTerm (hp : |p| < 2 ^ (w - 1)) : FieldExact w p 0 p :=
  ⟨(abs_lt.mp hp).1.le, (abs_lt.mp hp).2, fun _ => by simp⟩

end

section
variable {w v u : Nat} {c : CellSlot} {x p : Int × Int}

theorem CellSlot.exact_step_head (hp : TermInRange w p) : (c.step w true p v).Exact w p v :=
  ⟨.ofTerm hp.1, .ofTerm hp.2, rfl⟩

theorem CellSlot.Exact.step (hw : 1 ≤ w) (h : c.Exact w x u) (hp : TermInRange w p) :
    (c.step w false p v).Exact w (x.1 + p.1, x.2 + p.2) (u + v) :=
  ⟨h.re.wrapAdd hw hp.1, h.im.wrapAdd hw hp.2, congrArg (· + v) h.wt⟩

/-- Every list of terms, in the order given, keeps the slot exact. -/
theorem CellSlot.Exact.foldl_step (hw : 1 ≤ w) (l : List ((Int × Int) × Nat)) (hl : ∀ p ∈ l, TermInRange w p.1)
    (h : c.Exact w x u) :
    (l.foldl (fun c p => c.step w false p.1 p.2) c).Exact w
      (x.1 + (l.map (fun p => p.1.1)).sum, x.2 + (l.map (fun p => p.1.2)).sum) (u + (l.map (fun p => p.2)).sum) := by
  induction l generalizing c x u with
  | nil => simpa using h
  | cons p l ih =>
    obtain ⟨hp, hrest⟩ := List.forall_mem_cons.mp hl
    simpa [add_assoc] using ih hrest (h.step (v := p.2) hw hp)

end

/-- Settles O57: the HEAD update leaves the slot exact, and each further term, by its carry, keeps it so. -/
theorem tallyExact : Obligations.TallyExact := by
  rintro w c d h v l hw hrange rfl hre him
  obtain ⟨hhead, hterms⟩ := List.forall_mem_cons.mp hrange
  obtain ⟨re, im, wt⟩ := CellSlot.Exact.foldl_step hw l hterms (CellSlot.exact_step_head (c := c) (v := v) hhead)
  exact ⟨re.exact hre, im.exact him, re.lower, re.upper, im.lower, im.upper, wt⟩

end Sys2Proof.Machine
end

section
/-!
PROOFS. Products (R254, R260 to R262, R267 to R273): integration numbers under one anchor, and the conditions under which the products'
commands are carried out.
-/

namespace Sys2Proof.Machine

/-! ## Integration numbers (R254) -/

section
variable {s : State} {k i : Int} {L : Nat} (h : s.prd.anchors = [(k, i, L)])
include h

theorem State.anchorOf_of_lone (n : Int) : s.anchorOf n = (k, i, L) := by
  rw [State.anchorOf, h, List.reverse_singleton]
  by_cases hn : k ≤ n <;> simp [List.find?, hn]

theorem State.integ_of_lone (n : Int) : s.integ n = i + (n - k) / L := by
  rw [State.integ, s.anchorOf_of_lone h, fdiv, Int.fdiv_eq_ediv_of_nonneg _ (Int.natCast_nonneg L)]

theorem State.firstDwell_of_lone (n : Int) : s.firstDwell n = k + (n - k) / L * L := by
  rw [State.firstDwell, s.anchorOf_of_lone h, fdiv, Int.fdiv_eq_ediv_of_nonneg _ (Int.natCast_nonneg L)]

/-- No later anchor cuts the integration short. -/
theorem State.lastDwell_of_lone (n : Int) : s.lastDwell n = k + (n - k) / L * L + L - 1 := by
  have hlater : s.prd.anchors.find? (fun b => decide ((s.anchorOf n).1 < b.1)) = none := by
    simp [h, s.anchorOf_of_lone h]
  rw [State.lastDwell, hlater, s.firstDwell_of_lone h, s.anchorOf_of_lone h]

end

/-- The step from one dwell to the next, in multiples `q` of `L` and remainders: the quotient rises where the remainder returns
to 0. -/
theorem ediv_succ_cases {L : Int} (hL : 1 ≤ L) (m : Int) :
    (m + 1) / L = m / L ∧ (m + 1) % L = m % L + 1 ∨ (m + 1) / L = m / L + 1 ∧ (m + 1) % L = 0 := by
  have hpos : 0 < L := hL
  have hm := Int.emod_add_mul_ediv m L
  have hlo := Int.emod_nonneg m hpos.ne'
  have hhi := Int.emod_lt_of_pos m hpos
  by_cases htop : m % L + 1 = L
  · right
    have hsum : m + 1 = L * (m / L + 1) := by linear_combination htop - hm
    exact ⟨by rw [hsum, Int.mul_ediv_cancel_left _ hpos.ne'], by rw [hsum, Int.mul_emod_right]⟩
  · left
    have hsum : m + 1 = m % L + 1 + L * (m / L) := by linear_combination -hm
    have hlt : m % L + 1 < L := by omega
    have hge : 0 ≤ m % L + 1 := by omega
    constructor
    · rw [hsum, Int.add_mul_ediv_left _ _ hpos.ne', Int.ediv_eq_zero_of_lt hge hlt, zero_add]
    · rw [hsum, Int.add_mul_emod_self_left, Int.emod_eq_of_lt hge hlt]

/-- Settles O55: the dwells of an integration are those with one quotient by L, and the first of them has remainder 0. -/
theorem integrationNumbers : Obligations.IntegrationNumbers := by
  intro s k i L n ha hL
  have hpos : (0 : Int) < L := by exact_mod_cast hL
  have hdiv (m : Int) := Int.emod_add_mul_ediv m L
  have hlo := Int.emod_nonneg (n - k) hpos.ne'
  have hhi := Int.emod_lt_of_pos (n - k) hpos
  have hstep := ediv_succ_cases (Int.add_one_le_of_lt hpos) (n - k)
  have hnext : n + 1 - k = n - k + 1 := by ring
  have hfirst (m : Int) : k + (m - k) / L * L = m ↔ (m - k) % L = 0 := by
    constructor <;> intro h <;> linarith [hdiv (m - k)]
  simp only [State.integ_of_lone ha, State.firstDwell_of_lone ha, State.lastDwell_of_lone ha, hfirst, hnext, true_and]
  refine ⟨?grows, ?first, by linarith [hdiv (n - k)], by linarith [hdiv (n - k)], ?atFirst, ?atLast⟩
  case grows => omega
  case first =>
    rw [← hnext, hfirst, hnext]
    omega
  case atFirst => rw [add_sub_cancel_left, Int.mul_ediv_cancel _ hpos.ne']
  case atLast =>
    have hlast : k + (n - k) / L * L + L - 1 - k = L - 1 + (n - k) / L * L := by ring
    rw [hlast, Int.add_mul_ediv_right _ _ hpos.ne', Int.ediv_eq_zero_of_lt (by omega) (by omega), zero_add]

/-! ## Commands (R260, R262, R267 to R273) -/

section
variable {s : State}

theorem exec_integrationTimeout {b : Fin 2} (hopen : s.getF (bankStateF b.val) = 1) (hclosed : s.bankLast b.val ≤ s.seq.closed)
    (hiron : s.iron = false) : exec (.integrationTimeout b) s = .next ((s.afterClose (s.bankLast b.val)
      ((s.governing (s.bankLast b.val)).val Scr.PRD_CLOSE_TO)).startClose b.val 1).settle :=
  done_whenever s _ _ (by rw [decide_eq_true hopen, decide_eq_true hclosed, hiron]; rfl)

theorem exec_bufAnnounce {j : Fin 512} {n : Int}
    (hready : oldest ((s.nullsTaken (j.val / 4)).filter (fun n => s.bufReady j.val n)) = some n) :
    exec (.bufAnnounce j) s = .next (s.bufNotice j.val n).settle := by
  simp only [exec, execBufAnnounce, hready, done]

variable {r : Fin 262144} {e : Exec}

/-- A page that is not ADMIN speaks for its own subarray alone. -/
theorem Exec.owner_of {sub : Nat} (h : e.admin = true ∨ e.sub = sub) : (!e.admin && e.sub != sub) = false := by
  simpa [or_iff_not_imp_left] using h

theorem exec_prdQuery {b : Nat} (hserves : s.serves r.val 0x70 e) (hb : b = e.arg 64 1)
    (howner : e.admin = true ∨ e.sub = s.bankOwner b) :
    exec (.prdQuery r) s = .next (s.complete r.val e stOk (s.getF (bankStateF b) + 4 * s.getF (bankGenF b) +
      8 * b2n (s.bank b).closing + 2 ^ 16 * s.getF (bankDwellsF b) + 2 ^ 32 * (s.getF (bankIntegF b) % 2 ^ 32)) 0).settle := by
  subst hb
  dsimp only [exec, execPrdQuery]
  rw [withCmd_serves hserves, if_neg (Bool.not_eq_true _ ▸ Exec.owner_of howner)]

theorem exec_prdFree {im : Image} {x : Nat} (hserves : s.serves r.val 0x71 e) (hx : s.frameAt (e.arg 64 64) = some (im, x))
    (howner : e.admin = true ∨ e.sub = im.poolSub) (hheld : s.frameHeld x = true) :
    exec (.prdFree r) s = .next (((s.freeFrame x).retryAdds).complete r.val e stOk 0 0).settle := by
  dsimp only [exec, execPrdFree]
  rw [withCmd_serves hserves]
  simp only [hx, Exec.owner_of howner, hheld, Bool.false_eq_true, if_false, if_true]

end

/-- Settles O17: each command meets its condition. -/
theorem productCommandsComplete : Obligations.ProductCommandsComplete := by
  intro s
  exact ⟨fun b => exec_integrationTimeout, fun b hb => done_whenever s _ _ hb, fun x hx => done_whenever s _ _ hx,
    fun j n => exec_bufAnnounce, fun r e b => exec_prdQuery, fun r e im x => exec_prdFree⟩

end Sys2Proof.Machine
end

section
/-!
PROOFS. The fabric (R276 to R290): the credit unit that a port sends, and the conditions under which the fabric's commands are carried
out.
-/

namespace Sys2Proof.Machine

/-! ## The header of a credit unit (R119, R277, R279) -/

/-- A step of a CRC stays within its width. -/
theorem crcStep_lt {w poly : Nat} (hpoly : poly < 2 ^ w) (reg : Nat) (b : Bool) : crcStep w poly reg b < 2 ^ w := by
  have hshift : 2 * reg % 2 ^ w < 2 ^ w := Nat.mod_lt _ (Nat.two_pow_pos w)
  unfold crcStep
  dsimp only
  split
  · exact Nat.xor_lt_two_pow hshift hpoly
  · exact hshift

theorem crcBytes_lt {w poly init : Nat} (hpoly : poly < 2 ^ w) (hinit : init < 2 ^ w) (m : List Byte) :
    crcBytes w poly init m < 2 ^ w :=
  List.foldlRecOn (motive := (· < 2 ^ w)) m _ hinit fun _ hr _ _ =>
    List.foldlRecOn (motive := (· < 2 ^ w)) (List.range 8) _ hr fun _ _ _ _ => crcStep_lt hpoly _ _

theorem hcrcOf_lt (h : Nat) : hcrcOf h < 2 ^ 16 := crcBytes_lt (by decide) (by decide) _

section
variable (h : Nat)

theorem sealed_toNat : (sealed h).toNat = h % 2 ^ 240 + 2 ^ 240 * hcrcOf (h % 2 ^ 240) := by
  have hcrc := hcrcOf_lt (h % 2 ^ 240)
  rw [sealed, BitVec.toNat_ofNat]
  omega

/-- Sealing leaves the first 30 bytes of a header alone. -/
theorem hdr_sealed {lo w : Nat} (hw : lo + w ≤ 240) (hh : h < 2 ^ 240) : hdr (sealed h) lo w = bitsOf h lo w := by
  rw [hdr, ← bitsOf_mod_two_pow _ hw, sealed_toNat, Nat.add_mul_mod_self_left, Nat.mod_mod, Nat.mod_eq_of_lt hh]

/-- A sealed header's HCRC is that of its first 30 bytes. -/
theorem hdr_sealed_hcrc : hdr (sealed h) 240 16 = hcrcOf ((sealed h).toNat % 2 ^ 240) := by
  have hcrc := hcrcOf_lt (h % 2 ^ 240)
  rw [hdr, sealed_toNat, Nat.add_mul_mod_self_left, Nat.mod_mod, bitsOf, Nat.shiftRight_eq_div_pow]
  omega

end

/-- The units of a pool that the next credit unit returns. -/
def State.creditInc (s : State) (p q : Nat) : Nat := min 255 (Tbl.get s.fab.freed 0 (poolKey p q))

/-- The first 30 bytes of the credit unit that a port sends. -/
def State.creditHead (s : State) (p : Nat) : Nat :=
  (List.range 6).foldl (fun v q => v + 2 ^ (16 + 8 * q) * s.creditInc p q) (1 + 16 * 0xE) + 2 ^ 64 * s.getF (FAB_P_STATUS.DROP_REQ p)

/-- The units still owed once a credit unit has left. -/
def State.creditOwed (s : State) (p : Nat) : Tbl Nat :=
  (List.range 6).foldl (fun t q => Tbl.set t 0 (poolKey p q) (Tbl.get t 0 (poolKey p q) - s.creditInc p q)) s.fab.freed

theorem State.creditOut_eq (s : State) (p : Nat) : s.creditOut p =
    { s with fab.freed := s.creditOwed p, sent := s.sent ++ [.packet p (sealed (s.creditHead p)) []] } := rfl

section
variable (s : State) (p : Nat)

theorem State.creditInc_le (q : Nat) : s.creditInc p q ≤ 255 := Nat.min_le_left _ _

/-- The class, one byte per pool, and DROP_REQ. -/
theorem State.creditHead_eq : s.creditHead p = 225 + 2 ^ 16 * s.creditInc p 0 + 2 ^ 24 * s.creditInc p 1 +
    2 ^ 32 * s.creditInc p 2 + 2 ^ 40 * s.creditInc p 3 + 2 ^ 48 * s.creditInc p 4 + 2 ^ 56 * s.creditInc p 5 +
    2 ^ 64 * s.getF (FAB_P_STATUS.DROP_REQ p) := rfl

variable (hdrop : s.getF (FAB_P_STATUS.DROP_REQ p) < 16)
include hdrop

theorem State.creditHead_fields : s.creditHead p < 2 ^ 240 ∧ bitsOf (s.creditHead p) 4 4 = 0xE ∧
    bitsOf (s.creditHead p) 64 4 = s.getF (FAB_P_STATUS.DROP_REQ p) ∧
    ∀ q < 6, bitsOf (s.creditHead p) (16 + 8 * q) 8 = s.creditInc p q := by
  have h0 := s.creditInc_le p 0
  have h1 := s.creditInc_le p 1
  have h2 := s.creditInc_le p 2
  have h3 := s.creditInc_le p 3
  have h4 := s.creditInc_le p 4
  have h5 := s.creditInc_le p 5
  rw [s.creditHead_eq]
  simp only [bitsOf, Nat.shiftRight_eq_div_pow]
  refine ⟨by omega, by omega, by omega, fun q hq => ?_⟩
  interval_cases q <;> omega

end

/-- Every pool of the port owes less by what was returned. -/
theorem State.get_creditOwed (s : State) (p : Nat) {q : Nat} (hq : q < 6) :
    Tbl.get (s.creditOwed p) 0 (poolKey p q) = Tbl.get s.fab.freed 0 (poolKey p q) - s.creditInc p q := by
  have hkey : ∀ a b, poolKey p a = poolKey p b ↔ a = b := fun a b => by simp [poolKey]
  simp only [State.creditOwed, List.range_succ, List.range_zero, List.nil_append, List.cons_append, List.foldl_cons, List.foldl_nil,
    Tbl.get_set, hkey]
  interval_cases q <;> simp

/-- Settles O58: the header that is sealed has the class, the increments and DROP_REQ in their places. -/
theorem creditUnitSent : Obligations.CreditUnitSent := by
  intro s p hc hup hdrop
  obtain ⟨hlt, hclass, hreq, hinc⟩ := s.creditHead_fields p.val hdrop
  have hexec : exec (.creditSend p) s = .next (s.creditOut p.val) := by
    rw [← State.settle_none (s.creditOut p.val) hc]
    exact done_whenever s _ _ hup
  rw [s.creditOut_eq] at hexec
  refine ⟨_, _, hexec, rfl, ?_, fun q hq => ?_, ?_, hdr_sealed_hcrc _, rfl⟩
  · rw [hdr_sealed _ (by decide) hlt, hclass]
  · rw [hdr_sealed _ (by omega) hlt, hinc q hq]
    exact ⟨rfl, s.get_creditOwed p.val hq⟩
  · rw [hdr_sealed _ (by decide) hlt, hreq]

/-! ## Commands (R278 to R288, R329) -/

section
variable {s u v : State} {p : Fin 8} {h : BitVec 256} {pay : List Byte}

/-- An INPUT packet in the port's window, neither late nor early, waits on the receive line. -/
theorem exec_fabricInput {six g win : Nat} {n : Int} (hop : hdr h 8 4 = 0) (harrive : s.fabArrive p.val false h pay 3 0 = (u, true))
    (hsix : six = u.packetSix h) (hn : n = u.dwellOf six) (hg : g = hdr h 140 7)
    (hclaim : u.claimCheck p.val (hdr h 32 11) n (4 * g) = (v, true)) (hwin : win = (v.governing n).el Scr.FAB_IN_WIN p.val)
    (hlo : bitsOf win 0 7 ≤ g) (hhi : g < bitsOf win 0 7 + bitsOf win 7 8) (hlate : v.isLate six = false)
    (hearly : v.isEarly six = false) : exec (.fabricInput p false h pay) s =
      .next ({ v with fab.rxq := v.fab.rxq ++ [(p.val, inputVect h six pay)] } : State).settle := by
  subst hsix hn hg hwin
  have htaken : u.inputTaken p.val h pay = { v with fab.rxq := v.fab.rxq ++ [(p.val, inputVect h (u.packetSix h) pay)] } := by
    simp only [State.inputTaken, hclaim, hop, hlate, hearly, Nat.not_lt.mpr hlo, Nat.not_le.mpr hhi, decide_false, ne_eq,
      not_true_eq_false, Bool.or_self, Bool.false_eq_true, if_false]
  simp only [exec, execFabricInput, hop, Nat.zero_le, if_true, harrive, htaken, done]

theorem exec_fabricAdd (harrive : s.fabArrive p.val false h pay 4 0 = (u, true))
    (hclaim : u.claimCheck p.val (hdr h 32 11) (u.addDwell h) (4 * addTarget h + 1) = (v, true)) :
    exec (.fabricAdd p false h pay) s = .next (v.deliverAdd p.val h pay).settle := by
  simp only [exec, execFabricAdd, harrive, hclaim, done]

theorem exec_endMark (harrive : s.fabArrive p.val false h [] 4 1 = (u, true))
    (hclaim : u.claimCheck p.val (hdr h 32 11) (u.addDwell h) (4 * addTarget h + 1) = (v, true)) :
    exec (.endMark p false h) s = .next (v.deliverMark p.val h).settle := by
  simp only [exec, execEndMark, harrive, hclaim, done]

theorem exec_fabricWrite (harrive : s.fabArrive p.val false h pay 5 0 = (u, true))
    (hclaim : u.claimCheck p.val (hdr h 32 11) u.houseDwell 2 = (v, true)) :
    exec (.fabricWrite p false h pay) s = .next ((v.peerWrite h pay).release p.val h).settle := by
  simp only [exec, execFabricWrite, harrive, hclaim, done]

theorem exec_writeAck {m w : Nat} (harrive : s.fabArrive p.val false h [] 5 1 = (u, true))
    (hwait : (u.release p.val h).peerWait (hdr h 32 11 * 256 + hdr h 142 8) = some (m, w)) (hok : hdr h 136 6 = 0) :
    exec (.writeAck p false h) s = .next ((u.release p.val h).peerDone m w).settle := by
  simp only [exec, execWriteAck, harrive, hwait, hok, if_true, done]

theorem exec_writeAckTimeout {m : Fin 64} {q : BitVec 8} {w : Nat}
    (hwait : (s.mover m.val).peerWaits.find? (fun w => w % 256 == q.toNat) = some w) : exec (.writeAckTimeout m q) s =
      .next (((s.lapse (.peer m.val w) (usCycles * s.sv Scr.FAB_ACK_TO)).peerDone m.val w).peerFailed m.val w 2).settle := by
  simp only [exec, execWriteAckTimeout, hwait, done]

theorem exec_beacon {body : BitVec 256} (htake : s.fabTake p.val false h 6 0 = (u, true)) :
    exec (.beacon p false h body) s = .next ((u.release p.val h).beaconTaken p.val h).settle := by
  simp only [exec, execBeacon, htake, done]

theorem exec_beaconSend (hup : s.fabUp p.val = true) (hiron : s.iron = false) (hpower : s.getF PWR_STATUS.STATE ≠ 3) :
    exec (.beaconSend p) s = .next (s.sendBeacon p.val).settle :=
  done_whenever s _ _ (by rw [hup, hiron, bne_iff_ne.mpr hpower]; rfl)

theorem exec_claimForget {k : Fin 2048} {e r : Nat} {n : Int} (hheard : Tbl.get s.fab.claims none k.val = some (e, r, n))
    (hold : n + 2 ≤ s.houseDwell) : exec (.claimForget k) s =
      .next ({ s with fab.claims := Tbl.set s.fab.claims none k.val none } : State).settle := by
  simp only [exec, execClaimForget, hheard, if_pos hold, done]

theorem exec_fabricTransmit {q : Nat} {e : Nat × Nat × BitVec 256 × List Byte} (hup : s.fabUp p.val = true)
    (hcred : s.flag (FAB_P_STATUS.CRED_OK p.val) = true) (hpool : s.nextPool p.val = some q) (hfirst : s.queued p.val q = some e) :
    exec (.fabricTransmit p) s = .next (s.packetOut p.val q e).settle := by
  refine (done_whenever s _ _ (by rw [hup, hcred]; rfl)).trans ?_
  rw [hpool]
  dsimp only
  rw [hfirst]

theorem exec_creditUnit (hup : s.fabUp p.val = true) (hcrc : hcrcOf (h.toNat % 2 ^ 240) = hdr h 240 16) (hclass : hdr h 4 4 = 0xE) :
    exec (.creditUnit p false h) s = .next (s.creditIn p.val h).settle := by
  simp only [exec, execCreditUnit, hup, hcrc, hclass, Bool.not_true, Bool.false_eq_true, ne_eq, not_true_eq_false, if_false, done]

end

/-- Settles O18: each packet and each command of the port meets its condition. -/
theorem fabricCommandsComplete : Obligations.FabricCommandsComplete := by
  intro s
  exact ⟨fun p h pay u v six n g win => exec_fabricInput, fun p h pay u v => exec_fabricAdd, fun p h u v => exec_endMark,
    fun p h pay u v harrive hclaim _ => exec_fabricWrite harrive hclaim, fun p h u m w => exec_writeAck, fun m q w => exec_writeAckTimeout,
    fun p h pay u => exec_beacon, fun p => exec_beaconSend, fun k e r n => exec_claimForget, fun p q e => exec_fabricTransmit,
    fun p hup => done_whenever s _ _ hup, fun p h => exec_creditUnit⟩

end Sys2Proof.Machine
end

section
/-!
PROOFS. The cue matrix (R295 to R304): the edges that software puts on their way, and the conditions under which the cue commands are
carried out.
-/

namespace Sys2Proof.Machine

/-! ## Edges on their way (R295) -/

/-- House cycles that an edge is on its way to a channel. -/
def State.onWay (s : State) (c : Nat) : Nat := if (s.sv Scr.CUE_UNCLK).testBit c then 0 else 1

/-- The edges on their way once a producer has driven a channel whose level changes: an edge that meets one due no earlier takes it
back. -/
def State.edgesWith (s : State) (new : Edge) : List Edge :=
  match s.lastEdge new.ch with
  | some e => if new.due ≤ e.due then s.cue.edges.erase e else s.cue.edges ++ [new]
  | none => s.cue.edges ++ [new]

section
variable {s : State} {c cyc stamp origin : Nat} {lev : Bool} {mask : BitVec 64} {carry : Option Int}

theorem State.pushEdgeWith_eq : s.pushEdgeWith carry c lev cyc stamp mask origin =
    { s with cue.edges := if s.schedLevel c = lev then s.cue.edges
      else s.edgesWith ⟨c, lev, carry, cyc + s.onWay c, stamp, mask, origin⟩ } := by
  unfold State.pushEdgeWith
  split <;> rfl

/-- An edge whose forerunners are all due earlier joins them. -/
theorem State.pushEdgeWith_joins (hlevel : s.schedLevel c ≠ lev) (hdue : ∀ e, s.lastEdge c = some e → e.due < cyc + s.onWay c) :
    s.pushEdgeWith carry c lev cyc stamp mask origin =
      { s with cue.edges := s.cue.edges ++ [⟨c, lev, carry, cyc + s.onWay c, stamp, mask, origin⟩] } := by
  rw [State.pushEdgeWith_eq, if_neg hlevel, State.edgesWith]
  dsimp only
  split
  · rename_i e he
    rw [if_neg (Nat.not_le.mpr (hdue e he))]
  · rfl

theorem State.lastEdge_of_joined {e : Edge} : ({ s with cue.edges := s.cue.edges ++ [e] } : State).lastEdge e.ch = some e := by
  simp [State.lastEdge]

theorem State.schedLevel_of_lastEdge {e : Edge} (h : s.lastEdge c = some e) : s.schedLevel c = e.level := by
  rw [State.lastEdge] at h
  rw [State.schedLevel, h]

end

/-! ## CUE_FIRE (R302) -/

section
variable {s : State} {c : Nat}

theorem State.cueFire_disabled (h : s.bit CUE_CHDIS.MAP c = true) (f : State → State) :
    s.cueFire c f = s.setF CUE_STATUS.FIRE_ERR 1 := if_pos h

theorem State.cueFire_enabled (h : s.bit CUE_CHDIS.MAP c = false) (f : State → State) : s.cueFire c f = f s :=
  if_neg (Bool.not_eq_true _ ▸ h)

/-- A pulse on a high channel makes no edge. -/
theorem State.pulseOn_high (h : s.levelOf c = true) (carry : Option Int) : s.pulseOn carry c = s := if_pos h

/-- A pulse on a low channel puts a rise and, one cycle later, a fall on their way. -/
theorem State.pulseOn_low (hlevel : s.levelOf c = false) (hsched : s.schedLevel c = false)
    (hdue : ∀ e, s.lastEdge c = some e → e.due < s.clk.cycles + s.onWay c) : s.pulseOn none c =
      { s with cue.edges := s.cue.edges ++ [⟨c, true, none, s.clk.cycles + s.onWay c, s.clk.cycles, 0, s.clk.cycles⟩,
        ⟨c, false, none, s.clk.cycles + 1 + s.onWay c, s.clk.cycles + 1, 0, s.clk.cycles + 1⟩] } := by
  have hrise := State.pushEdgeWith_joins (carry := none) (stamp := s.clk.cycles) (mask := 0) (origin := s.clk.cycles)
    (hsched.trans_ne Bool.false_ne_true) hdue
  have hlast := s.lastEdge_of_joined (e := ⟨c, true, none, s.clk.cycles + s.onWay c, s.clk.cycles, 0, s.clk.cycles⟩)
  have hpulse : s.pulseOn none c =
      (s.pushEdgeWith none c true s.clk.cycles s.clk.cycles 0 s.clk.cycles).pushEdgeWith none c false (s.clk.cycles + 1)
        (s.clk.cycles + 1) 0 (s.clk.cycles + 1) := if_neg (Bool.not_eq_true _ ▸ hlevel)
  rw [hpulse, hrise, State.pushEdgeWith_joins]
  · simp only [List.append_assoc]
    rfl
  · rw [State.schedLevel_of_lastEdge hlast]
    exact Bool.false_ne_true.symm
  · intro e he
    cases hlast.symm.trans he
    exact Nat.add_lt_add_right (Nat.lt_succ_self _) _

/-- The software levels with one channel's set. -/
def State.swLevelWith (s : State) (c : Nat) (lev : Bool) : BitVec 64 :=
  if lev then s.cue.swLevel ||| BitVec.ofNat 64 (2 ^ c) else s.cue.swLevel &&& ~~~(BitVec.ofNat 64 (2 ^ c))

/-- A level producer of the channel is high (R307). -/
def State.producersHigh (s : State) (c : Nat) : Bool :=
  (List.range 120).any (fun p => (s.se Scr.CUE_SRC c).testBit p && Tbl.get s.cue.prodLevel false p)

theorem getLsbD_two_pow (hc : c < 64) (k : Nat) : (BitVec.ofNat 64 (2 ^ c)).getLsbD k = decide (k = c) := by
  rw [BitVec.getLsbD_ofNat, Nat.testBit_two_pow]
  by_cases hk : k = c
  · simp [hk, hc]
  · simp [hk, Ne.symm hk]

theorem State.getLsbD_swLevelWith_true (hc : c < 64) (k : Nat) :
    (s.swLevelWith c true).getLsbD k = (decide (k = c) || s.cue.swLevel.getLsbD k) := by
  rw [State.swLevelWith, if_pos rfl, BitVec.getLsbD_or, getLsbD_two_pow hc, Bool.or_comm]

theorem State.getLsbD_swLevelWith_false (hc : c < 64) {k : Nat} (hk : k < 64) :
    (s.swLevelWith c false).getLsbD k = (!decide (k = c) && s.cue.swLevel.getLsbD k) := by
  rw [State.swLevelWith, if_neg Bool.false_ne_true, BitVec.getLsbD_and, BitVec.getLsbD_not, getLsbD_two_pow hc, decide_eq_true hk,
    Bool.true_and, Bool.and_comm]

/-- The level of a channel whose software level is written: that level, or a producer's. -/
theorem State.softLevel_eq (hc : c < 64) (lev : Bool) : s.softLevel c lev =
    { s with cue.swLevel := s.swLevelWith c lev, cue.edges := if s.schedLevel c = (lev || s.producersHigh c) then s.cue.edges
      else s.edgesWith ⟨c, lev || s.producersHigh c, none, s.clk.cycles + s.onWay c, s.clk.cycles, 0, s.clk.cycles⟩ } := by
  have hbit : (s.swLevelWith c lev).toNat.testBit c = lev := by
    rw [BitVec.testBit_toNat]
    cases lev
    · simp [s.getLsbD_swLevelWith_false hc hc]
    · simp [s.getLsbD_swLevelWith_true hc]
  have hlevel : ({ s with cue.swLevel := s.swLevelWith c lev } : State).levelOf c = (lev || s.producersHigh c) :=
    congrArg (· || s.producersHigh c) hbit
  have hsoft : s.softLevel c lev = ({ s with cue.swLevel := s.swLevelWith c lev } : State).pushEdgeWith none c
      (({ s with cue.swLevel := s.swLevelWith c lev } : State).levelOf c) s.clk.cycles s.clk.cycles 0 s.clk.cycles := rfl
  rw [hsoft, hlevel, State.pushEdgeWith_eq]
  rfl

end

/-- Settles O41: a disabled channel takes nothing; on another one the software level decides the edge, and a pulse makes two. -/
theorem cueFire : Obligations.CueFire := by
  rintro s c way more hc rfl hmore
  have hdone : ∀ f : State → State, (f s).flt = s.flt → done (f s) = .next (f s) := fun f hf =>
    congrArg Host.Outcome.next (State.settle_none _ (hf ▸ hc))
  have hedges : ∀ lev, more lev = s.edgesWith ⟨c.val, lev, none, s.clk.cycles + s.onWay c.val, s.clk.cycles, 0, s.clk.cycles⟩ := hmore
  refine ⟨fun hdis i hi => ?disabled, fun hen => ⟨?set, ?clear, fun hlevel hsched hdue => ?low, fun hlevel => ?high⟩⟩
  case disabled =>
    refine ⟨s.setF CUE_STATUS.FIRE_ERR 1, ?_, s.getF_setF_self _ 1 (by decide), (sameFields.refl _ s).setF 1 List.mem_cons_self, rfl⟩
    rw [← hdone (fun s => s.setF CUE_STATUS.FIRE_ERR 1) rfl]
    simp only [List.mem_cons, List.not_mem_nil, or_false] at hi
    rcases hi with rfl | rfl | rfl <;> exact congrArg done (s.cueFire_disabled hdis _)
  case set =>
    refine ⟨s.softLevel c.val true, ?_, ?_⟩
    · rw [← hdone (fun s => s.softLevel c.val true) (by rw [State.softLevel_eq c.isLt])]
      exact congrArg done (s.cueFire_enabled hen _)
    · rw [State.softLevel_eq c.isLt, hedges, Bool.true_or]
      exact ⟨fun k _ => s.getLsbD_swLevelWith_true c.isLt k, rfl, rfl⟩
  case clear =>
    refine ⟨s.softLevel c.val false, ?_, ?_⟩
    · rw [← hdone (fun s => s.softLevel c.val false) (by rw [State.softLevel_eq c.isLt])]
      exact congrArg done (s.cueFire_enabled hen _)
    · rw [State.softLevel_eq c.isLt, Bool.false_or]
      refine ⟨fun k hk => s.getLsbD_swLevelWith_false c.isLt hk, ?_, rfl⟩
      rintro lev rfl
      rw [hedges]
      rfl
  case low =>
    refine (congrArg done ((s.cueFire_enabled hen _).trans (State.pulseOn_low hlevel hsched hdue))).trans ?_
    exact congrArg Host.Outcome.next (State.settle_none _ hc)
  case high =>
    refine (congrArg done ((s.cueFire_enabled hen _).trans (State.pulseOn_high hlevel none))).trans ?_
    exact congrArg Host.Outcome.next (State.settle_none _ hc)

/-! ## Commands (R295, R296, R301, R304) -/

section
variable {s : State}

theorem exec_channelEdge {c : Fin 64} {e : Edge} (he : s.cue.edges.find? (fun e => e.ch == c.val) = some e) :
    exec (.channelEdge c) s = .next (({ s with cue.edges := s.cue.edges.erase e } : State).edgeArrives e).settle := by
  simp only [exec, execChannelEdge, he, done]

theorem exec_filterRateRelease {f : Fin 40} (hheld : (s.filt f.val).held = true) (hen : s.bit CUE_FDIS.MAP f.val = false) :
    exec (.filterRateRelease f) s =
      .next ((s.runCycles ((s.filt f.val).lastRise.getD 0 + s.fRate f.val - s.clk.cycles)).filtRelease f.val).settle :=
  done_whenever s _ _ (by rw [hheld, hen]; rfl)

theorem exec_filterStuck {f : Fin 40} (hout : (s.filt f.val).out = true) (hstuck : s.fStuck f.val ≠ 0) :
    exec (.filterStuck f) s =
      .next ((s.runCycles ((s.filt f.val).outSince + 250 * s.fStuck f.val - s.clk.cycles)).filtStuck f.val).settle :=
  done_whenever s _ _ (by rw [hout, bne_iff_ne.mpr hstuck]; rfl)

end

/-- Settles O19: each command meets its condition. -/
theorem cueCommandsComplete : Obligations.CueCommandsComplete := by
  intro s
  refine ⟨fun p l => rfl, fun p l => rfl, fun c e => exec_channelEdge, ?minw, fun f => exec_filterRateRelease,
    fun f => exec_filterStuck, fun c hen => ?fire, fun c hdis => done_whenever s _ _ hdis, fun f hdis => done_whenever s _ _ hdis⟩
  case minw =>
    rintro f _ rfl
    rfl
  case fire =>
    exact ⟨congrArg done (s.cueFire_enabled hen _), congrArg done (s.cueFire_enabled hen _), congrArg done (s.cueFire_enabled hen _)⟩

end Sys2Proof.Machine
end

section
/-!
PROOFS. The fault collector and the iron (R310 to R323): the first-fault latch, what the collector leaves alone out of service, when an
exit from iron is refused, and the conditions under which the collector's commands are carried out.
-/

namespace Sys2Proof.Machine

/-- A meaning that leaves the class 4 faults alone, where none has arrived, ends as it leaves the state (R320). -/
theorem done_of_no_c4 {s t : State} (hc : s.flt.c4 = []) (h : t.flt = s.flt) : done t = .next t :=
  congrArg Host.Outcome.next (State.settle_none _ (by rw [h, hc]))

/-! ## The first-fault latch (R315) -/

/-- The fields in which the latch captures a fault. -/
def latchFields : List Fld := [FLT_FFL0.SRC, FLT_FFL0.CLASS, FLT_FFL0.VALID, FLT_FFL0.REASON, FLT_FFL1.SIX]

/-- What the latch holds once it has captured a fault. -/
def State.captured (s : State) (src cls reason six : Nat) : State :=
  ((((s.setF FLT_FFL0.SRC src).setF FLT_FFL0.CLASS cls).setF FLT_FFL0.VALID 1).setF FLT_FFL0.REASON reason).setF FLT_FFL1.SIX six

section
variable {s : State} {src cls reason six : Nat}

theorem State.latch_captures (hmin : s.getF FLT_CTRL.FFL_MIN ≤ cls) (hvalid : s.flag FLT_FFL0.VALID = false) :
    s.latch src cls reason six = s.captured src cls reason six :=
  (if_pos hmin).trans (if_neg (Bool.not_eq_true _ ▸ hvalid))

theorem State.latch_overflows (hmin : s.getF FLT_CTRL.FFL_MIN ≤ cls) (hvalid : s.flag FLT_FFL0.VALID = true) :
    s.latch src cls reason six = s.setF FLT_FFL0.OVF 1 := (if_pos hmin).trans (if_pos hvalid)

theorem State.latch_below (hmin : cls < s.getF FLT_CTRL.FFL_MIN) : s.latch src cls reason six = s := if_neg (Nat.not_le.mpr hmin)

/-- A field that was written last, or before fields at other places, reads the value written while it fits. -/
theorem State.getF_setF_of_lt (s : State) {f : Fld} {v : Nat} (hw : f.w ≤ 64) (hv : v < 2 ^ f.w) : (s.setF f v).getF f = v :=
  (s.getF_setF_self f v hw).trans (Nat.mod_eq_of_lt hv)

theorem State.onlyFields_captured : onlyFields latchFields s (s.captured src cls reason six) :=
  ⟨(((((sameFields.refl _ s).setF src (by decide)).setF cls (by decide)).setF 1 (by decide)).setF reason (by decide)).setF six
    (by decide), rfl⟩

theorem State.captured_fields (hsrc : src < 1024) (hcls : cls ≤ 4) (hreason : reason < 65536) (hsix : six < 2 ^ 64) :
    (s.captured src cls reason six).getF FLT_FFL0.SRC = src ∧ (s.captured src cls reason six).getF FLT_FFL0.CLASS = cls ∧
    (s.captured src cls reason six).getF FLT_FFL0.REASON = reason ∧ (s.captured src cls reason six).getF FLT_FFL1.SIX = six ∧
    (s.captured src cls reason six).flag FLT_FFL0.VALID = true := by
  have hcls' : cls < 2 ^ FLT_FFL0.CLASS.w := lt_of_le_of_lt hcls (by decide)
  refine ⟨?src, ?cls, ?reason, State.getF_setF_of_lt _ (by decide) hsix, bne_iff_ne.mpr (ne_of_eq_of_ne ?valid Nat.one_ne_zero)⟩
  case src =>
    rw [State.captured, State.getF_setF_other _ _ _ _ (by decide), State.getF_setF_other _ _ _ _ (by decide),
      State.getF_setF_other _ _ _ _ (by decide), State.getF_setF_other _ _ _ _ (by decide)]
    exact State.getF_setF_of_lt _ (by decide) hsrc
  case cls =>
    rw [State.captured, State.getF_setF_other _ _ _ _ (by decide), State.getF_setF_other _ _ _ _ (by decide),
      State.getF_setF_other _ _ _ _ (by decide)]
    exact State.getF_setF_of_lt _ (by decide) hcls'
  case reason =>
    rw [State.captured, State.getF_setF_other _ _ _ _ (by decide)]
    exact State.getF_setF_of_lt _ (by decide) hreason
  case valid =>
    rw [State.captured, State.getF_setF_other _ _ _ _ (by decide), State.getF_setF_other _ _ _ _ (by decide)]
    exact State.getF_setF_of_lt _ (by decide) (by decide)

end

/-- Settles O42: the class and VALID choose among capture, overflow and nothing; rearming writes VALID alone. -/
theorem firstFaultLatch : Obligations.FirstFaultLatch := by
  intro s src cls reason six hsrc hcls hreason hsix
  refine ⟨fun hmin hvalid => ?captures, fun hmin hvalid => ?overflows, State.latch_below, fun hc => ?rearm⟩
  case captures =>
    rw [State.latch_captures hmin hvalid]
    obtain ⟨h1, h2, h3, h4, h5⟩ := s.captured_fields hsrc hcls hreason hsix
    exact ⟨h1, h2, h3, h4, h5, State.onlyFields_captured⟩
  case overflows =>
    rw [State.latch_overflows hmin hvalid]
    exact ⟨s.getF_setF_self _ 1 (by decide), (sameFields.refl _ s).setF 1 List.mem_cons_self, rfl⟩
  case rearm =>
    refine ⟨_, done_of_no_c4 hc rfl, ?_, (sameFields.refl _ s).setF 0 List.mem_cons_self, rfl⟩
    rw [State.flag, s.getF_setF_self _ 0 (by decide)]
    rfl

/-! ## Out of service (R315 to R317) -/

/-- Entries have been delivered: the fields but the count of context misses, the collector and the next number are as before. -/
structure OnlyDelivers (s t : State) : Prop where
  fields : sameFields [HST_CTX_MISS.COUNT] s t
  flt : t.flt = s.flt
  seq : t.nextSeq = s.nextSeq

theorem OnlyDelivers.refl (s : State) : OnlyDelivers s s := ⟨.refl _ s, rfl, rfl⟩

section
variable {s t : State} (h : OnlyDelivers s t)
include h

theorem OnlyDelivers.trans {u : State} (k : OnlyDelivers t u) : OnlyDelivers s u :=
  ⟨h.fields.trans k.fields, k.flt.trans h.flt, k.seq.trans h.seq⟩

theorem OnlyDelivers.parts {u : State} (hregs : u.regs = t.regs) (hflt : u.flt = t.flt) (hseq : u.nextSeq = t.nextSeq) :
    OnlyDelivers s u :=
  h.trans ⟨(sameFields.refl _ t).of_regs hregs, hflt, hseq⟩

theorem OnlyDelivers.inService : t.inService = s.inService := by
  rw [State.inService, State.flag, h.fields _ (by decide)]
  rfl

theorem OnlyDelivers.setRing (r : Nat) (x : Option Ring) : OnlyDelivers s (t.setRing r x) := h.parts rfl rfl rfl

theorem OnlyDelivers.touchCtx (r : Nat) : OnlyDelivers s (t.touchCtx r) :=
  h.trans ⟨t.touchCtx_sameFields r, (congrArg State.flt (t.touchCtx_only r) :), (congrArg State.nextSeq (t.touchCtx_only r) :)⟩

theorem OnlyDelivers.raiseVector (v : Nat) : OnlyDelivers s (t.raiseVector v) := by
  unfold State.raiseVector State.sendMsix
  dsimp only
  split
  · split <;> exact h.parts rfl rfl rfl
  · split <;> exact h.parts rfl rfl rfl

theorem OnlyDelivers.entryOver (x : Held) : OnlyDelivers s (t.entryOver x) := by
  unfold State.entryOver
  split
  · exact h.parts rfl rfl rfl
  · exact h

theorem OnlyDelivers.putEntry (r : Nat) (x : Ring) (e : Held) : OnlyDelivers s (t.putEntry r x e) := by
  have hput (a : Nat) (b : List Byte) : OnlyDelivers s (t.hostPut a b) := by
    unfold State.hostPut
    split
    · exact h
    · exact h.parts rfl rfl rfl
  have htimed (a : Nat) (b : List Byte) :
      OnlyDelivers s (if x.sinceMsg = 0 then (t.hostPut a b).startTimer (.modTime r) else t.hostPut a b) := by
    split
    · exact (hput a b).parts rfl rfl rfl
    · exact hput a b
  unfold State.putEntry
  split
  · exact h.entryOver e
  · dsimp only
    refine OnlyDelivers.entryOver ?_ e
    split
    · exact ((htimed _ _).setRing ..).raiseVector _
    · exact (htimed _ _).setRing ..

/-- No ring's context is found uncorrectable. -/
theorem OnlyDelivers.deliver (r n : Nat) (e : Held) : OnlyDelivers s (t.deliver [] r n e) := by
  have htouch := h.touchCtx r
  have hlost : t.ctxLost r (List.contains [] r) = false := rfl
  unfold State.deliver
  simp only [hlost, Bool.false_eq_true, if_false]
  split
  · exact htouch.entryOver e
  · split
    · exact htouch.entryOver e
    · split
      · exact htouch.putEntry ..
      · split <;> exact htouch.setRing ..

theorem OnlyDelivers.foldl {α : Type} {f : State → α → State} (hf : ∀ u a, OnlyDelivers s u → OnlyDelivers s (f u a)) (l : List α) :
    OnlyDelivers s (l.foldl f t) :=
  List.foldlRecOn (motive := OnlyDelivers s) l f h fun u hu a _ => hf u a hu

theorem OnlyDelivers.settled (r : Nat) : OnlyDelivers s (t.settled r) := by
  unfold State.settled
  split
  · exact h.setRing ..
  · exact h

theorem OnlyDelivers.flushHeld (r : Nat) : OnlyDelivers s (t.flushHeld r) := by
  refine h.foldl (fun u _ hu => ?_) _
  split
  · split
    · split
      · exact hu
      · exact hu.putEntry ..
    · exact hu
  · exact hu

/-- Out of service the event that entries were lost only joins the outbox. -/
theorem OnlyDelivers.spaceBack (hout : s.inService = false) (r : Nat) : OnlyDelivers s (t.spaceBack r) := by
  unfold State.spaceBack
  split
  · exact h
  · split
    · exact h
    · split
      · exact h.flushHeld r
      · split
        · exact h
        · rw [State.post_of_not_inService _ _ (h.inService.trans hout)]
          exact h.parts rfl rfl rfl

end

/-- An event that gets its number is delivered; out of service the collector has no part in it. -/
theorem State.numberEv_onlyDelivers (s : State) (hout : s.inService = false) (e : Ev) :
    OnlyDelivers { s with nextSeq := s.nextSeq + 1 } (s.numberEv [] e) := by
  have huncollected {u : State} {c : Bool} {n : Nat} (hu : OnlyDelivers { s with nextSeq := s.nextSeq + 1 } u) :
      OnlyDelivers { s with nextSeq := s.nextSeq + 1 } (if u.inService && c then u.collect e n else u) := by
    have hjudges : u.inService = false := hu.inService.trans hout
    rw [hjudges]
    exact hu
  have hstart := OnlyDelivers.refl { s with nextSeq := s.nextSeq + 1 }
  unfold State.numberEv
  refine huncollected ?_
  split
  · exact ((hstart.settled _).foldl (fun u r hu => hu.deliver r _ _) _).spaceBack hout _
  · exact hstart.foldl (fun u r hu => hu.deliver r _ _) _

theorem State.raiseFor_of_not_inService {s : State} (h : s.inService = false) (subs : List Nat) (src reason cls : Nat) (own : Bool)
    (d1 : Nat) : s.raiseFor subs src reason cls own d1 = s := if_neg (Bool.not_eq_true _ ▸ h)

/-- Settles O43: nothing that asks whether the collector is in service acts. -/
theorem outOfServiceNoFault : Obligations.OutOfServiceNoFault := by
  intro s hout hc
  have hraise (reason : Nat) : s.raise 0x000 reason 4 false = s := State.raiseFor_of_not_inService hout ..
  refine ⟨(congrArg done (hraise _)).trans (done_of_no_c4 hc rfl), (congrArg done (hraise _)).trans (done_of_no_c4 hc rfl),
    fun k c => ⟨{ s with flt.pair := Tbl.set s.flt.pair 1 k.val c.val }, ?rail, rfl, Tbl.get_set_self ..⟩, fun e => ?number⟩
  case rail =>
    have hunjudged : exec (.railFault k c) s = done { s with flt.pair := Tbl.set s.flt.pair 1 k.val c.val } :=
      congrArg done (if_neg (by simp [hout]))
    rw [hunjudged]
    exact congrArg Host.Outcome.next (State.settle_none _ hc)
  case number =>
    obtain ⟨hfields, hflt, hseq⟩ := s.numberEv_onlyDelivers hout e
    exact ⟨hfields, hflt, hseq⟩

/-! ## Leaving iron (R323) -/

section
variable {s : State} {ok : Bool}

theorem State.exitWhy_le (s : State) (ok : Bool) : s.exitWhy ok ≤ 3 := by
  unfold State.exitWhy
  repeat' split
  all_goals omega

/-- Why an exit is refused: the first of the three reasons. -/
theorem State.exitWhy_of_refused (h : s.c4Error = true ∨ (s.sv Scr.PWR_RESUME : Int) ≤ s.getS PWR_STATUS.THETA ∨ ok = false) :
    s.exitWhy ok = (if s.c4Error then 1 else if (s.sv Scr.PWR_RESUME : Int) ≤ s.getS PWR_STATUS.THETA then 2 else 3) ∧
      s.exitWhy ok ≠ 0 := by
  unfold State.exitWhy
  by_cases hsource : s.c4Error = true
  · simp [hsource]
  by_cases hhot : (s.sv Scr.PWR_RESUME : Int) ≤ s.getS PWR_STATUS.THETA
  · simp [hsource, hhot]
  · have hfailed : ok = false := (h.resolve_left hsource).resolve_left hhot
    simp [hsource, hhot, hfailed]

theorem State.ironExit_of_refused (hiron : s.iron = true) (hwhy : s.exitWhy ok ≠ 0) :
    s.ironExit ok = (s.setF FLT_STATUS.EXIT_FAIL 1).setF FLT_STATUS.EXIT_WHY (s.exitWhy ok) :=
  (s.whenever_pos _ _ hiron).trans (if_pos hwhy)

theorem State.ironExit_of_allowed (hiron : s.iron = true) (hwhy : s.exitWhy ok = 0) : s.ironExit ok =
    ((s.leaveService 2).ironOver.enterService 2 (s.flt.pair.filter (fun q => q.2 != 1))).emit 0x000 0x0D04
      ((s.clk.cycles - s.flt.ironAt.getD s.clk.cycles) / 250)
      (dwell32 ((s.leaveService 2).ironOver.enterService 2 (s.flt.pair.filter (fun q => q.2 != 1))).houseDwell) 0 :=
  (s.whenever_pos _ _ hiron).trans (if_neg (not_not.mpr hwhy))

end

/-- Settles O45: a refused exit writes the two fields, and the device stays in iron. -/
theorem ironExitRefused : Obligations.IronExitRefused := by
  intro s ok hiron hc hrefused
  obtain ⟨hwhy, hne⟩ := State.exitWhy_of_refused hrefused
  have hfields : sameFields [FLT_STATUS.EXIT_FAIL, FLT_STATUS.EXIT_WHY] s (s.ironExit ok) := by
    rw [State.ironExit_of_refused hiron hne]
    exact ((sameFields.refl _ s).setF 1 (by decide)).setF _ (by decide)
  refine ⟨s.ironExit ok, ?_, ?_, ?_, ?_, hfields, ?_⟩
  · refine done_of_no_c4 hc ?_
    rw [State.ironExit_of_refused hiron hne]
    rfl
  · rw [State.iron, State.flag, hfields _ (by decide)]
    exact hiron
  · rw [State.ironExit_of_refused hiron hne, State.getF_setF_other _ _ _ _ (by decide)]
    exact s.getF_setF_self _ 1 (by decide)
  · rw [← hwhy, State.ironExit_of_refused hiron hne]
    exact State.getF_setF_of_lt _ (by decide) (lt_of_le_of_lt (s.exitWhy_le ok) (by decide))
  · rw [State.ironExit_of_refused hiron hne]
    rfl

/-! ## Commands (R311, R315 to R321) -/

section
variable {s : State}

/-- A rail that turns bad in service is a fault of a source that can have one. -/
theorem exec_railFault_bad {k : Fin 1024} {c : Fin 4} (hcode : c.val = 0 ∨ c.val = 3) (hin : s.inService = true)
    (hgood : s.railBad k.val = false) (hclass : hiClass k.val ≠ 0) : exec (.railFault k c) s =
      .next (({ s with flt.pair := Tbl.set s.flt.pair 1 k.val c.val } : State).railFault k.val c.val false).settle :=
  congrArg done (if_pos (by simpa [hin, hgood, hclass] using hcode))

/-- A legal code ends the rail fault. -/
theorem exec_railFault_good {k : Fin 1024} {c : Fin 4} (hcode : c.val = 1 ∨ c.val = 2) : exec (.railFault k c) s =
    .next ({ s with flt.pair := Tbl.set s.flt.pair 1 k.val c.val } : State).settle := by
  have hlegal : (decide (c.val = 0) || decide (c.val = 3)) = false := by
    rcases hcode with h | h <;> rw [h] <;> rfl
  exact congrArg done (if_neg (by simp only [hlegal, Bool.false_and, Bool.false_eq_true, not_false_eq_true]))

/-- The wait of the C2 reaction in progress has lasted FLT_ACK_TO. -/
theorem exec_ackTimeout {k : Fin 1024} {x : React} {u : State} (hreact : s.flt.react = some x) (hsrc : x.src = k.val)
    (hcls : x.cls = 2) (hwaits : x.acked = false) (hu : u = s.lapse (.ack k.val) (msCycles * s.sv Scr.FLT_ACK_TO))
    (hstill : u.flt.react.any (fun y => y.src == k.val && y.cls == 2 && !y.acked) = true) : exec (.ackTimeout k) s =
      .next ((({ u with flt.react := none } : State).ackLate k.val).resume).settle := by
  subst hu
  have hhit : s.flt.react.any (fun y => y.src == k.val && y.cls == 2 && !y.acked) = true := by simp [hreact, hsrc, hcls, hwaits]
  exact (done_whenever s _ _ (by rw [hhit]; rfl)).trans (congrArg done (if_pos hstill))

theorem exec_curtainFrame {p : Fin 8} (hiron : s.iron = true) (hup : s.fabUp p.val = true) : exec (.curtainFrame p) s =
    .next (((s.lapse (.curtain p.val) (usCycles * s.sv Scr.FLT_CURTAIN)).sendBeacon p.val).startTimer (.curtain p.val)).settle :=
  done_whenever s _ _ (by rw [hiron, hup]; rfl)

theorem exec_serviceEntry {l : List (Fin 1024 × Fin 4)} (hout : s.inService = false) (hfree : s.ctl.jtagHeld = false) :
    exec (.serviceEntry l) s = .next (s.enterService 0 (l.map (fun q => (q.1.val, q.2.val)))).settle :=
  done_whenever s _ _ (by rw [hout, hfree]; rfl)

end

/-- Settles O20: each command meets its condition. -/
theorem faultCommandsComplete : Obligations.FaultCommandsComplete := by
  intro s
  exact ⟨fun k c => exec_railFault_bad, fun k c => exec_railFault_good, rfl, fun k => rfl,
    fun k x hreact hsrc hcls hwaits u => exec_ackTimeout hreact hsrc hcls hwaits, fun p => exec_curtainFrame, rfl,
    fun b hiron hwhy => congrArg done (State.ironExit_of_allowed hiron hwhy), fun l => exec_serviceEntry, rfl, rfl, rfl⟩

end Sys2Proof.Machine
end

section
/-!
PROOFS. Voltage, temperature, power states, block resets and test (R316, R379 to R395, R413): the conditions under which the commands are
carried out.
-/

namespace Sys2Proof.Machine

/-! ## Voltage and temperature (R379 to R382, R390) -/

section
variable {s : State}

theorem exec_avsUpdate (hcore : s.coreRuns = true) (hpower : s.power ≠ 3) : exec .avsUpdate s = .next s.avsMove.settle :=
  done_whenever s _ _ (by rw [hcore, s.awake hpower]; rfl)

/-- A voltage below that of the step in force drops the clock. -/
theorem exec_avsApplied {c : BitVec 8} {u : State} (hu : u = { s.setF PWR_STATUS.AVS_APPLIED c.toNat with pwr.avsWait := false }) :
    exec (.avsApplied c) s = .next (if u.power ≠ 3 ∧ c.toNat < u.stepVolt (u.getF PWR_STATUS.CLK_STEP) then
      u.clkStep (u.bestStep (u.getF PWR_STATUS.CLK_STEP) c.toNat) else u).settle := by
  subst hu
  refine congrArg done ?_
  simp only [State.whenever, Bool.and_eq_true, bne_iff_ne, decide_eq_true_eq]

/-! ## Power states (R383 to R387, R395) -/

theorem exec_pwrSet {r : Fin 262144} {e : Exec} {g : Nat} {k : Int} (hserves : s.serves r.val 0x50 e) (hg : g = e.arg 64 2)
    (hiron : s.iron = true → g = 3) (hallowed : s.pwrAllowed g = true)
    (hk : k = (if s.pwrNamed g && toSigned 64 (e.arg 128 64) != 0 then toSigned 64 (e.arg 128 64) else s.pwrFirst))
    (hfirst : s.pwrNamed g = true → s.pwrFirst ≤ k) (htrans : s.pwr.trans = none) :
    exec (.pwrSet r) s = .next ((s.finish r.val e stPending).pwrBegin g k).settle := by
  subst hg hk
  dsimp only [exec, execPwrSet]
  rw [withCmd_serves hserves]
  have hiron' : (s.iron && e.arg 64 2 != 3) = false := by simpa using hiron
  have hnamed : (!s.pwrAllowed (e.arg 64 2) || s.pwrNamed (e.arg 64 2) && decide ((if s.pwrNamed (e.arg 64 2) &&
      toSigned 64 (e.arg 128 64) != 0 then toSigned 64 (e.arg 128 64) else s.pwrFirst) < s.pwrFirst)) = false := by
    rw [hallowed]
    simpa only [Bool.not_true, Bool.false_or, Bool.and_eq_false_imp, decide_eq_false_iff_not, not_lt] using hfirst
  simp only [hiron', hnamed, htrans, Option.isSome_none, Bool.false_eq_true, if_false]

theorem exec_holdReached {g : Nat} {k : Int} (htrans : s.pwr.trans = some (g, k)) (hpower : s.power = 0) (hover : s.showOver k = true) :
    exec .holdReached s = .next (if g = 1 then (s.pwrEnter 1).pwrEnd else s.pwrEnter 1).settle := by
  simp only [exec, execHoldReached, htrans, hpower, hover, decide_true, Bool.and_self, if_true, done]

theorem exec_intermissionReached_down {k : Int} (htrans : s.pwr.trans = some (2, k)) (hpower : s.power = 1) :
    exec .intermissionReached s = .next (s.gate.storeSleep.pwrEnter 2).pwrEnd.settle := by
  simp only [exec, execIntermissionReached, htrans, hpower, decide_true, Bool.and_self, if_true, done]

theorem exec_intermissionReached_up {k : Int} (htrans : s.pwr.trans = some (1, k)) (hpower : s.power = 2) :
    exec .intermissionReached s = .next (s.storeWake.pwrEnter 1).pwrEnd.settle := by
  have hdown : (decide (2 = 1) && decide (1 = 2)) = false := by decide
  simp only [exec, execIntermissionReached, htrans, hpower, hdown, decide_true, Bool.and_self, Bool.false_eq_true, if_true, if_false,
    done]

theorem exec_darkReached {k : Int} (htrans : s.pwr.trans = some (3, k)) (hpower : s.power = 1 ∨ s.power = 2) :
    exec .darkReached s = .next ({ (s.pwrEnter 3).pwrEnd.goDark with pwr.darkOk := true } : State).settle := by
  have hgo : (decide (s.power = 1) || decide (s.power = 2)) = true := by simpa using hpower
  simp only [exec, execDarkReached, htrans, hgo, if_true, done]

theorem exec_darkRequest (hpower : s.power = 1 ∨ s.power = 2) (htrans : s.pwr.trans = none) :
    exec .darkRequest s = .next (s.pwrBegin 3 s.houseDwell).settle :=
  done_whenever s _ _ (by simpa [htrans] using hpower)

/-- HOLD at the next house dwell, ahead of a transition that waits for a later one. -/
theorem exec_holdNow {u : State} (hu : u = s.setF PWR_EMERG.HOLD_NOW 1) (hpower : s.power = 0) (hiron : s.iron = false)
    (hlater : ∀ t j, u.pwr.trans = some (t, j) → s.houseDwell + 1 < j) : exec .holdNow s = .next (match u.pwr.trans with
      | some q => u.pwrBegin q.1 (u.houseDwell + 1)
      | none => u.pwrBegin 1 (u.houseDwell + 1)).settle := by
  subst hu
  have htime : SameTime s (s.setF PWR_EMERG.HOLD_NOW 1) :=
    .of_sameFields ((sameFields.refl [PWR_EMERG.HOLD_NOW] s).setF 1 List.mem_cons_self) (by decide) rfl rfl
  refine (done_whenever s _ _ (by rw [decide_eq_true hpower, hiron]; rfl)).trans ?_
  cases htrans : s.pwr.trans with
  | none => simp only [State.setF_pwr, htrans]
  | some q =>
    have hj : (s.setF PWR_EMERG.HOLD_NOW 1).houseDwell + 1 < q.2 := htime.houseDwell ▸ hlater q.1 q.2 htrans
    simp only [State.setF_pwr, htrans, if_pos hj]

/-! ## Block resets and test (R389, R393, R413) -/

theorem done_blockReset (hpower : s.power ≠ 3) (b : Nat) (f : State → State) :
    done (s.blockReset b f) = .next (f (s.putBit PWR_BLKRST.BITS b true)).settle :=
  done_whenever s _ _ (s.awake hpower)

/-- Every operation that holds a block under test takes the collector out of service. -/
theorem exec_jtagInstruction_holds {op : JtagOp}
    (hop : op ∈ [JtagOp.extest, .extestPulse, .extestTrain, .highz, .clamp, .selfTest]) : exec (.jtagInstruction op) s =
      .next (({ s with ctl.jtagHeld := true } : State).leaveService 1).settle := by
  simp only [List.mem_cons, List.not_mem_nil, or_false] at hop
  rcases hop with rfl | rfl | rfl | rfl | rfl | rfl <;> rfl

end

/-- Settles O23: each command meets its condition. -/
theorem powerCommandsComplete : Obligations.PowerCommandsComplete := by
  intro s
  exact ⟨exec_avsUpdate, fun c u => exec_avsApplied, fun hwait => done_whenever s _ _ hwait, fun r => rfl,
    fun d h hpower => done_whenever s _ _ (s.awake hpower), fun r e g k => exec_pwrSet, fun g k => exec_holdReached,
    fun k => exec_intermissionReached_down, fun k => exec_intermissionReached_up, fun k => exec_darkReached, exec_darkRequest,
    fun _ => rfl, fun u => exec_holdNow, rfl, fun hpower => ⟨done_blockReset hpower 0 _, done_blockReset hpower 1 _,
      done_blockReset hpower 2 _, done_blockReset hpower 3 _, done_blockReset hpower 4 _⟩,
    fun b hb => done_whenever s _ _ hb, rfl, rfl, rfl, rfl, fun op => exec_jtagInstruction_holds⟩

end Sys2Proof.Machine
end

section
/-!
PROOFS. The duet and the spares (R327 to R344, R368): the order of claims and the rank of a live one, and the conditions under which the
commands are carried out.
-/

namespace Sys2Proof.Machine

/-! ## The order of claims (R327) -/

section
variable {x y : Claim}

theorem claimGreater_null_left (hx : x.2 = 0) (y : Claim) : claimGreater x y = false := by
  unfold claimGreater
  split <;> simp [hx]

theorem claimGreater_null_right (hx : x.2 ≠ 0) (hy : y.2 = 0) : claimGreater x y = true := by
  rw [claimGreater, if_pos hy]
  exact bne_iff_ne.mpr hx

/-- The difference of two epochs, modulo 2 ^ 16. -/
def epochDiff (x y : Claim) : Nat := (x.1 + 65536 - y.1 % 65536) % 65536

/-- Between live claims the epochs' difference decides, and the rank where it is 0 or half the range. -/
theorem claimGreater_live (hx : x.2 ≠ 0) (hy : y.2 ≠ 0) : claimGreater x y =
    (if epochDiff x y = 0 ∨ epochDiff x y = 32768 then decide (y.2 < x.2) else decide (epochDiff x y < 32768)) := by
  rw [claimGreater, if_neg hy, if_neg hx]
  simp only [Bool.or_eq_true, decide_eq_true_eq]
  rfl

/-- The signed 16-bit difference of two epochs. -/
theorem toSigned_epochDiff (hx : x.1 < 65536) (hy : y.1 < 65536) : toSigned 16 (ofSigned 16 ((x.1 : Int) - y.1)) =
    if epochDiff x y < 32768 then (epochDiff x y : Int) else epochDiff x y - 65536 := by
  have hdiff : ofSigned 16 ((x.1 : Int) - y.1) = epochDiff x y := by
    unfold ofSigned epochDiff
    omega
  have hlt : epochDiff x y < 65536 := Nat.mod_lt _ (by decide)
  rw [hdiff]
  simp only [toSigned, Nat.mod_eq_of_lt hlt, Nat.reducePow, Nat.add_one_sub_one]
  rfl

theorem claimGreater_signed (hx : x.1 < 65536) (hy : y.1 < 65536) (hxl : x.2 ≠ 0) (hyl : y.2 ≠ 0) {d : Int}
    (hd : d = toSigned 16 (ofSigned 16 ((x.1 : Int) - y.1))) :
    claimGreater x y = (if d = 0 ∨ d = -32768 then decide (y.2 < x.2) else decide (0 < d)) := by
  have hlt : epochDiff x y < 65536 := Nat.mod_lt _ (by decide)
  rw [toSigned_epochDiff hx hy] at hd
  have htie : (epochDiff x y = 0 ∨ epochDiff x y = 32768) ↔ (d = 0 ∨ d = -32768) := by
    split at hd <;> omega
  have hahead : ¬ (d = 0 ∨ d = -32768) → (epochDiff x y < 32768 ↔ 0 < d) := by
    split at hd <;> omega
  rw [claimGreater_live hxl hyl]
  by_cases h : d = 0 ∨ d = -32768
  · rw [if_pos h, if_pos (htie.mpr h)]
  · rw [if_neg h, if_neg (mt htie.mp h), decide_eq_decide]
    exact hahead h

/-- Two live claims of different rank are never equal in the order: one of them is greater. -/
theorem claimGreater_antisymm (hx : x.1 < 65536) (hy : y.1 < 65536) (hxl : x.2 ≠ 0) (hyl : y.2 ≠ 0) (hne : x.2 ≠ y.2) :
    claimGreater x y = !claimGreater y x := by
  have hback : epochDiff y x = (65536 - epochDiff x y) % 65536 := by
    unfold epochDiff
    omega
  have hlt : epochDiff x y < 65536 := Nat.mod_lt _ (by decide)
  have htie : (epochDiff y x = 0 ∨ epochDiff y x = 32768) ↔ (epochDiff x y = 0 ∨ epochDiff x y = 32768) := by omega
  rw [claimGreater_live hxl hyl, claimGreater_live hyl hxl]
  by_cases h : epochDiff x y = 0 ∨ epochDiff x y = 32768
  · rw [if_pos h, if_pos (htie.mpr h), ← decide_not, decide_eq_decide]
    omega
  · rw [if_neg h, if_neg (mt htie.mp h), ← decide_not, decide_eq_decide]
    omega

end

/-! ## The rank of a live claim (R327, R338) -/

theorem liveRank_bits (a : Bool) {m : Nat} (hm : m ≤ 1) :
    liveRank a m % 2 = m ∧ bitsOf (liveRank a m) 1 2 = 1 ∧ bitOf (liveRank a m) 3 = a := by
  interval_cases m <;> cases a <;> decide

theorem Image.member_of_not_paired {im : Image} (h : im.paired = false) : im.member = 0 := if_neg (Bool.not_eq_true _ ▸ h)

theorem listenersOnly.getF {s t : State} (h : listenersOnly s t) (f : Fld) : t.getF f = s.getF f := by
  obtain ⟨hregs, -⟩ := h.same
  rw [State.getF, hregs]
  rfl

/-- ACCEPTED is shown in its own field alone. -/
theorem State.sameFields_showAccepted (s : State) : sameFields [DUO_STATUS.ACCEPTED] s s.showAccepted := fun f hf =>
  ((State.drive_listenersOnly _ _ _).getF f).trans ((sameFields.refl _ s).setF _ List.mem_cons_self f hf)

/-- A claim that is taken has the rank named. -/
theorem State.setClaim_rank (s : State) (e cause : Nat) {r : Nat} (hr : r < 16) : (s.setClaim e r cause).claim.2 = r := by
  unfold State.setClaim
  split
  · rename_i h
    rw [h]
  · dsimp only [State.claim]
    rw [State.sameFields_showAccepted _ _ (by decide), State.emit, State.emitFor_zero]
    have hrank (u : State) : (u.setF DUO_STATUS.RANK r).getF DUO_STATUS.RANK = r :=
      (u.getF_setF_self _ _ (by decide)).trans (Nat.mod_eq_of_lt hr)
    split <;> exact hrank _

/-- Settles O46: the order as the spec gives it, and the ranks that it compares. -/
theorem claimOrder : Obligations.ClaimOrder := by
  refine ⟨fun a m => liveRank_bits a, fun x y hx => claimGreater_null_left hx y, fun x y => claimGreater_null_right,
    fun x y hx hy hxl hyl d => claimGreater_signed hx hy hxl hyl, fun x y => claimGreater_antisymm,
    fun im => Image.member_of_not_paired, fun s hjoin hunpaired hiron hstays => ?alone⟩
  obtain ⟨n, hn⟩ := Option.isSome_iff_exists.mp hjoin
  have hjoins : s.joinAlone = ({ s with duo.joinAt := none } : State).setClaim s.ctl.jepoch (liveRank true 0) 5 := by
    simp only [State.joinAlone, hn, hunpaired, hiron, hstays, Bool.or_self, Bool.false_eq_true, if_false]
  rw [hjoins]
  exact State.setClaim_rank _ _ _ (by decide)

/-! ## Heartbeats, swaps and joins (R332 to R338) -/

/-- A command that ends changes nothing outside the host interface (R42, R45). -/
theorem State.finish_host (s : State) (r : Nat) (e : Exec) (status : Nat) : ∃ x, s.finish r e status = { s with host := x } := by
  unfold State.finish State.complete State.completeGone
  split
  · exact ⟨_, rfl⟩
  · dsimp only
    split
    · exact ⟨_, rfl⟩
    · split <;> exact ⟨_, rfl⟩

section
variable {s : State}

theorem exec_heartbeatSend (hpaired : s.paired = true) (hpower : s.power ≠ 3) :
    exec .heartbeatSend s = .next (s.lapse .heartbeat (usCycles * s.sv Scr.DUO_HB_PERIOD)).hbSend.settle :=
  done_whenever s _ _ (by rw [hpaired, s.awake hpower]; rfl)

variable {h pay : BitVec 256} {u : State}

theorem exec_heartbeat (htake : s.takePair false h 0 = (u, true)) : exec (.heartbeat false h pay) s = .next (u.hbTaken h pay).settle := by
  simp only [exec, execHeartbeat, htake, done]

theorem exec_digest (htake : s.takePair false h 1 = (u, true)) : exec (.digest false h pay) s = .next (u.digestTaken h pay).settle := by
  simp only [exec, execDigest, htake, done]

/-- A chip proposes a swap for one of three reasons. -/
theorem exec_swapPropose (hwhy : s.sv Scr.DUO_SWAP_PERIOD ≠ 0 ∨ s.flag DUO_STATUS.REPLACE = true ∨ (s.timerOf .swapAgain).isSome = true) :
    exec .swapPropose s = .next s.swapDue.proposeEarliest.settle :=
  done_whenever s _ _ (by simpa [or_assoc] using hwhy)

/-- A join ends where no live partner is heard. -/
theorem exec_joinTimeout (hjoin : s.duo.joinAt ≠ none) (hpaired : s.paired = true) (hiron : s.iron = false)
    (hstays : s.flag DUO_STATUS.WITHDRAWN = false) (halone : s.flag DUO_STATUS.PARTNER_OK = false ∨ s.partnerClaim.2 = 0) :
    exec .joinTimeout s = .next (s.lapse .join s.hbTimeout).joinEnds.settle := by
  have hunheard : (s.flag DUO_STATUS.PARTNER_OK && s.partnerClaim.2 != 0) = false := by
    rcases halone with h | h <;> simp [h]
  exact done_whenever s _ _ (by rw [Option.isSome_iff_ne_none.mpr hjoin, hpaired, hiron, hstays, hunheard]; rfl)

theorem exec_digestSend {n : Int} (hpaired : s.paired = true) (hgone : s.seq.gone.contains n = true)
    (hreplayed : s.seq.replayed.contains n = false) (hunsent : s.duo.sentDigests.contains n = false) :
    exec (.digestSend n) s = .next (s.digestOut n).settle :=
  done_whenever s _ _ (by rw [hpaired, hgone, hreplayed, hunsent]; rfl)

theorem exec_laneGraceExpiry {p : Fin 32} (hdegraded : s.getF (portStateF p.val) = 3) (hgrace : s.sv Scr.DUO_LANE_GRACE ≠ 0) :
    exec (.laneGraceExpiry p) s =
      .next ((s.lapse (.lane p.val) (60 * secCycles * s.sv Scr.DUO_LANE_GRACE)).setReplace 3).settle :=
  done_whenever s _ _ (by rw [decide_eq_true hdegraded, bne_iff_ne.mpr hgrace]; rfl)

/-! ## Ring commands and the journal (R337, R344, R368) -/

variable {r : Fin 262144} {e : Exec}

/-- An active chip outside iron proposes the swap that DUO_SWAP names, at the earliest dwell or later. -/
theorem exec_duoSwap {k : Int} (hserves : s.serves r.val 0x60 e) (hiron : s.iron = false)
    (hpending : s.flag DUO_STATUS.SWAP_PEND = false) (hactive : s.active = true)
    (hk : k = (if toSigned 64 (e.arg 64 64) = 0 then s.dwellAhead (s.sv Scr.DUO_SWAP_LEAD) else toSigned 64 (e.arg 64 64)))
    (hfirst : s.dwellAhead (s.sv Scr.DUO_SWAP_LEAD) ≤ k) (hallowed : e.arg 128 1 = 1 ∨ s.swapAllowed = true) :
    exec (.duoSwap r) s = .next ((s.finish r.val e stPending).propose k).settle := by
  dsimp only [exec, execDuoSwap]
  rw [withCmd_serves hserves]
  have hsame : (s.finish r.val e stPending).swapAllowed = s.swapAllowed := by
    obtain ⟨x, hx⟩ := s.finish_host r.val e stPending
    rw [hx]
    rfl
  have hallowed' : (decide (e.arg 128 1 = 1) || (s.finish r.val e stPending).swapAllowed) = true := by
    rw [hsame]
    simpa using hallowed
  simp only [hiron, hpending, hactive, ← hk, Int.not_lt.mpr hfirst, hallowed', decide_false, Bool.not_true, Bool.or_self,
    Bool.false_eq_true, if_false, if_true]

theorem exec_duoWithdraw (hserves : s.serves r.val 0x61 e) : exec (.duoWithdraw r) s = .next (s.withdraw.finish r.val e stOk).settle :=
  withCmd_serves hserves fun s e => s.withdraw.finish r.val e stOk

theorem exec_duoRejoin (hserves : s.serves r.val 0x62 e) (hiron : s.iron = false) : exec (.duoRejoin r) s =
    .next ((((s.setF DUO_STATUS.WITHDRAWN 0).join).setClaim 0 0 5).finish r.val e stOk).settle := by
  dsimp only [exec, execDuoRejoin]
  rw [withCmd_serves hserves, if_neg (Bool.not_eq_true _ ▸ hiron)]

theorem exec_spareRetire_engine (hserves : s.serves r.val 0x63 e) (hkind : e.arg 64 1 = 0) (hrow : e.arg 65 6 ≤ 32)
    (hcol : e.arg 71 6 ≤ 32) : exec (.spareRetire r) s =
      .next ((s.finish r.val e stPending).engineBad (e.arg 65 6) (e.arg 71 6)).settle := by
  dsimp only [exec, execSpareRetire]
  rw [withCmd_serves hserves, if_pos hkind]
  simp only [Nat.not_lt.mpr hrow, Nat.not_lt.mpr hcol, decide_false, Bool.or_self, Bool.false_eq_true, if_false]

theorem exec_spareRetire_cluster (hserves : s.serves r.val 0x63 e) (hkind : e.arg 64 1 ≠ 0) (hphys : e.arg 65 8 ≤ 131) :
    exec (.spareRetire r) s = .next ((s.finish r.val e stPending).clusterBad (e.arg 65 8)).settle := by
  dsimp only [exec, execSpareRetire]
  rw [withCmd_serves hserves, if_neg hkind, if_neg (Nat.not_lt.mpr hphys)]

/-- A record whose copies verify applies; where only one does, a fault follows. -/
theorem exec_journalWriteDone {w : JWrite} {rest : List JWrite} (hpend : s.ctl.jpend = w :: rest) :
    exec (.journalWriteDone 2) s = .next (({ s with ctl.jpend := rest } : State).jApply w).settle ∧
    exec (.journalWriteDone 1) s = .next ((({ s with ctl.jpend := rest } : State).jApply w).raise 0x00A 0x0023 3 false).settle := by
  constructor <;> simp only [exec, execJournalWriteDone, hpend, done] <;> rfl

end

/-- Settles O21: each command meets its condition. -/
theorem duetCommandsComplete : Obligations.DuetCommandsComplete := by
  intro s
  refine ⟨exec_heartbeatSend, fun h pay u => exec_heartbeat, fun hok => done_whenever s _ _ hok, exec_swapPropose, exec_joinTimeout,
    fun n => exec_digestSend, fun h pay u => exec_digest, fun n u hsent hu => ?skip, fun r c => rfl, fun k n hn => ?cluster,
    fun p => exec_laneGraceExpiry, fun r e k => exec_duoSwap, fun r e => exec_duoWithdraw, fun r e => exec_duoRejoin,
    fun r e hserves => ⟨exec_spareRetire_engine hserves, exec_spareRetire_cluster hserves⟩, fun w rest => exec_journalWriteDone⟩
  case skip =>
    subst hu
    exact done_whenever s _ _ hsent
  case cluster =>
    subst hn
    rfl

end Sys2Proof.Machine
end

section
/-!
PROOFS. The control plane (R352 to R376): who may switch the window, how far the rollback fuses may be blown, and the conditions under
which the commands are carried out.
-/

namespace Sys2Proof.Machine

/-! ## REMAP (R352) -/

theorem State.flag_setFlag_self (s : State) {f : Fld} (hw : f.w = 1) (b : Bool) : (s.setFlag f b).flag f = b := by
  rw [State.flag, State.setFlag, s.getF_setF_self _ _ (hw ▸ (by decide)), hw]
  cases b <;> rfl

/-! ## The rollback fuses (R362) -/

/-- Blowing the rollback fuses up to `n` leaves the journal's floor and answers an event of class C0. -/
theorem State.anchor_parts (s : State) (n : Nat) :
    (s.anchor n).ctl = { s.ctl with fuseCount := n } ∧ (s.anchor n).flt = s.flt := by
  simp only [State.anchor, State.emit, State.emitFor_zero]
  exact ⟨rfl, rfl⟩

/-- ROLLBACK_ANCHOR leaves the fuse count alone, or raises it to a count that the journal's floor covers. -/
theorem exec_rollbackAnchor_cases {s t : State} {r : Fin 262144} (hc : s.flt.c4 = []) (h : exec (.rollbackAnchor r) s = .next t) :
    t.ctl = s.ctl ∨
      ∃ n, t.ctl = { s.ctl with fuseCount := n } ∧ s.ctl.fuseCount < n ∧ 1024 * n ≤ s.ctl.jFloor := by
  have hdone {u : State} (hu : done u = .next t) (hflt : u.flt = s.flt) : t = u := by
    rw [done_of_no_c4 hc hflt] at hu
    exact (Host.Outcome.next.inj hu).symm
  have hexec : exec (.rollbackAnchor r) s = withCmd s r.val 0x42 (fun s e =>
      if e.arg 64 6 ≤ s.ctl.fuseCount || s.ctl.jFloor < 1024 * e.arg 64 6 then s.finish r.val e stBadArg
      else (s.anchor (e.arg 64 6)).finish r.val e stOk) := rfl
  rw [hexec, withCmd] at h
  split at h
  · rename_i e _
    split at h
    · exact .inl (congrArg State.ctl (hdone h rfl))
    · split at h
      · obtain ⟨x, hx⟩ := s.finish_host r.val e stBadArg
        rw [hx] at h
        exact .inl (by rw [hdone h rfl])
      · rename_i hcovered
        obtain ⟨hctl, hflt⟩ := s.anchor_parts (e.arg 64 6)
        obtain ⟨x, hx⟩ := (s.anchor (e.arg 64 6)).finish_host r.val e stOk
        rw [hx] at h
        simp only [Bool.or_eq_true, decide_eq_true_eq, not_or, not_le, not_lt] at hcovered
        exact .inr ⟨e.arg 64 6, (congrArg State.ctl (hdone h hflt)).trans hctl, hcovered⟩
  · exact .inl (congrArg State.ctl (hdone h rfl))

/-- Settles O59: REMAP_WRITE branches on the master, and ROLLBACK_ANCHOR on the floor. -/
theorem controlPlaneRights : Obligations.ControlPlaneRights := by
  refine ⟨fun s b hc => ⟨fun m hm => ⟨s.setFlag CTL_MATRIX.REMAP b, ?remap, s.flag_setFlag_self rfl b,
    (sameFields.refl _ s).setF _ List.mem_cons_self, rfl⟩, ⟨s.badAccess, done_of_no_c4 hc rfl, s.getF_badAccess, s.onlyFields_badAccess⟩,
    done_of_no_c4 hc rfl, done_of_no_c4 hc rfl⟩, fun s t r hc h => ?anchor⟩
  case remap =>
    rcases hm with rfl | ⟨k, rfl⟩ <;> exact done_of_no_c4 (t := s.setFlag CTL_MATRIX.REMAP b) hc rfl
  case anchor =>
    rcases exec_rollbackAnchor_cases hc h with hsame | ⟨n, hn, hraises, hcovered⟩
    · rw [hsame]
      exact ⟨rfl, le_rfl, fun hne => absurd rfl hne⟩
    · rw [hn]
      exact ⟨rfl, hraises.le, fun _ => hcovered⟩

/-! ## Cores and boot (R356, R357, R360, R372) -/

section
variable {s : State}

theorem exec_coreHeartbeat {k : Fin 4} (hstate : s.coreState k.val ≠ 0) : exec (.coreHeartbeat k) s =
    .next ((s.putBit CTL_CORES.HB k.val true).startTimer (.core k.val)).settle :=
  done_whenever s _ _ (bne_iff_ne.mpr hstate)

theorem exec_coreWatchdogExpiry {k : Fin 4} (hstate : s.coreState k.val = 2) : exec (.coreWatchdogExpiry k) s =
    .next (((s.lapse (.core k.val) (msCycles * max 2 (s.getF CTL_WDOG.CORE_TO))).resetCore k.val).raise ctlSrc 0x0021 2 false).settle :=
  done_whenever s _ _ (decide_eq_true hstate)

theorem exec_bootImageFetched {k : Fin 2} {m : List Byte} (hboot : s.booting = true) (hsource : s.bootSource = k.val) :
    exec (.bootImageFetched k m) s = .next (s.bootImage m).settle :=
  done_whenever s _ _ (by rw [hboot, decide_eq_true hsource]; rfl)

theorem exec_pushChunk (hopen : s.pushOpen = true) (hlo : 1 ≤ s.getF CTL_PUSH.LEN) (hhi : s.getF CTL_PUSH.LEN ≤ 524288) :
    exec .pushChunk s = .next ((s.setF CTL_PUSH.GO 1).setF CTL_PUSH.BUSY 1).settle :=
  done_whenever s _ _ (by rw [hopen, decide_eq_true hlo, decide_eq_true hhi]; rfl)

theorem exec_pushChunkDone (hboot : s.booting = true) (hbusy : s.flag CTL_PUSH.BUSY = true) :
    exec .pushChunkDone s = .next s.pushDone.settle :=
  done_whenever s _ _ (by rw [hboot, hbusy]; rfl)

theorem exec_coreReady_alone {k : Fin 4} (hstate : s.coreState k.val = 3) (hupdate : s.ctl.update = none) :
    exec (.coreReady k) s = .next ((s.setCore k.val 2).startTimer (.core k.val)).settle := by
  have hnone : ((s.setCore k.val 2).startTimer (.core k.val)).ctl.update = none := hupdate
  refine (done_whenever s _ _ (decide_eq_true hstate)).trans ?_
  simp only [hnone]

/-- The core that an update waits for has taken its duties back. -/
theorem exec_coreReady_update {k : Fin 4} {u : Update} (hstate : s.coreState k.val = 3) (hupdate : s.ctl.update = some u)
    (hnext : u.todo.head? = some k.val) : exec (.coreReady k) s =
      .next (((s.setCore k.val 2).startTimer (.core k.val)).updateStep k.val u).settle := by
  have hsome : ((s.setCore k.val 2).startTimer (.core k.val)).ctl.update = some u := hupdate
  refine (done_whenever s _ _ (decide_eq_true hstate)).trans ?_
  simp only [hsome, hnext, if_true]

theorem exec_updateCoreTimeout {k : Fin 4} {u : Update} (hupdate : s.ctl.update = some u) (hnext : u.todo.head? = some k.val)
    (hstate : s.coreState k.val = 3) (hforth : u.back = false) : exec (.updateCoreTimeout k) s =
      .next ((s.lapse (.update k.val) (100 * msCycles)).updateBack k.val u).settle := by
  simp only [exec, execUpdateCoreTimeout, hupdate, hnext, hstate, hforth, decide_true, Bool.not_false, Bool.and_self, if_true, done]

/-! ## Signed images (R359, R361 to R363, R372, R373) -/

variable {r : Fin 262144} {e : Exec} {b : List Byte} {u : State} {m : List Byte}

/-- An image that verifies, and that this device may run, begins an update. -/
theorem exec_fwUpdate (hserves : s.serves r.val 0x40 e) (himage : s.imageAt (e.arg 64 64) (e.arg 128 32) b = (u, m))
    (hverify : u.verify 1 u.rootKey m = 0) (hpeer : manMinPeer m ≤ u.getF CTL_CAP3.FW_VERSION) (hidle : u.ctl.update = none) :
    exec (.fwUpdate r b) s = .next ((({ u with ctl.fwDigest := u.ctl.fwDigest.set u.otherArea (sha3 (manPayload m)) } :
      State).finish r.val e stPending).updateBegin m u.otherArea).settle := by
  dsimp only [exec, execFwUpdate]
  rw [withCmd_serves hserves]
  simp only [himage, hverify, hidle, Nat.not_lt.mpr hpeer, decide_true, decide_false, Bool.and_false, Option.isSome_none,
    Option.isNone_none, Bool.false_and, bne_self_eq_false, Bool.false_eq_true, if_false, if_true]

/-- A record that verifies names a slot that is not its signer's, and leaves one slot unrevoked. -/
theorem exec_keyRevoke {slot : Nat} (hserves : s.serves r.val 0x41 e) (hrecord : s.recordAt (e.arg 64 64) b = (u, m))
    (hverify : u.verify 4 u.rootKey m = 0) (hbody : manPayload m ≠ []) (hslot : slot = leNat ((manPayload m).take 1)) (hlt : slot < 4)
    (hsigner : slot ≠ ((u.usedNonce 0).rootSlot (manKeyHash m)).getD 0)
    (hleft : ((u.usedNonce 0).ctl.fuseRevoked ||| 2 ^ slot) % 16 ≠ 15) :
    exec (.keyRevoke r b) s = .next (((u.usedNonce 0).revoke slot).finish r.val e stOk).settle := by
  subst hslot
  dsimp only [exec, execKeyRevoke]
  rw [withCmd_serves hserves]
  simp only [hrecord, hverify, List.isEmpty_eq_false_iff.mpr hbody, Nat.not_le.mpr hlt, hsigner, hleft, decide_false, Bool.or_self,
    bne_self_eq_false, Bool.false_eq_true, if_false]

theorem exec_rollbackAnchor (hserves : s.serves r.val 0x42 e) (hraises : s.ctl.fuseCount < e.arg 64 6)
    (hcovered : 1024 * e.arg 64 6 ≤ s.ctl.jFloor) :
    exec (.rollbackAnchor r) s = .next ((s.anchor (e.arg 64 6)).finish r.val e stOk).settle := by
  dsimp only [exec, execRollbackAnchor]
  rw [withCmd_serves hserves]
  simp only [Nat.not_le.mpr hraises, Nat.not_lt.mpr hcovered, decide_false, Bool.or_self, Bool.false_eq_true, if_false]

/-- A change of owner that the ring asked for waits for its journal record (R363). -/
def State.ownerWaits (s : State) (r : Nat) : Bool :=
  s.ctl.jpend.any (fun w => match w with | .owner _ _ q => q == r | _ => false)

/-- Without an owner the device must be in HOLD, and any key signs; with one the owner's key signs. -/
theorem exec_ownerSet {hash : Nat} (hserves : s.serves r.val 0x43 e) (hpower : s.ctl.jOwner = 0 → s.power = 1)
    (hfirst : s.ownerWaits r.val = false)
    (hrecord : s.recordAt (e.arg 64 64) b = (u, m)) (hhash : hash = leNat ((manPayload m).take 32))
    (hverify : u.verify 3 (fun h => if s.ctl.jOwner = 0 then h == hash else h == u.ctl.jOwner) m = 0)
    (hlen : 33 ≤ (manPayload m).length) : exec (.ownerSet r b) s = .next ((u.usedNonce 0).journal (.owner hash
      (leNat (((manPayload m).drop 32).take 1) % 8) r)).settle := by
  subst hhash
  dsimp only [exec, execOwnerSet]
  rw [withCmd_serves hserves]
  have hheld : (decide (s.ctl.jOwner = 0) && s.power != 1) = false := by simpa using hpower
  refine congrArg (fun u : State => Host.Outcome.next u.settle) ((if_neg (Bool.eq_false_iff.mp hfirst)).trans ?_)
  simp only [hheld, hrecord, hverify, Nat.not_lt.mpr hlen, bne_self_eq_false, Bool.false_eq_true, if_false]

theorem exec_nonceRead (hserves : s.serves r.val 0x44 e) :
    exec (.nonceRead r) s = .next (s.complete r.val e stOk (s.getF (CTL_NONCE.WORD 0)) 0).settle :=
  withCmd_serves hserves fun s e => s.complete r.val e stOk (s.getF (CTL_NONCE.WORD 0)) 0

end

/-- Settles O22: each command meets its condition. -/
theorem controlPlaneComplete : Obligations.ControlPlaneComplete := by
  intro s
  exact ⟨fun m l n => rfl, fun m l n hholds => done_whenever _ _ _ hholds, fun b => ⟨rfl, fun k => rfl⟩, fun k => exec_coreHeartbeat,
    fun k => exec_coreWatchdogExpiry, rfl, fun k m => exec_bootImageFetched, exec_pushChunk, exec_pushChunkDone,
    fun r b e u m => exec_fwUpdate, fun k => exec_coreReady_alone, fun k u => exec_coreReady_update, fun k u => exec_updateCoreTimeout,
    fun r b e u m slot => exec_keyRevoke, fun r e => exec_rollbackAnchor, fun r b e u m hash => exec_ownerSet,
    fun r e => exec_nonceRead⟩

end Sys2Proof.Machine
end

section
/-!
PROOFS. Iron entry (R313, R320, R321): a class 4 fault that the collector has taken sends the device to iron within its command. That
the device is in iron is read in FLT_STATUS.IRON and HST_STATUS.IRON; the entry writes them first, and nothing that it then does — the
claim, the stage, the fabric, the movers and through them the store — writes either again.
-/

namespace Sys2Proof.Machine

/-! ## The state in iron -/

/-- Both registers show iron. -/
structure InIron (s : State) : Prop where
  flt : s.getF FLT_STATUS.IRON = 1
  hst : s.getF HST_STATUS.IRON = 1

/-- A field is neither of the two: it begins at another bit, or lies in another register. -/
def Fld.clearOfIron (f : Fld) : Bool :=
  decide (f.lo < 64) && ((f.lo != 1 && f.lo != 2) || (f.off != FLT_STATUS.IRON.off && f.off != HST_STATUS.IRON.off))

theorem Fld.key_ne_of_clearOfIron {f : Fld} (hf : f.clearOfIron = true) :
    FLT_STATUS.IRON.key ≠ f.key ∧ HST_STATUS.IRON.key ≠ f.key := by
  simp only [Fld.clearOfIron, Bool.and_eq_true, Bool.or_eq_true, decide_eq_true_eq, bne_iff_ne, FLT_STATUS.IRON, HST_STATUS.IRON] at hf
  simp only [Fld.key, FLT_STATUS.IRON, HST_STATUS.IRON]
  omega

/-- The registers of the pseudo-channels and of the movers are 0x40 apart, and so never meet either. -/
theorem Fld.clearOfIron_plus {f : Fld} {n : Nat} (hlo : f.lo < 64) (hoff : f.off % 0x40 = 0) :
    (f.plus (0x40 * n)).clearOfIron = true := by
  have hflt : f.off + 0x40 * n ≠ FLT_STATUS.IRON.off := by
    simp only [FLT_STATUS.IRON]
    omega
  have hhst : f.off + 0x40 * n ≠ HST_STATUS.IRON.off := by
    simp only [HST_STATUS.IRON]
    omega
  simp [Fld.clearOfIron, Fld.plus, hlo, hflt, hhst]

theorem STO_PC_STAT.TRAINING_clearOfIron (n : Nat) : (STO_PC_STAT.TRAINING n).clearOfIron = true :=
  Fld.clearOfIron_plus (by decide) rfl

theorem MOV_M_STATE.PACE_WAIT_clearOfIron (m : Nat) : (MOV_M_STATE.PACE_WAIT m).clearOfIron = true :=
  Fld.clearOfIron_plus (by decide) rfl

theorem InIron.iron {s : State} (h : InIron s) : s.iron = true := by
  rw [State.iron, State.flag, h.flt]
  rfl

theorem InIron.ite {t u : State} {c : Prop} [Decidable c] (ht : InIron t) (hu : InIron u) : InIron (if c then t else u) := by
  split
  · exact ht
  · exact hu

section
variable {s : State} (h : InIron s)
include h

/-! ## Fields -/

theorem InIron.same_regs {t : State} (ht : t.regs = s.regs) : InIron t where
  flt := by rw [State.getF, ht]; exact h.flt
  hst := by rw [State.getF, ht]; exact h.hst

theorem InIron.setF {f : Fld} {v : Nat} (hf : f.clearOfIron = true) : InIron (s.setF f v) where
  flt := (s.getF_setF_other f _ v (Fld.key_ne_of_clearOfIron hf).1).trans h.flt
  hst := (s.getF_setF_other f _ v (Fld.key_ne_of_clearOfIron hf).2).trans h.hst

theorem InIron.putBit {f : Fld} {i : Nat} {b : Bool} (hf : f.clearOfIron = true) : InIron (s.putBit f i b) := h.setF hf

theorem InIron.incF {f : Fld} {n : Nat} (hf : f.clearOfIron = true) : InIron (s.incF f n) := h.setF hf

theorem InIron.addF {f : Fld} {n : Nat} (hf : f.clearOfIron = true) : InIron (s.addF f n) := h.setF hf

theorem InIron.each {α : Type} {l : List α} {f : State → α → State} (hf : ∀ t a, InIron t → InIron (f t a)) : InIron (s.each l f) :=
  List.foldlRecOn (motive := InIron) l f h fun t ht a _ => hf t a ht

theorem InIron.listeners {t : State} (ht : listenersOnly s t) : InIron t := h.same_regs ht.same.1

theorem InIron.drive {p : Nat} {lev : Bool} : InIron (s.drive p lev) := h.listeners (s.drive_listenersOnly p lev)

theorem InIron.pulse {p : Nat} : InIron (s.pulse p) := h.listeners (s.pulse_listenersOnly p)

theorem InIron.flags {t : State} (ht : flagsOnly s t) : InIron t := h.same_regs ht.same.1

/-! ## Events and faults -/

theorem InIron.latch {src cls reason six : Nat} : InIron (s.latch src cls reason six) := by
  unfold State.latch
  exact .ite (.ite (h.setF rfl) (((((h.setF rfl).setF rfl).setF rfl).setF rfl).setF rfl)) h

theorem InIron.post {e : Ev} : InIron (s.post e) := by
  have hlogged (x : Ev) : InIron { s with outbox := s.outbox ++ [x] } := h.same_regs rfl
  unfold State.post
  dsimp only
  exact .ite ((hlogged _).latch.same_regs rfl) (hlogged _)

theorem InIron.emitFor {subs : List Nat} {src code d0 d1 cls : Nat} : InIron (s.emitFor subs src code d0 d1 cls) := h.post

theorem InIron.emit {src code d0 d1 cls : Nat} : InIron (s.emit src code d0 d1 cls) := h.post

theorem InIron.raiseFor {subs : List Nat} {src reason cls : Nat} {own : Bool} {d1 : Nat} :
    InIron (s.raiseFor subs src reason cls own d1) := by
  unfold State.raiseFor
  exact .ite h.post h

theorem InIron.attn {c : Nat} : InIron (s.attn c) := by
  unfold State.attn State.setAttn
  exact .ite (h.setF rfl).drive h

theorem InIron.journal {w : JWrite} : InIron (s.journal w) := h.same_regs rfl

theorem InIron.setReplace {c : Nat} : InIron (s.setReplace c) := by
  have hbit : InIron (s.putBit DUO_REPLACE.BITS c true) := h.putBit rfl
  unfold State.setReplace
  refine .ite h (InIron.same_regs (s := State.setFlag _ DUO_STATUS.REPLACE true) ?_ (by rfl)).attn.emit.drive
  exact (InIron.ite hbit.journal hbit).setF rfl

/-! ## The store (R165 to R182) -/

theorem InIron.setPch {n : Nat} {p : PChan} : InIron (s.setPch n p) := h.same_regs rfl

theorem InIron.refreshAllSr : InIron s.refreshAllSr := h.setF rfl

theorem InIron.enterSr {n : Nat} : InIron (s.enterSr n) := by
  unfold State.enterSr
  exact .ite h ((h.putBit rfl).setF rfl)

theorem InIron.storeSleep : InIron s.storeSleep := InIron.refreshAllSr (h.each fun _ _ ht => ht.enterSr)

theorem InIron.retrain {n : Nat} : InIron (s.retrain n) := by
  unfold State.retrain
  exact .ite h ((h.setPch.setF (STO_PC_STAT.TRAINING_clearOfIron n)).addF rfl).drive

theorem InIron.retrainOver {n : Nat} : InIron (s.retrainOver n) := by
  unfold State.retrainOver
  exact .ite ((h.setF (STO_PC_STAT.TRAINING_clearOfIron n)).setF rfl).drive h

theorem InIron.leaveSr {n : Nat} : InIron (s.leaveSr n) := by
  have hleft : InIron (((s.putBit (STO_SR.MAP (n / 64)) (n % 64) false).setF (STO_PC_STAT.STATE n) 1).setPch n
      { ((s.putBit (STO_SR.MAP (n / 64)) (n % 64) false).setF (STO_PC_STAT.STATE n) 1).pch n with debt := [], rows := [] }) :=
    ((h.putBit rfl).setF rfl).setPch
  unfold State.leaveSr
  exact .ite (.ite (hleft.setF rfl).retrain (hleft.setF rfl)) h

theorem InIron.activate {a : Nat} : InIron (s.activate a) := h.leaveSr.setPch

theorem InIron.flagBank {b flags : Nat} : InIron (s.flagBank b flags) := by
  unfold State.flagBank
  exact .ite (h.same_regs rfl) (.ite (h.same_regs rfl) h)

theorem InIron.flagRec {x flags : Nat} : InIron (s.flagRec x flags) := h.flags (flagsOnly.refl s).flagRec

theorem InIron.flagBuf {q flags writing : Nat} : InIron (s.flagBuf q flags writing) := by
  unfold State.flagBuf
  exact .ite (h.same_regs rfl) (h.same_regs rfl)

theorem InIron.flagAddr {a flags : Nat} : InIron (s.flagAddr a flags) := by
  unfold State.flagAddr
  exact InIron.each (InIron.each (h.each fun _ _ ht => .ite ht.flagBank ht) fun _ _ ht => .ite ht.flagRec ht)
    fun _ _ ht => .ite ht.flagBuf ht

/-- In iron a fence leaves the capability fields alone (R26). -/
theorem InIron.fence {n : Nat} : InIron (s.fence n) := by
  unfold State.fence
  refine .ite h (.ite h.raiseFor ?_)
  extract_lets cap mapped stopped counted sto cleaned p lost journalled told pulsed replaced banks recs bufs shown
  have hstopped : InIron stopped := ((h.putBit rfl).putBit rfl).setF rfl
  have hcounted : InIron counted := hstopped.addF rfl
  have hcleaned : InIron cleaned := hcounted.same_regs rfl
  have hlost : InIron lost := hcleaned.setPch.retrainOver
  have htold : InIron told := hlost.journal.emit
  have hbanks : InIron banks := htold.pulse.setReplace.each fun _ _ ht => .ite ht.flagBank ht.flagBank
  have hrecs : InIron recs := hbanks.each fun _ _ ht => ht.flagRec
  have hshown : InIron shown := InIron.refreshAllSr (hrecs.each fun _ _ ht => ht.flagBuf)
  rw [hshown.iron, Bool.not_true, Bool.and_false]
  exact hshown.same_regs rfl

theorem InIron.corrected {n k : Nat} : InIron (s.corrected n k) := by
  unfold State.corrected
  exact .ite h ((h.incF rfl).incF rfl).setPch

theorem InIron.uncorrectable {port a : Nat} {onRead : Bool} : InIron (s.uncorrectable port a onRead) := by
  unfold State.uncorrectable
  extract_lets n counted located told flagged p line lines listed
  have hflagged : InIron flagged := (((h.incF rfl).setF rfl).setF rfl).emit.flagAddr
  exact .ite (.ite hflagged.setPch.fence hflagged.setPch) hflagged

theorem InIron.afterDecode {port a : Nat} {ws : List WordDecode} {onRead : Bool} : InIron (s.afterDecode port a ws onRead) := by
  have hues : InIron ((s.corrected (pcOf a) (ws.filter (fun w => w.ce)).length).each
      ((List.range 8).filter (fun i => (ueWords ws).testBit i)) (fun s i => s.uncorrectable port (a + 8 * i) onRead)) :=
    h.corrected.each fun _ _ ht => ht.uncorrectable
  unfold State.afterDecode
  exact .ite (hues.incF rfl) hues

theorem InIron.setPoison {w : Nat} {b : Bool} : InIron (s.setPoison w b) := h.same_regs rfl

theorem InIron.poisonWords {a words : Nat} : InIron (s.poisonWords a words) := h.each fun _ _ ht => ht.setPoison

theorem InIron.drewIf {a : Nat} {errs : List Nat} : InIron (s.drewIf a errs) := by
  unfold State.drewIf
  exact .ite (h.same_regs rfl) h

theorem InIron.fetchLine {port a : Nat} {errs : List Nat} : InIron (s.fetchLine port a errs).1 := h.activate.drewIf.afterDecode

theorem InIron.writeLine {port a bytes : Nat} {data : List Byte} {errs : List Nat} : InIron (s.writeLine port a data bytes errs) := by
  have hstored {t : State} (ht : InIron t) (k : Nat) :
      InIron (if bytes.testBit k then { t with mem := Memory.write t.mem (a + k) (data.getD k 0) } else t) := .ite (ht.same_regs rfl) ht
  unfold State.writeLine
  exact (h.activate.afterDecode.poisonWords.each fun _ _ ht => .ite ht.setPoison ht).each fun _ k ht => hstored ht k

theorem InIron.addLine {port a fmt mask op : Nat} {errs : List Nat} : InIron (s.addLine port a fmt mask op errs) := by
  unfold State.addLine
  extract_lets opened ws poisoned psn ls old ovf added
  have hadded : InIron added := h.activate.drewIf.afterDecode.poisonWords.same_regs rfl
  exact hadded.each fun _ _ ht => (ht.incF rfl).emit.flagAddr

theorem InIron.deny {port a : Nat} : InIron (s.deny port a) := (h.incF rfl).emit

theorem InIron.latency {port a wait : Nat} : InIron (s.latency port a wait) := by
  unfold State.latency
  extract_lets counted widest late
  have hwidest : InIron widest := (h.incF rfl).setF rfl
  exact .ite (.ite hwidest (hwidest.same_regs (by rfl)).emit) h

theorem InIron.invalidate {a : Nat} : InIron (s.invalidate a) := by
  unfold State.invalidate
  exact .ite (h.same_regs rfl) h

theorem InIron.touchLine {b l : Nat} : InIron (s.touchLine b l) := h.same_regs rfl

theorem InIron.freshen {a : Nat} : InIron (s.freshen a) := by
  unfold State.freshen
  split
  · exact h
  · exact .ite h h.writeLine.touchLine

theorem InIron.addAt {port a fmt mask op : Nat} {errs : List Nat} : InIron (s.addAt port a fmt mask op errs) := by
  unfold State.addAt
  dsimp only
  split
  · exact h.invalidate.addLine
  · exact .ite h.invalidate.addLine h.invalidate.touchLine.writeLine

theorem InIron.serveRead {port a : Nat} {errs : List Nat} : InIron (s.serveRead port a errs).1 := by
  unfold State.serveRead
  split
  · exact h
  · split
    · exact h.activate
    · dsimp only
      split
      · exact h.fetchLine.same_regs rfl
      · exact h.fetchLine

theorem InIron.trackLine {a : Nat} : InIron (s.trackLine a) := by
  unfold State.trackLine
  refine .ite h (h.same_regs ?_)
  dsimp only
  split
  · split <;> rfl
  · rfl

theorem InIron.handOver {a v : Nat} {dest : ReadDest} {psn : List Bool} : InIron (s.handOver a dest v psn) := by
  cases dest with
  | port => exact h.same_regs rfl
  | hdm => exact h.trackLine.same_regs rfl
  | window norm => exact h.trackLine.same_regs rfl

theorem InIron.completed {r : StoreReq} : InIron (s.completed r) := h.latency

theorem InIron.refusal {port a : Nat} {ask : Ask} {t : State} (ht : s.refusal port a ask = some t) : InIron t := by
  unfold State.refusal at ht
  split at ht
  · split at ht
    · split at ht
      · cases ht
      · cases ht
        exact (h.setF rfl).emit
    · split at ht
      · cases ht
        exact .ite h.deny h
      · cases ht
  · split at ht
    · cases ht
      exact h.deny
    · cases ht
  · cases ht

theorem InIron.serve {r : StoreReq} : InIron (s.serve r).1 := by
  unfold State.serve
  split
  · exact h.serveRead.handOver.completed
  · exact (InIron.ite h h.invalidate).freshen.writeLine.completed
  · exact h.addAt.completed
  · exact h.fetchLine.completed
  · exact h.poisonWords

end

/-- The requests of a queue, one by one, on the fuel. -/
theorem InIron.serveQueue {s : State} (h : InIron s) (n fuel : Nat) : InIron (State.serveQueue n fuel s) := by
  induction fuel generalizing s with
  | zero => exact h
  | succ fuel ih =>
    unfold State.serveQueue
    dsimp only
    split
    · exact h
    split
    · exact h
    split
    · exact h
    refine ih (InIron.setPch ?_)
    split
    · rename_i hrefused
      exact h.setPch.refusal hrefused
    · exact h.setPch.serve

section
variable {s : State} (h : InIron s)
include h

theorem InIron.relocated {n : Nat} : InIron (s.relocated n) := h.setPch.serveQueue n _

theorem InIron.awaitLine {a : Nat} : InIron (s.awaitLine a) := by
  unfold State.awaitLine
  exact .ite h.relocated h

theorem InIron.agentWrite {port a bytes : Nat} {data : List Byte} : InIron (s.agentWrite port a data bytes) := by
  unfold State.agentWrite
  exact .ite h (InIron.ite h.awaitLine h.awaitLine.invalidate).writeLine

/-! ## The movers (R195 to R201, R322) -/

theorem InIron.hostPut {a : Nat} {bytes : List Byte} : InIron (s.hostPut a bytes) := by
  unfold State.hostPut
  exact .ite h (h.same_regs rfl)

theorem InIron.entryOver {x : Held} : InIron (s.entryOver x) := by
  unfold State.entryOver
  split
  · exact h.same_regs rfl
  · exact h

theorem InIron.endOrphan {r : Nat} {e : Exec} : InIron (s.endOrphan r e) := h.same_regs rfl

theorem InIron.setRing {r : Nat} {x : Option Ring} : InIron (s.setRing r x) := h.same_regs rfl

theorem InIron.complete {r : Nat} {e : Exec} {status result reason : Nat} : InIron (s.complete r e status result reason) := by
  unfold State.complete State.completeGone
  split
  · exact h.endOrphan.entryOver
  · exact .ite h.endOrphan.entryOver (.ite h.setRing.entryOver (h.same_regs rfl))

theorem InIron.setMover {m : Nat} {x : Mover} : InIron (s.setMover m x) := h.same_regs rfl

theorem InIron.ironSleep : InIron s.ironSleep := by
  unfold State.ironSleep
  exact .ite h.storeSleep h

theorem InIron.movWriteback {m : Nat} : InIron (s.movWriteback m).1 := by
  unfold State.movWriteback
  dsimp only
  split
  · exact h
  split
  · exact h.hostPut.addF rfl
  split
  · exact h.agentWrite.addF rfl
  · exact h.deny

theorem InIron.movRefused {m : Nat} : InIron (s.movRefused m) := by
  unfold State.movRefused
  exact ((h.each fun _ _ ht => ht.deny).incF rfl).setMover

theorem InIron.movEnd {m : Nat} : InIron (s.movEnd m).1 := by
  unfold State.movEnd
  extract_lets r ended x shown
  have hended : InIron ended := .ite h.movWriteback h.movWriteback.movRefused
  have hshown : InIron shown := (hended.setF rfl).setF (MOV_M_STATE.PACE_WAIT_clearOfIron m)
  exact .ite hshown.emitFor hshown

theorem InIron.movStopped {m : Nat} : InIron (s.movStopped m) := by
  refine h.setMover.each fun t r ht => ?_
  split
  · exact ht.complete
  · exact ht

theorem InIron.movHalt {m : Nat} : InIron (s.movHalt m) := (h.setF rfl).emitFor.pulse.setMover.movStopped.ironSleep

theorem InIron.movFail {m code : Nat} : InIron (s.movFail m code) := h.setMover.movEnd.movHalt

theorem InIron.ironPace {m : Nat} : InIron (s.ironPace m) := by
  unfold State.ironPace
  exact .ite h.movFail h

/-! ## The claim, the stage and the fabric (R226, R246, R288, R346) -/

theorem InIron.startTimer {k : Timer} : InIron (s.startTimer k) := h.same_regs rfl

theorem InIron.showAccepted : InIron s.showAccepted := (h.setF rfl).drive

theorem InIron.setClaim {e r cause : Nat} : InIron (s.setClaim e r cause) := by
  have hclaim : InIron ((s.setF DUO_STATUS.EPOCH e).setF DUO_STATUS.RANK r) := (h.setF rfl).setF rfl
  unfold State.setClaim
  exact .ite h (InIron.ite hclaim hclaim.startTimer).emit.showAccepted

theorem InIron.passTruncated {n : Int} {p entry cnt cause : Nat} : InIron (s.passTruncated n p entry cnt cause) :=
  ((h.incF rfl).putBit rfl).emit.flags (flagsOnly.refl _).condFor

theorem InIron.drew : InIron s.drew := h.same_regs rfl

theorem InIron.stopPasses {cause : Nat} : InIron (s.stopPasses cause) := by
  unfold State.stopPasses
  split
  · exact h
  · refine h.each fun t p ht => ?_
    split
    · exact ht
    · exact ht.drew.passTruncated

theorem InIron.showPart {p : Nat} : InIron (s.showPart p) :=
  ((((h.setF rfl).setF rfl).setF rfl).setF rfl).setF rfl

theorem InIron.setPart {p : Nat} {x : Part} : InIron (s.setPart p x) := InIron.showPart (h.same_regs (by rfl))

theorem InIron.zeroSpan {a n : Nat} : InIron (s.zeroSpan a n) := by
  unfold State.zeroSpan
  exact (h.each fun _ _ ht => ht.setPoison).same_regs rfl

theorem InIron.emptyRec {x : Nat} {n : Int} : InIron (s.emptyRec x n) := h.same_regs rfl

theorem InIron.discardRecs : InIron s.discardRecs := by
  refine h.each fun t x ht => ?_
  extract_lets r told im
  have htold : InIron told := (ht.putBit rfl).emit
  exact htold.zeroSpan.emptyRec

theorem InIron.stopStage {cause : Nat} : InIron (s.stopStage cause) :=
  ((h.stopPasses.each fun _ _ ht => ht.setPart).setF rfl).discardRecs

theorem InIron.egqLevel {p : Nat} : InIron (s.egqLevel p) := by
  have hidle : InIron s.idleEgq := by
    unfold State.idleEgq
    exact .ite h (h.same_regs rfl)
  unfold State.egqLevel
  exact .ite (hidle.setF rfl) ((hidle.setF rfl).setF rfl)

theorem InIron.sendBeacon {p : Nat} : InIron (s.sendBeacon p) := InIron.egqLevel (h.same_regs (by rfl))

theorem InIron.stopPit : InIron s.stopPit := h.same_regs rfl

end

/-! ## Iron entry (R320 to R322) -/

/-- The entry shows iron, and what it goes on to do leaves that as it is. -/
theorem State.ironEntry_inIron {s : State} (hout : s.iron = false) (reason src : Nat) : InIron (s.ironEntry reason src) := by
  have hshown : InIron ((s.setF FLT_STATUS.IRON 1).setF HST_STATUS.IRON 1) :=
    ⟨(State.getF_setF_other _ _ _ _ (by decide)).trans (s.getF_setF_self _ 1 (by decide)), State.getF_setF_self _ _ 1 (by decide)⟩
  have hnot : ¬ s.iron = true := Bool.not_eq_true _ ▸ hout
  unfold State.ironEntry
  rw [if_neg hnot]
  extract_lets shown listened named flt stamped claimed stopped fab unsent told pits paced pwr still held ready reported
  have hnamed : InIron named := ((hshown.drive.attn.setF rfl).setF rfl).incF rfl
  have hstamped : InIron stamped := hnamed.same_regs rfl
  have hstopped : InIron stopped := hstamped.setClaim.stopStage
  clear_value stopped
  have hunsent : InIron unsent := hstopped.same_regs rfl
  have htold : InIron told := hunsent.each fun _ _ ht => InIron.egqLevel (.ite ht.sendBeacon.startTimer ht)
  have hpaced : InIron paced := htold.stopPit.each fun _ _ ht => .ite (ht.ironPace.setF rfl) ht.ironPace
  clear_value paced
  have hstill : InIron still := hpaced.same_regs rfl
  exact (((hstill.setF rfl).setF rfl).setF rfl).emit.ironSleep

theorem State.settle_inIron {s : State} (hout : s.iron = false) (hfault : s.flt.c4 ≠ []) : InIron s.settle := by
  unfold State.settle
  split
  · rename_i hnone
    exact absurd hnone hfault
  · exact (State.ironEntry_inIron hout ..).same_regs rfl

/-! ## A class 4 fault of the collector (R313, R320) -/

theorem State.latch_sameFields (s : State) (src cls reason six : Nat) :
    sameFields (FLT_FFL0.OVF :: latchFields) s (s.latch src cls reason six) := by
  unfold State.latch
  split
  · split
    · exact (sameFields.refl _ s).setF _ (by decide)
    · exact (((((sameFields.refl _ s).setF _ (by decide)).setF _ (by decide)).setF _ (by decide)).setF _ (by decide)).setF _ (by decide)
  · exact .refl _ s

/-- An entry whose source's floor leaves it at class 4 is logged, captured by the latch, and waits for its answer. -/
theorem State.post_of_class4 {s : State} (hin : s.inService = true) {e : Ev} (hcls : s.promoted e.src e.cls = 4) : ∃ u : State,
    s.post e = { u with flt.c4 := u.flt.c4 ++ [(e.src, e.reason)] } ∧ u.iron = s.iron := by
  have hposts : s.post e = { (s.logged { e with cls := 4 }).latch e.src 4 e.reason e.six with
      flt.c4 := ((s.logged { e with cls := 4 }).latch e.src 4 e.reason e.six).flt.c4 ++ [(e.src, e.reason)] } := by
    unfold State.post
    rw [hcls]
    exact if_pos (by rw [← hin]; exact Bool.and_true _)
  refine ⟨_, hposts, ?_⟩
  rw [State.iron, State.flag, State.latch_sameFields _ _ _ _ _ _ (by decide)]
  rfl

theorem State.raise_of_class4 {s : State} (hin : s.inService = true) {src : Nat} (hfloor : s.se Scr.FLT_PROMOTE src ≤ 4) (reason : Nat)
    (own : Bool) : (s.raise src reason 4 own).flt.c4 ≠ [] ∧ (s.raise src reason 4 own).iron = s.iron := by
  have hcls : s.promoted src 4 = 4 := by simp [State.promoted, hin, hfloor]
  unfold State.raise State.raiseFor
  rw [if_pos hin]
  obtain ⟨u, hpost, hiron⟩ := State.post_of_class4 hin (e := ⟨s.clk.cycles, s.houseSix, src, 0x0D01, reason + 2 ^ 32 * b2n own,
    ofSigned 31 s.houseDwell % 2 ^ 31, 4, reason, [], false⟩) hcls
  rw [hpost]
  exact ⟨List.append_ne_nil_of_right_ne_nil _ (List.cons_ne_nil _ _), hiron⟩

/-- Settles O44: the fault is raised at class 4, so the settling of the command enters iron. -/
theorem class4SendsToIron : Obligations.Class4SendsToIron := by
  intro s hin hout hfloor i hi
  have hraise (reason : Nat) : ∃ t, done (s.raise 0x000 reason 4 false) = .next t ∧ t.iron = true ∧ t.getF HST_STATUS.IRON = 1 ∧
      t.flt.c4 = [] := by
    obtain ⟨hfault, hiron⟩ := State.raise_of_class4 hin hfloor reason false
    have hentered := State.settle_inIron (hiron.trans hout) hfault
    exact ⟨_, rfl, hentered.iron, hentered.hst, State.settle_c4 _⟩
  rcases List.mem_pair.mp hi with rfl | rfl
  · exact hraise _
  · exact hraise _

end Sys2Proof.Machine
end
